-- ==== Sys2Proof/Word.lean ====
section
/-!
DEFINITION. The words of the machine and their plainest arithmetic (00_scope R8, R13).
-/

namespace Sys2Proof

/-- A 64-bit scalar register or memory word (R8). -/
abbrev Word := BitVec 64

/-- A byte (R8). -/
abbrev Byte := BitVec 8

/-- A 256-bit vector register (R1). -/
abbrev VWord := BitVec 256

/-- A scalar register number, w0 to w31 (R27 kind S). -/
abbrev SReg := BitVec 5

/-- A vector register number, v0 to v31 (R27 kind V). -/
abbrev VReg := BitVec 5

/-- A predicate number, p0 to p7 (R27 kind P). -/
abbrev PReg := BitVec 3

end Sys2Proof
end

