-- ==== Sys2Proof/Syntax.lean ====
section
/-!
DEFINITION. The instructions and events of the SY9 as syntax: operand forms, type codes, guards, and the one
inductive `Instr` (01_encoding R18-R31, the operand tables R112, R140, R169, R194, and the event rows).
-/

namespace Sys2Proof

/-- The guard fields PG and PN of an instruction (01_encoding R29). -/
structure Guard where
  pg : PReg
  pn : Bool
  deriving DecidableEq, Repr

/-- The type codes of FN<9:6> (01_encoding R25); `dflt` is T = 0. Code 15 names no type. -/
inductive Ty where
  | dflt | s8 | s16 | s32 | s64 | z8 | z16 | z32 | z64 | f16 | bf16 | f32 | f64 | ci16 | mx
  deriving DecidableEq, Repr

/-- Operand B of an operation of 64 or 96 bits that accepts I (01_encoding R26). -/
inductive OpB where
  | reg (b : SReg) | reg96 (b : SReg) | imm16 (v : BitVec 16) | imm32 (v : BitVec 32)
  deriving DecidableEq, Repr

/-- Operand B of an operation of 64 bits only that accepts I (01_encoding R26). -/
inductive OpB64 where
  | reg (b : SReg) | imm16 (v : BitVec 16)
  deriving DecidableEq, Repr

/-- Operand B of the packed integer operations (04_vector R126). -/
inductive OpBV where
  | reg (b : VReg) | imm16 (v : BitVec 16)
  deriving DecidableEq, Repr

/-- The forms of LEA (02_scalar R59). -/
inductive LeaB where
  | idx (b : SReg) (sc : BitVec 3) | idxDisp (b : SReg) (sc : BitVec 3) (disp : BitVec 32)
  | imm16 (v : BitVec 16) | imm32 (v : BitVec 32)
  deriving DecidableEq, Repr

/-- The immediates of MOVI, by its length (02_scalar R59, 01_encoding R26). -/
inductive MoviImm where
  | imm16 (v : BitVec 16) | imm32 (v : BitVec 32) | imm64 (v : BitVec 64)
  deriving DecidableEq, Repr

/-- The parcel offset of BR and CALL (02_scalar R73, R74). -/
inductive Offset where
  | off16 (v : BitVec 16) | off32 (v : BitVec 32)
  deriving DecidableEq, Repr

/-- The register range of PUSHM and POPM (02_scalar R63). -/
inductive RegRange where
  | scalar (first last : SReg) | vector (first last : VReg)
  deriving DecidableEq, Repr

/-- An operand of kind SV (01_encoding R27). -/
inductive SVReg where
  | s (r : SReg) | v (r : VReg)
  deriving DecidableEq, Repr

/-- One constructor for each row of the opcode table: FILL, the encoded instructions, then the device's events. -/
inductive Instr where
  /-- FILL (R20). A FILL parcel is skipped without issue, retirement or count. -/
  | fill
  /-- ADD (R53). Writes the wrapped sum of operands A and B to w[D]. -/
  | add (g : Guard) (t : Ty) (d a : SReg) (b : OpB)
  /-- SUB (R53). Writes the wrapped difference of operands A and B to w[D]. -/
  | sub (g : Guard) (t : Ty) (d a : SReg) (b : OpB)
  /-- AND (R53). Writes the bitwise AND of operands A and B. -/
  | and (g : Guard) (t : Ty) (d a : SReg) (b : OpB)
  /-- OR (R53). Writes the bitwise OR of operands A and B. -/
  | or (g : Guard) (t : Ty) (d a : SReg) (b : OpB)
  /-- XOR (R53). Writes the bitwise XOR of operands A and B. -/
  | xor (g : Guard) (t : Ty) (d a : SReg) (b : OpB)
  /-- ANDN (R53). Writes A AND NOT B. -/
  | andn (g : Guard) (t : Ty) (d a : SReg) (b : OpB)
  /-- SHL (R53). Shifts A left by B mod W. -/
  | shl (g : Guard) (t : Ty) (d a : SReg) (b : OpB)
  /-- SHR (R53). Shifts A right logically by B mod W. -/
  | shr (g : Guard) (t : Ty) (d a : SReg) (b : OpB)
  /-- SAR (R53). Shifts A right arithmetically by B mod W. -/
  | sar (g : Guard) (t : Ty) (d a : SReg) (b : OpB)
  /-- ROR (R53). Rotates A right by B mod W. -/
  | ror (g : Guard) (t : Ty) (d a : SReg) (b : OpB)
  /-- MIN (R53). Writes the smaller of A and B in the type's signedness. -/
  | min (g : Guard) (t : Ty) (d a : SReg) (b : OpB)
  /-- MAX (R53). Writes the larger of A and B in the type's signedness. -/
  | max (g : Guard) (t : Ty) (d a : SReg) (b : OpB)
  /-- MUL (R54). Writes the wrapped product of A and B. -/
  | mul (g : Guard) (t : Ty) (d a : SReg) (b : OpB)
  /-- MULH (R54). Writes the high half of the exact product of A and B. -/
  | mulh (g : Guard) (t : Ty) (d a : SReg) (b : OpB)
  /-- DIV (R54). Writes the truncated quotient, with the defined results for zero divisor and overflow. -/
  | div (g : Guard) (t : Ty) (d a : SReg) (b : OpB)
  /-- REM (R54). Writes the remainder of truncated division, with the defined special cases. -/
  | rem (g : Guard) (t : Ty) (d a : SReg) (b : OpB)
  /-- CLZ (R55). Counts leading zero bits of A. -/
  | clz (g : Guard) (t : Ty) (d a : SReg)
  /-- CTZ (R55). Counts trailing zero bits of A. -/
  | ctz (g : Guard) (t : Ty) (d a : SReg)
  /-- POPC (R55). Counts one bits of A. -/
  | popc (g : Guard) (t : Ty) (d a : SReg)
  /-- BREV (R55). Reverses the bit order of A. -/
  | brev (g : Guard) (t : Ty) (d a : SReg)
  /-- BSWAP (R55). Reverses the byte order of A. -/
  | bswap (g : Guard) (t : Ty) (d a : SReg)
  /-- BEXT (R55). Extracts a bit field of A zero-extended. -/
  | bext (g : Guard) (t : Ty) (d a : SReg) (pos lenM1 : BitVec 6)
  /-- BINS (R55). Inserts the low bits of A into a field of w[D]. -/
  | bins (g : Guard) (t : Ty) (d a : SReg) (pos lenM1 : BitVec 6)
  /-- SEXT (R56). Sign-extends the low n bits of w[A]. -/
  | sext (g : Guard) (t : Ty) (d a : SReg)
  /-- ZEXT (R56). Zero-extends the low n bits of w[A]. -/
  | zext (g : Guard) (t : Ty) (d a : SReg)
  /-- CMP_EQ (R57). Sets p[D] to all ones if A equals B, else zero. -/
  | cmpEq (g : Guard) (t : Ty) (d : PReg) (a : SReg) (b : OpB)
  /-- CMP_NE (R57). Sets p[D] if A differs from B. -/
  | cmpNe (g : Guard) (t : Ty) (d : PReg) (a : SReg) (b : OpB)
  /-- CMP_LT (R57). Sets p[D] if A is less than B. -/
  | cmpLt (g : Guard) (t : Ty) (d : PReg) (a : SReg) (b : OpB)
  /-- CMP_LE (R57). Sets p[D] if A is at most B. -/
  | cmpLe (g : Guard) (t : Ty) (d : PReg) (a : SReg) (b : OpB)
  /-- CMP_GT (R57). Sets p[D] if A is greater than B. -/
  | cmpGt (g : Guard) (t : Ty) (d : PReg) (a : SReg) (b : OpB)
  /-- CMP_GE (R57). Sets p[D] if A is at least B. -/
  | cmpGe (g : Guard) (t : Ty) (d : PReg) (a : SReg) (b : OpB)
  /-- PAND (R58). ANDs two predicates. -/
  | pand (g : Guard) (d a b : PReg)
  /-- POR (R58). ORs two predicates. -/
  | por (g : Guard) (d a b : PReg)
  /-- PXOR (R58). XORs two predicates. -/
  | pxor (g : Guard) (d a b : PReg)
  /-- PANDN (R58). ANDs a predicate with the complement of another. -/
  | pandn (g : Guard) (d a b : PReg)
  /-- PNOT (R58). Complements a predicate. -/
  | pnot (g : Guard) (d a : PReg)
  /-- PMOV (R58). Copies a predicate. -/
  | pmov (g : Guard) (d a : PReg)
  /-- PSET (R58). Sets a predicate from a 32-bit immediate. -/
  | pset (g : Guard) (d : PReg) (imm : BitVec 32)
  /-- MOVI (R59). Writes an immediate into w[D]. -/
  | movi (g : Guard) (d : SReg) (imm : MoviImm)
  /-- MOV (R59). Copies w[A] into w[D]. -/
  | mov (g : Guard) (d a : SReg)
  /-- LEA (R59). Computes a scaled address sum without memory access. -/
  | lea (g : Guard) (d a : SReg) (b : LeaB)
  /-- SEL (R59). Selects w[A] or w[B] by predicate bit 0. -/
  | sel (g : Guard) (d a b : SReg) (c : PReg)
  /-- QCAP (R60). Returns the capability value of an index, or the undefined marker. -/
  | qcap (g : Guard) (d : SReg) (b : OpB64)
  /-- RNDC (R62). Computes the stateless counter-based hash of two operands. -/
  | rndc (g : Guard) (d a b : SReg)
  /-- MFS (R44). Reads a special register into w[D]. -/
  | mfs (g : Guard) (d : SReg) (idx : BitVec 10)
  /-- MTS (R44). Writes a special register under its own write rules. -/
  | mts (g : Guard) (a : SReg) (idx : BitVec 10)
  /-- MTS_WP (R42). Writes back the live workspace and loads the workspace at the new WP. -/
  | mtsWp (g : Guard) (a : SReg)
  /-- PUSHM (R63). Stores a register range onto the spill stack and lowers SSP. -/
  | pushm (g : Guard) (r : RegRange)
  /-- POPM (R63). Loads a register range from the spill stack and raises SSP. -/
  | popm (g : Guard) (r : RegRange)
  /-- FADD (R67). Floating-point addition rounded in FCSR.RM. -/
  | fadd (g : Guard) (t : Ty) (d a b : SReg)
  /-- FSUB (R67). Floating-point subtraction. -/
  | fsub (g : Guard) (t : Ty) (d a b : SReg)
  /-- FMUL (R67). Floating-point multiplication. -/
  | fmul (g : Guard) (t : Ty) (d a b : SReg)
  /-- FDIV (R67). Correctly rounded floating-point division. -/
  | fdiv (g : Guard) (t : Ty) (d a b : SReg)
  /-- FSQRT (R67). Correctly rounded square root. -/
  | fsqrt (g : Guard) (t : Ty) (d a : SReg)
  /-- FMIN (R67). IEEE minimumNumber. -/
  | fmin (g : Guard) (t : Ty) (d a b : SReg)
  /-- FMAX (R67). IEEE maximumNumber. -/
  | fmax (g : Guard) (t : Ty) (d a b : SReg)
  /-- FNEG (R67). Inverts the sign without flags. -/
  | fneg (g : Guard) (t : Ty) (d a : SReg)
  /-- FABS (R67). Clears the sign without flags. -/
  | fabs (g : Guard) (t : Ty) (d a : SReg)
  /-- FMA (R68). Fused multiply-add with one rounding. -/
  | fma (g : Guard) (t : Ty) (d a b c : SReg)
  /-- FMS (R68). Fused multiply-subtract. -/
  | fms (g : Guard) (t : Ty) (d a b c : SReg)
  /-- FNMA (R68). Negated-product fused multiply-add. -/
  | fnma (g : Guard) (t : Ty) (d a b c : SReg)
  /-- FNMS (R68). Negated-product fused multiply-subtract. -/
  | fnms (g : Guard) (t : Ty) (d a b c : SReg)
  /-- FCMP_EQ (R69). Sets p[D] if the values are equal. -/
  | fcmpEq (g : Guard) (t : Ty) (d : PReg) (a b : SReg)
  /-- FCMP_LT (R69). Sets p[D] if A is less than B. -/
  | fcmpLt (g : Guard) (t : Ty) (d : PReg) (a b : SReg)
  /-- FCMP_LE (R69). Sets p[D] if A is at most B. -/
  | fcmpLe (g : Guard) (t : Ty) (d : PReg) (a b : SReg)
  /-- FCMP_UN (R69). Sets p[D] if either operand is NaN. -/
  | fcmpUn (g : Guard) (t : Ty) (d : PReg) (a b : SReg)
  /-- FCVT (R70). Converts between integer and floating-point types. -/
  | fcvt (g : Guard) (t : Ty) (d a : SReg) (src : Ty) (rm : BitVec 4)
  /-- FCLASS (R71). Writes a one-hot class mask of a floating-point value. -/
  | fclass (g : Guard) (t : Ty) (d a : SReg)
  /-- BR (R73). Branches by a parcel offset. -/
  | br (g : Guard) (off : Offset)
  /-- CALL (R74). Writes the return address and branches by a parcel offset. -/
  | call (g : Guard) (d : SReg) (off : Offset)
  /-- JMP (R75). Jumps to a register target, optionally linking. -/
  | jmp (g : Guard) (d a : SReg)
  /-- RET (R75). Returns to the address in a register. -/
  | ret (g : Guard) (a : SReg)
  /-- BRX (R76). Branches through a bounds-checked table of targets. -/
  | brx (g : Guard) (a b : SReg) (count : BitVec 16)
  /-- LOOP (R77). Decrements a counter and branches while it is nonzero. -/
  | loop (g : Guard) (a : SReg) (off : BitVec 16)
  /-- REP (R78). Checks a short body and repeats it from the repetition buffer with register stagger. -/
  | rep (a : SReg) (lenM1 : BitVec 4) (stride : BitVec 5) (mask : BitVec 4)
  /-- NOP (R82). Takes an issue cycle with no effect. -/
  | nop (g : Guard)
  /-- HINT (R82). Suspends issue for 8 or 64 core cycles. -/
  | hint (g : Guard) (code : BitVec 16)
  /-- UNCHAIN (R83). Detaches every member of an attached chain. -/
  | unchain
  /-- RECHAIN (R84). Arrives and waits on a barrier slot, then reattaches detached followers. -/
  | rechain (slot : BitVec 8)
  /-- VADD (R113). Floating-point jet addition plane by plane. -/
  | vadd (g : Guard) (t : Ty) (d a b : VReg)
  /-- VSUB (R113). Floating-point jet subtraction. -/
  | vsub (g : Guard) (t : Ty) (d a b : VReg)
  /-- VMUL (R113). Floating-point jet product by Cauchy chains. -/
  | vmul (g : Guard) (t : Ty) (d a b : VReg)
  /-- VMIN (R113). Selects the whole jet with the smaller plane 0. -/
  | vmin (g : Guard) (t : Ty) (d a b : VReg)
  /-- VMAX (R113). Selects the whole jet with the larger plane 0. -/
  | vmax (g : Guard) (t : Ty) (d a b : VReg)
  /-- VNEG (R113). Negates a jet. -/
  | vneg (g : Guard) (t : Ty) (d a : VReg)
  /-- VABS (R113). Negates a jet whose plane 0 sign bit is set. -/
  | vabs (g : Guard) (t : Ty) (d a : VReg)
  /-- VFMA (R114). Jet fused multiply-add. -/
  | vfma (g : Guard) (t : Ty) (d a b c : VReg)
  /-- VFMS (R114). Jet fused multiply-subtract. -/
  | vfms (g : Guard) (t : Ty) (d a b c : VReg)
  /-- VFNMA (R114). Jet negated-product multiply-add. -/
  | vfnma (g : Guard) (t : Ty) (d a b c : VReg)
  /-- VFNMS (R114). Jet negated-product multiply-subtract. -/
  | vfnms (g : Guard) (t : Ty) (d a b c : VReg)
  /-- VDIV (R116). Jet division by the reciprocal recurrence. -/
  | vdiv (g : Guard) (t : Ty) (d a b : VReg)
  /-- VRCP (R116). Jet reciprocal. -/
  | vrcp (g : Guard) (t : Ty) (d a : VReg)
  /-- VSQRT (R117). Jet square root. -/
  | vsqrt (g : Guard) (t : Ty) (d a : VReg)
  /-- VRSQRT (R117). Jet reciprocal square root. -/
  | vrsqrt (g : Guard) (t : Ty) (d a : VReg)
  /-- VEXP (R119). Jet exponential. -/
  | vexp (g : Guard) (t : Ty) (d a : VReg)
  /-- VLOG (R119). Jet natural logarithm. -/
  | vlog (g : Guard) (t : Ty) (d a : VReg)
  /-- VSINCOS (R120). Writes sine and cosine jets into a double group. -/
  | vsincos (g : Guard) (t : Ty) (d a : VReg)
  /-- VTANH (R121). Jet hyperbolic tangent. -/
  | vtanh (g : Guard) (t : Ty) (d a : VReg)
  /-- VSIGM (R121). Jet logistic sigmoid. -/
  | vsigm (g : Guard) (t : Ty) (d a : VReg)
  /-- VCMP_EQ (R122). Floating-point lane compare for equality into a predicate. -/
  | vcmpEq (g : Guard) (t : Ty) (d : PReg) (a b : VReg)
  /-- VCMP_NE (R122). Floating-point lane compare for inequality. -/
  | vcmpNe (g : Guard) (t : Ty) (d : PReg) (a b : VReg)
  /-- VCMP_LT (R122). Floating-point lane compare less-than. -/
  | vcmpLt (g : Guard) (t : Ty) (d : PReg) (a b : VReg)
  /-- VCMP_LE (R122). Floating-point lane compare less-or-equal. -/
  | vcmpLe (g : Guard) (t : Ty) (d : PReg) (a b : VReg)
  /-- VSEL (R122). Selects lanes of A or B by predicate. -/
  | vsel (g : Guard) (d a b : VReg) (c : PReg) (width : BitVec 2)
  /-- VCVT (R123). Converts each plane between vector types with part index. -/
  | vcvt (g : Guard) (t : Ty) (d a : VReg) (src : Ty) (q : BitVec 2) (rm : BitVec 3)
  /-- VQMX (R124). Quantises 32 FP32 values into one microscaled block and scale. -/
  | vqmx (g : Guard) (d a : VReg) (b : SReg) (fmt : BitVec 3)
  /-- VDQMX (R124). Dequantises one microscaled block into FP32. -/
  | vdqmx (g : Guard) (d a : VReg) (b : SReg) (fmt : BitVec 3)
  /-- VRED_ADD (R125). Pairwise-tree sum of lanes into lane 0. -/
  | vredAdd (g : Guard) (t : Ty) (d a : VReg)
  /-- VRED_MIN (R125). Tree minimum over lanes. -/
  | vredMin (g : Guard) (t : Ty) (d a : VReg)
  /-- VRED_MAX (R125). Tree maximum over lanes. -/
  | vredMax (g : Guard) (t : Ty) (d a : VReg)
  /-- VADD_INT (R126). Packed integer wrapping addition. -/
  | vaddInt (g : Guard) (t : Ty) (d a : VReg) (b : OpBV)
  /-- VSUB_INT (R126). Packed integer wrapping subtraction. -/
  | vsubInt (g : Guard) (t : Ty) (d a : VReg) (b : OpBV)
  /-- VAND (R126). Packed bitwise AND. -/
  | vand (g : Guard) (t : Ty) (d a : VReg) (b : OpBV)
  /-- VOR (R126). Packed bitwise OR. -/
  | vor (g : Guard) (t : Ty) (d a : VReg) (b : OpBV)
  /-- VXOR (R126). Packed bitwise XOR. -/
  | vxor (g : Guard) (t : Ty) (d a : VReg) (b : OpBV)
  /-- VSHL (R126). Packed shift left by plane-0 amount. -/
  | vshl (g : Guard) (t : Ty) (d a : VReg) (b : OpBV)
  /-- VSHR (R126). Packed logical shift right. -/
  | vshr (g : Guard) (t : Ty) (d a : VReg) (b : OpBV)
  /-- VSAR (R126). Packed arithmetic shift right. -/
  | vsar (g : Guard) (t : Ty) (d a : VReg) (b : OpBV)
  /-- VMIN_INT (R126). Packed integer whole-jet minimum. -/
  | vminInt (g : Guard) (t : Ty) (d a : VReg) (b : OpBV)
  /-- VMAX_INT (R126). Packed integer whole-jet maximum. -/
  | vmaxInt (g : Guard) (t : Ty) (d a : VReg) (b : OpBV)
  /-- VADDS (R126). Packed saturating addition. -/
  | vadds (g : Guard) (t : Ty) (d a : VReg) (b : OpBV)
  /-- VSUBS (R126). Packed saturating subtraction. -/
  | vsubs (g : Guard) (t : Ty) (d a : VReg) (b : OpBV)
  /-- VCMP_EQ_INT (R126). Packed integer compare for equality. -/
  | vcmpEqInt (g : Guard) (t : Ty) (d : PReg) (a : VReg) (b : OpBV)
  /-- VCMP_NE_INT (R126). Packed integer compare for inequality. -/
  | vcmpNeInt (g : Guard) (t : Ty) (d : PReg) (a : VReg) (b : OpBV)
  /-- VCMP_LT_INT (R126). Packed integer compare less-than. -/
  | vcmpLtInt (g : Guard) (t : Ty) (d : PReg) (a : VReg) (b : OpBV)
  /-- VCMP_LE_INT (R126). Packed integer compare less-or-equal. -/
  | vcmpLeInt (g : Guard) (t : Ty) (d : PReg) (a : VReg) (b : OpBV)
  /-- VMUL_INT (R127). Packed integer wrapping Cauchy product. -/
  | vmulInt (g : Guard) (t : Ty) (d a b : VReg)
  /-- VMULH (R127). High half of the packed integer Cauchy sum. -/
  | vmulh (g : Guard) (t : Ty) (d a b : VReg)
  /-- VMAC (R127). Packed integer multiply-accumulate. -/
  | vmac (g : Guard) (t : Ty) (d a b : VReg)
  /-- VSAT (R127). Saturates packed lanes to m bits. -/
  | vsat (g : Guard) (t : Ty) (d a : VReg) (m : BitVec 6)
  /-- VDOT4 (R128). Four-way 8-bit dot product accumulated into 32-bit lanes. -/
  | vdot4 (g : Guard) (t : Ty) (d a b : VReg)
  /-- VDOT2 (R128). Two-way 16-bit dot product accumulated into 32-bit lanes. -/
  | vdot2 (g : Guard) (t : Ty) (d a b : VReg)
  /-- VCMUL (R129). CI16 complex multiply with scaling and saturation. -/
  | vcmul (g : Guard) (t : Ty) (d a b : VReg) (sh : BitVec 4)
  /-- VCMAC (R129). CI16 complex multiply-accumulate. -/
  | vcmac (g : Guard) (t : Ty) (d a b : VReg) (sh : BitVec 4)
  /-- VCONJ (R129). CI16 complex conjugate. -/
  | vconj (g : Guard) (t : Ty) (d a : VReg)
  /-- VBFLY (R130). Radix-2 butterfly with Q15 twiddles, wrapping. -/
  | vbfly (g : Guard) (t : Ty) (d a b c : VReg)
  /-- VBFLYS (R130). Radix-2 butterfly halving each output with saturation. -/
  | vbflys (g : Guard) (t : Ty) (d a b c : VReg)
  /-- VPERM (R131). Permutes lanes by an index vector. -/
  | vperm (g : Guard) (t : Ty) (d a b : VReg)
  /-- VSHUF (R131). Shuffles lanes from two sources. -/
  | vshuf (g : Guard) (t : Ty) (d a b c : VReg)
  /-- VROT (R131). Rotates lanes. -/
  | vrot (g : Guard) (t : Ty) (d a : VReg) (b : OpB64)
  /-- VBCAST (R131). Broadcasts one lane. -/
  | vbcast (g : Guard) (t : Ty) (d a : VReg) (j : BitVec 5)
  /-- VMOV (R132). Copies a jet group in enabled lanes. -/
  | vmov (g : Guard) (d a : VReg) (width : BitVec 2)
  /-- VINS (R132). Inserts a scalar as a constant jet into one lane. -/
  | vins (g : Guard) (t : Ty) (d : VReg) (a : SReg) (j : BitVec 5)
  /-- VEXT (R132). Extracts plane 0 of one lane to a scalar. -/
  | vext (g : Guard) (t : Ty) (d : SReg) (a : VReg) (j : BitVec 5)
  /-- VSPLAT (R132). Splats a scalar as a constant jet into enabled lanes. -/
  | vsplat (g : Guard) (t : Ty) (d : VReg) (a : SReg)
  /-- JSEED (R133). Seeds the independent variable jet (x, 1, 0, …). -/
  | jseed (g : Guard) (t : Ty) (d : VReg) (a : SVReg)
  /-- JEXT (R133). Writes k! times plane k into plane 0. -/
  | jext (g : Guard) (t : Ty) (d a : VReg) (k : BitVec 3)
  /-- JPLANE (R133). Copies plane k of A into plane m of D. -/
  | jplane (g : Guard) (t : Ty) (d a : VReg) (k m : BitVec 3)
  /-- JCLR (R133). Clears selected planes of JFLAGS. -/
  | jclr (g : Guard) (mask : BitVec 8)
  /-- LD (R141). Loads an integer of 1 to 8 bytes into w[D]. -/
  | ld (g : Guard) (t : Ty) (d a : SReg) (b : OpB)
  /-- ST (R141). Stores 1 to 8 bytes, posted through a remote window. -/
  | st (g : Guard) (t : Ty) (a : SReg) (b : OpB) (c : SReg)
  /-- VLD (R142). Loads a jet group under the lane guard. -/
  | vld (g : Guard) (d : VReg) (a : SReg) (b : OpB)
  /-- VST (R142). Stores a jet group under the lane guard. -/
  | vst (g : Guard) (a : SReg) (b : OpB) (c : VReg)
  /-- VGATHER (R143). Gathers lane elements from indexed addresses. -/
  | vgather (g : Guard) (t : Ty) (d : VReg) (a : SReg) (b : VReg) (stride : BitVec 16)
  /-- VSCATTER (R143). Scatters lane elements to indexed addresses. -/
  | vscatter (g : Guard) (t : Ty) (a : SReg) (b c : VReg) (stride : BitVec 16)
  /-- LDB (R144). Reads 1 to 8 consecutive words of one bank into vector registers. -/
  | ldb (g : Guard) (d : VReg) (a : SReg) (nM1 : BitVec 3)
  /-- AMO_ADD (R145). Atomic add returning the old value. -/
  | amoAdd (g : Guard) (t : Ty) (d a b : SReg)
  /-- AMO_AND (R145). Atomic AND. -/
  | amoAnd (g : Guard) (t : Ty) (d a b : SReg)
  /-- AMO_OR (R145). Atomic OR. -/
  | amoOr (g : Guard) (t : Ty) (d a b : SReg)
  /-- AMO_XOR (R145). Atomic XOR. -/
  | amoXor (g : Guard) (t : Ty) (d a b : SReg)
  /-- AMO_MIN (R145). Atomic minimum. -/
  | amoMin (g : Guard) (t : Ty) (d a b : SReg)
  /-- AMO_MAX (R145). Atomic maximum. -/
  | amoMax (g : Guard) (t : Ty) (d a b : SReg)
  /-- AMO_SWAP (R145). Atomic swap. -/
  | amoSwap (g : Guard) (t : Ty) (d a b : SReg)
  /-- AMO_CAS (R145). Atomic compare-and-swap. -/
  | amoCas (g : Guard) (t : Ty) (d a b c : SReg)
  /-- AMO_FADD (R145). Atomic floating-point add in arrival mode. -/
  | amoFadd (g : Guard) (t : Ty) (d a b : SReg)
  /-- AMO_FADD_ORD (R146). Atomic floating-point add in an ordered stream, waiting while held. -/
  | amoFaddOrd (g : Guard) (t : Ty) (d a b c : SReg) (last : BitVec 1)
  /-- RED_ADD (R147). Sends a posted arrival-mode reduce-add packet. -/
  | redAdd (g : Guard) (t : Ty) (a b : SReg)
  /-- RED_MIN (R147). Sends a posted arrival-mode reduce-min packet. -/
  | redMin (g : Guard) (t : Ty) (a b : SReg)
  /-- RED_MAX (R147). Sends a posted arrival-mode reduce-max packet. -/
  | redMax (g : Guard) (t : Ty) (a b : SReg)
  /-- RED_ADD_ORD (R146). Sends a posted ordered reduce-add packet with sequence number. -/
  | redAddOrd (g : Guard) (t : Ty) (a b c : SReg) (last : BitVec 1)
  /-- RED_MIN_ORD (R146). Sends a posted ordered reduce-min packet. -/
  | redMinOrd (g : Guard) (t : Ty) (a b c : SReg) (last : BitVec 1)
  /-- RED_MAX_ORD (R146). Sends a posted ordered reduce-max packet. -/
  | redMaxOrd (g : Guard) (t : Ty) (a b c : SReg) (last : BitVec 1)
  /-- PREF (R148). Requests a line into the Spire cache or L2. -/
  | pref (g : Guard) (a : SReg) (level : BitVec 2)
  /-- CHINT (R148). Writes back or marks a line for replacement. -/
  | chint (g : Guard) (a : SReg) (hop : BitVec 2)
  /-- COPY (R150). Checks and issues a bulk copy to a streamer with token, timeline or barrier completion. -/
  | copy (g : Guard) (d a b c : SReg) (bslot : BitVec 8) (bar : BitVec 1) (tlk : BitVec 3) (tls : BitVec 1)
  /-- COPYH (R151). Checks a tenant handle and issues a bulk copy to or from its object. -/
  | copyh (g : Guard) (d a b c : SReg) (bslot : BitVec 8) (bar : BitVec 1) (tlk : BitVec 3) (tls hfrom : BitVec 1)
  /-- BINIT (R155). Sets EXPECT and clears ARRIVED and ERR of a barrier object. -/
  | binit (g : Guard) (a : SReg) (slot : BitVec 8)
  /-- BARRIVE (R155). Arrives at a barrier object, returning the phase before arrival. -/
  | barrive (g : Guard) (d : SReg) (slot : BitVec 8)
  /-- BWAIT (R155). Waits until the barrier phase differs from the given phase. -/
  | bwait (g : Guard) (a : SReg) (slot : BitVec 8)
  /-- BSYNC (R155). Arrives and waits on the returned phase as one instruction. -/
  | bsync (g : Guard) (slot : BitVec 8)
  /-- BSTAT (R155). Reads the state of a barrier object. -/
  | bstat (g : Guard) (d : SReg) (slot : BitVec 8)
  /-- TLWAIT (R153). Waits until a timeline's completion counter reaches n. -/
  | tlwait (g : Guard) (a : BitVec 3) (b : OpB)
  /-- TLREAD (R153). Reads a timeline counter or error word, optionally clearing it. -/
  | tlread (g : Guard) (d : SReg) (a : BitVec 3) (wide : Bool) (selr : BitVec 2)
  /-- FENCE (R157). Waits for selected kinds of earlier operations and orders them for the scope. -/
  | fence (g : Guard) (a : SReg) (kinds : BitVec 5)
  /-- WAKE (R158). Posts a wake mask to a logical core of the region. -/
  | wake (g : Guard) (a : SReg) (b : OpB64)
  /-- WAIT (R158). Waits until WAKE and mask are nonzero, then returns and clears those bits. -/
  | wait (g : Guard) (d : SReg) (b : OpB64)
  /-- CHINIT (R161). Initialises a channel header. -/
  | chinit (g : Guard) (a b c : SReg)
  /-- SEND (R162). Reserves space, writes and publishes a channel message, waiting for room. -/
  | send (g : Guard) (d a b c : SReg)
  /-- SEND_NB (R162). Sends a channel message or returns 1 when there is no room. -/
  | sendNb (g : Guard) (d a b c : SReg)
  /-- RECV (R163). Takes the message at HEAD of a channel, waiting for one. -/
  | recv (g : Guard) (d a b : SReg)
  /-- RECV_NB (R163). Takes a ready message or returns the empty status. -/
  | recvNb (g : Guard) (d a b : SReg)
  /-- MSHL (R173). Loads a shape register from a 64-byte image. -/
  | mshl (g : Guard) (d : BitVec 4) (a : SReg) (q : BitVec 2)
  /-- MSHF (R173). Writes one field of a shape register. -/
  | mshf (g : Guard) (d : BitVec 4) (a : SReg) (field : BitVec 5) (q : BitVec 2)
  /-- MSHS (R173). Stores a shape register image to memory. -/
  | mshs (g : Guard) (a : SReg) (b : BitVec 4) (q : BitVec 2)
  /-- MCLAIM (R175). Claims the lowest aligned run of free operand slots. -/
  | mclaim (g : Guard) (d : SReg) (countM1 : BitVec 7) (log2a : BitVec 3)
  /-- MREL (R175). Marks claimed slots RELEASING. -/
  | mrel (g : Guard) (a : SReg) (countM1 : BitVec 7)
  /-- MLD (R176). Submits a load of an operand tile through a shape into a slot. -/
  | mld (g : Guard) (d : SReg) (a : BitVec 4) (slot : BitVec 7) (tr : BitVec 1) (q : BitVec 2)
  /-- MLDX (R176). Submits a microscaled operand load with per-row scales. -/
  | mldx (g : Guard) (d : SReg) (a : BitVec 4) (slot : BitVec 7) (tr : BitVec 1) (q : BitVec 2)
  /-- MMA (R178). Submits one masked k-step into an accumulator tile. -/
  | mma (g : Guard) (d : BitVec 3) (c : SReg) (slotA slotB : BitVec 7) (q : BitVec 2)
  /-- MMA_S (R182). Submits one k-step into a shadow tile of an open speculation. -/
  | mmaS (g : Guard) (d : BitVec 3) (c : SReg) (slotA slotB : BitVec 7) (q : BitVec 2)
  /-- MZERO (R180). Clears an accumulator tile and its status word. -/
  | mzero (g : Guard) (d : BitVec 3) (q : BitVec 2)
  /-- MMOV (R180). Waits for writers and moves one tile row into vector registers. -/
  | mmov (g : Guard) (d : VReg) (a : BitVec 3) (row : BitVec 4) (sh intf : BitVec 1) (q : BitVec 2)
  /-- MMOVR (R180). Writes one tile row from vector registers. -/
  | mmovr (g : Guard) (d : BitVec 3) (a : VReg) (row : BitVec 4) (q : BitVec 2)
  /-- MST (R181). Submits a masked, converted store of a tile through a shape. -/
  | mst (g : Guard) (d : SReg) (a : BitVec 4) (b : BitVec 3) (c : SReg) (sc : BitVec 4) (cplx : BitVec 1) (q : BitVec 2)
  /-- MSPEC (R182). Opens speculation on a context, copying selected tiles to shadows. -/
  | mspec (g : Guard) (mask : BitVec 8) (q : BitVec 2)
  /-- MRESOLVE (R182). Commits or discards the speculation by predicate and closes it. -/
  | mresolve (g : Guard) (c : PReg) (q : BitVec 2)
  /-- MCOMMIT (R182). Copies shadow tiles to accumulators and closes speculation. -/
  | mcommit (g : Guard) (q : BitVec 2)
  /-- MDISCARD (R182). Closes speculation without copying. -/
  | mdiscard (g : Guard) (q : BitVec 2)
  /-- TGEMM (R183). Submits a tiled matrix product macro-operation over all layers. -/
  | tgemm (g : Guard) (d : SReg) (a b c : BitVec 4) (acc : BitVec 3) (addc : BitVec 1) (slot : BitVec 7) (q : BitVec 2)
  /-- TFACT (R186). Factorises a Hermitian tile pair as L·D·Lᴴ and returns status. -/
  | tfact (g : Guard) (d : SReg) (a : BitVec 3) (srci ptrap : BitVec 1) (q : BitVec 2)
  /-- TSOLVE (R187). Solves selected right-hand columns with a TFACT factor. -/
  | tsolve (g : Guard) (d a : BitVec 3) (b : SReg) (q : BitVec 2)
  /-- MQPRI (R188). Sets the priority of a queue context. -/
  | mqpri (g : Guard) (cq pri : BitVec 2)
  /-- MQSYNC (R188). Waits for a context's submitted work and returns its error word. -/
  | mqsync (g : Guard) (d : SReg) (cq : BitVec 2)
  /-- LAUNCH (R195). Fences and places a child region entry in the tenant's launch FIFO. -/
  | launch (d a : SReg) (pwake : BitVec 6) (pwen : BitVec 1)
  /-- EXIT (R196). Waits for the journal, reports refusals, then stops the core for good. -/
  | exit
  /-- YIELD (R197). Offers the partition for an early switch. -/
  | yield (d : SReg)
  /-- HALT (R198). Waits until the Belfry core's WAKE or interrupt line is nonzero. -/
  | halt
  /-- GCALL (R199). Checks a gate, pushes a frame and enters the Keep with scrubbed registers. -/
  | gcall (gate : BitVec 12)
  /-- GRET (R201). Returns results or an abort code from a gate call and pops the frame. -/
  | gret (a : SReg) (abort : BitVec 1)
  /-- TRAP (R203). Raises cause TRAP with the I16 code. -/
  | trap (code : BitVec 16)
  /-- ERET (R204). Returns from a trap to TWP, PPRIV and TPC. -/
  | eret
  /-- SYSR (R205). Reads a system register. -/
  | sysr (g : Guard) (d : SReg) (idx : BitVec 12)
  /-- SYSW (R205). Writes a system register. -/
  | sysw (g : Guard) (a : SReg) (idx : BitVec 12)
  /-- PUBLISH (R208). Checks, relocates, measures and maps a staged image as a code object. -/
  | publish (d a c : SReg)
  /-- TLBINV (R210). Removes translations in the chosen reach and waits for their users. -/
  | tlbinv (g : Guard) (a b : SReg) (kind reach : BitVec 2)
  /-- LFLUSH (R211). Writes back, optionally invalidating, Spire-cache lines of a range. -/
  | lflush (g : Guard) (a b : SReg) (inv : BitVec 1) (reach : BitVec 2)
  /-- L2CFG (R212). Converts L2 ways between cache and tenant scratchpad. -/
  | l2cfg (g : Guard) (d a b : SReg) (dir : BitVec 1)
  /-- MSCRUB (R214). Scrubs HBM4E rows of a bank and returns status. -/
  | mscrub (g : Guard) (d a b : SReg)
  /-- MSPARE (R215). Reserves a spare and remap entry and starts copying a row to it. -/
  | mspare (g : Guard) (d a b : SReg)
  /-- MRMAP_READ (R216). Op 0: returns a remap-table entry. -/
  | mrmapRead (g : Guard) (d a b c : SReg)
  /-- MRMAP_WRITE (R216). Op 1: returns and writes a remap-table entry. -/
  | mrmapWrite (g : Guard) (d a b c : SReg)
  /-- MRMAP_INVALIDATE (R216). Op 2: returns and invalidates a remap-table entry. -/
  | mrmapInvalidate (g : Guard) (d a b c : SReg)
  /-- MRMAP_SPARE_BITMAP (R216). Op 3: returns the spare-use bitmap of a bank group. -/
  | mrmapSpareBitmap (g : Guard) (d a b c : SReg)
  /-- MLIVE_NOT_LIVE (R217). Op 0: marks rows not-live. -/
  | mliveNotLive (g : Guard) (d a b : SReg)
  /-- MLIVE_LIVE (R217). Op 1: marks rows live and zeroes them. -/
  | mliveLive (g : Guard) (d a b : SReg)
  /-- JRNL (R218). Reads a journal entry word, optionally freeing a refused entry. -/
  | jrnl (g : Guard) (d a : SReg) (word : BitVec 2) (clear : BitVec 1)
  /-- MSAVE (R219). Waits for the Graver and writes the accumulator save record. -/
  | msave (g : Guard) (d a : SReg)
  /-- BIND (R220). Writes a bind record into a slot-table entry. -/
  | bind (g : Guard) (d a b : SReg)
  /-- GSWITCH_CANCEL (R221). Op 0: cancels an armed gang switch. -/
  | gswitchCancel (g : Guard) (d a b : SReg)
  /-- GSWITCH_ARM (R221). Op 1: arms a gang switch of a partition at an agreed time. -/
  | gswitchArm (g : Guard) (d a b : SReg)
  /-- ASYNC_TRAP_TAKEN (R313). A due REMOTE_REFUSED, WATCHDOG or MACHINE_CHECK is taken at an instruction boundary. -/
  | asyncTrapTaken (core : Nat)
  /-- WAIT_CONDITION_MET (R251). A waiting core resumes when its condition holds or a flip, wake or completion reaches it. -/
  | waitConditionMet (core : Nat)
  /-- COPROCESSOR_PORT_ACCEPT (R256). The Graver port accepts one presented matrix instruction per cycle by round-robin. -/
  | coprocessorPortAccept (spire : Nat)
  /-- GRAVER_OP_START (R257). An eligible Graver operation or TGEMM k-step starts on its unit by priority and ageing. -/
  | graverOpStart (spire : Nat)
  /-- GRAVER_OP_COMPLETE (R261). A Graver operation completes and the context completion counter advances. -/
  | graverOpComplete (spire ctx : Nat)
  /-- BANK_GRANT (R275). A bank grants one presented request by the class rules. -/
  | bankGrant (dome bank : Nat)
  /-- POSTED_STORE_ARRIVAL (R139). A posted remote store reaches its bank and applies or is refused. -/
  | postedStoreArrival (k : Nat)
  /-- RED_PACKET_ARRIVAL (R147). A reduce packet reaches its bank's atomic unit and applies, is held or is refused. -/
  | redPacketArrival (k : Nat)
  /-- WAKE_DELIVERY (R159). A wake reaches its target and is ORed in, held, or dropped or refused. -/
  | wakeDelivery (k : Nat)
  /-- POSTED_ACKNOWLEDGE (R139). A destination acknowledgement frees the journal entries of a posted operation. -/
  | postedAcknowledge (k : Nat)
  /-- POSTED_REFUSAL (R139). A destination refusal sets the journal entry to STATE 2 and makes REMOTE_REFUSED due. -/
  | postedRefusal (k : Nat)
  /-- STREAMER_PIECE (R363). A streamer moves the next piece of an active copy and decrements pending bytes. -/
  | streamerPiece (unit : Nat)
  /-- COPY_STATUS_LANDING (R315). A copy status lands at its token address and frees the token-table entry. -/
  | copyStatusLanding (k : Nat)
  /-- CHANNEL_RETRY (R280). A waiting SEND or RECV retries its header operation on lock release or after 1,024 cycles. -/
  | channelRetry (core : Nat)
  /-- TLB_WALK_COMPLETE (R324). A translation walk ends, installing an entry or failing the access. -/
  | tlbWalkComplete (spire tenant : Nat) (ctx : BitVec 16) (va : Word)
  /-- SLICE_RETRY_HINT (R325). The Spire port re-presents a refused request when its retry hint expires. -/
  | sliceRetryHint (spire : Nat)
  /-- LINK_RETRAIN (R322). A die-to-die port retrains after a failed check and replays unacknowledged packets. -/
  | linkRetrain (link : Nat) (failures : Nat) (held : List Nat)
  /-- HBM_DEMAND_ACCESS (R365). The memory controller serves a beat, correcting, counting or delivering poison. -/
  | hbmDemandAccess (pa : Nat) (data : Option (BitVec 256))
  /-- TRACKER_LEAK (R367). Every 16,800,000 ticks each unheld tracker counter decreases by 1. -/
  | trackerLeak
  /-- MSPARE_COPY_END (R215). The spare copy ends; the remap entry is installed with the switch of demand traffic. -/
  | mspareCopyEnd (channel : Nat)
  /-- LAUNCH_REGISTER_WRITE (R231). A host write to LAUNCHn enters FIFO n, or is discarded with BAD or OVF set. -/
  | launchRegisterWrite (port : Bool) (tenant n : Nat) (value : Word)
  /-- LSTAT_WRITE (R231). A write clears the written bits of BAD, OVF and UNREAD. -/
  | lstatWrite (port : Bool) (tenant : Nat) (value : Word)
  /-- BELFRY_ADMISSION (R238). The Belfry takes FIFO entries, refuses, admits and places regions in rank order. -/
  | belfryAdmission (order : List Nat)
  /-- AGEING_STEP (R236). Every 64,000 ticks of waiting a region's effective level decreases by 1. -/
  | ageingStep (region : Nat)
  /-- DISPATCH_FRESH_START (R241). Dispatch initialises workspaces, barriers, Graver and copy contexts and starts the cores. -/
  | dispatchFreshStart (part : Nat)
  /-- PARTITION_RESUME (R320). Dispatch restores a saved partition, re-injects drained messages and starts its cores. -/
  | partitionResume (part : Nat)
  /-- GANG_SWITCH (R316). At the agreed time the partition stops, drains and is saved. -/
  | gangSwitch (part : Nat)
  /-- REGION_RETIRE (R244). A region whose cores exited and operations retired releases resources and completes. -/
  | regionRetire (region : Nat)
  /-- MAXRUN_EXPIRY (R246). A region exceeding MAXRUN ticks of running time is killed with code 3. -/
  | maxrunExpiry (region : Nat)
  /-- GSTEPS_EXPIRY (R246). A region exceeding its k-step budget is killed with code 4. -/
  | gstepsExpiry (region : Nat)
  /-- WATCHDOG_TIMEOUT (R247). A period with too little progress forces a gang switch and a WATCHDOG trap at resume. -/
  | watchdogTimeout (region : Nat)
  /-- WATCHDOG_SWITCH_TIMEOUT (R247). A forced switch not finished in 100,000 ticks kills the region with code 2. -/
  | watchdogSwitchTimeout (region : Nat)
  /-- YIELD_TIMEOUT (R197). A YIELD not matched within 64,000 ticks completes with 0. -/
  | yieldTimeout (core : Nat)
  /-- SEMAPHORE_TAKE (R375). A read of TAKE test-and-sets a host semaphore. -/
  | semaphoreTake (port : Bool) (n : Nat) (tie : Bool)
  /-- SEMAPHORE_RELEASE (R375). A write to TAKE by the owner releases the semaphore; other writes count 77. -/
  | semaphoreRelease (port : Bool) (n : Nat) (value : Word)
  /-- SETSHARE (R377). Mailbox command setting a tenant's SHARE. -/
  | setshare (port : Bool) (tenant : Nat) (share : BitVec 8)
  /-- SETWDCFG (R377). Mailbox command setting a watchdog configuration. -/
  | setwdcfg (port : Bool) (tenant n : Nat) (value : Word)
  /-- TRACE_COMMAND (R382). Mailbox command enabling trace records into a circular buffer. -/
  | traceCommand (port : Bool) (enable : Bool) (base log2 : Nat)
  /-- ATTEST (R385). Mailbox command returning a signed attestation report. -/
  | attest (port : Bool) (nonce : BitVec 256)
  /-- MSIX_VECTOR_UNMASK (R373). Unmasking a vector sends one message for its pending bit. -/
  | msixVectorUnmask (tenant vector : Nat)
  /-- HOST_BAR4_ACCESS (R374). A host access to HBM4E is performed in the owner's windows or dropped. -/
  | hostBar4Access (port : Bool) (pa len : Nat) (data : Option (List Byte))
  /-- FUNCTION_LEVEL_RESET (R372). A port FLR releases its semaphores without affecting running regions. -/
  | functionLevelReset (port : Bool)
  /-- REGISTER_WRITE (R9). A write to a memory-mapped register without behaviour of its own. -/
  | registerWrite (port : Bool) (bar offset : Nat) (value : Word)
  /-- THATUR_LOAD (R383). The Belfry loader checks a container, translates it and publishes it. -/
  | thaturLoad (tenant : Nat) (ctx : BitVec 16) (container : Word)
  /-- DEVICE_RESET (R380). Bring-up verifies firmware and configuration, trains memory and opens the ports. -/
  | deviceReset
  /-- POWER_CAP (R386). Above the averaged power cap a dome clock is stopped for whole cycles. -/
  | powerCap (dome : Nat) (stop : Bool)
  /-- THERMAL_ALARM (R386). At 98 °C junction the module raises MACHINE_CHECK in every partition. -/
  | thermalAlarm
  /-- THERMAL_SHUTDOWN (R386). At 105 °C junction the module removes power. -/
  | thermalShutdown
  /-- SPIRE_PORT_SEND (R248). In each mesh cycle the Spire port visits cores by deficit round-robin and sends outbound requests, updating their deficits. -/
  | spirePortSend (spire : Nat)
  /-- SOFT_ERROR (R272). An uncorrectable soft error strikes dome memory, workspace memory, the repetition buffer or operand memory, poisoning the word or corrupting the state that the SOFT trap later reports. -/
  | softError (unit : Nat) (where_ : Nat)
  deriving DecidableEq, Repr

end Sys2Proof
end

