-- ==== Sys2Proof/WellFormed.lean ====
section
/-!
DEFINITION. The static checks of step 3 of R30 on an instruction as syntax, each with a name: type codes, guards,
immediate fields, reserved values and operand restrictions (01_encoding R24-R31 and the operand tables).
-/

namespace Sys2Proof

/-- Why the decoder refuses a word: every one of these is ILLEGAL on the device (01_encoding R30 step 3). -/
inductive Reject where
  | unassignedMajor | unassignedOp | badType | badLength | badImmediate | operandB | operandKind
  | reservedBits | reservedValue | badGuard | badFill | truncated
  deriving DecidableEq, Repr

namespace Ty

/-- The four bits of T (01_encoding R25). -/
def code : Ty → BitVec 4
  | dflt => 0 | s8 => 1 | s16 => 2 | s32 => 3 | s64 => 4 | z8 => 5 | z16 => 6 | z32 => 7 | z64 => 8
  | f16 => 9 | bf16 => 10 | f32 => 11 | f64 => 12 | ci16 => 13 | mx => 14

/-- The type a code names; 15 names none and is read as `dflt`, which the check of the word then refuses. -/
def ofCode (c : BitVec 4) : Ty :=
  match c.toNat with
  | 1 => s8 | 2 => s16 | 3 => s32 | 4 => s64 | 5 => z8 | 6 => z16 | 7 => z32 | 8 => z64
  | 9 => f16 | 10 => bf16 | 11 => f32 | 12 => f64 | 13 => ci16 | 14 => mx | _ => dflt

/-- An integer type (01_encoding R25). -/
def isInt : Ty → Bool
  | s8 | s16 | s32 | s64 | z8 | z16 | z32 | z64 => true
  | _ => false

/-- The width in bits of a type; the default of the vector majors is 32 bits wide (04_vector R108). -/
def bits : Ty → Nat
  | s8 | z8 => 8 | s16 | z16 | f16 | bf16 => 16 | s64 | z64 | f64 => 64 | _ => 32

end Ty

/-- PG = 0 with PN = 1 never executes and is ILLEGAL (01_encoding R29). -/
def Guard.ok (g : Guard) : Bool := !(g.pg == 0 && g.pn)

/-- Unguarded. -/
def Guard.always : Guard := ⟨0, false⟩

namespace Check

/-- BEXT and BINS: pos + len must not exceed the width (02_scalar R55). -/
def bitField (t : Ty) (pos lenM1 : BitVec 6) : Bool :=
  decide (pos.toNat + lenM1.toNat + 1 ≤ (if t = .z32 then 32 else 64))
/-- The indices MFS may read: those of R45; none is write-only. -/
def mfsIndex (i : BitVec 10) : Bool :=
  let n := i.toNat
  decide (n ≤ 5) || (decide (8 ≤ n) && decide (n ≤ 12)) || (decide (16 ≤ n) && decide (n ≤ 22)) ||
    (decide (24 ≤ n) && decide (n ≤ 35))
/-- The indices MTS may write: those of R45 not marked RO; index 0 is the instruction MTS WP. -/
def mtsIndex (i : BitVec 10) : Bool :=
  let n := i.toNat
  (decide (1 ≤ n) && decide (n ≤ 5)) || decide (n = 12) || decide (n = 19) || decide (n = 20) || decide (n = 22) ||
    (decide (24 ≤ n) && decide (n ≤ 35))
/-- FCVT's source, destination and mode (02_scalar R70). -/
def fcvtOk (t src : Ty) (rm : BitVec 4) : Bool :=
  (src.isInt || src == .f32 || src == .f64) && src != t && !(src.isInt && t.isInt) && decide (rm.toNat ≤ 5)
/-- VCVT's source, destination, part and mode (04_vector R123). -/
def vcvtOk (t src : Ty) (q : BitVec 2) (rm : BitVec 3) : Bool :=
  ((src.isInt && decide (src.bits ≤ 32)) || src == .f16 || src == .bf16 || src == .f32) && src != t &&
    !(src.isInt && t.isInt) && decide (rm.toNat ≤ 5) &&
    decide (q.toNat < max src.bits t.bits / min src.bits t.bits)
/-- A lane index below the number of lanes (04_vector R131, R132). -/
def laneOk (t : Ty) (j : BitVec 5) : Bool := decide (j.toNat < 256 / t.bits)
/-- VSAT's width m, 1 to n (04_vector R127). -/
def vsatOk (t : Ty) (m : BitVec 6) : Bool := decide (1 ≤ m.toNat) && decide (m.toNat ≤ t.bits)
/-- The lane width field of VSEL and VMOV (04_vector R108). -/
def widthOk (w : BitVec 2) : Bool := w != 3
/-- A microscaled subformat (01_encoding R25). -/
def mxOk (f : BitVec 3) : Bool := decide (f.toNat ≤ 5)
/-- The base of a group of four registers (04_vector R112 V4). -/
def quad (v : VReg) : Bool := decide (v.toNat % 4 = 0)
/-- The plane stride of a gather or scatter is a multiple of the element size (05_memory_isa R143). -/
def strideOk (t : Ty) (s : BitVec 16) : Bool := decide (s.toNat % (t.bits / 8) = 0)
/-- LDB of more than four words takes an even register (05_memory_isa R144). -/
def ldbOk (d : VReg) (nM1 : BitVec 3) : Bool := decide (nM1.toNat ≤ 3) || decide (d.toNat % 2 = 0)
/-- A two-bit field whose values 2 and 3 are reserved. -/
def below2 (x : BitVec 2) : Bool := decide (x.toNat < 2)
/-- A two-bit field whose value 3 is reserved. -/
def below3 (x : BitVec 2) : Bool := decide (x.toNat < 3)
/-- A copy needs a completion mode (05_memory_isa R149). -/
def copyMode (d : SReg) (bar tls : BitVec 1) : Bool := !(d == 0 && bar == 0 && tls == 0)
def nonzero16 (x : BitVec 16) : Bool := x != 0
def nonzero8 (x : BitVec 8) : Bool := x != 0
def nonzero5 (x : BitVec 5) : Bool := x != 0
def nonzeroReg (x : SReg) : Bool := x != 0
/-- The two codes of HINT (02_scalar R82). -/
def hintOk (c : BitVec 16) : Bool := c == 1 || c == 2
/-- MSHF's field indices (06_matrix_isa R173). -/
def mshfField (f : BitVec 5) : Bool := decide (f.toNat ≤ 14)
/-- TGEMM's slot base is a multiple of 8 (06_matrix_isa R169). -/
def slotBase (s : BitVec 7) : Bool := decide (s.toNat % 8 = 0)
/-- The tile pairs of TFACT and TSOLVE start at even tiles (06_matrix_isa R169). -/
def evenTile (t : BitVec 3) : Bool := decide (t.toNat % 2 = 0)
def tilesDiffer (a b : BitVec 3) : Bool := a != b
/-- GRET's A is 0 unless it aborts (07_system_isa R194). -/
def gretOk (a : SReg) (abort : BitVec 1) : Bool := abort == 1 || a == 0
/-- The system registers (07_system_isa R206). -/
def sysrIndex (i : BitVec 12) : Bool := decide (i.toNat ≤ 5)
/-- The one writable system register (07_system_isa R206). -/
def syswIndex (i : BitVec 12) : Bool := i == 0
/-- The range of PUSHM and POPM ascends (02_scalar R63). -/
def rangeOk : RegRange → Bool
  | .scalar f l => decide (f.toNat ≤ l.toNat)
  | .vector f l => decide (f.toNat ≤ l.toNat)

/-- The first failing check of a list. -/
def first : List (Bool × Reject) → Option Reject
  | [] => none
  | (b, r) :: cs => if b then first cs else some r

end Check

/-- The first static check an instruction fails; events and FILL have none. -/
def Instr.check : Instr → Option Reject
  | .fill => none
  | .add g t _ _ _ => Check.first [([Ty.dflt, Ty.s32, Ty.s64, Ty.z32, Ty.z64].contains t, .badType), (g.ok, .badGuard)]
  | .sub g t _ _ _ => Check.first [([Ty.dflt, Ty.s32, Ty.s64, Ty.z32, Ty.z64].contains t, .badType), (g.ok, .badGuard)]
  | .and g t _ _ _ => Check.first [([Ty.dflt, Ty.s32, Ty.s64, Ty.z32, Ty.z64].contains t, .badType), (g.ok, .badGuard)]
  | .or g t _ _ _ => Check.first [([Ty.dflt, Ty.s32, Ty.s64, Ty.z32, Ty.z64].contains t, .badType), (g.ok, .badGuard)]
  | .xor g t _ _ _ => Check.first [([Ty.dflt, Ty.s32, Ty.s64, Ty.z32, Ty.z64].contains t, .badType), (g.ok, .badGuard)]
  | .andn g t _ _ _ => Check.first [([Ty.dflt, Ty.s32, Ty.s64, Ty.z32, Ty.z64].contains t, .badType), (g.ok, .badGuard)]
  | .shl g t _ _ _ => Check.first [([Ty.dflt, Ty.s32, Ty.s64, Ty.z32, Ty.z64].contains t, .badType), (g.ok, .badGuard)]
  | .shr g t _ _ _ => Check.first [([Ty.dflt, Ty.s32, Ty.s64, Ty.z32, Ty.z64].contains t, .badType), (g.ok, .badGuard)]
  | .sar g t _ _ _ => Check.first [([Ty.dflt, Ty.s32, Ty.s64, Ty.z32, Ty.z64].contains t, .badType), (g.ok, .badGuard)]
  | .ror g t _ _ _ => Check.first [([Ty.dflt, Ty.s32, Ty.s64, Ty.z32, Ty.z64].contains t, .badType), (g.ok, .badGuard)]
  | .min g t _ _ _ => Check.first [([Ty.dflt, Ty.s32, Ty.s64, Ty.z32, Ty.z64].contains t, .badType), (g.ok, .badGuard)]
  | .max g t _ _ _ => Check.first [([Ty.dflt, Ty.s32, Ty.s64, Ty.z32, Ty.z64].contains t, .badType), (g.ok, .badGuard)]
  | .mul g t _ _ _ => Check.first [([Ty.dflt, Ty.s32, Ty.s64, Ty.z32, Ty.z64].contains t, .badType), (g.ok, .badGuard)]
  | .mulh g t _ _ _ => Check.first [([Ty.dflt, Ty.s32, Ty.s64, Ty.z32, Ty.z64].contains t, .badType), (g.ok, .badGuard)]
  | .div g t _ _ _ => Check.first [([Ty.dflt, Ty.s32, Ty.s64, Ty.z32, Ty.z64].contains t, .badType), (g.ok, .badGuard)]
  | .rem g t _ _ _ => Check.first [([Ty.dflt, Ty.s32, Ty.s64, Ty.z32, Ty.z64].contains t, .badType), (g.ok, .badGuard)]
  | .clz g t _ _ => Check.first [([Ty.dflt, Ty.z32, Ty.z64].contains t, .badType), (g.ok, .badGuard)]
  | .ctz g t _ _ => Check.first [([Ty.dflt, Ty.z32, Ty.z64].contains t, .badType), (g.ok, .badGuard)]
  | .popc g t _ _ => Check.first [([Ty.dflt, Ty.z32, Ty.z64].contains t, .badType), (g.ok, .badGuard)]
  | .brev g t _ _ => Check.first [([Ty.dflt, Ty.z32, Ty.z64].contains t, .badType), (g.ok, .badGuard)]
  | .bswap g t _ _ => Check.first [([Ty.dflt, Ty.z32, Ty.z64].contains t, .badType), (g.ok, .badGuard)]
  | .bext g t _ _ pos lenM1 => Check.first [([Ty.dflt, Ty.z32, Ty.z64].contains t, .badType), (Check.bitField t pos lenM1, .reservedValue), (g.ok, .badGuard)]
  | .bins g t _ _ pos lenM1 => Check.first [([Ty.dflt, Ty.z32, Ty.z64].contains t, .badType), (Check.bitField t pos lenM1, .reservedValue), (g.ok, .badGuard)]
  | .sext g t _ _ => Check.first [([Ty.s8, Ty.s16, Ty.s32].contains t, .badType), (g.ok, .badGuard)]
  | .zext g t _ _ => Check.first [([Ty.z8, Ty.z16, Ty.z32].contains t, .badType), (g.ok, .badGuard)]
  | .cmpEq g t _ _ _ => Check.first [([Ty.dflt, Ty.s32, Ty.s64, Ty.z32, Ty.z64].contains t, .badType), (g.ok, .badGuard)]
  | .cmpNe g t _ _ _ => Check.first [([Ty.dflt, Ty.s32, Ty.s64, Ty.z32, Ty.z64].contains t, .badType), (g.ok, .badGuard)]
  | .cmpLt g t _ _ _ => Check.first [([Ty.dflt, Ty.s32, Ty.s64, Ty.z32, Ty.z64].contains t, .badType), (g.ok, .badGuard)]
  | .cmpLe g t _ _ _ => Check.first [([Ty.dflt, Ty.s32, Ty.s64, Ty.z32, Ty.z64].contains t, .badType), (g.ok, .badGuard)]
  | .cmpGt g t _ _ _ => Check.first [([Ty.dflt, Ty.s32, Ty.s64, Ty.z32, Ty.z64].contains t, .badType), (g.ok, .badGuard)]
  | .cmpGe g t _ _ _ => Check.first [([Ty.dflt, Ty.s32, Ty.s64, Ty.z32, Ty.z64].contains t, .badType), (g.ok, .badGuard)]
  | .pand g _ _ _ => Check.first [(g.ok, .badGuard)]
  | .por g _ _ _ => Check.first [(g.ok, .badGuard)]
  | .pxor g _ _ _ => Check.first [(g.ok, .badGuard)]
  | .pandn g _ _ _ => Check.first [(g.ok, .badGuard)]
  | .pnot g _ _ => Check.first [(g.ok, .badGuard)]
  | .pmov g _ _ => Check.first [(g.ok, .badGuard)]
  | .pset g _ _ => Check.first [(g.ok, .badGuard)]
  | .movi g _ _ => Check.first [(g.ok, .badGuard)]
  | .mov g _ _ => Check.first [(g.ok, .badGuard)]
  | .lea g _ _ _ => Check.first [(g.ok, .badGuard)]
  | .sel g _ _ _ _ => Check.first [(g.ok, .badGuard)]
  | .qcap g _ _ => Check.first [(g.ok, .badGuard)]
  | .rndc g _ _ _ => Check.first [(g.ok, .badGuard)]
  | .mfs g _ idx => Check.first [(Check.mfsIndex idx, .reservedValue), (g.ok, .badGuard)]
  | .mts g _ idx => Check.first [(Check.mtsIndex idx, .reservedValue), (g.ok, .badGuard)]
  | .mtsWp g _ => Check.first [(g.ok, .badGuard)]
  | .pushm g r => Check.first [(Check.rangeOk r, .operandKind), (g.ok, .badGuard)]
  | .popm g r => Check.first [(Check.rangeOk r, .operandKind), (g.ok, .badGuard)]
  | .fadd g t _ _ _ => Check.first [([Ty.dflt, Ty.f32, Ty.f64].contains t, .badType), (g.ok, .badGuard)]
  | .fsub g t _ _ _ => Check.first [([Ty.dflt, Ty.f32, Ty.f64].contains t, .badType), (g.ok, .badGuard)]
  | .fmul g t _ _ _ => Check.first [([Ty.dflt, Ty.f32, Ty.f64].contains t, .badType), (g.ok, .badGuard)]
  | .fdiv g t _ _ _ => Check.first [([Ty.dflt, Ty.f32, Ty.f64].contains t, .badType), (g.ok, .badGuard)]
  | .fsqrt g t _ _ => Check.first [([Ty.dflt, Ty.f32, Ty.f64].contains t, .badType), (g.ok, .badGuard)]
  | .fmin g t _ _ _ => Check.first [([Ty.dflt, Ty.f32, Ty.f64].contains t, .badType), (g.ok, .badGuard)]
  | .fmax g t _ _ _ => Check.first [([Ty.dflt, Ty.f32, Ty.f64].contains t, .badType), (g.ok, .badGuard)]
  | .fneg g t _ _ => Check.first [([Ty.dflt, Ty.f32, Ty.f64].contains t, .badType), (g.ok, .badGuard)]
  | .fabs g t _ _ => Check.first [([Ty.dflt, Ty.f32, Ty.f64].contains t, .badType), (g.ok, .badGuard)]
  | .fma g t _ _ _ _ => Check.first [([Ty.dflt, Ty.f32, Ty.f64].contains t, .badType), (g.ok, .badGuard)]
  | .fms g t _ _ _ _ => Check.first [([Ty.dflt, Ty.f32, Ty.f64].contains t, .badType), (g.ok, .badGuard)]
  | .fnma g t _ _ _ _ => Check.first [([Ty.dflt, Ty.f32, Ty.f64].contains t, .badType), (g.ok, .badGuard)]
  | .fnms g t _ _ _ _ => Check.first [([Ty.dflt, Ty.f32, Ty.f64].contains t, .badType), (g.ok, .badGuard)]
  | .fcmpEq g t _ _ _ => Check.first [([Ty.dflt, Ty.f32, Ty.f64].contains t, .badType), (g.ok, .badGuard)]
  | .fcmpLt g t _ _ _ => Check.first [([Ty.dflt, Ty.f32, Ty.f64].contains t, .badType), (g.ok, .badGuard)]
  | .fcmpLe g t _ _ _ => Check.first [([Ty.dflt, Ty.f32, Ty.f64].contains t, .badType), (g.ok, .badGuard)]
  | .fcmpUn g t _ _ _ => Check.first [([Ty.dflt, Ty.f32, Ty.f64].contains t, .badType), (g.ok, .badGuard)]
  | .fcvt g t _ _ src rm => Check.first [([Ty.s8, Ty.s16, Ty.s32, Ty.s64, Ty.z8, Ty.z16, Ty.z32, Ty.z64, Ty.f32, Ty.f64].contains t, .badType), (Check.fcvtOk t src rm, .reservedValue), (g.ok, .badGuard)]
  | .fclass g t _ _ => Check.first [([Ty.f32, Ty.f64].contains t, .badType), (g.ok, .badGuard)]
  | .br g _ => Check.first [(g.ok, .badGuard)]
  | .call g _ _ => Check.first [(g.ok, .badGuard)]
  | .jmp g _ _ => Check.first [(g.ok, .badGuard)]
  | .ret g _ => Check.first [(g.ok, .badGuard)]
  | .brx g _ _ count => Check.first [(Check.nonzero16 count, .reservedValue), (g.ok, .badGuard)]
  | .loop g a _ => Check.first [(Check.nonzeroReg a, .reservedValue), (g.ok, .badGuard)]
  | .rep _ _ _ _ => Check.first []
  | .nop g => Check.first [(g.ok, .badGuard)]
  | .hint g code => Check.first [(Check.hintOk code, .reservedValue), (g.ok, .badGuard)]
  | .unchain => Check.first []
  | .rechain _ => Check.first []
  | .vadd g t _ _ _ => Check.first [([Ty.dflt, Ty.f16, Ty.bf16, Ty.f32].contains t, .badType), (g.ok, .badGuard)]
  | .vsub g t _ _ _ => Check.first [([Ty.dflt, Ty.f16, Ty.bf16, Ty.f32].contains t, .badType), (g.ok, .badGuard)]
  | .vmul g t _ _ _ => Check.first [([Ty.dflt, Ty.f16, Ty.bf16, Ty.f32].contains t, .badType), (g.ok, .badGuard)]
  | .vmin g t _ _ _ => Check.first [([Ty.dflt, Ty.f16, Ty.bf16, Ty.f32].contains t, .badType), (g.ok, .badGuard)]
  | .vmax g t _ _ _ => Check.first [([Ty.dflt, Ty.f16, Ty.bf16, Ty.f32].contains t, .badType), (g.ok, .badGuard)]
  | .vneg g t _ _ => Check.first [([Ty.dflt, Ty.f16, Ty.bf16, Ty.f32].contains t, .badType), (g.ok, .badGuard)]
  | .vabs g t _ _ => Check.first [([Ty.dflt, Ty.f16, Ty.bf16, Ty.f32].contains t, .badType), (g.ok, .badGuard)]
  | .vfma g t _ _ _ _ => Check.first [([Ty.dflt, Ty.f16, Ty.bf16, Ty.f32].contains t, .badType), (g.ok, .badGuard)]
  | .vfms g t _ _ _ _ => Check.first [([Ty.dflt, Ty.f16, Ty.bf16, Ty.f32].contains t, .badType), (g.ok, .badGuard)]
  | .vfnma g t _ _ _ _ => Check.first [([Ty.dflt, Ty.f16, Ty.bf16, Ty.f32].contains t, .badType), (g.ok, .badGuard)]
  | .vfnms g t _ _ _ _ => Check.first [([Ty.dflt, Ty.f16, Ty.bf16, Ty.f32].contains t, .badType), (g.ok, .badGuard)]
  | .vdiv g t _ _ _ => Check.first [([Ty.dflt, Ty.f16, Ty.bf16, Ty.f32].contains t, .badType), (g.ok, .badGuard)]
  | .vrcp g t _ _ => Check.first [([Ty.dflt, Ty.f16, Ty.bf16, Ty.f32].contains t, .badType), (g.ok, .badGuard)]
  | .vsqrt g t _ _ => Check.first [([Ty.dflt, Ty.f16, Ty.bf16, Ty.f32].contains t, .badType), (g.ok, .badGuard)]
  | .vrsqrt g t _ _ => Check.first [([Ty.dflt, Ty.f16, Ty.bf16, Ty.f32].contains t, .badType), (g.ok, .badGuard)]
  | .vexp g t _ _ => Check.first [([Ty.dflt, Ty.f16, Ty.bf16, Ty.f32].contains t, .badType), (g.ok, .badGuard)]
  | .vlog g t _ _ => Check.first [([Ty.dflt, Ty.f16, Ty.bf16, Ty.f32].contains t, .badType), (g.ok, .badGuard)]
  | .vsincos g t _ _ => Check.first [([Ty.dflt, Ty.f16, Ty.bf16, Ty.f32].contains t, .badType), (g.ok, .badGuard)]
  | .vtanh g t _ _ => Check.first [([Ty.dflt, Ty.f16, Ty.bf16, Ty.f32].contains t, .badType), (g.ok, .badGuard)]
  | .vsigm g t _ _ => Check.first [([Ty.dflt, Ty.f16, Ty.bf16, Ty.f32].contains t, .badType), (g.ok, .badGuard)]
  | .vcmpEq g t _ _ _ => Check.first [([Ty.dflt, Ty.f16, Ty.bf16, Ty.f32].contains t, .badType), (g.ok, .badGuard)]
  | .vcmpNe g t _ _ _ => Check.first [([Ty.dflt, Ty.f16, Ty.bf16, Ty.f32].contains t, .badType), (g.ok, .badGuard)]
  | .vcmpLt g t _ _ _ => Check.first [([Ty.dflt, Ty.f16, Ty.bf16, Ty.f32].contains t, .badType), (g.ok, .badGuard)]
  | .vcmpLe g t _ _ _ => Check.first [([Ty.dflt, Ty.f16, Ty.bf16, Ty.f32].contains t, .badType), (g.ok, .badGuard)]
  | .vsel g _ _ _ _ width => Check.first [(Check.widthOk width, .reservedValue), (g.ok, .badGuard)]
  | .vcvt g t _ _ src q rm => Check.first [([Ty.s8, Ty.s16, Ty.s32, Ty.z8, Ty.z16, Ty.z32, Ty.f16, Ty.bf16, Ty.f32].contains t, .badType), (Check.vcvtOk t src q rm, .reservedValue), (g.ok, .badGuard)]
  | .vqmx g _ a _ fmt => Check.first [(Check.mxOk fmt && Check.quad a, .reservedValue), (g.ok, .badGuard)]
  | .vdqmx g d _ _ fmt => Check.first [(Check.mxOk fmt && Check.quad d, .reservedValue), (g.ok, .badGuard)]
  | .vredAdd g t _ _ => Check.first [([Ty.dflt, Ty.f16, Ty.bf16, Ty.f32, Ty.s8, Ty.s16, Ty.s32, Ty.z8, Ty.z16, Ty.z32].contains t, .badType), (g.ok, .badGuard)]
  | .vredMin g t _ _ => Check.first [([Ty.dflt, Ty.f16, Ty.bf16, Ty.f32, Ty.s8, Ty.s16, Ty.s32, Ty.z8, Ty.z16, Ty.z32].contains t, .badType), (g.ok, .badGuard)]
  | .vredMax g t _ _ => Check.first [([Ty.dflt, Ty.f16, Ty.bf16, Ty.f32, Ty.s8, Ty.s16, Ty.s32, Ty.z8, Ty.z16, Ty.z32].contains t, .badType), (g.ok, .badGuard)]
  | .vaddInt g t _ _ _ => Check.first [([Ty.dflt, Ty.s8, Ty.s16, Ty.s32, Ty.z8, Ty.z16, Ty.z32].contains t, .badType), (g.ok, .badGuard)]
  | .vsubInt g t _ _ _ => Check.first [([Ty.dflt, Ty.s8, Ty.s16, Ty.s32, Ty.z8, Ty.z16, Ty.z32].contains t, .badType), (g.ok, .badGuard)]
  | .vand g t _ _ _ => Check.first [([Ty.dflt, Ty.s8, Ty.s16, Ty.s32, Ty.z8, Ty.z16, Ty.z32].contains t, .badType), (g.ok, .badGuard)]
  | .vor g t _ _ _ => Check.first [([Ty.dflt, Ty.s8, Ty.s16, Ty.s32, Ty.z8, Ty.z16, Ty.z32].contains t, .badType), (g.ok, .badGuard)]
  | .vxor g t _ _ _ => Check.first [([Ty.dflt, Ty.s8, Ty.s16, Ty.s32, Ty.z8, Ty.z16, Ty.z32].contains t, .badType), (g.ok, .badGuard)]
  | .vshl g t _ _ _ => Check.first [([Ty.dflt, Ty.s8, Ty.s16, Ty.s32, Ty.z8, Ty.z16, Ty.z32].contains t, .badType), (g.ok, .badGuard)]
  | .vshr g t _ _ _ => Check.first [([Ty.dflt, Ty.s8, Ty.s16, Ty.s32, Ty.z8, Ty.z16, Ty.z32].contains t, .badType), (g.ok, .badGuard)]
  | .vsar g t _ _ _ => Check.first [([Ty.dflt, Ty.s8, Ty.s16, Ty.s32, Ty.z8, Ty.z16, Ty.z32].contains t, .badType), (g.ok, .badGuard)]
  | .vminInt g t _ _ _ => Check.first [([Ty.dflt, Ty.s8, Ty.s16, Ty.s32, Ty.z8, Ty.z16, Ty.z32].contains t, .badType), (g.ok, .badGuard)]
  | .vmaxInt g t _ _ _ => Check.first [([Ty.dflt, Ty.s8, Ty.s16, Ty.s32, Ty.z8, Ty.z16, Ty.z32].contains t, .badType), (g.ok, .badGuard)]
  | .vadds g t _ _ _ => Check.first [([Ty.dflt, Ty.s8, Ty.s16, Ty.s32, Ty.z8, Ty.z16, Ty.z32].contains t, .badType), (g.ok, .badGuard)]
  | .vsubs g t _ _ _ => Check.first [([Ty.dflt, Ty.s8, Ty.s16, Ty.s32, Ty.z8, Ty.z16, Ty.z32].contains t, .badType), (g.ok, .badGuard)]
  | .vcmpEqInt g t _ _ _ => Check.first [([Ty.dflt, Ty.s8, Ty.s16, Ty.s32, Ty.z8, Ty.z16, Ty.z32].contains t, .badType), (g.ok, .badGuard)]
  | .vcmpNeInt g t _ _ _ => Check.first [([Ty.dflt, Ty.s8, Ty.s16, Ty.s32, Ty.z8, Ty.z16, Ty.z32].contains t, .badType), (g.ok, .badGuard)]
  | .vcmpLtInt g t _ _ _ => Check.first [([Ty.dflt, Ty.s8, Ty.s16, Ty.s32, Ty.z8, Ty.z16, Ty.z32].contains t, .badType), (g.ok, .badGuard)]
  | .vcmpLeInt g t _ _ _ => Check.first [([Ty.dflt, Ty.s8, Ty.s16, Ty.s32, Ty.z8, Ty.z16, Ty.z32].contains t, .badType), (g.ok, .badGuard)]
  | .vmulInt g t _ _ _ => Check.first [([Ty.dflt, Ty.s8, Ty.s16, Ty.s32, Ty.z8, Ty.z16, Ty.z32].contains t, .badType), (g.ok, .badGuard)]
  | .vmulh g t _ _ _ => Check.first [([Ty.dflt, Ty.s8, Ty.s16, Ty.s32, Ty.z8, Ty.z16, Ty.z32].contains t, .badType), (g.ok, .badGuard)]
  | .vmac g t _ _ _ => Check.first [([Ty.dflt, Ty.s8, Ty.s16, Ty.s32, Ty.z8, Ty.z16, Ty.z32].contains t, .badType), (g.ok, .badGuard)]
  | .vsat g t _ _ m => Check.first [([Ty.dflt, Ty.s8, Ty.s16, Ty.s32, Ty.z8, Ty.z16, Ty.z32].contains t, .badType), (Check.vsatOk t m, .reservedValue), (g.ok, .badGuard)]
  | .vdot4 g t _ _ _ => Check.first [([Ty.s8, Ty.z8].contains t, .badType), (g.ok, .badGuard)]
  | .vdot2 g t _ _ _ => Check.first [([Ty.s16].contains t, .badType), (g.ok, .badGuard)]
  | .vcmul g t _ _ _ _ => Check.first [([Ty.dflt, Ty.ci16].contains t, .badType), (g.ok, .badGuard)]
  | .vcmac g t _ _ _ _ => Check.first [([Ty.dflt, Ty.ci16].contains t, .badType), (g.ok, .badGuard)]
  | .vconj g t _ _ => Check.first [([Ty.dflt, Ty.ci16].contains t, .badType), (g.ok, .badGuard)]
  | .vbfly g t _ _ _ _ => Check.first [([Ty.dflt, Ty.ci16].contains t, .badType), (g.ok, .badGuard)]
  | .vbflys g t _ _ _ _ => Check.first [([Ty.dflt, Ty.ci16].contains t, .badType), (g.ok, .badGuard)]
  | .vperm g t _ _ _ => Check.first [([Ty.dflt, Ty.s8, Ty.s16, Ty.s32, Ty.z8, Ty.z16, Ty.z32, Ty.f16, Ty.f32].contains t, .badType), (g.ok, .badGuard)]
  | .vshuf g t _ _ _ _ => Check.first [([Ty.dflt, Ty.s8, Ty.s16, Ty.s32, Ty.z8, Ty.z16, Ty.z32, Ty.f16, Ty.f32].contains t, .badType), (g.ok, .badGuard)]
  | .vrot g t _ _ _ => Check.first [([Ty.dflt, Ty.s8, Ty.s16, Ty.s32, Ty.z8, Ty.z16, Ty.z32, Ty.f16, Ty.f32].contains t, .badType), (g.ok, .badGuard)]
  | .vbcast g t _ _ j => Check.first [([Ty.dflt, Ty.s8, Ty.s16, Ty.s32, Ty.z8, Ty.z16, Ty.z32, Ty.f16, Ty.f32].contains t, .badType), (Check.laneOk t j, .reservedValue), (g.ok, .badGuard)]
  | .vmov g _ _ width => Check.first [(Check.widthOk width, .reservedValue), (g.ok, .badGuard)]
  | .vins g t _ _ j => Check.first [([Ty.dflt, Ty.s8, Ty.s16, Ty.s32, Ty.z8, Ty.z16, Ty.z32, Ty.f16, Ty.bf16, Ty.f32].contains t, .badType), (Check.laneOk t j, .reservedValue), (g.ok, .badGuard)]
  | .vext g t _ _ j => Check.first [([Ty.dflt, Ty.s8, Ty.s16, Ty.s32, Ty.z8, Ty.z16, Ty.z32, Ty.f16, Ty.bf16, Ty.f32].contains t, .badType), (Check.laneOk t j, .reservedValue), (g.ok, .badGuard)]
  | .vsplat g t _ _ => Check.first [([Ty.dflt, Ty.s8, Ty.s16, Ty.s32, Ty.z8, Ty.z16, Ty.z32, Ty.f16, Ty.bf16, Ty.f32].contains t, .badType), (g.ok, .badGuard)]
  | .jseed g t _ _ => Check.first [([Ty.dflt, Ty.f16, Ty.bf16, Ty.f32, Ty.s8, Ty.s16, Ty.s32, Ty.z8, Ty.z16, Ty.z32].contains t, .badType), (g.ok, .badGuard)]
  | .jext g t _ _ _ => Check.first [([Ty.dflt, Ty.f16, Ty.bf16, Ty.f32, Ty.s8, Ty.s16, Ty.s32, Ty.z8, Ty.z16, Ty.z32].contains t, .badType), (g.ok, .badGuard)]
  | .jplane g t _ _ _ _ => Check.first [([Ty.dflt, Ty.f16, Ty.bf16, Ty.f32, Ty.s8, Ty.s16, Ty.s32, Ty.z8, Ty.z16, Ty.z32].contains t, .badType), (g.ok, .badGuard)]
  | .jclr g _ => Check.first [(g.ok, .badGuard)]
  | .ld g t _ _ _ => Check.first [([Ty.dflt, Ty.s8, Ty.s16, Ty.s32, Ty.s64, Ty.z8, Ty.z16, Ty.z32, Ty.z64].contains t, .badType), (g.ok, .badGuard)]
  | .st g t _ _ _ => Check.first [([Ty.dflt, Ty.s8, Ty.s16, Ty.s32, Ty.s64, Ty.z8, Ty.z16, Ty.z32, Ty.z64].contains t, .badType), (g.ok, .badGuard)]
  | .vld g _ _ _ => Check.first [(g.ok, .badGuard)]
  | .vst g _ _ _ => Check.first [(g.ok, .badGuard)]
  | .vgather g t _ _ _ stride => Check.first [([Ty.dflt, Ty.s8, Ty.s16, Ty.s32, Ty.z8, Ty.z16, Ty.z32, Ty.f16, Ty.f32].contains t, .badType), (Check.strideOk t stride, .reservedValue), (g.ok, .badGuard)]
  | .vscatter g t _ _ _ stride => Check.first [([Ty.dflt, Ty.s8, Ty.s16, Ty.s32, Ty.z8, Ty.z16, Ty.z32, Ty.f16, Ty.f32].contains t, .badType), (Check.strideOk t stride, .reservedValue), (g.ok, .badGuard)]
  | .ldb g d _ nM1 => Check.first [(Check.ldbOk d nM1, .reservedValue), (g.ok, .badGuard)]
  | .amoAdd g t _ _ _ => Check.first [([Ty.dflt, Ty.s32, Ty.s64, Ty.z32, Ty.z64].contains t, .badType), (g.ok, .badGuard)]
  | .amoAnd g t _ _ _ => Check.first [([Ty.dflt, Ty.s32, Ty.s64, Ty.z32, Ty.z64].contains t, .badType), (g.ok, .badGuard)]
  | .amoOr g t _ _ _ => Check.first [([Ty.dflt, Ty.s32, Ty.s64, Ty.z32, Ty.z64].contains t, .badType), (g.ok, .badGuard)]
  | .amoXor g t _ _ _ => Check.first [([Ty.dflt, Ty.s32, Ty.s64, Ty.z32, Ty.z64].contains t, .badType), (g.ok, .badGuard)]
  | .amoMin g t _ _ _ => Check.first [([Ty.dflt, Ty.s32, Ty.s64, Ty.z32, Ty.z64].contains t, .badType), (g.ok, .badGuard)]
  | .amoMax g t _ _ _ => Check.first [([Ty.dflt, Ty.s32, Ty.s64, Ty.z32, Ty.z64].contains t, .badType), (g.ok, .badGuard)]
  | .amoSwap g t _ _ _ => Check.first [([Ty.dflt, Ty.s32, Ty.s64, Ty.z32, Ty.z64].contains t, .badType), (g.ok, .badGuard)]
  | .amoCas g t _ _ _ _ => Check.first [([Ty.dflt, Ty.s32, Ty.s64, Ty.z32, Ty.z64].contains t, .badType), (g.ok, .badGuard)]
  | .amoFadd g t _ _ _ => Check.first [([Ty.dflt, Ty.f32, Ty.f64].contains t, .badType), (g.ok, .badGuard)]
  | .amoFaddOrd g t _ _ _ _ _ => Check.first [([Ty.dflt, Ty.f32, Ty.f64].contains t, .badType), (g.ok, .badGuard)]
  | .redAdd g t _ _ => Check.first [([Ty.dflt, Ty.s32, Ty.s64, Ty.z32, Ty.z64, Ty.f32, Ty.f64].contains t, .badType), (g.ok, .badGuard)]
  | .redMin g t _ _ => Check.first [([Ty.dflt, Ty.s32, Ty.s64, Ty.z32, Ty.z64, Ty.f32, Ty.f64].contains t, .badType), (g.ok, .badGuard)]
  | .redMax g t _ _ => Check.first [([Ty.dflt, Ty.s32, Ty.s64, Ty.z32, Ty.z64, Ty.f32, Ty.f64].contains t, .badType), (g.ok, .badGuard)]
  | .redAddOrd g t _ _ _ _ => Check.first [([Ty.dflt, Ty.s32, Ty.s64, Ty.z32, Ty.z64, Ty.f32, Ty.f64].contains t, .badType), (g.ok, .badGuard)]
  | .redMinOrd g t _ _ _ _ => Check.first [([Ty.dflt, Ty.s32, Ty.s64, Ty.z32, Ty.z64, Ty.f32, Ty.f64].contains t, .badType), (g.ok, .badGuard)]
  | .redMaxOrd g t _ _ _ _ => Check.first [([Ty.dflt, Ty.s32, Ty.s64, Ty.z32, Ty.z64, Ty.f32, Ty.f64].contains t, .badType), (g.ok, .badGuard)]
  | .pref g _ level => Check.first [(Check.below2 level, .reservedValue), (g.ok, .badGuard)]
  | .chint g _ hop => Check.first [(Check.below2 hop, .reservedValue), (g.ok, .badGuard)]
  | .copy g d _ _ _ _ bar _ tls => Check.first [(Check.copyMode d bar tls, .reservedValue), (g.ok, .badGuard)]
  | .copyh g d _ _ _ _ bar _ tls _ => Check.first [(Check.copyMode d bar tls, .reservedValue), (g.ok, .badGuard)]
  | .binit g _ _ => Check.first [(g.ok, .badGuard)]
  | .barrive g _ _ => Check.first [(g.ok, .badGuard)]
  | .bwait g _ _ => Check.first [(g.ok, .badGuard)]
  | .bsync g _ => Check.first [(g.ok, .badGuard)]
  | .bstat g _ _ => Check.first [(g.ok, .badGuard)]
  | .tlwait g _ _ => Check.first [(g.ok, .badGuard)]
  | .tlread g _ _ _ _ => Check.first [(g.ok, .badGuard)]
  | .fence g _ kinds => Check.first [(Check.nonzero5 kinds, .reservedValue), (g.ok, .badGuard)]
  | .wake g _ _ => Check.first [(g.ok, .badGuard)]
  | .wait g _ _ => Check.first [(g.ok, .badGuard)]
  | .chinit g _ _ _ => Check.first [(g.ok, .badGuard)]
  | .send g _ _ _ _ => Check.first [(g.ok, .badGuard)]
  | .sendNb g _ _ _ _ => Check.first [(g.ok, .badGuard)]
  | .recv g _ _ _ => Check.first [(g.ok, .badGuard)]
  | .recvNb g _ _ _ => Check.first [(g.ok, .badGuard)]
  | .mshl g _ _ _ => Check.first [(g.ok, .badGuard)]
  | .mshf g _ _ field _ => Check.first [(Check.mshfField field, .reservedValue), (g.ok, .badGuard)]
  | .mshs g _ _ _ => Check.first [(g.ok, .badGuard)]
  | .mclaim g _ _ _ => Check.first [(g.ok, .badGuard)]
  | .mrel g _ _ => Check.first [(g.ok, .badGuard)]
  | .mld g _ _ _ _ _ => Check.first [(g.ok, .badGuard)]
  | .mldx g _ _ _ _ _ => Check.first [(g.ok, .badGuard)]
  | .mma g _ _ _ _ _ => Check.first [(g.ok, .badGuard)]
  | .mmaS g _ _ _ _ _ => Check.first [(g.ok, .badGuard)]
  | .mzero g _ _ => Check.first [(g.ok, .badGuard)]
  | .mmov g d _ _ _ _ _ => Check.first [(Check.quad d, .reservedValue), (g.ok, .badGuard)]
  | .mmovr g _ a _ _ => Check.first [(Check.quad a, .reservedValue), (g.ok, .badGuard)]
  | .mst g _ _ _ _ _ _ _ => Check.first [(g.ok, .badGuard)]
  | .mspec g mask _ => Check.first [(Check.nonzero8 mask, .reservedValue), (g.ok, .badGuard)]
  | .mresolve g _ _ => Check.first [(g.ok, .badGuard)]
  | .mcommit g _ => Check.first [(g.ok, .badGuard)]
  | .mdiscard g _ => Check.first [(g.ok, .badGuard)]
  | .tgemm g _ _ _ _ _ _ slot _ => Check.first [(Check.slotBase slot, .reservedValue), (g.ok, .badGuard)]
  | .tfact g _ a _ _ _ => Check.first [(Check.evenTile a, .reservedValue), (g.ok, .badGuard)]
  | .tsolve g d a _ _ => Check.first [(Check.evenTile d && Check.evenTile a && Check.tilesDiffer d a, .reservedValue), (g.ok, .badGuard)]
  | .mqpri g _ _ => Check.first [(g.ok, .badGuard)]
  | .mqsync g _ _ => Check.first [(g.ok, .badGuard)]
  | .launch _ _ _ _ => Check.first []
  | .exit => Check.first []
  | .yield _ => Check.first []
  | .halt => Check.first []
  | .gcall _ => Check.first []
  | .gret a abort => Check.first [(Check.gretOk a abort, .reservedValue)]
  | .trap _ => Check.first []
  | .eret => Check.first []
  | .sysr g _ idx => Check.first [(Check.sysrIndex idx, .reservedValue), (g.ok, .badGuard)]
  | .sysw g _ idx => Check.first [(Check.syswIndex idx, .reservedValue), (g.ok, .badGuard)]
  | .publish _ _ _ => Check.first []
  | .tlbinv g _ _ kind reach => Check.first [(Check.below3 kind && Check.below3 reach, .reservedValue), (g.ok, .badGuard)]
  | .lflush g _ _ _ reach => Check.first [(Check.below3 reach, .reservedValue), (g.ok, .badGuard)]
  | .l2cfg g _ _ _ _ => Check.first [(g.ok, .badGuard)]
  | .mscrub g _ _ _ => Check.first [(g.ok, .badGuard)]
  | .mspare g _ _ _ => Check.first [(g.ok, .badGuard)]
  | .mrmapRead g _ _ _ _ => Check.first [(g.ok, .badGuard)]
  | .mrmapWrite g _ _ _ _ => Check.first [(g.ok, .badGuard)]
  | .mrmapInvalidate g _ _ _ _ => Check.first [(g.ok, .badGuard)]
  | .mrmapSpareBitmap g _ _ _ _ => Check.first [(g.ok, .badGuard)]
  | .mliveNotLive g _ _ _ => Check.first [(g.ok, .badGuard)]
  | .mliveLive g _ _ _ => Check.first [(g.ok, .badGuard)]
  | .jrnl g _ _ word _ => Check.first [(Check.below3 word, .reservedValue), (g.ok, .badGuard)]
  | .msave g _ _ => Check.first [(g.ok, .badGuard)]
  | .bind g _ _ _ => Check.first [(g.ok, .badGuard)]
  | .gswitchCancel g _ _ _ => Check.first [(g.ok, .badGuard)]
  | .gswitchArm g _ _ _ => Check.first [(g.ok, .badGuard)]
  | .asyncTrapTaken _ => none
  | .waitConditionMet _ => none
  | .coprocessorPortAccept _ => none
  | .graverOpStart _ => none
  | .graverOpComplete _ _ => none
  | .bankGrant _ _ => none
  | .postedStoreArrival _ => none
  | .redPacketArrival _ => none
  | .wakeDelivery _ => none
  | .postedAcknowledge _ => none
  | .postedRefusal _ => none
  | .streamerPiece _ => none
  | .copyStatusLanding _ => none
  | .channelRetry _ => none
  | .tlbWalkComplete _ _ _ _ => none
  | .sliceRetryHint _ => none
  | .linkRetrain _ _ _ => none
  | .hbmDemandAccess _ _ => none
  | .trackerLeak => none
  | .mspareCopyEnd _ => none
  | .launchRegisterWrite _ _ _ _ => none
  | .lstatWrite _ _ _ => none
  | .belfryAdmission _ => none
  | .ageingStep _ => none
  | .dispatchFreshStart _ => none
  | .partitionResume _ => none
  | .gangSwitch _ => none
  | .regionRetire _ => none
  | .maxrunExpiry _ => none
  | .gstepsExpiry _ => none
  | .watchdogTimeout _ => none
  | .watchdogSwitchTimeout _ => none
  | .yieldTimeout _ => none
  | .semaphoreTake _ _ _ => none
  | .semaphoreRelease _ _ _ => none
  | .setshare _ _ _ => none
  | .setwdcfg _ _ _ _ => none
  | .traceCommand _ _ _ _ => none
  | .attest _ _ => none
  | .msixVectorUnmask _ _ => none
  | .hostBar4Access _ _ _ _ => none
  | .functionLevelReset _ => none
  | .registerWrite _ _ _ _ => none
  | .thaturLoad _ _ _ => none
  | .deviceReset => none
  | .powerCap _ _ => none
  | .thermalAlarm => none
  | .thermalShutdown => none
  | .spirePortSend _ => none
  | .softError _ _ => none

/-- An instruction the decoder can produce. -/
def Instr.wf (i : Instr) : Bool := i.check.isNone

/-- The rows of the table that are events of the device, without an encoding. -/
def Instr.isEvent : Instr → Bool
  | .asyncTrapTaken _ => true
  | .waitConditionMet _ => true
  | .coprocessorPortAccept _ => true
  | .graverOpStart _ => true
  | .graverOpComplete _ _ => true
  | .bankGrant _ _ => true
  | .postedStoreArrival _ => true
  | .redPacketArrival _ => true
  | .wakeDelivery _ => true
  | .postedAcknowledge _ => true
  | .postedRefusal _ => true
  | .streamerPiece _ => true
  | .copyStatusLanding _ => true
  | .channelRetry _ => true
  | .tlbWalkComplete _ _ _ _ => true
  | .sliceRetryHint _ => true
  | .linkRetrain _ _ _ => true
  | .hbmDemandAccess _ _ => true
  | .trackerLeak => true
  | .mspareCopyEnd _ => true
  | .launchRegisterWrite _ _ _ _ => true
  | .lstatWrite _ _ _ => true
  | .belfryAdmission _ => true
  | .ageingStep _ => true
  | .dispatchFreshStart _ => true
  | .partitionResume _ => true
  | .gangSwitch _ => true
  | .regionRetire _ => true
  | .maxrunExpiry _ => true
  | .gstepsExpiry _ => true
  | .watchdogTimeout _ => true
  | .watchdogSwitchTimeout _ => true
  | .yieldTimeout _ => true
  | .semaphoreTake _ _ _ => true
  | .semaphoreRelease _ _ _ => true
  | .setshare _ _ _ => true
  | .setwdcfg _ _ _ _ => true
  | .traceCommand _ _ _ _ => true
  | .attest _ _ => true
  | .msixVectorUnmask _ _ => true
  | .hostBar4Access _ _ _ _ => true
  | .functionLevelReset _ => true
  | .registerWrite _ _ _ _ => true
  | .thaturLoad _ _ _ => true
  | .deviceReset => true
  | .powerCap _ _ => true
  | .thermalAlarm => true
  | .thermalShutdown => true
  | .spirePortSend _ => true
  | .softError _ _ => true
  | _ => false

end Sys2Proof
end

