-- ==== Sys2Proof/Decode.lean ====
section
/-!
DEFINITION. Decoding and encoding (01_encoding R18-R33): the base fields of a word, the operation each pair of MAJ and
OP names, the operand forms, and the encoder, written from the same tables. A word decodes to an instruction only when
encoding that instruction gives the word back, so every bit without a role must be zero.
-/

namespace Sys2Proof

/-- The base fields of an instruction (01_encoding R23), with LEN and the immediate extension of R19. -/
structure Raw where
  len : BitVec 2 := 0
  maj : BitVec 7 := 0
  pg : BitVec 3 := 0
  pn : Bool := false
  d : BitVec 6 := 0
  a : BitVec 6 := 0
  b : BitVec 6 := 0
  c : BitVec 6 := 0
  op : BitVec 6 := 0
  t : BitVec 4 := 0
  i : Bool := false
  i16 : BitVec 16 := 0
  ext : BitVec 64 := 0
  deriving DecidableEq, Repr

/-- A field value of kinds S, P and N (01_encoding R27). -/
def fld {n : Nat} (r : BitVec n) : BitVec 6 := r.setWidth 6

/-- A field value of kind V: 32 + n (01_encoding R27). -/
def vfld (r : VReg) : BitVec 6 := 1#1 ++ r

/-- A subfield placed at bit k of I16. -/
def at16 {n : Nat} (x : BitVec n) (k : Nat) : BitVec 16 := x.setWidth 16 <<< k

/-- A subfield placed at bit k of I64. -/
def at64 {n : Nat} (x : BitVec n) (k : Nat) : BitVec 64 := x.setWidth 64 <<< k

/-- The guard fields of a word. -/
def Raw.guard (x : Raw) : Guard := ⟨x.pg, x.pn⟩

namespace SVReg
def fld : SVReg → BitVec 6
  | .s r => Sys2Proof.fld r
  | .v r => vfld r
def ofRaw (x : Raw) : SVReg := if x.a.getLsbD 5 then .v (x.a.setWidth 5) else .s (x.a.setWidth 5)
end SVReg

namespace RegRange
def first : RegRange → BitVec 6
  | .scalar f _ => fld f
  | .vector f _ => vfld f
def last : RegRange → BitVec 6
  | .scalar _ l => fld l
  | .vector _ l => vfld l
def ofRaw (x : Raw) : RegRange :=
  if x.a.getLsbD 5 then .vector (x.a.setWidth 5) (x.b.setWidth 5) else .scalar (x.a.setWidth 5) (x.b.setWidth 5)
end RegRange

namespace OpB
def fld : OpB → BitVec 6
  | .reg b | .reg96 b => Sys2Proof.fld b
  | .imm16 _ | .imm32 _ => 0
def isImm : OpB → Bool
  | .reg _ | .reg96 _ => false
  | .imm16 _ | .imm32 _ => true
def len : OpB → BitVec 2
  | .reg _ | .imm16 _ => 0
  | .reg96 _ | .imm32 _ => 1
def i16 : OpB → BitVec 16
  | .imm16 v => v
  | _ => 0
def ext : OpB → BitVec 64
  | .imm32 v => v.setWidth 64
  | _ => 0
def ofRaw (x : Raw) : OpB :=
  if x.i then (if x.len = 0 then .imm16 x.i16 else .imm32 (x.ext.setWidth 32))
  else (if x.len = 0 then .reg (x.b.setWidth 5) else .reg96 (x.b.setWidth 5))
end OpB

namespace OpB64
def fld : OpB64 → BitVec 6
  | .reg b => Sys2Proof.fld b
  | .imm16 _ => 0
def isImm : OpB64 → Bool
  | .reg _ => false
  | .imm16 _ => true
def i16 : OpB64 → BitVec 16
  | .imm16 v => v
  | _ => 0
def ofRaw (x : Raw) : OpB64 := if x.i then .imm16 x.i16 else .reg (x.b.setWidth 5)
end OpB64

namespace OpBV
def fld : OpBV → BitVec 6
  | .reg b => vfld b
  | .imm16 _ => 0
def isImm : OpBV → Bool
  | .reg _ => false
  | .imm16 _ => true
def i16 : OpBV → BitVec 16
  | .imm16 v => v
  | _ => 0
def ofRaw (x : Raw) : OpBV := if x.i then .imm16 x.i16 else .reg (x.b.setWidth 5)
end OpBV

namespace LeaB
def fld : LeaB → BitVec 6
  | .idx b _ | .idxDisp b _ _ => Sys2Proof.fld b
  | _ => 0
def isImm : LeaB → Bool
  | .imm16 _ | .imm32 _ => true
  | _ => false
def len : LeaB → BitVec 2
  | .idx _ _ | .imm16 _ => 0
  | .idxDisp _ _ _ | .imm32 _ => 1
def i16 : LeaB → BitVec 16
  | .idx _ sc | .idxDisp _ sc _ => sc.setWidth 16
  | .imm16 v => v
  | .imm32 _ => 0
def ext : LeaB → BitVec 64
  | .idxDisp _ _ disp => disp.setWidth 64
  | .imm32 v => v.setWidth 64
  | _ => 0
def ofRaw (x : Raw) : LeaB :=
  if x.i then (if x.len = 0 then .imm16 x.i16 else .imm32 (x.ext.setWidth 32))
  else (if x.len = 0 then .idx (x.b.setWidth 5) (x.i16.setWidth 3)
    else .idxDisp (x.b.setWidth 5) (x.i16.setWidth 3) (x.ext.setWidth 32))
end LeaB

namespace MoviImm
def len : MoviImm → BitVec 2
  | .imm16 _ => 0
  | .imm32 _ => 1
  | .imm64 _ => 2
def i16 : MoviImm → BitVec 16
  | .imm16 v => v
  | _ => 0
def ext : MoviImm → BitVec 64
  | .imm16 _ => 0
  | .imm32 v => v.setWidth 64
  | .imm64 v => v
def ofRaw (x : Raw) : MoviImm :=
  if x.len = 0 then .imm16 x.i16 else if x.len = 1 then .imm32 (x.ext.setWidth 32) else .imm64 x.ext
end MoviImm

namespace Offset
def len : Offset → BitVec 2
  | .off16 _ => 0
  | .off32 _ => 1
def i16 : Offset → BitVec 16
  | .off16 v => v
  | .off32 _ => 0
def ext : Offset → BitVec 64
  | .off16 _ => 0
  | .off32 v => v.setWidth 64
def ofRaw (x : Raw) : Offset := if x.len = 0 then .off16 x.i16 else .off32 (x.ext.setWidth 32)
end Offset

/-- The fields of an instruction, from the encoding tables of the spec; events and FILL have none. -/
def Instr.toRaw : Instr → Option Raw
  | .add g t d a b => some { maj := 0x00, op := 0x00, pg := g.pg, pn := g.pn, t := t.code, d := fld d, a := fld a, b := b.fld, i := b.isImm, len := b.len, ext := b.ext, i16 := b.i16 }
  | .sub g t d a b => some { maj := 0x00, op := 0x01, pg := g.pg, pn := g.pn, t := t.code, d := fld d, a := fld a, b := b.fld, i := b.isImm, len := b.len, ext := b.ext, i16 := b.i16 }
  | .and g t d a b => some { maj := 0x00, op := 0x02, pg := g.pg, pn := g.pn, t := t.code, d := fld d, a := fld a, b := b.fld, i := b.isImm, len := b.len, ext := b.ext, i16 := b.i16 }
  | .or g t d a b => some { maj := 0x00, op := 0x03, pg := g.pg, pn := g.pn, t := t.code, d := fld d, a := fld a, b := b.fld, i := b.isImm, len := b.len, ext := b.ext, i16 := b.i16 }
  | .xor g t d a b => some { maj := 0x00, op := 0x04, pg := g.pg, pn := g.pn, t := t.code, d := fld d, a := fld a, b := b.fld, i := b.isImm, len := b.len, ext := b.ext, i16 := b.i16 }
  | .andn g t d a b => some { maj := 0x00, op := 0x05, pg := g.pg, pn := g.pn, t := t.code, d := fld d, a := fld a, b := b.fld, i := b.isImm, len := b.len, ext := b.ext, i16 := b.i16 }
  | .shl g t d a b => some { maj := 0x00, op := 0x06, pg := g.pg, pn := g.pn, t := t.code, d := fld d, a := fld a, b := b.fld, i := b.isImm, len := b.len, ext := b.ext, i16 := b.i16 }
  | .shr g t d a b => some { maj := 0x00, op := 0x07, pg := g.pg, pn := g.pn, t := t.code, d := fld d, a := fld a, b := b.fld, i := b.isImm, len := b.len, ext := b.ext, i16 := b.i16 }
  | .sar g t d a b => some { maj := 0x00, op := 0x08, pg := g.pg, pn := g.pn, t := t.code, d := fld d, a := fld a, b := b.fld, i := b.isImm, len := b.len, ext := b.ext, i16 := b.i16 }
  | .ror g t d a b => some { maj := 0x00, op := 0x09, pg := g.pg, pn := g.pn, t := t.code, d := fld d, a := fld a, b := b.fld, i := b.isImm, len := b.len, ext := b.ext, i16 := b.i16 }
  | .min g t d a b => some { maj := 0x00, op := 0x0a, pg := g.pg, pn := g.pn, t := t.code, d := fld d, a := fld a, b := b.fld, i := b.isImm, len := b.len, ext := b.ext, i16 := b.i16 }
  | .max g t d a b => some { maj := 0x00, op := 0x0b, pg := g.pg, pn := g.pn, t := t.code, d := fld d, a := fld a, b := b.fld, i := b.isImm, len := b.len, ext := b.ext, i16 := b.i16 }
  | .mul g t d a b => some { maj := 0x01, op := 0x00, pg := g.pg, pn := g.pn, t := t.code, d := fld d, a := fld a, b := b.fld, i := b.isImm, len := b.len, ext := b.ext, i16 := b.i16 }
  | .mulh g t d a b => some { maj := 0x01, op := 0x01, pg := g.pg, pn := g.pn, t := t.code, d := fld d, a := fld a, b := b.fld, i := b.isImm, len := b.len, ext := b.ext, i16 := b.i16 }
  | .div g t d a b => some { maj := 0x01, op := 0x02, pg := g.pg, pn := g.pn, t := t.code, d := fld d, a := fld a, b := b.fld, i := b.isImm, len := b.len, ext := b.ext, i16 := b.i16 }
  | .rem g t d a b => some { maj := 0x01, op := 0x03, pg := g.pg, pn := g.pn, t := t.code, d := fld d, a := fld a, b := b.fld, i := b.isImm, len := b.len, ext := b.ext, i16 := b.i16 }
  | .clz g t d a => some { maj := 0x02, op := 0x00, pg := g.pg, pn := g.pn, t := t.code, d := fld d, a := fld a }
  | .ctz g t d a => some { maj := 0x02, op := 0x01, pg := g.pg, pn := g.pn, t := t.code, d := fld d, a := fld a }
  | .popc g t d a => some { maj := 0x02, op := 0x02, pg := g.pg, pn := g.pn, t := t.code, d := fld d, a := fld a }
  | .brev g t d a => some { maj := 0x02, op := 0x03, pg := g.pg, pn := g.pn, t := t.code, d := fld d, a := fld a }
  | .bswap g t d a => some { maj := 0x02, op := 0x04, pg := g.pg, pn := g.pn, t := t.code, d := fld d, a := fld a }
  | .bext g t d a pos lenM1 => some { maj := 0x02, op := 0x05, pg := g.pg, pn := g.pn, t := t.code, d := fld d, a := fld a, i16 := at16 pos 0 ||| at16 lenM1 6 }
  | .bins g t d a pos lenM1 => some { maj := 0x02, op := 0x06, pg := g.pg, pn := g.pn, t := t.code, d := fld d, a := fld a, i16 := at16 pos 0 ||| at16 lenM1 6 }
  | .sext g t d a => some { maj := 0x09, op := 0x00, pg := g.pg, pn := g.pn, t := t.code, d := fld d, a := fld a }
  | .zext g t d a => some { maj := 0x09, op := 0x01, pg := g.pg, pn := g.pn, t := t.code, d := fld d, a := fld a }
  | .cmpEq g t d a b => some { maj := 0x03, op := 0x00, pg := g.pg, pn := g.pn, t := t.code, d := fld d, a := fld a, b := b.fld, i := b.isImm, len := b.len, ext := b.ext, i16 := b.i16 }
  | .cmpNe g t d a b => some { maj := 0x03, op := 0x01, pg := g.pg, pn := g.pn, t := t.code, d := fld d, a := fld a, b := b.fld, i := b.isImm, len := b.len, ext := b.ext, i16 := b.i16 }
  | .cmpLt g t d a b => some { maj := 0x03, op := 0x02, pg := g.pg, pn := g.pn, t := t.code, d := fld d, a := fld a, b := b.fld, i := b.isImm, len := b.len, ext := b.ext, i16 := b.i16 }
  | .cmpLe g t d a b => some { maj := 0x03, op := 0x03, pg := g.pg, pn := g.pn, t := t.code, d := fld d, a := fld a, b := b.fld, i := b.isImm, len := b.len, ext := b.ext, i16 := b.i16 }
  | .cmpGt g t d a b => some { maj := 0x03, op := 0x04, pg := g.pg, pn := g.pn, t := t.code, d := fld d, a := fld a, b := b.fld, i := b.isImm, len := b.len, ext := b.ext, i16 := b.i16 }
  | .cmpGe g t d a b => some { maj := 0x03, op := 0x05, pg := g.pg, pn := g.pn, t := t.code, d := fld d, a := fld a, b := b.fld, i := b.isImm, len := b.len, ext := b.ext, i16 := b.i16 }
  | .pand g d a b => some { maj := 0x04, op := 0x00, pg := g.pg, pn := g.pn, d := fld d, a := fld a, b := fld b }
  | .por g d a b => some { maj := 0x04, op := 0x01, pg := g.pg, pn := g.pn, d := fld d, a := fld a, b := fld b }
  | .pxor g d a b => some { maj := 0x04, op := 0x02, pg := g.pg, pn := g.pn, d := fld d, a := fld a, b := fld b }
  | .pandn g d a b => some { maj := 0x04, op := 0x03, pg := g.pg, pn := g.pn, d := fld d, a := fld a, b := fld b }
  | .pnot g d a => some { maj := 0x04, op := 0x04, pg := g.pg, pn := g.pn, d := fld d, a := fld a }
  | .pmov g d a => some { maj := 0x04, op := 0x05, pg := g.pg, pn := g.pn, d := fld d, a := fld a }
  | .pset g d imm => some { maj := 0x04, op := 0x06, pg := g.pg, pn := g.pn, d := fld d, i := true, len := 1, ext := imm.setWidth 64 }
  | .movi g d imm => some { maj := 0x05, op := 0x00, pg := g.pg, pn := g.pn, d := fld d, i := true, len := imm.len, ext := imm.ext, i16 := imm.i16 }
  | .mov g d a => some { maj := 0x05, op := 0x01, pg := g.pg, pn := g.pn, d := fld d, a := fld a }
  | .lea g d a b => some { maj := 0x05, op := 0x02, pg := g.pg, pn := g.pn, d := fld d, a := fld a, b := b.fld, i := b.isImm, len := b.len, ext := b.ext, i16 := b.i16 }
  | .sel g d a b c => some { maj := 0x05, op := 0x03, pg := g.pg, pn := g.pn, d := fld d, a := fld a, b := fld b, c := fld c }
  | .qcap g d b => some { maj := 0x06, op := 0x00, pg := g.pg, pn := g.pn, d := fld d, b := b.fld, i := b.isImm, i16 := b.i16 }
  | .rndc g d a b => some { maj := 0x06, op := 0x01, pg := g.pg, pn := g.pn, d := fld d, a := fld a, b := fld b }
  | .mfs g d idx => some { maj := 0x07, op := 0x00, pg := g.pg, pn := g.pn, d := fld d, i16 := at16 idx 0 }
  | .mts g a idx => some { maj := 0x07, op := 0x01, pg := g.pg, pn := g.pn, a := fld a, i16 := at16 idx 0 }
  | .mtsWp g a => some { maj := 0x07, op := 0x01, pg := g.pg, pn := g.pn, a := fld a }
  | .pushm g r => some { maj := 0x08, op := 0x00, pg := g.pg, pn := g.pn, a := r.first, b := r.last }
  | .popm g r => some { maj := 0x08, op := 0x01, pg := g.pg, pn := g.pn, a := r.first, b := r.last }
  | .fadd g t d a b => some { maj := 0x10, op := 0x00, pg := g.pg, pn := g.pn, t := t.code, d := fld d, a := fld a, b := fld b }
  | .fsub g t d a b => some { maj := 0x10, op := 0x01, pg := g.pg, pn := g.pn, t := t.code, d := fld d, a := fld a, b := fld b }
  | .fmul g t d a b => some { maj := 0x10, op := 0x02, pg := g.pg, pn := g.pn, t := t.code, d := fld d, a := fld a, b := fld b }
  | .fdiv g t d a b => some { maj := 0x10, op := 0x03, pg := g.pg, pn := g.pn, t := t.code, d := fld d, a := fld a, b := fld b }
  | .fsqrt g t d a => some { maj := 0x10, op := 0x04, pg := g.pg, pn := g.pn, t := t.code, d := fld d, a := fld a }
  | .fmin g t d a b => some { maj := 0x10, op := 0x05, pg := g.pg, pn := g.pn, t := t.code, d := fld d, a := fld a, b := fld b }
  | .fmax g t d a b => some { maj := 0x10, op := 0x06, pg := g.pg, pn := g.pn, t := t.code, d := fld d, a := fld a, b := fld b }
  | .fneg g t d a => some { maj := 0x10, op := 0x07, pg := g.pg, pn := g.pn, t := t.code, d := fld d, a := fld a }
  | .fabs g t d a => some { maj := 0x10, op := 0x08, pg := g.pg, pn := g.pn, t := t.code, d := fld d, a := fld a }
  | .fma g t d a b c => some { maj := 0x11, op := 0x00, pg := g.pg, pn := g.pn, t := t.code, d := fld d, a := fld a, b := fld b, c := fld c }
  | .fms g t d a b c => some { maj := 0x11, op := 0x01, pg := g.pg, pn := g.pn, t := t.code, d := fld d, a := fld a, b := fld b, c := fld c }
  | .fnma g t d a b c => some { maj := 0x11, op := 0x02, pg := g.pg, pn := g.pn, t := t.code, d := fld d, a := fld a, b := fld b, c := fld c }
  | .fnms g t d a b c => some { maj := 0x11, op := 0x03, pg := g.pg, pn := g.pn, t := t.code, d := fld d, a := fld a, b := fld b, c := fld c }
  | .fcmpEq g t d a b => some { maj := 0x12, op := 0x00, pg := g.pg, pn := g.pn, t := t.code, d := fld d, a := fld a, b := fld b }
  | .fcmpLt g t d a b => some { maj := 0x12, op := 0x01, pg := g.pg, pn := g.pn, t := t.code, d := fld d, a := fld a, b := fld b }
  | .fcmpLe g t d a b => some { maj := 0x12, op := 0x02, pg := g.pg, pn := g.pn, t := t.code, d := fld d, a := fld a, b := fld b }
  | .fcmpUn g t d a b => some { maj := 0x12, op := 0x03, pg := g.pg, pn := g.pn, t := t.code, d := fld d, a := fld a, b := fld b }
  | .fcvt g t d a src rm => some { maj := 0x13, op := 0x00, pg := g.pg, pn := g.pn, t := t.code, d := fld d, a := fld a, i16 := at16 src.code 0 ||| at16 rm 4 }
  | .fclass g t d a => some { maj := 0x13, op := 0x01, pg := g.pg, pn := g.pn, t := t.code, d := fld d, a := fld a }
  | .br g off => some { maj := 0x18, op := 0x00, pg := g.pg, pn := g.pn, len := off.len, ext := off.ext, i16 := off.i16 }
  | .call g d off => some { maj := 0x19, op := 0x00, pg := g.pg, pn := g.pn, d := fld d, len := off.len, ext := off.ext, i16 := off.i16 }
  | .jmp g d a => some { maj := 0x1a, op := 0x00, pg := g.pg, pn := g.pn, d := fld d, a := fld a }
  | .ret g a => some { maj := 0x1a, op := 0x01, pg := g.pg, pn := g.pn, a := fld a }
  | .brx g a b count => some { maj := 0x1b, op := 0x00, pg := g.pg, pn := g.pn, a := fld a, b := fld b, i16 := at16 count 0 }
  | .loop g a off => some { maj := 0x1c, op := 0x00, pg := g.pg, pn := g.pn, a := fld a, i16 := at16 off 0 }
  | .rep a lenM1 stride mask => some { maj := 0x1d, op := 0x00, a := fld a, i16 := at16 lenM1 0 ||| at16 stride 4 ||| at16 mask 12 }
  | .nop g => some { maj := 0x1e, op := 0x00, pg := g.pg, pn := g.pn }
  | .hint g code => some { maj := 0x1e, op := 0x01, pg := g.pg, pn := g.pn, i16 := at16 code 0 }
  | .unchain => some { maj := 0x1f, op := 0x00 }
  | .rechain slot => some { maj := 0x1f, op := 0x01, i16 := at16 slot 0 }
  | .vadd g t d a b => some { maj := 0x20, op := 0x00, pg := g.pg, pn := g.pn, t := t.code, d := vfld d, a := vfld a, b := vfld b }
  | .vsub g t d a b => some { maj := 0x20, op := 0x01, pg := g.pg, pn := g.pn, t := t.code, d := vfld d, a := vfld a, b := vfld b }
  | .vmul g t d a b => some { maj := 0x20, op := 0x02, pg := g.pg, pn := g.pn, t := t.code, d := vfld d, a := vfld a, b := vfld b }
  | .vmin g t d a b => some { maj := 0x20, op := 0x03, pg := g.pg, pn := g.pn, t := t.code, d := vfld d, a := vfld a, b := vfld b }
  | .vmax g t d a b => some { maj := 0x20, op := 0x04, pg := g.pg, pn := g.pn, t := t.code, d := vfld d, a := vfld a, b := vfld b }
  | .vneg g t d a => some { maj := 0x20, op := 0x05, pg := g.pg, pn := g.pn, t := t.code, d := vfld d, a := vfld a }
  | .vabs g t d a => some { maj := 0x20, op := 0x06, pg := g.pg, pn := g.pn, t := t.code, d := vfld d, a := vfld a }
  | .vfma g t d a b c => some { maj := 0x21, op := 0x00, pg := g.pg, pn := g.pn, t := t.code, d := vfld d, a := vfld a, b := vfld b, c := vfld c }
  | .vfms g t d a b c => some { maj := 0x21, op := 0x01, pg := g.pg, pn := g.pn, t := t.code, d := vfld d, a := vfld a, b := vfld b, c := vfld c }
  | .vfnma g t d a b c => some { maj := 0x21, op := 0x02, pg := g.pg, pn := g.pn, t := t.code, d := vfld d, a := vfld a, b := vfld b, c := vfld c }
  | .vfnms g t d a b c => some { maj := 0x21, op := 0x03, pg := g.pg, pn := g.pn, t := t.code, d := vfld d, a := vfld a, b := vfld b, c := vfld c }
  | .vdiv g t d a b => some { maj := 0x22, op := 0x00, pg := g.pg, pn := g.pn, t := t.code, d := vfld d, a := vfld a, b := vfld b }
  | .vrcp g t d a => some { maj := 0x22, op := 0x02, pg := g.pg, pn := g.pn, t := t.code, d := vfld d, a := vfld a }
  | .vsqrt g t d a => some { maj := 0x22, op := 0x01, pg := g.pg, pn := g.pn, t := t.code, d := vfld d, a := vfld a }
  | .vrsqrt g t d a => some { maj := 0x22, op := 0x03, pg := g.pg, pn := g.pn, t := t.code, d := vfld d, a := vfld a }
  | .vexp g t d a => some { maj := 0x23, op := 0x00, pg := g.pg, pn := g.pn, t := t.code, d := vfld d, a := vfld a }
  | .vlog g t d a => some { maj := 0x23, op := 0x01, pg := g.pg, pn := g.pn, t := t.code, d := vfld d, a := vfld a }
  | .vsincos g t d a => some { maj := 0x23, op := 0x02, pg := g.pg, pn := g.pn, t := t.code, d := vfld d, a := vfld a }
  | .vtanh g t d a => some { maj := 0x23, op := 0x03, pg := g.pg, pn := g.pn, t := t.code, d := vfld d, a := vfld a }
  | .vsigm g t d a => some { maj := 0x23, op := 0x04, pg := g.pg, pn := g.pn, t := t.code, d := vfld d, a := vfld a }
  | .vcmpEq g t d a b => some { maj := 0x24, op := 0x00, pg := g.pg, pn := g.pn, t := t.code, d := fld d, a := vfld a, b := vfld b }
  | .vcmpNe g t d a b => some { maj := 0x24, op := 0x01, pg := g.pg, pn := g.pn, t := t.code, d := fld d, a := vfld a, b := vfld b }
  | .vcmpLt g t d a b => some { maj := 0x24, op := 0x02, pg := g.pg, pn := g.pn, t := t.code, d := fld d, a := vfld a, b := vfld b }
  | .vcmpLe g t d a b => some { maj := 0x24, op := 0x03, pg := g.pg, pn := g.pn, t := t.code, d := fld d, a := vfld a, b := vfld b }
  | .vsel g d a b c width => some { maj := 0x24, op := 0x04, pg := g.pg, pn := g.pn, d := vfld d, a := vfld a, b := vfld b, c := fld c, i16 := at16 width 0 }
  | .vcvt g t d a src q rm => some { maj := 0x25, op := 0x00, pg := g.pg, pn := g.pn, t := t.code, d := vfld d, a := vfld a, i16 := at16 src.code 0 ||| at16 q 4 ||| at16 rm 6 }
  | .vqmx g d a b fmt => some { maj := 0x25, op := 0x01, pg := g.pg, pn := g.pn, t := 14, d := vfld d, a := vfld a, b := fld b, i16 := at16 fmt 0 }
  | .vdqmx g d a b fmt => some { maj := 0x25, op := 0x02, pg := g.pg, pn := g.pn, t := 14, d := vfld d, a := vfld a, b := fld b, i16 := at16 fmt 0 }
  | .vredAdd g t d a => some { maj := 0x26, op := 0x00, pg := g.pg, pn := g.pn, t := t.code, d := vfld d, a := vfld a }
  | .vredMin g t d a => some { maj := 0x26, op := 0x01, pg := g.pg, pn := g.pn, t := t.code, d := vfld d, a := vfld a }
  | .vredMax g t d a => some { maj := 0x26, op := 0x02, pg := g.pg, pn := g.pn, t := t.code, d := vfld d, a := vfld a }
  | .vaddInt g t d a b => some { maj := 0x27, op := 0x00, pg := g.pg, pn := g.pn, t := t.code, d := vfld d, a := vfld a, b := b.fld, i := b.isImm, i16 := b.i16 }
  | .vsubInt g t d a b => some { maj := 0x27, op := 0x01, pg := g.pg, pn := g.pn, t := t.code, d := vfld d, a := vfld a, b := b.fld, i := b.isImm, i16 := b.i16 }
  | .vand g t d a b => some { maj := 0x27, op := 0x02, pg := g.pg, pn := g.pn, t := t.code, d := vfld d, a := vfld a, b := b.fld, i := b.isImm, i16 := b.i16 }
  | .vor g t d a b => some { maj := 0x27, op := 0x03, pg := g.pg, pn := g.pn, t := t.code, d := vfld d, a := vfld a, b := b.fld, i := b.isImm, i16 := b.i16 }
  | .vxor g t d a b => some { maj := 0x27, op := 0x04, pg := g.pg, pn := g.pn, t := t.code, d := vfld d, a := vfld a, b := b.fld, i := b.isImm, i16 := b.i16 }
  | .vshl g t d a b => some { maj := 0x27, op := 0x05, pg := g.pg, pn := g.pn, t := t.code, d := vfld d, a := vfld a, b := b.fld, i := b.isImm, i16 := b.i16 }
  | .vshr g t d a b => some { maj := 0x27, op := 0x06, pg := g.pg, pn := g.pn, t := t.code, d := vfld d, a := vfld a, b := b.fld, i := b.isImm, i16 := b.i16 }
  | .vsar g t d a b => some { maj := 0x27, op := 0x07, pg := g.pg, pn := g.pn, t := t.code, d := vfld d, a := vfld a, b := b.fld, i := b.isImm, i16 := b.i16 }
  | .vminInt g t d a b => some { maj := 0x27, op := 0x08, pg := g.pg, pn := g.pn, t := t.code, d := vfld d, a := vfld a, b := b.fld, i := b.isImm, i16 := b.i16 }
  | .vmaxInt g t d a b => some { maj := 0x27, op := 0x09, pg := g.pg, pn := g.pn, t := t.code, d := vfld d, a := vfld a, b := b.fld, i := b.isImm, i16 := b.i16 }
  | .vadds g t d a b => some { maj := 0x27, op := 0x0a, pg := g.pg, pn := g.pn, t := t.code, d := vfld d, a := vfld a, b := b.fld, i := b.isImm, i16 := b.i16 }
  | .vsubs g t d a b => some { maj := 0x27, op := 0x0b, pg := g.pg, pn := g.pn, t := t.code, d := vfld d, a := vfld a, b := b.fld, i := b.isImm, i16 := b.i16 }
  | .vcmpEqInt g t d a b => some { maj := 0x27, op := 0x0c, pg := g.pg, pn := g.pn, t := t.code, d := fld d, a := vfld a, b := b.fld, i := b.isImm, i16 := b.i16 }
  | .vcmpNeInt g t d a b => some { maj := 0x27, op := 0x0d, pg := g.pg, pn := g.pn, t := t.code, d := fld d, a := vfld a, b := b.fld, i := b.isImm, i16 := b.i16 }
  | .vcmpLtInt g t d a b => some { maj := 0x27, op := 0x0e, pg := g.pg, pn := g.pn, t := t.code, d := fld d, a := vfld a, b := b.fld, i := b.isImm, i16 := b.i16 }
  | .vcmpLeInt g t d a b => some { maj := 0x27, op := 0x0f, pg := g.pg, pn := g.pn, t := t.code, d := fld d, a := vfld a, b := b.fld, i := b.isImm, i16 := b.i16 }
  | .vmulInt g t d a b => some { maj := 0x28, op := 0x00, pg := g.pg, pn := g.pn, t := t.code, d := vfld d, a := vfld a, b := vfld b }
  | .vmulh g t d a b => some { maj := 0x28, op := 0x01, pg := g.pg, pn := g.pn, t := t.code, d := vfld d, a := vfld a, b := vfld b }
  | .vmac g t d a b => some { maj := 0x28, op := 0x02, pg := g.pg, pn := g.pn, t := t.code, d := vfld d, a := vfld a, b := vfld b }
  | .vsat g t d a m => some { maj := 0x28, op := 0x03, pg := g.pg, pn := g.pn, t := t.code, d := vfld d, a := vfld a, i16 := at16 m 0 }
  | .vdot4 g t d a b => some { maj := 0x29, op := 0x00, pg := g.pg, pn := g.pn, t := t.code, d := vfld d, a := vfld a, b := vfld b }
  | .vdot2 g t d a b => some { maj := 0x29, op := 0x01, pg := g.pg, pn := g.pn, t := t.code, d := vfld d, a := vfld a, b := vfld b }
  | .vcmul g t d a b sh => some { maj := 0x2a, op := 0x00, pg := g.pg, pn := g.pn, t := t.code, d := vfld d, a := vfld a, b := vfld b, i16 := at16 sh 0 }
  | .vcmac g t d a b sh => some { maj := 0x2a, op := 0x01, pg := g.pg, pn := g.pn, t := t.code, d := vfld d, a := vfld a, b := vfld b, i16 := at16 sh 0 }
  | .vconj g t d a => some { maj := 0x2a, op := 0x02, pg := g.pg, pn := g.pn, t := t.code, d := vfld d, a := vfld a }
  | .vbfly g t d a b c => some { maj := 0x2b, op := 0x00, pg := g.pg, pn := g.pn, t := t.code, d := vfld d, a := vfld a, b := vfld b, c := vfld c }
  | .vbflys g t d a b c => some { maj := 0x2b, op := 0x01, pg := g.pg, pn := g.pn, t := t.code, d := vfld d, a := vfld a, b := vfld b, c := vfld c }
  | .vperm g t d a b => some { maj := 0x2c, op := 0x00, pg := g.pg, pn := g.pn, t := t.code, d := vfld d, a := vfld a, b := vfld b }
  | .vshuf g t d a b c => some { maj := 0x2c, op := 0x01, pg := g.pg, pn := g.pn, t := t.code, d := vfld d, a := vfld a, b := vfld b, c := vfld c }
  | .vrot g t d a b => some { maj := 0x2c, op := 0x02, pg := g.pg, pn := g.pn, t := t.code, d := vfld d, a := vfld a, b := b.fld, i := b.isImm, i16 := b.i16 }
  | .vbcast g t d a j => some { maj := 0x2c, op := 0x03, pg := g.pg, pn := g.pn, t := t.code, d := vfld d, a := vfld a, i16 := at16 j 0 }
  | .vmov g d a width => some { maj := 0x2d, op := 0x00, pg := g.pg, pn := g.pn, d := vfld d, a := vfld a, i16 := at16 width 0 }
  | .vins g t d a j => some { maj := 0x2d, op := 0x01, pg := g.pg, pn := g.pn, t := t.code, d := vfld d, a := fld a, i16 := at16 j 0 }
  | .vext g t d a j => some { maj := 0x2d, op := 0x02, pg := g.pg, pn := g.pn, t := t.code, d := fld d, a := vfld a, i16 := at16 j 0 }
  | .vsplat g t d a => some { maj := 0x2d, op := 0x03, pg := g.pg, pn := g.pn, t := t.code, d := vfld d, a := fld a }
  | .jseed g t d a => some { maj := 0x2e, op := 0x00, pg := g.pg, pn := g.pn, t := t.code, d := vfld d, a := a.fld }
  | .jext g t d a k => some { maj := 0x2e, op := 0x01, pg := g.pg, pn := g.pn, t := t.code, d := vfld d, a := vfld a, i16 := at16 k 0 }
  | .jplane g t d a k m => some { maj := 0x2e, op := 0x02, pg := g.pg, pn := g.pn, t := t.code, d := vfld d, a := vfld a, i16 := at16 k 0 ||| at16 m 3 }
  | .jclr g mask => some { maj := 0x2e, op := 0x03, pg := g.pg, pn := g.pn, i16 := at16 mask 0 }
  | .ld g t d a b => some { maj := 0x40, op := 0x00, pg := g.pg, pn := g.pn, t := t.code, d := fld d, a := fld a, b := b.fld, i := b.isImm, len := b.len, ext := b.ext, i16 := b.i16 }
  | .st g t a b c => some { maj := 0x41, op := 0x00, pg := g.pg, pn := g.pn, t := t.code, a := fld a, b := b.fld, i := b.isImm, len := b.len, ext := b.ext, c := fld c, i16 := b.i16 }
  | .vld g d a b => some { maj := 0x42, op := 0x00, pg := g.pg, pn := g.pn, d := vfld d, a := fld a, b := b.fld, i := b.isImm, len := b.len, ext := b.ext, i16 := b.i16 }
  | .vst g a b c => some { maj := 0x43, op := 0x00, pg := g.pg, pn := g.pn, a := fld a, b := b.fld, i := b.isImm, len := b.len, ext := b.ext, c := vfld c, i16 := b.i16 }
  | .vgather g t d a b stride => some { maj := 0x44, op := 0x00, pg := g.pg, pn := g.pn, t := t.code, d := vfld d, a := fld a, b := vfld b, i16 := at16 stride 0 }
  | .vscatter g t a b c stride => some { maj := 0x44, op := 0x01, pg := g.pg, pn := g.pn, t := t.code, a := fld a, b := vfld b, c := vfld c, i16 := at16 stride 0 }
  | .ldb g d a nM1 => some { maj := 0x45, op := 0x00, pg := g.pg, pn := g.pn, d := vfld d, a := fld a, i16 := at16 nM1 0 }
  | .amoAdd g t d a b => some { maj := 0x46, op := 0x00, pg := g.pg, pn := g.pn, t := t.code, d := fld d, a := fld a, b := fld b }
  | .amoAnd g t d a b => some { maj := 0x46, op := 0x01, pg := g.pg, pn := g.pn, t := t.code, d := fld d, a := fld a, b := fld b }
  | .amoOr g t d a b => some { maj := 0x46, op := 0x02, pg := g.pg, pn := g.pn, t := t.code, d := fld d, a := fld a, b := fld b }
  | .amoXor g t d a b => some { maj := 0x46, op := 0x03, pg := g.pg, pn := g.pn, t := t.code, d := fld d, a := fld a, b := fld b }
  | .amoMin g t d a b => some { maj := 0x46, op := 0x04, pg := g.pg, pn := g.pn, t := t.code, d := fld d, a := fld a, b := fld b }
  | .amoMax g t d a b => some { maj := 0x46, op := 0x05, pg := g.pg, pn := g.pn, t := t.code, d := fld d, a := fld a, b := fld b }
  | .amoSwap g t d a b => some { maj := 0x46, op := 0x06, pg := g.pg, pn := g.pn, t := t.code, d := fld d, a := fld a, b := fld b }
  | .amoCas g t d a b c => some { maj := 0x46, op := 0x07, pg := g.pg, pn := g.pn, t := t.code, d := fld d, a := fld a, b := fld b, c := fld c }
  | .amoFadd g t d a b => some { maj := 0x46, op := 0x08, pg := g.pg, pn := g.pn, t := t.code, d := fld d, a := fld a, b := fld b }
  | .amoFaddOrd g t d a b c last => some { maj := 0x46, op := 0x09, pg := g.pg, pn := g.pn, t := t.code, d := fld d, a := fld a, b := fld b, c := fld c, i16 := at16 last 0 }
  | .redAdd g t a b => some { maj := 0x47, op := 0x00, pg := g.pg, pn := g.pn, t := t.code, a := fld a, b := fld b }
  | .redMin g t a b => some { maj := 0x47, op := 0x01, pg := g.pg, pn := g.pn, t := t.code, a := fld a, b := fld b }
  | .redMax g t a b => some { maj := 0x47, op := 0x02, pg := g.pg, pn := g.pn, t := t.code, a := fld a, b := fld b }
  | .redAddOrd g t a b c last => some { maj := 0x47, op := 0x10, pg := g.pg, pn := g.pn, t := t.code, a := fld a, b := fld b, c := fld c, i16 := at16 last 0 }
  | .redMinOrd g t a b c last => some { maj := 0x47, op := 0x11, pg := g.pg, pn := g.pn, t := t.code, a := fld a, b := fld b, c := fld c, i16 := at16 last 0 }
  | .redMaxOrd g t a b c last => some { maj := 0x47, op := 0x12, pg := g.pg, pn := g.pn, t := t.code, a := fld a, b := fld b, c := fld c, i16 := at16 last 0 }
  | .pref g a level => some { maj := 0x48, op := 0x00, pg := g.pg, pn := g.pn, a := fld a, i16 := at16 level 0 }
  | .chint g a hop => some { maj := 0x48, op := 0x01, pg := g.pg, pn := g.pn, a := fld a, i16 := at16 hop 0 }
  | .copy g d a b c bslot bar tlk tls => some { maj := 0x50, op := 0x00, pg := g.pg, pn := g.pn, len := 2, ext := at64 bslot 0 ||| at64 bar 8 ||| at64 tlk 9 ||| at64 tls 12, d := fld d, a := fld a, b := fld b, c := fld c }
  | .copyh g d a b c bslot bar tlk tls hfrom => some { maj := 0x51, op := 0x00, pg := g.pg, pn := g.pn, len := 2, ext := at64 bslot 0 ||| at64 bar 8 ||| at64 tlk 9 ||| at64 tls 12 ||| at64 hfrom 13, d := fld d, a := fld a, b := fld b, c := fld c }
  | .binit g a slot => some { maj := 0x52, op := 0x00, pg := g.pg, pn := g.pn, a := fld a, i16 := at16 slot 0 }
  | .barrive g d slot => some { maj := 0x52, op := 0x01, pg := g.pg, pn := g.pn, d := fld d, i16 := at16 slot 0 }
  | .bwait g a slot => some { maj := 0x52, op := 0x02, pg := g.pg, pn := g.pn, a := fld a, i16 := at16 slot 0 }
  | .bsync g slot => some { maj := 0x52, op := 0x03, pg := g.pg, pn := g.pn, i16 := at16 slot 0 }
  | .bstat g d slot => some { maj := 0x52, op := 0x04, pg := g.pg, pn := g.pn, d := fld d, i16 := at16 slot 0 }
  | .tlwait g a b => some { maj := 0x53, op := 0x00, pg := g.pg, pn := g.pn, a := fld a, b := b.fld, i := b.isImm, len := b.len, ext := b.ext, i16 := b.i16 }
  | .tlread g d a wide selr => some { maj := 0x53, op := 0x01, pg := g.pg, pn := g.pn, d := fld d, a := fld a, len := cond wide 1 0, i16 := at16 selr 0 }
  | .fence g a kinds => some { maj := 0x54, op := 0x00, pg := g.pg, pn := g.pn, a := fld a, i16 := at16 kinds 0 }
  | .wake g a b => some { maj := 0x55, op := 0x00, pg := g.pg, pn := g.pn, a := fld a, b := b.fld, i := b.isImm, i16 := b.i16 }
  | .wait g d b => some { maj := 0x55, op := 0x01, pg := g.pg, pn := g.pn, d := fld d, b := b.fld, i := b.isImm, i16 := b.i16 }
  | .chinit g a b c => some { maj := 0x56, op := 0x00, pg := g.pg, pn := g.pn, a := fld a, b := fld b, c := fld c }
  | .send g d a b c => some { maj := 0x56, op := 0x01, pg := g.pg, pn := g.pn, d := fld d, a := fld a, b := fld b, c := fld c }
  | .sendNb g d a b c => some { maj := 0x56, op := 0x02, pg := g.pg, pn := g.pn, d := fld d, a := fld a, b := fld b, c := fld c }
  | .recv g d a b => some { maj := 0x56, op := 0x03, pg := g.pg, pn := g.pn, d := fld d, a := fld a, b := fld b }
  | .recvNb g d a b => some { maj := 0x56, op := 0x04, pg := g.pg, pn := g.pn, d := fld d, a := fld a, b := fld b }
  | .mshl g d a q => some { maj := 0x60, op := 0x00, pg := g.pg, pn := g.pn, d := fld d, a := fld a, i16 := at16 q 14 }
  | .mshf g d a field q => some { maj := 0x60, op := 0x01, pg := g.pg, pn := g.pn, d := fld d, a := fld a, i16 := at16 field 0 ||| at16 q 14 }
  | .mshs g a b q => some { maj := 0x60, op := 0x02, pg := g.pg, pn := g.pn, a := fld a, b := fld b, i16 := at16 q 14 }
  | .mclaim g d countM1 log2a => some { maj := 0x61, op := 0x00, pg := g.pg, pn := g.pn, d := fld d, i16 := at16 countM1 0 ||| at16 log2a 7 }
  | .mrel g a countM1 => some { maj := 0x61, op := 0x01, pg := g.pg, pn := g.pn, a := fld a, i16 := at16 countM1 0 }
  | .mld g d a slot tr q => some { maj := 0x62, op := 0x00, pg := g.pg, pn := g.pn, d := fld d, a := fld a, i16 := at16 slot 0 ||| at16 tr 7 ||| at16 q 14 }
  | .mldx g d a slot tr q => some { maj := 0x62, op := 0x01, pg := g.pg, pn := g.pn, d := fld d, a := fld a, i16 := at16 slot 0 ||| at16 tr 7 ||| at16 q 14 }
  | .mma g d c slotA slotB q => some { maj := 0x63, op := 0x00, pg := g.pg, pn := g.pn, d := fld d, c := fld c, i16 := at16 slotA 0 ||| at16 slotB 7 ||| at16 q 14 }
  | .mmaS g d c slotA slotB q => some { maj := 0x63, op := 0x01, pg := g.pg, pn := g.pn, d := fld d, c := fld c, i16 := at16 slotA 0 ||| at16 slotB 7 ||| at16 q 14 }
  | .mzero g d q => some { maj := 0x64, op := 0x00, pg := g.pg, pn := g.pn, d := fld d, i16 := at16 q 14 }
  | .mmov g d a row sh intf q => some { maj := 0x64, op := 0x01, pg := g.pg, pn := g.pn, d := vfld d, a := fld a, i16 := at16 row 0 ||| at16 sh 4 ||| at16 intf 5 ||| at16 q 14 }
  | .mmovr g d a row q => some { maj := 0x64, op := 0x02, pg := g.pg, pn := g.pn, d := fld d, a := vfld a, i16 := at16 row 0 ||| at16 q 14 }
  | .mst g d a b c sc cplx q => some { maj := 0x64, op := 0x03, pg := g.pg, pn := g.pn, d := fld d, a := fld a, b := fld b, c := fld c, i16 := at16 sc 0 ||| at16 cplx 4 ||| at16 q 14 }
  | .mspec g mask q => some { maj := 0x65, op := 0x00, pg := g.pg, pn := g.pn, i16 := at16 mask 0 ||| at16 q 14 }
  | .mresolve g c q => some { maj := 0x65, op := 0x01, pg := g.pg, pn := g.pn, c := fld c, i16 := at16 q 14 }
  | .mcommit g q => some { maj := 0x65, op := 0x02, pg := g.pg, pn := g.pn, i16 := at16 q 14 }
  | .mdiscard g q => some { maj := 0x65, op := 0x03, pg := g.pg, pn := g.pn, i16 := at16 q 14 }
  | .tgemm g d a b c acc addc slot q => some { maj := 0x66, op := 0x00, pg := g.pg, pn := g.pn, d := fld d, a := fld a, b := fld b, c := fld c, i16 := at16 acc 0 ||| at16 addc 3 ||| at16 slot 4 ||| at16 q 14 }
  | .tfact g d a srci ptrap q => some { maj := 0x67, op := 0x00, pg := g.pg, pn := g.pn, d := fld d, a := fld a, i16 := at16 srci 0 ||| at16 ptrap 1 ||| at16 q 14 }
  | .tsolve g d a b q => some { maj := 0x67, op := 0x01, pg := g.pg, pn := g.pn, d := fld d, a := fld a, b := fld b, i16 := at16 q 14 }
  | .mqpri g cq pri => some { maj := 0x68, op := 0x00, pg := g.pg, pn := g.pn, i16 := at16 cq 0 ||| at16 pri 2 }
  | .mqsync g d cq => some { maj := 0x68, op := 0x01, pg := g.pg, pn := g.pn, d := fld d, i16 := at16 cq 0 }
  | .launch d a pwake pwen => some { maj := 0x70, op := 0x00, len := 2, ext := at64 pwake 0 ||| at64 pwen 6, d := fld d, a := fld a }
  | .exit => some { maj := 0x71, op := 0x00 }
  | .yield d => some { maj := 0x71, op := 0x01, d := fld d }
  | .halt => some { maj := 0x71, op := 0x02 }
  | .gcall gate => some { maj := 0x72, op := 0x00, i16 := at16 gate 0 }
  | .gret a abort => some { maj := 0x72, op := 0x01, a := fld a, i16 := at16 abort 0 }
  | .trap code => some { maj := 0x73, op := 0x00, i16 := at16 code 0 }
  | .eret => some { maj := 0x73, op := 0x01 }
  | .sysr g d idx => some { maj := 0x74, op := 0x00, pg := g.pg, pn := g.pn, d := fld d, i16 := at16 idx 0 }
  | .sysw g a idx => some { maj := 0x74, op := 0x01, pg := g.pg, pn := g.pn, a := fld a, i16 := at16 idx 0 }
  | .publish d a c => some { maj := 0x75, op := 0x00, d := fld d, a := fld a, c := fld c }
  | .tlbinv g a b kind reach => some { maj := 0x76, op := 0x00, pg := g.pg, pn := g.pn, a := fld a, b := fld b, i16 := at16 kind 0 ||| at16 reach 2 }
  | .lflush g a b inv reach => some { maj := 0x76, op := 0x01, pg := g.pg, pn := g.pn, a := fld a, b := fld b, i16 := at16 inv 0 ||| at16 reach 1 }
  | .l2cfg g d a b dir => some { maj := 0x77, op := 0x00, pg := g.pg, pn := g.pn, d := fld d, a := fld a, b := fld b, i16 := at16 dir 0 }
  | .mscrub g d a b => some { maj := 0x78, op := 0x00, pg := g.pg, pn := g.pn, d := fld d, a := fld a, b := fld b }
  | .mspare g d a b => some { maj := 0x78, op := 0x01, pg := g.pg, pn := g.pn, d := fld d, a := fld a, b := fld b }
  | .mrmapRead g d a b c => some { maj := 0x78, op := 0x02, pg := g.pg, pn := g.pn, d := fld d, a := fld a, b := fld b, c := fld c }
  | .mrmapWrite g d a b c => some { maj := 0x78, op := 0x02, pg := g.pg, pn := g.pn, d := fld d, a := fld a, b := fld b, c := fld c, i16 := 1 }
  | .mrmapInvalidate g d a b c => some { maj := 0x78, op := 0x02, pg := g.pg, pn := g.pn, d := fld d, a := fld a, b := fld b, c := fld c, i16 := 2 }
  | .mrmapSpareBitmap g d a b c => some { maj := 0x78, op := 0x02, pg := g.pg, pn := g.pn, d := fld d, a := fld a, b := fld b, c := fld c, i16 := 3 }
  | .mliveNotLive g d a b => some { maj := 0x78, op := 0x03, pg := g.pg, pn := g.pn, d := fld d, a := fld a, b := fld b }
  | .mliveLive g d a b => some { maj := 0x78, op := 0x03, pg := g.pg, pn := g.pn, d := fld d, a := fld a, b := fld b, i16 := 1 }
  | .jrnl g d a word clear => some { maj := 0x79, op := 0x00, pg := g.pg, pn := g.pn, d := fld d, a := fld a, i16 := at16 word 0 ||| at16 clear 2 }
  | .msave g d a => some { maj := 0x79, op := 0x01, pg := g.pg, pn := g.pn, d := fld d, a := fld a }
  | .bind g d a b => some { maj := 0x7a, op := 0x00, pg := g.pg, pn := g.pn, d := fld d, a := fld a, b := fld b }
  | .gswitchCancel g d a b => some { maj := 0x7a, op := 0x01, pg := g.pg, pn := g.pn, d := fld d, a := fld a, b := fld b }
  | .gswitchArm g d a b => some { maj := 0x7a, op := 0x01, pg := g.pg, pn := g.pn, d := fld d, a := fld a, b := fld b, i16 := 1 }
  | _ => none

/-- The operations of major 0x00 (01_encoding R31). -/
def Raw.maj00 (x : Raw) : Option Instr :=
  match x.op.toNat with
  | 0x00 => some (.add x.guard (.ofCode x.t) (x.d.setWidth 5) (x.a.setWidth 5) (.ofRaw x))
  | 0x01 => some (.sub x.guard (.ofCode x.t) (x.d.setWidth 5) (x.a.setWidth 5) (.ofRaw x))
  | 0x02 => some (.and x.guard (.ofCode x.t) (x.d.setWidth 5) (x.a.setWidth 5) (.ofRaw x))
  | 0x03 => some (.or x.guard (.ofCode x.t) (x.d.setWidth 5) (x.a.setWidth 5) (.ofRaw x))
  | 0x04 => some (.xor x.guard (.ofCode x.t) (x.d.setWidth 5) (x.a.setWidth 5) (.ofRaw x))
  | 0x05 => some (.andn x.guard (.ofCode x.t) (x.d.setWidth 5) (x.a.setWidth 5) (.ofRaw x))
  | 0x06 => some (.shl x.guard (.ofCode x.t) (x.d.setWidth 5) (x.a.setWidth 5) (.ofRaw x))
  | 0x07 => some (.shr x.guard (.ofCode x.t) (x.d.setWidth 5) (x.a.setWidth 5) (.ofRaw x))
  | 0x08 => some (.sar x.guard (.ofCode x.t) (x.d.setWidth 5) (x.a.setWidth 5) (.ofRaw x))
  | 0x09 => some (.ror x.guard (.ofCode x.t) (x.d.setWidth 5) (x.a.setWidth 5) (.ofRaw x))
  | 0x0a => some (.min x.guard (.ofCode x.t) (x.d.setWidth 5) (x.a.setWidth 5) (.ofRaw x))
  | 0x0b => some (.max x.guard (.ofCode x.t) (x.d.setWidth 5) (x.a.setWidth 5) (.ofRaw x))
  | _ => none

/-- The operations of major 0x01 (01_encoding R31). -/
def Raw.maj01 (x : Raw) : Option Instr :=
  match x.op.toNat with
  | 0x00 => some (.mul x.guard (.ofCode x.t) (x.d.setWidth 5) (x.a.setWidth 5) (.ofRaw x))
  | 0x01 => some (.mulh x.guard (.ofCode x.t) (x.d.setWidth 5) (x.a.setWidth 5) (.ofRaw x))
  | 0x02 => some (.div x.guard (.ofCode x.t) (x.d.setWidth 5) (x.a.setWidth 5) (.ofRaw x))
  | 0x03 => some (.rem x.guard (.ofCode x.t) (x.d.setWidth 5) (x.a.setWidth 5) (.ofRaw x))
  | _ => none

/-- The operations of major 0x02 (01_encoding R31). -/
def Raw.maj02 (x : Raw) : Option Instr :=
  match x.op.toNat with
  | 0x00 => some (.clz x.guard (.ofCode x.t) (x.d.setWidth 5) (x.a.setWidth 5))
  | 0x01 => some (.ctz x.guard (.ofCode x.t) (x.d.setWidth 5) (x.a.setWidth 5))
  | 0x02 => some (.popc x.guard (.ofCode x.t) (x.d.setWidth 5) (x.a.setWidth 5))
  | 0x03 => some (.brev x.guard (.ofCode x.t) (x.d.setWidth 5) (x.a.setWidth 5))
  | 0x04 => some (.bswap x.guard (.ofCode x.t) (x.d.setWidth 5) (x.a.setWidth 5))
  | 0x05 => some (.bext x.guard (.ofCode x.t) (x.d.setWidth 5) (x.a.setWidth 5) (x.i16.extractLsb' 0 6) (x.i16.extractLsb' 6 6))
  | 0x06 => some (.bins x.guard (.ofCode x.t) (x.d.setWidth 5) (x.a.setWidth 5) (x.i16.extractLsb' 0 6) (x.i16.extractLsb' 6 6))
  | _ => none

/-- The operations of major 0x03 (01_encoding R31). -/
def Raw.maj03 (x : Raw) : Option Instr :=
  match x.op.toNat with
  | 0x00 => some (.cmpEq x.guard (.ofCode x.t) (x.d.setWidth 3) (x.a.setWidth 5) (.ofRaw x))
  | 0x01 => some (.cmpNe x.guard (.ofCode x.t) (x.d.setWidth 3) (x.a.setWidth 5) (.ofRaw x))
  | 0x02 => some (.cmpLt x.guard (.ofCode x.t) (x.d.setWidth 3) (x.a.setWidth 5) (.ofRaw x))
  | 0x03 => some (.cmpLe x.guard (.ofCode x.t) (x.d.setWidth 3) (x.a.setWidth 5) (.ofRaw x))
  | 0x04 => some (.cmpGt x.guard (.ofCode x.t) (x.d.setWidth 3) (x.a.setWidth 5) (.ofRaw x))
  | 0x05 => some (.cmpGe x.guard (.ofCode x.t) (x.d.setWidth 3) (x.a.setWidth 5) (.ofRaw x))
  | _ => none

/-- The operations of major 0x04 (01_encoding R31). -/
def Raw.maj04 (x : Raw) : Option Instr :=
  match x.op.toNat with
  | 0x00 => some (.pand x.guard (x.d.setWidth 3) (x.a.setWidth 3) (x.b.setWidth 3))
  | 0x01 => some (.por x.guard (x.d.setWidth 3) (x.a.setWidth 3) (x.b.setWidth 3))
  | 0x02 => some (.pxor x.guard (x.d.setWidth 3) (x.a.setWidth 3) (x.b.setWidth 3))
  | 0x03 => some (.pandn x.guard (x.d.setWidth 3) (x.a.setWidth 3) (x.b.setWidth 3))
  | 0x04 => some (.pnot x.guard (x.d.setWidth 3) (x.a.setWidth 3))
  | 0x05 => some (.pmov x.guard (x.d.setWidth 3) (x.a.setWidth 3))
  | 0x06 => some (.pset x.guard (x.d.setWidth 3) (x.ext.setWidth 32))
  | _ => none

/-- The operations of major 0x05 (01_encoding R31). -/
def Raw.maj05 (x : Raw) : Option Instr :=
  match x.op.toNat with
  | 0x00 => some (.movi x.guard (x.d.setWidth 5) (.ofRaw x))
  | 0x01 => some (.mov x.guard (x.d.setWidth 5) (x.a.setWidth 5))
  | 0x02 => some (.lea x.guard (x.d.setWidth 5) (x.a.setWidth 5) (.ofRaw x))
  | 0x03 => some (.sel x.guard (x.d.setWidth 5) (x.a.setWidth 5) (x.b.setWidth 5) (x.c.setWidth 3))
  | _ => none

/-- The operations of major 0x06 (01_encoding R31). -/
def Raw.maj06 (x : Raw) : Option Instr :=
  match x.op.toNat with
  | 0x00 => some (.qcap x.guard (x.d.setWidth 5) (.ofRaw x))
  | 0x01 => some (.rndc x.guard (x.d.setWidth 5) (x.a.setWidth 5) (x.b.setWidth 5))
  | _ => none

/-- The operations of major 0x07 (01_encoding R31). -/
def Raw.maj07 (x : Raw) : Option Instr :=
  match x.op.toNat with
  | 0x00 => some (.mfs x.guard (x.d.setWidth 5) (x.i16.extractLsb' 0 10))
  | 0x01 => if x.i16 = 0 then some (.mtsWp x.guard (x.a.setWidth 5)) else some (.mts x.guard (x.a.setWidth 5) (x.i16.extractLsb' 0 10))
  | _ => none

/-- The operations of major 0x08 (01_encoding R31). -/
def Raw.maj08 (x : Raw) : Option Instr :=
  match x.op.toNat with
  | 0x00 => some (.pushm x.guard (.ofRaw x))
  | 0x01 => some (.popm x.guard (.ofRaw x))
  | _ => none

/-- The operations of major 0x09 (01_encoding R31). -/
def Raw.maj09 (x : Raw) : Option Instr :=
  match x.op.toNat with
  | 0x00 => some (.sext x.guard (.ofCode x.t) (x.d.setWidth 5) (x.a.setWidth 5))
  | 0x01 => some (.zext x.guard (.ofCode x.t) (x.d.setWidth 5) (x.a.setWidth 5))
  | _ => none

/-- The operations of major 0x10 (01_encoding R31). -/
def Raw.maj10 (x : Raw) : Option Instr :=
  match x.op.toNat with
  | 0x00 => some (.fadd x.guard (.ofCode x.t) (x.d.setWidth 5) (x.a.setWidth 5) (x.b.setWidth 5))
  | 0x01 => some (.fsub x.guard (.ofCode x.t) (x.d.setWidth 5) (x.a.setWidth 5) (x.b.setWidth 5))
  | 0x02 => some (.fmul x.guard (.ofCode x.t) (x.d.setWidth 5) (x.a.setWidth 5) (x.b.setWidth 5))
  | 0x03 => some (.fdiv x.guard (.ofCode x.t) (x.d.setWidth 5) (x.a.setWidth 5) (x.b.setWidth 5))
  | 0x04 => some (.fsqrt x.guard (.ofCode x.t) (x.d.setWidth 5) (x.a.setWidth 5))
  | 0x05 => some (.fmin x.guard (.ofCode x.t) (x.d.setWidth 5) (x.a.setWidth 5) (x.b.setWidth 5))
  | 0x06 => some (.fmax x.guard (.ofCode x.t) (x.d.setWidth 5) (x.a.setWidth 5) (x.b.setWidth 5))
  | 0x07 => some (.fneg x.guard (.ofCode x.t) (x.d.setWidth 5) (x.a.setWidth 5))
  | 0x08 => some (.fabs x.guard (.ofCode x.t) (x.d.setWidth 5) (x.a.setWidth 5))
  | _ => none

/-- The operations of major 0x11 (01_encoding R31). -/
def Raw.maj11 (x : Raw) : Option Instr :=
  match x.op.toNat with
  | 0x00 => some (.fma x.guard (.ofCode x.t) (x.d.setWidth 5) (x.a.setWidth 5) (x.b.setWidth 5) (x.c.setWidth 5))
  | 0x01 => some (.fms x.guard (.ofCode x.t) (x.d.setWidth 5) (x.a.setWidth 5) (x.b.setWidth 5) (x.c.setWidth 5))
  | 0x02 => some (.fnma x.guard (.ofCode x.t) (x.d.setWidth 5) (x.a.setWidth 5) (x.b.setWidth 5) (x.c.setWidth 5))
  | 0x03 => some (.fnms x.guard (.ofCode x.t) (x.d.setWidth 5) (x.a.setWidth 5) (x.b.setWidth 5) (x.c.setWidth 5))
  | _ => none

/-- The operations of major 0x12 (01_encoding R31). -/
def Raw.maj12 (x : Raw) : Option Instr :=
  match x.op.toNat with
  | 0x00 => some (.fcmpEq x.guard (.ofCode x.t) (x.d.setWidth 3) (x.a.setWidth 5) (x.b.setWidth 5))
  | 0x01 => some (.fcmpLt x.guard (.ofCode x.t) (x.d.setWidth 3) (x.a.setWidth 5) (x.b.setWidth 5))
  | 0x02 => some (.fcmpLe x.guard (.ofCode x.t) (x.d.setWidth 3) (x.a.setWidth 5) (x.b.setWidth 5))
  | 0x03 => some (.fcmpUn x.guard (.ofCode x.t) (x.d.setWidth 3) (x.a.setWidth 5) (x.b.setWidth 5))
  | _ => none

/-- The operations of major 0x13 (01_encoding R31). -/
def Raw.maj13 (x : Raw) : Option Instr :=
  match x.op.toNat with
  | 0x00 => some (.fcvt x.guard (.ofCode x.t) (x.d.setWidth 5) (x.a.setWidth 5) (.ofCode (x.i16.extractLsb' 0 4)) (x.i16.extractLsb' 4 4))
  | 0x01 => some (.fclass x.guard (.ofCode x.t) (x.d.setWidth 5) (x.a.setWidth 5))
  | _ => none

/-- The operations of major 0x18 (01_encoding R31). -/
def Raw.maj18 (x : Raw) : Option Instr :=
  match x.op.toNat with
  | 0x00 => some (.br x.guard (.ofRaw x))
  | _ => none

/-- The operations of major 0x19 (01_encoding R31). -/
def Raw.maj19 (x : Raw) : Option Instr :=
  match x.op.toNat with
  | 0x00 => some (.call x.guard (x.d.setWidth 5) (.ofRaw x))
  | _ => none

/-- The operations of major 0x1A (01_encoding R31). -/
def Raw.maj1A (x : Raw) : Option Instr :=
  match x.op.toNat with
  | 0x00 => some (.jmp x.guard (x.d.setWidth 5) (x.a.setWidth 5))
  | 0x01 => some (.ret x.guard (x.a.setWidth 5))
  | _ => none

/-- The operations of major 0x1B (01_encoding R31). -/
def Raw.maj1B (x : Raw) : Option Instr :=
  match x.op.toNat with
  | 0x00 => some (.brx x.guard (x.a.setWidth 5) (x.b.setWidth 5) (x.i16.extractLsb' 0 16))
  | _ => none

/-- The operations of major 0x1C (01_encoding R31). -/
def Raw.maj1C (x : Raw) : Option Instr :=
  match x.op.toNat with
  | 0x00 => some (.loop x.guard (x.a.setWidth 5) (x.i16.extractLsb' 0 16))
  | _ => none

/-- The operations of major 0x1D (01_encoding R31). -/
def Raw.maj1D (x : Raw) : Option Instr :=
  match x.op.toNat with
  | 0x00 => some (.rep (x.a.setWidth 5) (x.i16.extractLsb' 0 4) (x.i16.extractLsb' 4 5) (x.i16.extractLsb' 12 4))
  | _ => none

/-- The operations of major 0x1E (01_encoding R31). -/
def Raw.maj1E (x : Raw) : Option Instr :=
  match x.op.toNat with
  | 0x00 => some (.nop x.guard)
  | 0x01 => some (.hint x.guard (x.i16.extractLsb' 0 16))
  | _ => none

/-- The operations of major 0x1F (01_encoding R31). -/
def Raw.maj1F (x : Raw) : Option Instr :=
  match x.op.toNat with
  | 0x00 => some (.unchain)
  | 0x01 => some (.rechain (x.i16.extractLsb' 0 8))
  | _ => none

/-- The operations of major 0x20 (01_encoding R31). -/
def Raw.maj20 (x : Raw) : Option Instr :=
  match x.op.toNat with
  | 0x00 => some (.vadd x.guard (.ofCode x.t) (x.d.setWidth 5) (x.a.setWidth 5) (x.b.setWidth 5))
  | 0x01 => some (.vsub x.guard (.ofCode x.t) (x.d.setWidth 5) (x.a.setWidth 5) (x.b.setWidth 5))
  | 0x02 => some (.vmul x.guard (.ofCode x.t) (x.d.setWidth 5) (x.a.setWidth 5) (x.b.setWidth 5))
  | 0x03 => some (.vmin x.guard (.ofCode x.t) (x.d.setWidth 5) (x.a.setWidth 5) (x.b.setWidth 5))
  | 0x04 => some (.vmax x.guard (.ofCode x.t) (x.d.setWidth 5) (x.a.setWidth 5) (x.b.setWidth 5))
  | 0x05 => some (.vneg x.guard (.ofCode x.t) (x.d.setWidth 5) (x.a.setWidth 5))
  | 0x06 => some (.vabs x.guard (.ofCode x.t) (x.d.setWidth 5) (x.a.setWidth 5))
  | _ => none

/-- The operations of major 0x21 (01_encoding R31). -/
def Raw.maj21 (x : Raw) : Option Instr :=
  match x.op.toNat with
  | 0x00 => some (.vfma x.guard (.ofCode x.t) (x.d.setWidth 5) (x.a.setWidth 5) (x.b.setWidth 5) (x.c.setWidth 5))
  | 0x01 => some (.vfms x.guard (.ofCode x.t) (x.d.setWidth 5) (x.a.setWidth 5) (x.b.setWidth 5) (x.c.setWidth 5))
  | 0x02 => some (.vfnma x.guard (.ofCode x.t) (x.d.setWidth 5) (x.a.setWidth 5) (x.b.setWidth 5) (x.c.setWidth 5))
  | 0x03 => some (.vfnms x.guard (.ofCode x.t) (x.d.setWidth 5) (x.a.setWidth 5) (x.b.setWidth 5) (x.c.setWidth 5))
  | _ => none

/-- The operations of major 0x22 (01_encoding R31). -/
def Raw.maj22 (x : Raw) : Option Instr :=
  match x.op.toNat with
  | 0x00 => some (.vdiv x.guard (.ofCode x.t) (x.d.setWidth 5) (x.a.setWidth 5) (x.b.setWidth 5))
  | 0x01 => some (.vsqrt x.guard (.ofCode x.t) (x.d.setWidth 5) (x.a.setWidth 5))
  | 0x02 => some (.vrcp x.guard (.ofCode x.t) (x.d.setWidth 5) (x.a.setWidth 5))
  | 0x03 => some (.vrsqrt x.guard (.ofCode x.t) (x.d.setWidth 5) (x.a.setWidth 5))
  | _ => none

/-- The operations of major 0x23 (01_encoding R31). -/
def Raw.maj23 (x : Raw) : Option Instr :=
  match x.op.toNat with
  | 0x00 => some (.vexp x.guard (.ofCode x.t) (x.d.setWidth 5) (x.a.setWidth 5))
  | 0x01 => some (.vlog x.guard (.ofCode x.t) (x.d.setWidth 5) (x.a.setWidth 5))
  | 0x02 => some (.vsincos x.guard (.ofCode x.t) (x.d.setWidth 5) (x.a.setWidth 5))
  | 0x03 => some (.vtanh x.guard (.ofCode x.t) (x.d.setWidth 5) (x.a.setWidth 5))
  | 0x04 => some (.vsigm x.guard (.ofCode x.t) (x.d.setWidth 5) (x.a.setWidth 5))
  | _ => none

/-- The operations of major 0x24 (01_encoding R31). -/
def Raw.maj24 (x : Raw) : Option Instr :=
  match x.op.toNat with
  | 0x00 => some (.vcmpEq x.guard (.ofCode x.t) (x.d.setWidth 3) (x.a.setWidth 5) (x.b.setWidth 5))
  | 0x01 => some (.vcmpNe x.guard (.ofCode x.t) (x.d.setWidth 3) (x.a.setWidth 5) (x.b.setWidth 5))
  | 0x02 => some (.vcmpLt x.guard (.ofCode x.t) (x.d.setWidth 3) (x.a.setWidth 5) (x.b.setWidth 5))
  | 0x03 => some (.vcmpLe x.guard (.ofCode x.t) (x.d.setWidth 3) (x.a.setWidth 5) (x.b.setWidth 5))
  | 0x04 => some (.vsel x.guard (x.d.setWidth 5) (x.a.setWidth 5) (x.b.setWidth 5) (x.c.setWidth 3) (x.i16.extractLsb' 0 2))
  | _ => none

/-- The operations of major 0x25 (01_encoding R31). -/
def Raw.maj25 (x : Raw) : Option Instr :=
  match x.op.toNat with
  | 0x00 => some (.vcvt x.guard (.ofCode x.t) (x.d.setWidth 5) (x.a.setWidth 5) (.ofCode (x.i16.extractLsb' 0 4)) (x.i16.extractLsb' 4 2) (x.i16.extractLsb' 6 3))
  | 0x01 => some (.vqmx x.guard (x.d.setWidth 5) (x.a.setWidth 5) (x.b.setWidth 5) (x.i16.extractLsb' 0 3))
  | 0x02 => some (.vdqmx x.guard (x.d.setWidth 5) (x.a.setWidth 5) (x.b.setWidth 5) (x.i16.extractLsb' 0 3))
  | _ => none

/-- The operations of major 0x26 (01_encoding R31). -/
def Raw.maj26 (x : Raw) : Option Instr :=
  match x.op.toNat with
  | 0x00 => some (.vredAdd x.guard (.ofCode x.t) (x.d.setWidth 5) (x.a.setWidth 5))
  | 0x01 => some (.vredMin x.guard (.ofCode x.t) (x.d.setWidth 5) (x.a.setWidth 5))
  | 0x02 => some (.vredMax x.guard (.ofCode x.t) (x.d.setWidth 5) (x.a.setWidth 5))
  | _ => none

/-- The operations of major 0x27 (01_encoding R31). -/
def Raw.maj27 (x : Raw) : Option Instr :=
  match x.op.toNat with
  | 0x00 => some (.vaddInt x.guard (.ofCode x.t) (x.d.setWidth 5) (x.a.setWidth 5) (.ofRaw x))
  | 0x01 => some (.vsubInt x.guard (.ofCode x.t) (x.d.setWidth 5) (x.a.setWidth 5) (.ofRaw x))
  | 0x02 => some (.vand x.guard (.ofCode x.t) (x.d.setWidth 5) (x.a.setWidth 5) (.ofRaw x))
  | 0x03 => some (.vor x.guard (.ofCode x.t) (x.d.setWidth 5) (x.a.setWidth 5) (.ofRaw x))
  | 0x04 => some (.vxor x.guard (.ofCode x.t) (x.d.setWidth 5) (x.a.setWidth 5) (.ofRaw x))
  | 0x05 => some (.vshl x.guard (.ofCode x.t) (x.d.setWidth 5) (x.a.setWidth 5) (.ofRaw x))
  | 0x06 => some (.vshr x.guard (.ofCode x.t) (x.d.setWidth 5) (x.a.setWidth 5) (.ofRaw x))
  | 0x07 => some (.vsar x.guard (.ofCode x.t) (x.d.setWidth 5) (x.a.setWidth 5) (.ofRaw x))
  | 0x08 => some (.vminInt x.guard (.ofCode x.t) (x.d.setWidth 5) (x.a.setWidth 5) (.ofRaw x))
  | 0x09 => some (.vmaxInt x.guard (.ofCode x.t) (x.d.setWidth 5) (x.a.setWidth 5) (.ofRaw x))
  | 0x0a => some (.vadds x.guard (.ofCode x.t) (x.d.setWidth 5) (x.a.setWidth 5) (.ofRaw x))
  | 0x0b => some (.vsubs x.guard (.ofCode x.t) (x.d.setWidth 5) (x.a.setWidth 5) (.ofRaw x))
  | 0x0c => some (.vcmpEqInt x.guard (.ofCode x.t) (x.d.setWidth 3) (x.a.setWidth 5) (.ofRaw x))
  | 0x0d => some (.vcmpNeInt x.guard (.ofCode x.t) (x.d.setWidth 3) (x.a.setWidth 5) (.ofRaw x))
  | 0x0e => some (.vcmpLtInt x.guard (.ofCode x.t) (x.d.setWidth 3) (x.a.setWidth 5) (.ofRaw x))
  | 0x0f => some (.vcmpLeInt x.guard (.ofCode x.t) (x.d.setWidth 3) (x.a.setWidth 5) (.ofRaw x))
  | _ => none

/-- The operations of major 0x28 (01_encoding R31). -/
def Raw.maj28 (x : Raw) : Option Instr :=
  match x.op.toNat with
  | 0x00 => some (.vmulInt x.guard (.ofCode x.t) (x.d.setWidth 5) (x.a.setWidth 5) (x.b.setWidth 5))
  | 0x01 => some (.vmulh x.guard (.ofCode x.t) (x.d.setWidth 5) (x.a.setWidth 5) (x.b.setWidth 5))
  | 0x02 => some (.vmac x.guard (.ofCode x.t) (x.d.setWidth 5) (x.a.setWidth 5) (x.b.setWidth 5))
  | 0x03 => some (.vsat x.guard (.ofCode x.t) (x.d.setWidth 5) (x.a.setWidth 5) (x.i16.extractLsb' 0 6))
  | _ => none

/-- The operations of major 0x29 (01_encoding R31). -/
def Raw.maj29 (x : Raw) : Option Instr :=
  match x.op.toNat with
  | 0x00 => some (.vdot4 x.guard (.ofCode x.t) (x.d.setWidth 5) (x.a.setWidth 5) (x.b.setWidth 5))
  | 0x01 => some (.vdot2 x.guard (.ofCode x.t) (x.d.setWidth 5) (x.a.setWidth 5) (x.b.setWidth 5))
  | _ => none

/-- The operations of major 0x2A (01_encoding R31). -/
def Raw.maj2A (x : Raw) : Option Instr :=
  match x.op.toNat with
  | 0x00 => some (.vcmul x.guard (.ofCode x.t) (x.d.setWidth 5) (x.a.setWidth 5) (x.b.setWidth 5) (x.i16.extractLsb' 0 4))
  | 0x01 => some (.vcmac x.guard (.ofCode x.t) (x.d.setWidth 5) (x.a.setWidth 5) (x.b.setWidth 5) (x.i16.extractLsb' 0 4))
  | 0x02 => some (.vconj x.guard (.ofCode x.t) (x.d.setWidth 5) (x.a.setWidth 5))
  | _ => none

/-- The operations of major 0x2B (01_encoding R31). -/
def Raw.maj2B (x : Raw) : Option Instr :=
  match x.op.toNat with
  | 0x00 => some (.vbfly x.guard (.ofCode x.t) (x.d.setWidth 5) (x.a.setWidth 5) (x.b.setWidth 5) (x.c.setWidth 5))
  | 0x01 => some (.vbflys x.guard (.ofCode x.t) (x.d.setWidth 5) (x.a.setWidth 5) (x.b.setWidth 5) (x.c.setWidth 5))
  | _ => none

/-- The operations of major 0x2C (01_encoding R31). -/
def Raw.maj2C (x : Raw) : Option Instr :=
  match x.op.toNat with
  | 0x00 => some (.vperm x.guard (.ofCode x.t) (x.d.setWidth 5) (x.a.setWidth 5) (x.b.setWidth 5))
  | 0x01 => some (.vshuf x.guard (.ofCode x.t) (x.d.setWidth 5) (x.a.setWidth 5) (x.b.setWidth 5) (x.c.setWidth 5))
  | 0x02 => some (.vrot x.guard (.ofCode x.t) (x.d.setWidth 5) (x.a.setWidth 5) (.ofRaw x))
  | 0x03 => some (.vbcast x.guard (.ofCode x.t) (x.d.setWidth 5) (x.a.setWidth 5) (x.i16.extractLsb' 0 5))
  | _ => none

/-- The operations of major 0x2D (01_encoding R31). -/
def Raw.maj2D (x : Raw) : Option Instr :=
  match x.op.toNat with
  | 0x00 => some (.vmov x.guard (x.d.setWidth 5) (x.a.setWidth 5) (x.i16.extractLsb' 0 2))
  | 0x01 => some (.vins x.guard (.ofCode x.t) (x.d.setWidth 5) (x.a.setWidth 5) (x.i16.extractLsb' 0 5))
  | 0x02 => some (.vext x.guard (.ofCode x.t) (x.d.setWidth 5) (x.a.setWidth 5) (x.i16.extractLsb' 0 5))
  | 0x03 => some (.vsplat x.guard (.ofCode x.t) (x.d.setWidth 5) (x.a.setWidth 5))
  | _ => none

/-- The operations of major 0x2E (01_encoding R31). -/
def Raw.maj2E (x : Raw) : Option Instr :=
  match x.op.toNat with
  | 0x00 => some (.jseed x.guard (.ofCode x.t) (x.d.setWidth 5) (.ofRaw x))
  | 0x01 => some (.jext x.guard (.ofCode x.t) (x.d.setWidth 5) (x.a.setWidth 5) (x.i16.extractLsb' 0 3))
  | 0x02 => some (.jplane x.guard (.ofCode x.t) (x.d.setWidth 5) (x.a.setWidth 5) (x.i16.extractLsb' 0 3) (x.i16.extractLsb' 3 3))
  | 0x03 => some (.jclr x.guard (x.i16.extractLsb' 0 8))
  | _ => none

/-- The operations of major 0x40 (01_encoding R31). -/
def Raw.maj40 (x : Raw) : Option Instr :=
  match x.op.toNat with
  | 0x00 => some (.ld x.guard (.ofCode x.t) (x.d.setWidth 5) (x.a.setWidth 5) (.ofRaw x))
  | _ => none

/-- The operations of major 0x41 (01_encoding R31). -/
def Raw.maj41 (x : Raw) : Option Instr :=
  match x.op.toNat with
  | 0x00 => some (.st x.guard (.ofCode x.t) (x.a.setWidth 5) (.ofRaw x) (x.c.setWidth 5))
  | _ => none

/-- The operations of major 0x42 (01_encoding R31). -/
def Raw.maj42 (x : Raw) : Option Instr :=
  match x.op.toNat with
  | 0x00 => some (.vld x.guard (x.d.setWidth 5) (x.a.setWidth 5) (.ofRaw x))
  | _ => none

/-- The operations of major 0x43 (01_encoding R31). -/
def Raw.maj43 (x : Raw) : Option Instr :=
  match x.op.toNat with
  | 0x00 => some (.vst x.guard (x.a.setWidth 5) (.ofRaw x) (x.c.setWidth 5))
  | _ => none

/-- The operations of major 0x44 (01_encoding R31). -/
def Raw.maj44 (x : Raw) : Option Instr :=
  match x.op.toNat with
  | 0x00 => some (.vgather x.guard (.ofCode x.t) (x.d.setWidth 5) (x.a.setWidth 5) (x.b.setWidth 5) (x.i16.extractLsb' 0 16))
  | 0x01 => some (.vscatter x.guard (.ofCode x.t) (x.a.setWidth 5) (x.b.setWidth 5) (x.c.setWidth 5) (x.i16.extractLsb' 0 16))
  | _ => none

/-- The operations of major 0x45 (01_encoding R31). -/
def Raw.maj45 (x : Raw) : Option Instr :=
  match x.op.toNat with
  | 0x00 => some (.ldb x.guard (x.d.setWidth 5) (x.a.setWidth 5) (x.i16.extractLsb' 0 3))
  | _ => none

/-- The operations of major 0x46 (01_encoding R31). -/
def Raw.maj46 (x : Raw) : Option Instr :=
  match x.op.toNat with
  | 0x00 => some (.amoAdd x.guard (.ofCode x.t) (x.d.setWidth 5) (x.a.setWidth 5) (x.b.setWidth 5))
  | 0x01 => some (.amoAnd x.guard (.ofCode x.t) (x.d.setWidth 5) (x.a.setWidth 5) (x.b.setWidth 5))
  | 0x02 => some (.amoOr x.guard (.ofCode x.t) (x.d.setWidth 5) (x.a.setWidth 5) (x.b.setWidth 5))
  | 0x03 => some (.amoXor x.guard (.ofCode x.t) (x.d.setWidth 5) (x.a.setWidth 5) (x.b.setWidth 5))
  | 0x04 => some (.amoMin x.guard (.ofCode x.t) (x.d.setWidth 5) (x.a.setWidth 5) (x.b.setWidth 5))
  | 0x05 => some (.amoMax x.guard (.ofCode x.t) (x.d.setWidth 5) (x.a.setWidth 5) (x.b.setWidth 5))
  | 0x06 => some (.amoSwap x.guard (.ofCode x.t) (x.d.setWidth 5) (x.a.setWidth 5) (x.b.setWidth 5))
  | 0x07 => some (.amoCas x.guard (.ofCode x.t) (x.d.setWidth 5) (x.a.setWidth 5) (x.b.setWidth 5) (x.c.setWidth 5))
  | 0x08 => some (.amoFadd x.guard (.ofCode x.t) (x.d.setWidth 5) (x.a.setWidth 5) (x.b.setWidth 5))
  | 0x09 => some (.amoFaddOrd x.guard (.ofCode x.t) (x.d.setWidth 5) (x.a.setWidth 5) (x.b.setWidth 5) (x.c.setWidth 5) (x.i16.extractLsb' 0 1))
  | _ => none

/-- The operations of major 0x47 (01_encoding R31). -/
def Raw.maj47 (x : Raw) : Option Instr :=
  match x.op.toNat with
  | 0x00 => some (.redAdd x.guard (.ofCode x.t) (x.a.setWidth 5) (x.b.setWidth 5))
  | 0x01 => some (.redMin x.guard (.ofCode x.t) (x.a.setWidth 5) (x.b.setWidth 5))
  | 0x02 => some (.redMax x.guard (.ofCode x.t) (x.a.setWidth 5) (x.b.setWidth 5))
  | 0x10 => some (.redAddOrd x.guard (.ofCode x.t) (x.a.setWidth 5) (x.b.setWidth 5) (x.c.setWidth 5) (x.i16.extractLsb' 0 1))
  | 0x11 => some (.redMinOrd x.guard (.ofCode x.t) (x.a.setWidth 5) (x.b.setWidth 5) (x.c.setWidth 5) (x.i16.extractLsb' 0 1))
  | 0x12 => some (.redMaxOrd x.guard (.ofCode x.t) (x.a.setWidth 5) (x.b.setWidth 5) (x.c.setWidth 5) (x.i16.extractLsb' 0 1))
  | _ => none

/-- The operations of major 0x48 (01_encoding R31). -/
def Raw.maj48 (x : Raw) : Option Instr :=
  match x.op.toNat with
  | 0x00 => some (.pref x.guard (x.a.setWidth 5) (x.i16.extractLsb' 0 2))
  | 0x01 => some (.chint x.guard (x.a.setWidth 5) (x.i16.extractLsb' 0 2))
  | _ => none

/-- The operations of major 0x50 (01_encoding R31). -/
def Raw.maj50 (x : Raw) : Option Instr :=
  match x.op.toNat with
  | 0x00 => some (.copy x.guard (x.d.setWidth 5) (x.a.setWidth 5) (x.b.setWidth 5) (x.c.setWidth 5) (x.ext.extractLsb' 0 8) (x.ext.extractLsb' 8 1) (x.ext.extractLsb' 9 3) (x.ext.extractLsb' 12 1))
  | _ => none

/-- The operations of major 0x51 (01_encoding R31). -/
def Raw.maj51 (x : Raw) : Option Instr :=
  match x.op.toNat with
  | 0x00 => some (.copyh x.guard (x.d.setWidth 5) (x.a.setWidth 5) (x.b.setWidth 5) (x.c.setWidth 5) (x.ext.extractLsb' 0 8) (x.ext.extractLsb' 8 1) (x.ext.extractLsb' 9 3) (x.ext.extractLsb' 12 1) (x.ext.extractLsb' 13 1))
  | _ => none

/-- The operations of major 0x52 (01_encoding R31). -/
def Raw.maj52 (x : Raw) : Option Instr :=
  match x.op.toNat with
  | 0x00 => some (.binit x.guard (x.a.setWidth 5) (x.i16.extractLsb' 0 8))
  | 0x01 => some (.barrive x.guard (x.d.setWidth 5) (x.i16.extractLsb' 0 8))
  | 0x02 => some (.bwait x.guard (x.a.setWidth 5) (x.i16.extractLsb' 0 8))
  | 0x03 => some (.bsync x.guard (x.i16.extractLsb' 0 8))
  | 0x04 => some (.bstat x.guard (x.d.setWidth 5) (x.i16.extractLsb' 0 8))
  | _ => none

/-- The operations of major 0x53 (01_encoding R31). -/
def Raw.maj53 (x : Raw) : Option Instr :=
  match x.op.toNat with
  | 0x00 => some (.tlwait x.guard (x.a.setWidth 3) (.ofRaw x))
  | 0x01 => some (.tlread x.guard (x.d.setWidth 5) (x.a.setWidth 3) (x.len == 1) (x.i16.extractLsb' 0 2))
  | _ => none

/-- The operations of major 0x54 (01_encoding R31). -/
def Raw.maj54 (x : Raw) : Option Instr :=
  match x.op.toNat with
  | 0x00 => some (.fence x.guard (x.a.setWidth 5) (x.i16.extractLsb' 0 5))
  | _ => none

/-- The operations of major 0x55 (01_encoding R31). -/
def Raw.maj55 (x : Raw) : Option Instr :=
  match x.op.toNat with
  | 0x00 => some (.wake x.guard (x.a.setWidth 5) (.ofRaw x))
  | 0x01 => some (.wait x.guard (x.d.setWidth 5) (.ofRaw x))
  | _ => none

/-- The operations of major 0x56 (01_encoding R31). -/
def Raw.maj56 (x : Raw) : Option Instr :=
  match x.op.toNat with
  | 0x00 => some (.chinit x.guard (x.a.setWidth 5) (x.b.setWidth 5) (x.c.setWidth 5))
  | 0x01 => some (.send x.guard (x.d.setWidth 5) (x.a.setWidth 5) (x.b.setWidth 5) (x.c.setWidth 5))
  | 0x02 => some (.sendNb x.guard (x.d.setWidth 5) (x.a.setWidth 5) (x.b.setWidth 5) (x.c.setWidth 5))
  | 0x03 => some (.recv x.guard (x.d.setWidth 5) (x.a.setWidth 5) (x.b.setWidth 5))
  | 0x04 => some (.recvNb x.guard (x.d.setWidth 5) (x.a.setWidth 5) (x.b.setWidth 5))
  | _ => none

/-- The operations of major 0x60 (01_encoding R31). -/
def Raw.maj60 (x : Raw) : Option Instr :=
  match x.op.toNat with
  | 0x00 => some (.mshl x.guard (x.d.setWidth 4) (x.a.setWidth 5) (x.i16.extractLsb' 14 2))
  | 0x01 => some (.mshf x.guard (x.d.setWidth 4) (x.a.setWidth 5) (x.i16.extractLsb' 0 5) (x.i16.extractLsb' 14 2))
  | 0x02 => some (.mshs x.guard (x.a.setWidth 5) (x.b.setWidth 4) (x.i16.extractLsb' 14 2))
  | _ => none

/-- The operations of major 0x61 (01_encoding R31). -/
def Raw.maj61 (x : Raw) : Option Instr :=
  match x.op.toNat with
  | 0x00 => some (.mclaim x.guard (x.d.setWidth 5) (x.i16.extractLsb' 0 7) (x.i16.extractLsb' 7 3))
  | 0x01 => some (.mrel x.guard (x.a.setWidth 5) (x.i16.extractLsb' 0 7))
  | _ => none

/-- The operations of major 0x62 (01_encoding R31). -/
def Raw.maj62 (x : Raw) : Option Instr :=
  match x.op.toNat with
  | 0x00 => some (.mld x.guard (x.d.setWidth 5) (x.a.setWidth 4) (x.i16.extractLsb' 0 7) (x.i16.extractLsb' 7 1) (x.i16.extractLsb' 14 2))
  | 0x01 => some (.mldx x.guard (x.d.setWidth 5) (x.a.setWidth 4) (x.i16.extractLsb' 0 7) (x.i16.extractLsb' 7 1) (x.i16.extractLsb' 14 2))
  | _ => none

/-- The operations of major 0x63 (01_encoding R31). -/
def Raw.maj63 (x : Raw) : Option Instr :=
  match x.op.toNat with
  | 0x00 => some (.mma x.guard (x.d.setWidth 3) (x.c.setWidth 5) (x.i16.extractLsb' 0 7) (x.i16.extractLsb' 7 7) (x.i16.extractLsb' 14 2))
  | 0x01 => some (.mmaS x.guard (x.d.setWidth 3) (x.c.setWidth 5) (x.i16.extractLsb' 0 7) (x.i16.extractLsb' 7 7) (x.i16.extractLsb' 14 2))
  | _ => none

/-- The operations of major 0x64 (01_encoding R31). -/
def Raw.maj64 (x : Raw) : Option Instr :=
  match x.op.toNat with
  | 0x00 => some (.mzero x.guard (x.d.setWidth 3) (x.i16.extractLsb' 14 2))
  | 0x01 => some (.mmov x.guard (x.d.setWidth 5) (x.a.setWidth 3) (x.i16.extractLsb' 0 4) (x.i16.extractLsb' 4 1) (x.i16.extractLsb' 5 1) (x.i16.extractLsb' 14 2))
  | 0x02 => some (.mmovr x.guard (x.d.setWidth 3) (x.a.setWidth 5) (x.i16.extractLsb' 0 4) (x.i16.extractLsb' 14 2))
  | 0x03 => some (.mst x.guard (x.d.setWidth 5) (x.a.setWidth 4) (x.b.setWidth 3) (x.c.setWidth 5) (x.i16.extractLsb' 0 4) (x.i16.extractLsb' 4 1) (x.i16.extractLsb' 14 2))
  | _ => none

/-- The operations of major 0x65 (01_encoding R31). -/
def Raw.maj65 (x : Raw) : Option Instr :=
  match x.op.toNat with
  | 0x00 => some (.mspec x.guard (x.i16.extractLsb' 0 8) (x.i16.extractLsb' 14 2))
  | 0x01 => some (.mresolve x.guard (x.c.setWidth 3) (x.i16.extractLsb' 14 2))
  | 0x02 => some (.mcommit x.guard (x.i16.extractLsb' 14 2))
  | 0x03 => some (.mdiscard x.guard (x.i16.extractLsb' 14 2))
  | _ => none

/-- The operations of major 0x66 (01_encoding R31). -/
def Raw.maj66 (x : Raw) : Option Instr :=
  match x.op.toNat with
  | 0x00 => some (.tgemm x.guard (x.d.setWidth 5) (x.a.setWidth 4) (x.b.setWidth 4) (x.c.setWidth 4) (x.i16.extractLsb' 0 3) (x.i16.extractLsb' 3 1) (x.i16.extractLsb' 4 7) (x.i16.extractLsb' 14 2))
  | _ => none

/-- The operations of major 0x67 (01_encoding R31). -/
def Raw.maj67 (x : Raw) : Option Instr :=
  match x.op.toNat with
  | 0x00 => some (.tfact x.guard (x.d.setWidth 5) (x.a.setWidth 3) (x.i16.extractLsb' 0 1) (x.i16.extractLsb' 1 1) (x.i16.extractLsb' 14 2))
  | 0x01 => some (.tsolve x.guard (x.d.setWidth 3) (x.a.setWidth 3) (x.b.setWidth 5) (x.i16.extractLsb' 14 2))
  | _ => none

/-- The operations of major 0x68 (01_encoding R31). -/
def Raw.maj68 (x : Raw) : Option Instr :=
  match x.op.toNat with
  | 0x00 => some (.mqpri x.guard (x.i16.extractLsb' 0 2) (x.i16.extractLsb' 2 2))
  | 0x01 => some (.mqsync x.guard (x.d.setWidth 5) (x.i16.extractLsb' 0 2))
  | _ => none

/-- The operations of major 0x70 (01_encoding R31). -/
def Raw.maj70 (x : Raw) : Option Instr :=
  match x.op.toNat with
  | 0x00 => some (.launch (x.d.setWidth 5) (x.a.setWidth 5) (x.ext.extractLsb' 0 6) (x.ext.extractLsb' 6 1))
  | _ => none

/-- The operations of major 0x71 (01_encoding R31). -/
def Raw.maj71 (x : Raw) : Option Instr :=
  match x.op.toNat with
  | 0x00 => some (.exit)
  | 0x01 => some (.yield (x.d.setWidth 5))
  | 0x02 => some (.halt)
  | _ => none

/-- The operations of major 0x72 (01_encoding R31). -/
def Raw.maj72 (x : Raw) : Option Instr :=
  match x.op.toNat with
  | 0x00 => some (.gcall (x.i16.extractLsb' 0 12))
  | 0x01 => some (.gret (x.a.setWidth 5) (x.i16.extractLsb' 0 1))
  | _ => none

/-- The operations of major 0x73 (01_encoding R31). -/
def Raw.maj73 (x : Raw) : Option Instr :=
  match x.op.toNat with
  | 0x00 => some (.trap (x.i16.extractLsb' 0 16))
  | 0x01 => some (.eret)
  | _ => none

/-- The operations of major 0x74 (01_encoding R31). -/
def Raw.maj74 (x : Raw) : Option Instr :=
  match x.op.toNat with
  | 0x00 => some (.sysr x.guard (x.d.setWidth 5) (x.i16.extractLsb' 0 12))
  | 0x01 => some (.sysw x.guard (x.a.setWidth 5) (x.i16.extractLsb' 0 12))
  | _ => none

/-- The operations of major 0x75 (01_encoding R31). -/
def Raw.maj75 (x : Raw) : Option Instr :=
  match x.op.toNat with
  | 0x00 => some (.publish (x.d.setWidth 5) (x.a.setWidth 5) (x.c.setWidth 5))
  | _ => none

/-- The operations of major 0x76 (01_encoding R31). -/
def Raw.maj76 (x : Raw) : Option Instr :=
  match x.op.toNat with
  | 0x00 => some (.tlbinv x.guard (x.a.setWidth 5) (x.b.setWidth 5) (x.i16.extractLsb' 0 2) (x.i16.extractLsb' 2 2))
  | 0x01 => some (.lflush x.guard (x.a.setWidth 5) (x.b.setWidth 5) (x.i16.extractLsb' 0 1) (x.i16.extractLsb' 1 2))
  | _ => none

/-- The operations of major 0x77 (01_encoding R31). -/
def Raw.maj77 (x : Raw) : Option Instr :=
  match x.op.toNat with
  | 0x00 => some (.l2cfg x.guard (x.d.setWidth 5) (x.a.setWidth 5) (x.b.setWidth 5) (x.i16.extractLsb' 0 1))
  | _ => none

/-- The operations of major 0x78 (01_encoding R31). -/
def Raw.maj78 (x : Raw) : Option Instr :=
  match x.op.toNat with
  | 0x00 => some (.mscrub x.guard (x.d.setWidth 5) (x.a.setWidth 5) (x.b.setWidth 5))
  | 0x01 => some (.mspare x.guard (x.d.setWidth 5) (x.a.setWidth 5) (x.b.setWidth 5))
  | 0x02 => match (x.i16.extractLsb' 0 2).toNat with
    | 0 => some (.mrmapRead x.guard (x.d.setWidth 5) (x.a.setWidth 5) (x.b.setWidth 5) (x.c.setWidth 5))
    | 1 => some (.mrmapWrite x.guard (x.d.setWidth 5) (x.a.setWidth 5) (x.b.setWidth 5) (x.c.setWidth 5))
    | 2 => some (.mrmapInvalidate x.guard (x.d.setWidth 5) (x.a.setWidth 5) (x.b.setWidth 5) (x.c.setWidth 5))
    | _ => some (.mrmapSpareBitmap x.guard (x.d.setWidth 5) (x.a.setWidth 5) (x.b.setWidth 5) (x.c.setWidth 5))
  | 0x03 => match (x.i16.extractLsb' 0 1).toNat with
    | 0 => some (.mliveNotLive x.guard (x.d.setWidth 5) (x.a.setWidth 5) (x.b.setWidth 5))
    | _ => some (.mliveLive x.guard (x.d.setWidth 5) (x.a.setWidth 5) (x.b.setWidth 5))
  | _ => none

/-- The operations of major 0x79 (01_encoding R31). -/
def Raw.maj79 (x : Raw) : Option Instr :=
  match x.op.toNat with
  | 0x00 => some (.jrnl x.guard (x.d.setWidth 5) (x.a.setWidth 5) (x.i16.extractLsb' 0 2) (x.i16.extractLsb' 2 1))
  | 0x01 => some (.msave x.guard (x.d.setWidth 5) (x.a.setWidth 5))
  | _ => none

/-- The operations of major 0x7A (01_encoding R31). -/
def Raw.maj7A (x : Raw) : Option Instr :=
  match x.op.toNat with
  | 0x00 => some (.bind x.guard (x.d.setWidth 5) (x.a.setWidth 5) (x.b.setWidth 5))
  | 0x01 => match (x.i16.extractLsb' 0 1).toNat with
    | 0 => some (.gswitchCancel x.guard (x.d.setWidth 5) (x.a.setWidth 5) (x.b.setWidth 5))
    | _ => some (.gswitchArm x.guard (x.d.setWidth 5) (x.a.setWidth 5) (x.b.setWidth 5))
  | _ => none

/-- The instruction the fields would name, with every operand cut to its width; `none` where MAJ or OP is unassigned. -/
def Raw.candidate (x : Raw) : Except Reject Instr :=
  let pick (o : Option Instr) : Except Reject Instr := match o with | some i => .ok i | none => .error .unassignedOp
  match x.maj.toNat with
  | 0x00 => pick x.maj00
  | 0x01 => pick x.maj01
  | 0x02 => pick x.maj02
  | 0x03 => pick x.maj03
  | 0x04 => pick x.maj04
  | 0x05 => pick x.maj05
  | 0x06 => pick x.maj06
  | 0x07 => pick x.maj07
  | 0x08 => pick x.maj08
  | 0x09 => pick x.maj09
  | 0x10 => pick x.maj10
  | 0x11 => pick x.maj11
  | 0x12 => pick x.maj12
  | 0x13 => pick x.maj13
  | 0x18 => pick x.maj18
  | 0x19 => pick x.maj19
  | 0x1a => pick x.maj1A
  | 0x1b => pick x.maj1B
  | 0x1c => pick x.maj1C
  | 0x1d => pick x.maj1D
  | 0x1e => pick x.maj1E
  | 0x1f => pick x.maj1F
  | 0x20 => pick x.maj20
  | 0x21 => pick x.maj21
  | 0x22 => pick x.maj22
  | 0x23 => pick x.maj23
  | 0x24 => pick x.maj24
  | 0x25 => pick x.maj25
  | 0x26 => pick x.maj26
  | 0x27 => pick x.maj27
  | 0x28 => pick x.maj28
  | 0x29 => pick x.maj29
  | 0x2a => pick x.maj2A
  | 0x2b => pick x.maj2B
  | 0x2c => pick x.maj2C
  | 0x2d => pick x.maj2D
  | 0x2e => pick x.maj2E
  | 0x40 => pick x.maj40
  | 0x41 => pick x.maj41
  | 0x42 => pick x.maj42
  | 0x43 => pick x.maj43
  | 0x44 => pick x.maj44
  | 0x45 => pick x.maj45
  | 0x46 => pick x.maj46
  | 0x47 => pick x.maj47
  | 0x48 => pick x.maj48
  | 0x50 => pick x.maj50
  | 0x51 => pick x.maj51
  | 0x52 => pick x.maj52
  | 0x53 => pick x.maj53
  | 0x54 => pick x.maj54
  | 0x55 => pick x.maj55
  | 0x56 => pick x.maj56
  | 0x60 => pick x.maj60
  | 0x61 => pick x.maj61
  | 0x62 => pick x.maj62
  | 0x63 => pick x.maj63
  | 0x64 => pick x.maj64
  | 0x65 => pick x.maj65
  | 0x66 => pick x.maj66
  | 0x67 => pick x.maj67
  | 0x68 => pick x.maj68
  | 0x70 => pick x.maj70
  | 0x71 => pick x.maj71
  | 0x72 => pick x.maj72
  | 0x73 => pick x.maj73
  | 0x74 => pick x.maj74
  | 0x75 => pick x.maj75
  | 0x76 => pick x.maj76
  | 0x77 => pick x.maj77
  | 0x78 => pick x.maj78
  | 0x79 => pick x.maj79
  | 0x7a => pick x.maj7A
  | _ => .error .unassignedMajor

/-- The 64 base bits of a word from its fields (01_encoding R23). -/
def Raw.base (x : Raw) : BitVec 64 :=
  x.i16 ++ (BitVec.ofBool x.i ++ x.t ++ x.op) ++ x.c ++ x.b ++ x.a ++ x.d ++ BitVec.ofBool x.pn ++ x.pg ++ x.maj ++ x.len

/-- The 128 bits of an instruction from its fields, zero above its length. -/
def Raw.pack (x : Raw) : BitVec 128 := x.ext ++ x.base

/-- How many bytes an instruction of this LEN takes (01_encoding R19). -/
def lenBytes (len : BitVec 2) : Nat :=
  match len.toNat with
  | 0 => 8 | 1 => 12 | 2 => 16 | _ => 4

/-- The fields of a word of 128 bits; the bits above its length are not part of the instruction. -/
def Raw.unpack (w : BitVec 128) : Raw :=
  { len := w.extractLsb' 0 2, maj := w.extractLsb' 2 7, pg := w.extractLsb' 9 3, pn := w.getLsbD 12,
    d := w.extractLsb' 13 6, a := w.extractLsb' 19 6, b := w.extractLsb' 25 6, c := w.extractLsb' 31 6,
    op := w.extractLsb' 37 6, t := w.extractLsb' 43 4, i := w.getLsbD 47, i16 := w.extractLsb' 48 16,
    ext := if w.extractLsb' 0 2 = 0 then 0 else if w.extractLsb' 0 2 = 1 then (w.extractLsb' 64 32).setWidth 64
           else w.extractLsb' 64 64 }

/-- Which check of R30 step 3 the fields fail when they differ from those of the candidate. -/
def Raw.mismatch (x y : Raw) : Reject :=
  if x.t ≠ y.t then .badType else if x.len ≠ y.len then .badLength else if x.i ≠ y.i then .badImmediate
  else if x.i ∧ x.b ≠ y.b then .operandB
  else if x.d ≠ y.d ∨ x.a ≠ y.a ∨ x.b ≠ y.b ∨ x.c ≠ y.c then .operandKind
  else if x.i16 ≠ y.i16 ∨ x.ext ≠ y.ext then .reservedBits else .badGuard

/-- Decode the fields of a word other than FILL (01_encoding R30 step 3). -/
def Raw.decode (x : Raw) : Except Reject Instr :=
  match x.candidate with
  | .error e => .error e
  | .ok i =>
    match i.toRaw with
    | none => .error .unassignedOp
    | some y =>
      if x = y then (match i.check with | none => .ok i | some e => .error e) else .error (Raw.mismatch x y)

/-- Decode the instruction whose 128 bits from its first parcel on are w; FILL is exactly 0x0000_0003 (R20). -/
def decodeWord (w : BitVec 128) : Except Reject Instr :=
  if w.extractLsb' 0 2 = 3 then (if w.extractLsb' 0 32 = 3 then .ok .fill else .error .badFill)
  else (Raw.unpack w).decode

/-- Encode an instruction: its 128 bits, zero above its length; an event has none. -/
def Instr.pack : Instr → Option (BitVec 128)
  | .fill => some 3
  | i => i.toRaw.map Raw.pack

/-- The length of an instruction in bytes (01_encoding R19, R20); an event takes none. -/
def Instr.size : Instr → Nat
  | .fill => 4
  | i => match i.toRaw with | some x => lenBytes x.len | none => 0

/-- Bits 63:0 of an instruction, the TVAL of ILLEGAL and PRIV (07_system_isa R222). -/
def Instr.bits (i : Instr) : Word := (i.pack.getD 0).setWidth 64

/-- The first n little-endian bytes of a word (00_scope R8). -/
def toBytes {w : Nat} (n : Nat) (x : BitVec w) : List Byte := (List.range n).map fun k => x.extractLsb' (8 * k) 8

/-- The little-endian word a list of bytes holds (00_scope R8). -/
def ofBytes (w : Nat) : List Byte → BitVec w
  | [] => 0
  | b :: bs => b.setWidth w ||| (ofBytes w bs <<< 8)

/-- The bytes of an instruction in memory, in address order (01_encoding R18). -/
def encode (i : Instr) : List Byte := toBytes i.size (i.pack.getD 0)

/-- Decode the instruction at the head of a list of bytes, and the bytes after it. -/
def decode (bs : List Byte) : Except Reject (Instr × List Byte) :=
  match bs with
  | [] => .error .truncated
  | b :: _ =>
    let n := lenBytes (b.setWidth 2)
    if bs.length < n then .error .truncated
    else
      match decodeWord (ofBytes 128 (bs.take n)) with
      | .ok i => .ok (i, bs.drop n)
      | .error e => .error e

/-- The instruction the decoder reads from a word numbered as the opcode table numbers bits: bit 0 is the least
significant bit of the first parcel; bits the table does not give are zero. -/
def decodeTableWord (_nbits w : Nat) : Option Instr :=
  match decode (toBytes 16 (BitVec.ofNat 128 w)) with
  | .ok (i, _) => some i
  | .error _ => none

end Sys2Proof
end

