-- ==== Sys2Proof/Config.lean ====
section
/-!
DEFINITION. What is fixed for the machine: the counts of 00_scope R1, the places the model gives each kind of storage,
and the values the spec leaves open, which have no body (assumption log 6).
-/

namespace Sys2Proof.Config

/-- Cores of the domes (R1); the four Belfry cores follow them. -/
def domeCores : Nat := 8192

/-- Storage addresses: HBM4E is 0 to 2^39 - 1 (21_memory_system R364); the other stores follow (assumption log 2). -/
def hbmSize : Nat := 2 ^ 39
def spareBase : Nat := 2 ^ 40
def domeBase : Nat := 2 ^ 41
def wsBase : Nat := 2 ^ 42
def scratchBase : Nat := 2 ^ 43
def objectStore : Nat := 2 ^ 44

/-- A value the spec leaves open, the n-th one drawn (assumption log 6). -/
opaque freeValue : Nat → Word

/-- Where system software maps the n-th published code object, in fetch blocks of 32 bytes from the bottom of the global
window, so that the largest object fits below its top (07_system_isa R209; assumption log 6). -/
opaque objectBase : Nat → Fin 8795957755904

/-- A special function whose rounding the interval search does not settle within its bound (assumption log 7). -/
opaque specialFree : Nat → Nat → BitVec 64 → BitVec 64

/-- The signature of an attestation report under the device key, 16,224 bytes (22_host_compat R385; assumption log 6). -/
opaque attestSignature : List Byte → BitVec 129792

/-- Whether the Belfry firmware verifies at bring-up, and whether a configuration block's signature verifies under its key
(22_host_compat R379, R380; assumption log 5). -/
opaque firmwareVerifies : Bool
opaque configVerifies (key signature signed : List Byte) : Bool

/-- Whether the bad-page list verifies at bring-up (21_memory_system R370; assumption log 5). -/
opaque badListVerifies (list : List (Word × Word)) : Bool

/-- The measurements of the boot ROM and the Belfry firmware, and of a configuration block with its signature
(22_host_compat R385; assumption log 5). -/
opaque bootMeasurements : List Byte
opaque blockMeasurement (signed signature : List Byte) : BitVec 256

/-- The workspace, in units of 256 bytes, and the level a core takes from a word that names none it may hold
(02_scalar R42, 07_system_isa R191; assumption log 6). -/
opaque otherWp : BitVec 14 → Fin 59
opaque otherLevel : BitVec 2 → Bool

/-- Where system software places the save area of a partition, in units of 1 MiB (16_traps R319; assumption log 6). -/
opaque saveArea : Nat → Fin 524288

/-- The physical TLB entries of a Spire and workspace-cache bytes of a core, smaller on a repaired part
(02_scalar R61; assumption log 6). -/
opaque tlbEntries : Nat → Fin 1025
opaque wsCacheBytes : Nat → Fin 1537

end Sys2Proof.Config
end

