-- ==== Sys2Proof/Machine/State.lean ====
section
/-!
DEFINITION. The state of the device: everything the spec gives it, as plain data. Tables are lists of keys and values
with rising keys; a key not listed has the default its reader names.
-/

namespace Sys2Proof.Machine

open Sys2Proof

/-- A table: keys strictly rising. -/
abbrev Tab (α : Type) := List (Nat × α)

/-- A core's wait (09_execution R243): what it waits for. -/
inductive WaitCond where
  /-- A token register of a copy whose status has not landed, by core and workspace-memory address (R150, R315); in a
  chain it may be a follower's (02_scalar R72). -/
  | token (core addr : Nat)
  /-- A free entry of the token table (R315). -/
  | tokenTable
  /-- Free journal entries (R139). -/
  | journal (need : Nat)
  /-- The grant or refusal of every posted store (R296): before the arrival of BSYNC or RECHAIN, or of BARRIVE. -/
  | stores (sync : Bool)
  /-- A load overlapping a posted store in flight (R139), by journal entry. -/
  | overlap (entry : Nat)
  /-- Earlier operations of the kinds of R157, for a PUBLISH or for another instruction. -/
  | fence (kinds : BitVec 5) (publish : Bool)
  /-- The journal holds nothing in flight (R196). -/
  | drain
  /-- A barrier phase (R155): the object of a dome, and the phase waited to end. -/
  | barrier (dome obj : Nat) (phase : Bool)
  /-- The same for RECHAIN (R84). -/
  | rechain (dome obj : Nat) (phase : Bool)
  /-- A timeline: a Graver queue context or a copy context of a Spire, and a number (R153). -/
  | timeline (graver : Bool) (spire ctx n : Nat)
  /-- A wake under a mask (R158). -/
  | wake (mask : Word)
  /-- Space or a message in a channel, by storage address of its header (R280): tried again from a cycle on. -/
  | channel (head due : Nat)
  /-- A held AMO.FADD.ORD (R146), by bank. -/
  | held (bank : Nat)
  /-- A released ordered operation that the mesh port presents first at the bank of a word (13_dome_memory R277). -/
  | port (loc : Nat)
  /-- The port's acceptance of a matrix instruction, presented since a core cycle (R167, 11_matrix_engine R256). -/
  | queue (spire ctx since : Nat)
  /-- A matrix operation the core waits on (R180, R186). -/
  | graverOp (spire ctx num : Nat)
  /-- YIELD (R197). -/
  | yield
  /-- HALT (R198). -/
  | halt
  /-- MSPARE's copy on a channel (R215). -/
  | spare (channel : Nat)
  /-- PINS of a handle entry, by storage address of the entry (R345, R346). -/
  | pins (entry : Nat) (zero : Bool)
  /-- A Graver to drain, for MSAVE (R219). -/
  | graverIdle (spire : Nat)
  /-- Accesses that use translations a TLBINV removes: reach, tenant, one context or all, one address or all (R210). -/
  | translation (reach tenant : Nat) (ctx : Option (BitVec 16)) (va : Option Nat)
  deriving DecidableEq, Repr

/-- States of a logical core (09_execution R243). -/
inductive Status where
  | notPlaced | running | waiting (w : WaitCond) | switchedOut | exited
  deriving DecidableEq, Repr

/-- A posted-store journal entry (05_memory_isa R139) with the reported mark of R314. An ordered packet has two
entries: `mate` of the first names the second. `notify` marks the wake of a channel (R160). -/
structure JEntry where
  op : BitVec 6 := 0
  ty : BitVec 4 := 0
  st : BitVec 2 := 0
  kind : BitVec 2 := 0
  size : BitVec 2 := 0
  vaddr : BitVec 48 := 0
  data : Word := 0
  ts : Word := 0
  reported : Bool := false
  mate : Option Nat := none
  notify : Bool := false
  deriving DecidableEq, Repr

/-- The reservation a SEND holds between its header operations, with the CAP it has read, whether it has read a poisoned word, and the payload words
it has written (05_memory_isa R162). -/
structure Resv where
  head : Nat
  cap : Word
  at_ : Word
  damaged : Bool := false
  sent : Nat := 0
  deriving DecidableEq, Repr

/-- The result an operation of the Graver hands to the core waiting on it (06_matrix_isa R180, R186). -/
inductive GResult where
  | row (data : BitVec 1024) | fact (status : BitVec 32) | poison (tile : Nat) | void
  deriving DecidableEq, Repr

/-- An arrival counted once, of a wait that was not over (05_memory_isa R164): WP and PC of its instruction, the phase it
returned, its object by logical dome and number, and whether that phase has ended; RECHAIN's is the chain's (R84). -/
structure Arrival where
  wp : BitVec 14
  pc : Word
  phase : Bool
  dome : Nat := 0
  obj : Nat := 0
  rechain : Bool := false
  ended : Bool := false
  deriving DecidableEq, Repr

/-- A core. -/
structure Core where
  pc : Word := 0
  wp : BitVec 14 := 0
  priv : BitVec 2 := 0
  gdepth : BitVec 3 := 0
  status : Status := .notPlaced
  lcore : BitVec 32 := 0
  leader : BitVec 5 := 0
  pos : BitVec 3 := 0
  widthM1 : BitVec 3 := 0
  detached : Bool := false
  /-- A member of a chain that has completed the current instruction (R72). -/
  done : Bool := false
  /-- How many handlers a chain leader has entered and not left (R312, R330). -/
  away : Nat := 0
  instret : Word := 0
  lt : Nat := 0
  /-- The last value TIME returned (R51). -/
  lastTime : Nat := 0
  journal : List JEntry := List.replicate 16 {}
  /-- The token table (R315): workspace-memory addresses. -/
  tokens : List (Option Nat) := List.replicate 32 none
  /-- Landed token registers not yet read or written, with the largest timestamp their copy carries (R299). -/
  landed : List (Nat × Nat) := []
  /-- Copies issued and not completed (R157). -/
  copies : Nat := 0
  /-- The largest timestamp a granted posted operation of this core took (R296, R302). -/
  grantTs : Nat := 0
  /-- Where a chain leader left the stream for its handler (R312, R330). -/
  leftAt : Word := 0
  /-- A barrier phase this core waited for has ended (13_dome_memory R282). -/
  released : Bool := false
  /-- The wake bits delivered in a core cycle, that cycle, and the workspace whose WAKE word took them (02_scalar R50). -/
  wakeNow : Nat × BitVec 14 × Word := (0, 0, 0)
  /-- The largest timestamps of this core's completed copies and of its channel traffic (R299). -/
  copyTs : Nat := 0
  chanTs : Nat := 0
  /-- The last number accepted from this core in each queue context (R157). -/
  lastOp : List Nat := [0, 0, 0, 0]
  mcDue : List Word := []
  wdDue : Option Word := none
  /-- Counted arrivals whose waits were not over (R164). -/
  bsync : List Arrival := []
  resv : Option Resv := none
  /-- The number under which a waiting matrix instruction was accepted, and its result (R167). -/
  gop : Option Nat := none
  gres : Option GResult := none
  /-- The PIVOT trap of a TFACT that completed after the agreed time of a gang switch: WP and PC of its instruction, and TVAL
  (16_traps R321). -/
  pivot : Option (BitVec 14 × Word × Word) := none
  /-- The old value a held AMO.FADD.ORD returned when it applied (R146). -/
  amo : Option Word := none
  /-- The word of a held AMO.FADD.ORD was poisoned when it was to apply (R138, R221). -/
  amoBad : Bool := false
  /-- Ticks at which a YIELD began, and whether a switch answered it (R197). -/
  yieldAt : Option Nat := none
  yielded : Bool := false
  /-- The core cycle before which nothing issues (R42, R82, R204, R310). -/
  holdUntil : Nat := 0
  /-- The bits wakes have set and no WAIT has taken, with the timestamps that WAIT acquires (R302). -/
  wakeTs : List (Word × Nat) := []
  /-- Corrupted state a later instruction consumes: unit and address (R222 SOFT). -/
  soft : List (Nat × Nat) := []
  /-- Rows scrubbed, corrected and uncorrectable beats of an MSCRUB begun (R214). -/
  scrub : Option (Nat × Nat × Nat) := none
  /-- The channel of an MSPARE begun, and its status once the copy has ended (R215). -/
  spare : Option (Nat × Option Word) := none
  /-- The interrupt line of a Belfry core (R198). -/
  irq : Bool := false
  region : Nat := 0
  tenant : Nat := 0
  kres : Word := 0
  gatetab : Word := 0
  tvec : Word := 0
  deriving DecidableEq, Repr

/-- A timeline: counts, error word, completions out of order, and the timestamps of its writes: pairs of a number and the
largest timestamp up to it, both rising (05_memory_isa R152, 15_consistency R299). -/
structure Timeline where
  sub : Nat := 0
  comp : Nat := 0
  err : Word := 0
  early : List Nat := []
  ts : List (Nat × Nat) := []
  deriving DecidableEq, Repr

/-- An operand slot (06_matrix_isa R166, R174); a corrupted byte of it not yet consumed (07_system_isa R222 SOFT). FMT and
MXSUB are tagged in the order of acceptance, which the checks of R168 follow; `codes` are the tags of what the slot holds
(R167). -/
structure Slot where
  claimed : Bool := false
  releasing : Bool := false
  soft : Option Nat := none
  fmt : BitVec 4 := 0
  mxsub : BitVec 3 := 0
  codes : BitVec 4 × BitVec 3 := (0, 0)
  poison : Bool := false
  scales : BitVec 128 := 0
  bytes : BitVec 4096 := 0
  deriving DecidableEq, Repr

/-- An operation of the Graver (06_matrix_isa R167) with what it read at acceptance. -/
inductive GOp where
  | mld (x tr : Bool) (slot : Nat) (sh : BitVec 512)
  | mma (spec : Bool) (tile slotA slotB : Nat) (mask : Word) (fmt : BitVec 4)
  | mzero (tile : Nat)
  | mmov (shadow : Bool) (tile row : Nat)
  | mmovr (tile row : Nat) (data : BitVec 896)
  | mst (tile : Nat) (sh : BitVec 512) (mask : BitVec 32) (sc : Nat) (cplx : Bool) (rm : Nat)
  | mspec (sel : BitVec 8)
  | resolve (commit : Bool) (sel : BitVec 8)
  | tgemm (sa sb sc : BitVec 512) (acc : Nat) (add : Bool) (slot rm : Nat)
  | tfact (tile : Nat) (srci : Bool)
  | tsolve (x f : Nat) (mask : BitVec 16)
  deriving DecidableEq, Repr

/-- A burst an operation has still to present (13_dome_memory R276), with the number of the operation's accesses that it makes:
those of its words, and those outside dome memory that stand after them in the order of R177 and R181, of which there are
some where `out` says so. A burst of no beats stands for accesses outside dome memory that come first. -/
structure Burst where
  bank : Nat
  word : Nat
  beats : Nat
  items : Nat
  out : Bool
  deriving DecidableEq, Repr

/-- A page of the global window that an operation was translated through at acceptance (R177): its 64 KiB of virtual
addresses, where they lie, the leaf, the size of the page the leaf maps, and the context (07_system_isa R210). -/
structure GPage where
  va : Nat
  loc : Nat
  leaf : Word := 0
  size : Nat := 65536
  ctx : BitVec 16 := 0
  deriving DecidableEq, Repr

/-- An accepted operation (11_matrix_engine R257). -/
structure GEntry where
  num : Nat
  core : Nat
  op : GOp
  started : Bool := false
  /-- The Graver's clock without waits on memory when it became eligible (R258). -/
  since : Nat := 0
  /-- The operation has started once: it keeps the priority it had then (R259). -/
  began : Bool := false
  /-- The pages it was translated through (R177); the Keep that owns their context, or 0 (18_protection R334), and the logical
  time of the core, which its reads observe (15_consistency R298). -/
  pages : List GPage := []
  keep : Nat := 0
  lt : Nat := 0
  /-- Handle entries pinned, by storage address (R345). -/
  pins : List Nat := []
  tenant : Nat := 0
  region : Nat := 0
  /-- The first byte of the object of each of its shapes with MKIND 1 (06_matrix_isa R172). -/
  orgs : List Nat := []
  /-- The bursts still to present, and the accesses made so far (13_dome_memory R276). -/
  bursts : List Burst := []
  pos : Nat := 0
  /-- The next k-step of a TGEMM, the k-steps done, and its priority when it started (R183, R259). -/
  layer : Nat := 0
  trow : Nat := 0
  tcol : Nat := 0
  tk : Nat := 0
  ksteps : Nat := 0
  pri : Nat := 3
  ts : Nat := 0
  /-- Earlier operations it waits for, by context and number (R180, R181, R186). -/
  after : List (Nat × Nat) := []
  /-- Bytes its loads have brought, by storage address, and the poisoned units among them. -/
  got : List Host.Cell := []
  bad : List Nat := []
  /-- Its completion code, and the result it hands to its core. -/
  code : Nat := 0
  res : Option GResult := none
  deriving DecidableEq, Repr

/-- A Graver queue context (06_matrix_isa R166). -/
structure QCtx where
  prio : BitVec 2 := 3
  queue : List GEntry := []
  tl : Timeline := {}
  isOpen : Bool := false
  sel : BitVec 8 := 0
  resume : Word := 0
  shapes : List (BitVec 512) := List.replicate 16 0
  deriving DecidableEq, Repr

/-- A Graver (06_matrix_isa R166): tiles 0-7 are acc, 8-15 are sacc; element (r, c) of a tile is bits
56 (16 r + c) + 55 down to 56 (16 r + c). -/
structure Graver where
  slots : List Slot := List.replicate 128 {}
  tiles : List (BitVec 14336) := List.replicate 16 0
  tileStatus : List Word := List.replicate 16 0
  ctx : List QCtx := List.replicate 4 {}
  portLast : Nat := 31
  arbLast : Nat := 3
  /-- Core cycles spent waiting on memory, since when it waits, and the core cycle before which a unit makes progress (R258). -/
  stall : Nat := 0
  stallFrom : Option Nat := none
  busyTo : Nat := 0
  /-- The core cycles in which the port last accepted an instruction and an operation last started (R256, R257). -/
  acceptAt : Option Nat := none
  startAt : Option Nat := none
  deriving DecidableEq, Repr

/-- A set of a cache: the line in each way that holds one, and the bits of its pseudo-LRU tree (21_memory_system R359). -/
structure CacheSet where
  ways : Tab Nat := []
  plru : BitVec 16 := 0
  deriving DecidableEq, Repr

/-- What a holder of a line holds: its bytes, and the poison marks of its four sectors (21_memory_system R365). -/
abbrev LineImage := BitVec 1024 × BitVec 4

/-- A Spire-cache line of global memory (15_consistency R293): leased or owned, its timestamps, what a leased copy still holds
when another agent has written the line, what the home slice still holds of an owned line, the regions that have written it
since (R298), and its home slice. -/
structure CLine where
  owned : Bool := false
  slice : Nat := 0
  wts : Nat := 0
  rts : Nat := 0
  old : Option LineImage := none
  home : Option LineImage := none
  writers : List Nat := []
  deriving DecidableEq, Repr

/-- A TLB entry (16_traps R323, R324): the virtual page of 64 KiB, its context, the leaf and the level it came from. -/
structure TlbEntry where
  tenant : Nat
  ctx : BitVec 16
  vpage : Nat
  leaf : Word
  level : Nat
  deriving DecidableEq, Repr

/-- What a posted packet does at its destination (05_memory_isa R139). -/
inductive PktKind where
  | store (loc n : Nat) (data ts : Word)
  | red (loc n : Nat) (op : BitVec 6) (ty : Ty) (data : Word) (ord : Option (BitVec 32 × Bool))
  | wake (target : Nat) (mask : Word) (ts : Nat)
  deriving DecidableEq, Repr

/-- A packet on its way: who sent it, the journal entry it holds, and its destination. -/
structure Packet where
  src : Nat
  region : Nat
  lcore : BitVec 32
  entry : Nat
  dest : Nat
  kind : PktKind
  deriving DecidableEq, Repr

/-- A request at a Spire port (09_execution R248): its core in the Spire, its size in flits, and what it sends. -/
structure PortReq where
  core : Nat
  flits : Nat
  pkt : Packet
  deriving DecidableEq, Repr

/-- An acknowledgement or refusal on its way to a logical core (05_memory_isa R139, 14_prog_sampling R286). -/
structure Ack where
  region : Nat
  lcore : BitVec 32
  entry : Nat
  refused : Bool
  deriving DecidableEq, Repr

/-- A copy (05_memory_isa R149): where it moves bytes, and where it counts them and reports its end: its token register,
its barrier object by logical dome and number, its timeline by logical Spire, copy context and number. -/
structure CopyOp where
  core : Nat
  region : Nat
  lcore : BitVec 32
  tenant : Nat
  ctx : BitVec 16
  src : Word
  dst : Word
  len : Nat
  moved : Nat := 0
  /-- Object bases of a handle side: storage addresses (R151). -/
  srcObj : Option Nat := none
  dstObj : Option Nat := none
  pin : Option Nat := none
  token : Option Nat := none
  bar : Option (Nat × Nat) := none
  tl : Option (Nat × Nat × Nat) := none
  code : Nat := 0
  ts : Nat := 0
  part : Nat := 0
  /-- What bytes of its source held that it has overwritten through another mapping, by storage address (R150). -/
  was : List Host.Cell := []
  deriving DecidableEq, Repr

/-- A streamer (21_memory_system R363). -/
structure Streamer where
  active : List CopyOp := []
  queue : List CopyOp := []
  deriving DecidableEq, Repr

/-- A refused request a Spire port presents again (16_traps R325). -/
structure Retry where
  unit : Nat
  op : CopyOp
  tries : Nat := 0
  dueCycle : Nat := 0
  deriving DecidableEq, Repr

/-- A copy status on its way (16_traps R315). -/
structure Landing where
  region : Nat
  lcore : BitVec 32
  addr : Option Nat
  status : Word
  tl : Option (Nat × Nat × Nat)
  ts : Nat
  deriving DecidableEq, Repr

/-- A Spire. -/
structure Spire where
  graver : Graver := {}
  copyCtx : List Timeline := List.replicate 16 {}
  lines : Tab CLine := []
  /-- The 256 sets of 8 ways of its cache (00_scope R1). -/
  sets : Tab CacheSet := []
  tlb : List TlbEntry := []
  port : List PortReq := []
  deficit : List Nat := List.replicate 32 0
  visit : Nat := 0
  /-- The next core of weight 0 the port serves (R248). -/
  visit0 : Nat := 0
  retries : List Retry := []
  /-- Retired regions whose release flush of this Spire is owed (R245). -/
  owed : List Nat := []
  part : Option Nat := none
  deriving DecidableEq, Repr

/-- A barrier object (05_memory_isa R155); the timestamps its arrivals carry and its last phase released (R299), and the
arrivals and the failing code of its latest core cycle, which are evaluated together. -/
structure BObj where
  expect : BitVec 16 := 0
  arrived : BitVec 16 := 0
  now : Nat × BitVec 16 := (0, 0)
  errNow : Nat × BitVec 3 := (0, 0)
  pending : Nat := 0
  phase : Bool := false
  err : BitVec 3 := 0
  accTs : Nat := 0
  relTs : Nat := 0
  deriving DecidableEq, Repr

/-- A held ordered operation (05_memory_isa R146): the port that carried it, whether it is presented again (R277). -/
structure HeldOp where
  loc : Nat
  q : BitVec 32
  last : Bool
  port : Nat
  ready : Bool := false
  pkt : Option Packet := none
  core : Nat := 0
  op : BitVec 6 := 0
  ty : Ty := .dflt
  n : Nat := 8
  data : Word := 0
  deriving DecidableEq, Repr

/-- A dome. -/
structure Dome where
  bclk : Tab Nat := []
  ptr : Tab Nat := []
  /-- The port barred at a bank, and until which cycle (R275). -/
  barred : Tab (Nat × Nat) := []
  /-- Ordered-stream tables by bank: word and NEXT (R146). -/
  streams : Tab (List (Nat × BitVec 32)) := []
  holds : Tab (List HeldOp) := []
  barriers : Tab BObj := []
  contained : Bool := false
  /-- What taking the message of a header word acquires, by its storage address (15_consistency R301). -/
  chan : Tab Nat := []
  /-- The core cycle at which the power cap stopped the clock, and the cycles it has been stopped (22_host_compat R386). -/
  stopAt : Option Nat := none
  stopFor : Nat := 0
  streamer : Streamer := {}
  deriving DecidableEq, Repr

/-- An L2 slice: the ways that are scratchpad and their tenants, SCLK, its streamer (21_memory_system R359-R363). -/
structure Slice where
  ways : Tab Nat := []
  /-- Its 2,048 sets of 16 ways (R359). -/
  sets : Tab CacheSet := []
  sclk : Nat := 0
  streamer : Streamer := {}
  deriving DecidableEq, Repr

/-- The timestamps a home slice keeps for a line (15_consistency R293); whether a slice holds the line, and which, whether it
is to be written back, and what HBM4E holds where that is not what the line holds (21_memory_system R371, R368; assumption
log 59). -/
structure SLine where
  wts : Nat := 0
  rts : Nat := 0
  held : Bool := false
  home : Nat := 0
  dirty : Bool := false
  under : Option (BitVec 1024) := none
  deriving DecidableEq, Repr

/-- A line that a slice holds as its home while another slice acts as its home too (21_memory_system R361). -/
structure Split where
  image : LineImage := (0, 0)
  wts : Nat := 0
  rts : Nat := 0
  dirty : Bool := false
  deriving DecidableEq, Repr

/-- An MSPARE copy in progress (07_system_isa R215). -/
structure SpareCopy where
  row : Nat
  spare : Nat
  entry : Nat
  endTick : Nat
  core : Nat
  poisoned : Bool := false
  deriving DecidableEq, Repr

/-- What a beat in error holds (21_memory_system R365): a soft error the check code corrects, an error it only detects, or
a stuck cell, correctable at every read, that a write does not repair (20_prog_scrub). -/
inductive BeatErr where
  | correctable | uncorrectable | stuck
  /-- The poison mark. -/
  | mark
  /-- A stuck cell with an error beside it that is only detected, or in a beat that holds the poison mark. -/
  | stuckBad | stuckMark
  deriving DecidableEq, Repr

/-- The memory controllers (21_memory_system R364-R371). Rows are numbered by their first physical address div 1024,
spare rows by their storage address div 1024; a live row is listed. -/
structure Hbm where
  live : Tab Unit := []
  remap : Tab Word := []
  spareUse : Tab (BitVec 32) := []
  /-- By channel: (row locator, counter) by tracker entry. -/
  track : Tab (Tab (Nat × Nat)) := []
  copies : Tab SpareCopy := []
  errs : Tab BeatErr := []
  /-- How many leaks have been made (R367). -/
  leaks : Nat := 0
  deriving DecidableEq, Repr

/-- An entry of a launch FIFO (09_execution R231): RCB, context, parent region, the core to wake (R195). -/
structure Launch where
  rcb : Nat
  ctx : BitVec 16
  parent : Option Nat := none
  wake : Option (Nat × BitVec 32 × BitVec 6) := none
  root : Bool := false
  /-- The retired region whose NEXT named it (R245). -/
  successorOf : Option Nat := none
  /-- The tick and the order of its acceptance (R236, R237). -/
  accepted : Nat := 0
  seq : Nat := 0
  deriving DecidableEq, Repr

/-- States of a region: in the Belfry's queue, with its Spires bound, running, switched out, killed, retired. -/
inductive RStatus where
  | waiting | placed | running | switched | killed | retired
  deriving DecidableEq, Repr

/-- A region (09_execution R227-R247) with its effective RCB of 256 bytes. -/
structure Region where
  id : Nat
  tenant : Nat
  prio : Nat
  fifo : Nat
  rcbAddr : Nat
  ctx : BitVec 16
  rcb : BitVec 2048
  status : RStatus := .waiting
  parent : Option Nat := none
  wake : Option (Nat × BitVec 32 × BitVec 6) := none
  root : Bool := false
  level : Nat := 0
  levelBefore : Nat := 0
  acceptSeq : Nat := 0
  waitFrom : Nat := 0
  part : Nat := 0
  /-- Physical Spires by logical Spire. -/
  spires : List Nat := []
  /-- Undeliverable wakes (R159), and the tick its cores started at. -/
  undeliv : Nat := 0
  /-- The timestamps of wakes its mailbox holds, by logical core (15_consistency R302). -/
  mailTs : Tab Nat := []
  start : Nat := 0
  /-- Its cores have started once. -/
  begun : Bool := false
  placedSeq : Nat := 0
  runTicks : Nat := 0
  runFrom : Nat := 0
  ksteps : Nat := 0
  kill : Nat := 0
  /-- Engine steps and bytes moved (R247), and the watchdog's period: the counter and the running time when it began. -/
  prog : Nat := 0
  progBytes : Nat := 0
  progBase : Nat := 0
  progFrom : Nat := 0
  /-- Handle entries its abandoned transfers still pin, by storage address (18_protection R345). -/
  pins : List Nat := []
  wdForced : Bool := false
  wdTrap : Bool := false
  /-- MACHINE_CHECKs of the partition before its cores start, due to each of them (22_host_compat R386). -/
  mcDue : List Word := []
  /-- The tick at which its last core and engine stopped for a gang switch (16_traps R319). -/
  stoppedAt : Option Nat := none
  /-- Killed before its RCB was read (R246). -/
  unread : Bool := false
  /-- The retired region whose NEXT named it (R245). -/
  successorOf : Option Nat := none
  deriving DecidableEq, Repr

/-- A Spire of a partition switched out (16_traps R319): its cores, its engines, its workspace memories by core times
16384 plus offset, and its banks, their clocks and tables by offset from the Spire's first bank. -/
structure SavedSpire where
  cores : List Core := []
  graver : Graver := {}
  copyCtx : List Timeline := []
  deficit : List Nat := []
  visit : Nat := 0
  visit0 : Nat := 0
  banks : List Host.Cell := []
  wsm : List Host.Cell := []
  bclk : List (Nat × Nat) := []
  streams : List (Nat × List (Nat × BitVec 32)) := []
  holds : List (Nat × List HeldOp) := []
  chan : List (Nat × Nat) := []
  poison : List Nat := []
  drained : List Packet := []
  deriving DecidableEq, Repr

/-- A partition switched out, and the address of its save area (16_traps R319). -/
structure Saved where
  part : Nat
  region : Nat
  tick : Nat
  save : Nat := 0
  barriers : List (Nat × BObj) := []
  spires : List SavedSpire := []
  deriving DecidableEq, Repr

/-- A published code object (07_system_isa R209): where it is mapped, where its bytes lie in
the object store, its size and measurement. -/
structure CodeObj where
  base : Nat
  store : Nat
  len : Nat
  tenant : Nat
  keep : Nat
  hash : BitVec 256
  deriving DecidableEq, Repr

/-- The MSI-X state of a tenant (22_host_compat R373): its table of 128 words, the pending bits, the vectors sent. -/
structure Msix where
  table : Tab Word := []
  pend : BitVec 64 := 0
  sent : List Nat := []
  deriving DecidableEq, Repr

/-- Trace control (22_host_compat R382). -/
structure Trace where
  on : Bool := false
  base : Nat := 0
  log2 : Nat := 10
  next : Nat := 0
  dropped : Nat := 0
  deriving DecidableEq, Repr

/-- The signed configuration block (22_host_compat R379). `signed` are the bytes its signature covers, whose layout the spec
does not give (assumption log 69). -/
structure ConfigBlock where
  version : Nat := 0
  ownerKey : List Byte := []
  signature : List Byte := []
  signed : List Byte := []
  tenants : Tab (BitVec 2048) := []
  /-- The base of the Keep table, and its entries (18_protection R335). -/
  keepBase : Nat := 0
  keeps : Tab (BitVec 512) := []
  masks : Tab (BitVec 64) := []
  /-- The slice masks granted to each owner: tenant t under t, Keep k under 16 + k (21_memory_system R360). -/
  maskGrants : Tab (BitVec 64) := []
  sysctl : Word := 0
  faultQueue : Option Nat := none
  /-- The location of the bad-page list in flash. -/
  badListAt : Nat := 0
  /-- The context tables, by physical address. -/
  contexts : List Host.Cell := []
  keepImages : List (List Byte) := []
  deriving DecidableEq, Repr

/-- One entry of the bad-page list (21_memory_system R370). -/
abbrev BadPage := Word × Word

/-- An access of a port to a semaphore (22_host_compat R375). -/
inductive SemAccess where
  | take | peek | write (v : Word)
  deriving DecidableEq, Repr

/-- What comes from outside the device and no instruction of the table stands for: a read of a 64-bit register, two accesses of
ports A and B that reach one semaphore in one mesh cycle, a request that needs what the ports do not support
(22_host_compat R372, R373, R375, R376), and an entry appended to the bad-page list (21_memory_system R370). -/
inductive Access where
  | read (port : Bool) (bar offset : Nat)
  | tie (n : Nat) (a b : SemAccess)
  | unsupported (port : Bool)
  | badPage (e : BadPage)
  deriving DecidableEq, Repr

/-- What moves next (assumption log 1): how many core cycles pass, and then a core, an event, or an access from outside. -/
inductive Mover where
  | core (c : Nat) | event (i : Instr) | outside (a : Access) | idle
  deriving DecidableEq, Repr

structure Turn where
  dt : Nat := 1
  who : Mover := .idle
  deriving DecidableEq, Repr

/-- How far bring-up has gone (22_host_compat R380). -/
inductive Boot where
  | off | halted | degraded | up
  deriving DecidableEq, Repr

/-- A management command (22_host_compat R377). -/
inductive Command where
  | share (tenant : Nat) (share : BitVec 8)
  | watchdog (tenant n : Nat) (value : Word)
  | trace (enable : Bool) (base log2 : Nat)
  | attest (port : Bool) (nonce : BitVec 256)
  deriving DecidableEq, Repr

/-- The device. -/
structure State where
  /-- All storage: bytes at storage addresses, strictly rising, no entry 0 (assumption log 2, 3). -/
  mem : List Host.Cell := []
  cores : Tab Core := []
  spires : Tab Spire := []
  domes : Tab Dome := []
  slices : Tab Slice := []
  lines : Tab SLine := []
  /-- Lines that slices hold beside the one of `lines`, by slice times 2^32 plus line (21_memory_system R361). -/
  split : Tab Split := []
  poison : Tab Unit := []
  hbm : Hbm := {}
  packets : List Packet := []
  acks : List Ack := []
  landings : List Landing := []
  fifos : Tab (List Launch) := []
  lstat : Tab Word := []
  regions : List Region := []
  regNext : Nat := 1
  seqNext : Nat := 0
  vtime : Tab (Nat × Nat) := []
  slotTable : Tab (BitVec 512) := []
  armed : Tab Nat := []
  saved : List Saved := []
  semaphores : Tab Word := []
  lastTie : Bool := true
  msix : Tab Msix := []
  counters : Tab Word := []
  trace : Trace := {}
  /-- What the device has returned to host reads and commands, oldest first (22_host_compat R374, R375, R385). -/
  replies : List (Bool × List Byte) := []
  /-- Management commands the Belfry has accepted and not carried out (22_host_compat R377). -/
  commands : List Command := []
  /-- Keep images that PUBLISH rejected at bring-up: image, code and VALUE (22_host_compat R380). -/
  rejected : List (Nat × Nat × Nat) := []
  tenants : Tab (BitVec 2048) := []
  /-- Where the Keep table lies, once the configuration block has set it (18_protection R335). -/
  keepTable : Option Nat := none
  masks : Tab (BitVec 64) := []
  /-- The slice masks granted to each owner: tenant t under t, Keep k under 16 + k (21_memory_system R360). -/
  maskGrants : Tab (BitVec 64) := []
  sysctl : Word := 0
  config : ConfigBlock := {}
  /-- The version and the owner hash that flash keeps (22_host_compat R379). -/
  flashVersion : Nat := 0
  ownerHash : BitVec 256 := 0
  faultQueue : Option Nat := none
  badPages : List BadPage := []
  badListOk : Bool := true
  /-- Pages of 64 KiB that no window holds (21_memory_system R370). -/
  excluded : List Nat := []
  mcLog : List (Word × Bool) := []
  objects : List CodeObj := []
  globalTs : Nat := 0
  /-- Whom the events of this step are counted for where no instruction of a core causes them: a tenant, or 17 and 18 for the
  host ports (22_host_compat R381). -/
  acting : Option Nat := none
  /-- Barrier objects, by dome and number, to be evaluated when this core cycle ends (05_memory_isa R155). -/
  evals : List (Nat × Nat) := []
  /-- The BSTATs of this core cycle, whose results hold what the cycle has done to their objects when it ends (13_dome_memory
  R282): core, register, dome and object. -/
  bstats : List (Nat × SReg × Nat × Nat) := []
  boot : Boot := .off
  power : Bool := true
  cycle : Nat := 0
  sched : List Turn := []
  cur : Nat := 0
  freeCtr : Nat := 0
  deriving DecidableEq, Repr

/-- The state right after device reset: before bring-up, nothing placed, memory zero (22_host_compat R380; assumption
log 3, 4, 5). -/
def State.reset : State := {}

/-- Why the machine stops. -/
inductive Fault where
  /-- Raised by every step of a module without power (22_host_compat R386): safe. -/
  | powerOff
  /-- Raised by every step after the boot ROM halted the device (22_host_compat R380 step 1): safe. -/
  | bootHalted
  deriving DecidableEq, Repr

/-- Why an instruction has no meaning. -/
inductive Refusal where
  /-- Raised by no instruction of this model: the host's name for an instruction without a meaning. Safe. -/
  | notModelled (mnemonic : String)
  deriving DecidableEq, Repr

end Sys2Proof.Machine
end

