-- ==== Sys2Proof/Machine/Ops.lean ====
section
/-!
DEFINITION. The named operations over tables, memory, registers and counters; the outcome of an instruction; taking an
exception and returning from one (16_traps R309-R312, 07_system_isa R202-R204).
-/

namespace Sys2Proof.Machine

open Sys2Proof

/-! ## Tables -/

/-- The value of a key, if listed. -/
def Tab.find? {α : Type} : Tab α → Nat → Option α
  | [], _ => none
  | (k, v) :: t, n => if n = k then some v else if n < k then none else Tab.find? t n

/-- The value of a key, or a default. -/
def Tab.get {α : Type} (t : Tab α) (n : Nat) (dflt : α) : α := (Tab.find? t n).getD dflt

/-- Set the value of a key. -/
def Tab.put {α : Type} : Tab α → Nat → α → Tab α
  | [], n, x => [(n, x)]
  | (k, v) :: t, n, x =>
    if n < k then (n, x) :: (k, v) :: t else if n = k then (n, x) :: t else (k, v) :: Tab.put t n x

/-- Remove a key. -/
def Tab.del {α : Type} : Tab α → Nat → Tab α
  | [], _ => []
  | (k, v) :: t, n => if n < k then (k, v) :: t else if n = k then t else (k, v) :: Tab.del t n

/-- Element n of a list, or a default. -/
def nth {α : Type} (l : List α) (n : Nat) (dflt : α) : α := l.getD n dflt

/-! ## Memory -/

/-- Memory: bytes by storage address. -/
abbrev Mem := List Host.Cell

namespace Mem

/-- What an unlisted address reads as (assumption log 3). -/
def blank : Byte := 0

/-- One byte. -/
def read : Mem → Nat → Byte
  | [], _ => blank
  | (k, v) :: m, a => if a = k then v else if a < k then blank else read m a

/-- Write one byte, keeping the canonical form: writing `blank` removes the entry. -/
def write : Mem → Nat → Byte → Mem
  | [], a, b => if b = blank then [] else [(a, b)]
  | (k, v) :: m, a, b =>
    if a < k then (if b = blank then (k, v) :: m else (a, b) :: (k, v) :: m)
    else if a = k then (if b = blank then m else (a, b) :: m)
    else (k, v) :: write m a b

/-- The canonical form: addresses strictly rising, no entry equal to what an unlisted address reads as. -/
def wf : Mem → Bool
  | [] => true
  | [(_, v)] => v != blank
  | (k, v) :: (k', v') :: m => v != blank && decide (k < k') && wf ((k', v') :: m)

/-- The bytes from an address on. -/
def bytes (m : Mem) (a n : Nat) : List Byte := (List.range n).map fun i => read m (a + i)

/-- A little-endian value of n bytes (00_scope R8), as a word of w bits. -/
def load (m : Mem) (w a n : Nat) : BitVec w := ofBytes w (bytes m a n)

/-- Write a list of bytes from an address on. -/
def writeBytes : Mem → Nat → List Byte → Mem
  | m, _, [] => m
  | m, a, b :: bs => writeBytes (write m a b) (a + 1) bs

/-- Store the low n bytes of a value, little-endian. -/
def store {w : Nat} (m : Mem) (a n : Nat) (x : BitVec w) : Mem := writeBytes m a (toBytes n x)

/-- Make n bytes from an address on blank. -/
def clear (m : Mem) (a n : Nat) : Mem := m.filter fun c => !(decide (a ≤ c.1) && decide (c.1 < a + n))

end Mem

/-! ## Cores, Spires, domes -/

/-- The dome, Spire and core numbers of a core index (00_scope R4, R6). -/
def domeOf (c : Nat) : Nat := c / 1024
def spireOf (c : Nat) : Nat := c / 32
def coreInSpire (c : Nat) : Nat := c % 32

/-- A core that nothing has placed: a dome core not placed, or a Belfry core running at SYSTEM level (assumption log 4). -/
def Core.init (c : Nat) : Core :=
  if c < Config.domeCores then { leader := BitVec.ofNat 5 c }
  else if c < Config.domeCores + 4 then { priv := 2, status := .running, region := 0 }
  else {}

/-- Whether a core is attached to a chain, and whether it follows its leader (02_scalar R49, R72). -/
def Core.chained (k : Core) : Bool := k.widthM1 != 0 && !k.detached
def Core.follower (k : Core) : Bool := k.chained && k.pos != 0

/-- Whether a core is inside an instruction that ends without waiting for others: between the header operations of a SEND,
at an AMO its bank has applied or has read poison for, in an MSCRUB or an MSPARE begun (05_memory_isa R164, 07_system_isa R214, R215). -/
def Core.inside (k : Core) : Bool := k.resv.isSome || k.amo.isSome || k.amoBad || k.scrub.isSome || k.spare.isSome

namespace State

/-- The record of a core. -/
def coreAt (s : State) (c : Nat) : Core := Tab.get s.cores c (Core.init c)

/-- The record of the core an instruction acts on. -/
def core (s : State) : Core := s.coreAt s.cur

def setCoreAt (s : State) (c : Nat) (k : Core) : State := { s with cores := Tab.put s.cores c k }

def setCore (s : State) (k : Core) : State := s.setCoreAt s.cur k

/-- Change the record of the current core. -/
def onCore (s : State) (f : Core → Core) : State := s.setCore (f s.core)

def spireAt (s : State) (n : Nat) : Spire := Tab.get s.spires n {}
def setSpireAt (s : State) (n : Nat) (x : Spire) : State := { s with spires := Tab.put s.spires n x }
def domeAt (s : State) (d : Nat) : Dome := Tab.get s.domes d {}
def setDomeAt (s : State) (d : Nat) (x : Dome) : State := { s with domes := Tab.put s.domes d x }
def sliceAt (s : State) (n : Nat) : Slice := Tab.get s.slices n {}
def setSliceAt (s : State) (n : Nat) (x : Slice) : State := { s with slices := Tab.put s.slices n x }

/-- The Spire of the current core. -/
def mySpire (s : State) : Nat := spireOf s.cur
def myDome (s : State) : Nat := domeOf s.cur

/-- A Belfry core (01_encoding R33). -/
def isBelfry (s : State) : Bool := decide (Config.domeCores ≤ s.cur)

/-- TIME in ticks: one tick is 2.3 core cycles (00_scope R3). -/
def time (s : State) : Nat := s.cycle * 10 / 23

/-- The core cycles of a dome's clock: not those in which the power cap has stopped it (22_host_compat R386). -/
def domeClock (s : State) (d : Nat) : Nat :=
  let x := s.domeAt d
  s.cycle - x.stopFor - (match x.stopAt with
    | some c => s.cycle - c
    | none => 0)

/-- The core cycles of the current core's clock. -/
def clock (s : State) : Nat := s.domeClock s.myDome

/-- The events of no tenant are counted under this number (22_host_compat R381). -/
def deviceTenant : Nat := 16

/-- The events that a host port causes are counted under this number (22_host_compat R381). -/
def portTenant (port : Bool) : Nat := 17 + port.toNat

/-- Add to a performance counter of a tenant (22_host_compat R381). -/
def countFor (s : State) (tenant i n : Nat) : State :=
  let k := tenant * 96 + i
  { s with counters := Tab.put s.counters k (Tab.get s.counters k 0 + BitVec.ofNat 64 n) }

/-- Add to a performance counter of the current core's tenant. -/
def count (s : State) (i n : Nat) : State := s.countFor s.core.tenant i n

/-- The tenant or the port whose partition or host port causes an event (22_host_compat R381): the one that the step acts for,
else the tenant of the core that executes, else none. -/
def causer (s : State) : Nat := s.acting.getD (if s.isBelfry then deviceTenant else s.core.tenant)

/-- Add to a performance counter of whoever causes the event. -/
def countBy (s : State) (i n : Nat) : State := s.countFor s.causer i n

/-- Do f for a tenant or a port, to which its events are counted. -/
def actingFor {α : Type} (s : State) (who : Nat) (f : State → α × State) : α × State :=
  let r := f { s with acting := some who }
  (r.1, { r.2 with acting := s.acting })

/-- The same for what only changes the state. -/
def actFor (s : State) (who : Nat) (f : State → State) : State := { f { s with acting := some who } with acting := s.acting }

/-- A fresh free value (assumption log 6). -/
def free (s : State) : Word × State := (Config.freeValue s.freeCtr, { s with freeCtr := s.freeCtr + 1 })

/-! ## Workspace words and registers (02_scalar R41-R43) -/

/-- Storage address of a byte of a core's workspace memory. -/
def wsLoc (core off : Nat) : Nat := Config.wsBase + core * 16384 + off

/-- Storage address of a byte of the live workspace. -/
def live (s : State) (off : Nat) : Nat := wsLoc s.cur (s.core.wp.toNat + off)

/-- A 64-bit word of the live workspace. -/
def word (s : State) (off : Nat) : Word := Mem.load s.mem 64 (s.live off) 8

def setWord (s : State) (off : Nat) (x : Word) : State := { s with mem := Mem.store s.mem (s.live off) 8 x }

/-- w[r]: w0 reads zero (00_scope R12). -/
def reg (s : State) (r : SReg) : Word := if r = 0 then 0 else s.word (8 * r.toNat)

/-- w[r] := x: a write to w0 is discarded (00_scope R12). -/
def setReg (s : State) (r : SReg) (x : Word) : State := if r = 0 then s else s.setWord (8 * r.toNat) x

/-- v[r]. -/
def vreg (s : State) (r : VReg) : VWord := Mem.load s.mem 256 (s.live (0x100 + 32 * r.toNat)) 32

def setVreg (s : State) (r : VReg) (x : VWord) : State :=
  { s with mem := Mem.store s.mem (s.live (0x100 + 32 * r.toNat)) 32 x }

/-- p[r]: p0 reads all ones (00_scope R12). -/
def pred (s : State) (r : PReg) : BitVec 32 :=
  if r = 0 then 0xFFFFFFFF else Mem.load s.mem 32 (s.live (0x500 + 4 * r.toNat)) 4

/-- p[r] := x: a write to p0 is discarded (00_scope R12). -/
def setPred (s : State) (r : PReg) (x : BitVec 32) : State :=
  if r = 0 then s else { s with mem := Mem.store s.mem (s.live (0x500 + 4 * r.toNat)) 4 x }

/-- The wake bits delivered in the present core cycle to the WAKE word of the live workspace (02_scalar R50). -/
def newWakes (s : State) : Word :=
  if s.core.wakeNow.1 = s.cycle ∧ s.core.wakeNow.2.1 = s.core.wp then s.core.wakeNow.2.2 else 0

end State

/-! ## Offsets of the workspace words (02_scalar R41) -/

namespace Ws
def jctl : Nat := 0x520
def jflags : Nat := 0x528
def fcsr : Nat := 0x530
def savedPc : Nat := 0x538
def tcause : Nat := 0x540
def tpc : Nat := 0x548
def tval : Nat := 0x550
def tjrnl : Nat := 0x558
def ssp : Nat := 0x560
def ssl : Nat := 0x568
def tl (k : Nat) : Nat := 0x570 + 8 * k
def wake : Nat := 0x5B0
def scope : Nat := 0x5B8
def bwin : Nat := 0x5C0
def ctx : Nat := 0x5C8
def repState : Nat := 0x5D0
def repBase : Nat := 0x5D8
/-- A PRV word of a workspace (R41). -/
def isPrv (off : Nat) : Bool :=
  (decide (0x538 ≤ off) && decide (off < 0x560)) || (decide (0x5C8 ≤ off) && decide (off < 0x5E0))
end Ws

/-- The write rule of a workspace word (02_scalar R45): what a write of x stores, given the old value. -/
def Ws.filter (off : Nat) (old x : Word) : Word :=
  if off = Ws.jctl then x &&& 7
  else if off = Ws.jflags then x &&& 0x1F1F1F1F1F1F1F1F
  else if off = Ws.fcsr then (x &&& 0x1F00) ||| (if (x &&& 7).toNat ≤ 4 then x &&& 7 else 0)
  else if off = Ws.wake then old &&& ~~~x
  else if off = Ws.bwin then x &&& 0xFFFF
  else if off = Ws.ctx then x &&& 0xFFFF
  else if off = Ws.tcause then x &&& 0x800000003FFF03FF
  else if 0x570 ≤ off ∧ off < 0x5B0 then
    let y := x &&& 0xCF
    if (y >>> 6).toNat = 3 ∨ ((y >>> 6).toNat = 1 ∧ 3 < (y &&& 0xF).toNat) then y &&& 0xF else y
  else if off = Ws.repState ∨ off = Ws.repBase then old
  else if 0x5E0 ≤ off then 0
  else x

/-- The bits of a word of the live workspace that are not reserved: the others read as zero, whatever the memory held that the
workspace was entered from (00_scope R9, 02_scalar R41, R43; assumption log 24). -/
def Ws.readMask (off : Nat) : Word :=
  if off = Ws.jctl then 7
  else if off = Ws.jflags then 0x1F1F1F1F1F1F1F1F
  else if off = Ws.fcsr then 0x1F07
  else if off = Ws.bwin ∨ off = Ws.ctx then 0xFFFF
  else if off = Ws.tcause then 0x800000003FFF03FF
  else if 0x570 ≤ off ∧ off < 0x5B0 then 0xCF
  else if 0x5E0 ≤ off then 0
  else 0xFFFFFFFFFFFFFFFF

/-! ## The outcome of an instruction -/

/-- A trap to take (07_system_isa R222). -/
structure Trap where
  code : BitVec 8
  tval : Word
  tjrnl : Word := 0xFFFFFFFFFFFFFFFF
  deriving DecidableEq, Repr

namespace Cause
def illegal : BitVec 8 := 0x01
def fetchCross : BitVec 8 := 0x02
def fetchFault : BitVec 8 := 0x03
def priv : BitVec 8 := 0x04
def loadFault : BitVec 8 := 0x05
def storeFault : BitVec 8 := 0x06
def misalign : BitVec 8 := 0x07
def spillLimit : BitVec 8 := 0x08
def matrixSlot : BitVec 8 := 0x09
def shape : BitVec 8 := 0x0A
def poison : BitVec 8 := 0x0B
def remoteRefused : BitVec 8 := 0x0C
def handleStale : BitVec 8 := 0x0D
def channelSize : BitVec 8 := 0x0E
def gate : BitVec 8 := 0x0F
def gateDepth : BitVec 8 := 0x10
def brxRange : BitVec 8 := 0x11
def watchdog : BitVec 8 := 0x12
def soft : BitVec 8 := 0x13
def pivot : BitVec 8 := 0x14
def machineCheck : BitVec 8 := 0x15
def trap : BitVec 8 := 0x16
end Cause

/-- What an instruction does: complete and go on, complete and transfer, complete and go on at an address, trap (with the effects that persist, R11),
or wait without effect (05_memory_isa R164) but for what the state says. -/
inductive Res where
  | done (s : State)
  | jump (target : Word) (s : State)
  | goto (target : Word) (s : State)
  /-- The state stands as it is, the retirement in it. -/
  | asIs (s : State)
  | trap (t : Trap) (s : State)
  | wait (w : WaitCond) (s : State)

/-- The result of one step. -/
abbrev Out := Host.Outcome State Fault Refusal

/-! ## Regions -/

namespace State

/-- A region by number. -/
def region? (s : State) (r : Nat) : Option Region := s.regions.find? fun x => x.id == r

/-- Change a region. -/
def onRegion (s : State) (r : Nat) (f : Region → Region) : State :=
  { s with regions := s.regions.map fun x => if x.id == r then f x else x }

/-- The regions of a fault domain (09_execution R246): those reached from region r. -/
def ancestors (s : State) : Nat → Nat → List Nat
  | 0, r => [r]
  | n + 1, r =>
    match s.region? r with
    | some x => match x.parent with
      | some p => r :: ancestors s n p
      | none => [r]
    | none => [r]

def inDomain (s : State) (r x : Nat) : Bool :=
  match s.region? r with
  | none => x == r
  | some reg =>
    let depth := s.regions.length
    match (reg.rcb.extractLsb' 42 2).toNat with
    | 0 => x == r
    | 1 => (s.ancestors depth x).contains r
    | 2 => (s.ancestors depth x).getLast? == (s.ancestors depth r).getLast?
    | _ => match s.region? x with
      | some y => y.tenant == reg.tenant
      | none => false

/-- A core stops for good when its region is killed (R246): at once, or at the end of the instruction it is inside. -/
def killCores (s : State) (dead : List Nat) : Tab Core :=
  s.cores.map fun ck =>
    if decide (ck.1 < Config.domeCores) && dead.contains ck.2.region && ck.2.status != .notPlaced && !ck.2.inside then
      (ck.1, { ck.2 with status := .exited }) else ck

/-- Queued copies take the free places among the 16 active ones (21_memory_system R363). -/
def fillActive (x : Streamer) : Streamer :=
  { active := x.active ++ x.queue.take (16 - x.active.length), queue := x.queue.drop (16 - x.active.length) }

/-- A streamer without the copies of dead regions (R246: they are abandoned). -/
def dropCopies (dead : List Nat) (x : Streamer) : Streamer :=
  fillActive { active := x.active.filter fun c => !dead.contains c.region, queue := x.queue.filter fun c => !dead.contains c.region }

/-- A queue context without the operations of dead regions (R246). -/
def dropOps (dead : List Nat) (q : QCtx) : QCtx :=
  let keep := q.queue.filter fun e => !dead.contains e.region
  { q with queue := keep, tl := if keep.length = q.queue.length then q.tl else { q.tl with comp := q.tl.sub } }

/-- A Spire without the Graver operations and copies of dead regions. -/
def dropSpire (dead : List Nat) (x : Spire) : Spire :=
  { x with
    graver := { x.graver with ctx := x.graver.ctx.map (dropOps dead) }
    retries := x.retries.filter fun p => !dead.contains p.op.region }

/-- The handle entries that the operations of a Graver pin for a region. -/
def pinsOfGraver (r : Nat) (g : Graver) : List Nat := g.ctx.flatMap fun c => c.queue.flatMap fun e => if e.region == r then e.pins else []

/-- The handle entries the transfers of a region pin, those of a partition switched out too (18_protection R345). -/
def pinsOfRegion (s : State) (r : Nat) : List Nat :=
  let ofStreamer (x : Streamer) : List Nat := (x.active ++ x.queue).filterMap fun c => if c.region == r then c.pin else none
  (s.domes.flatMap fun (dd : Nat × Dome) => ofStreamer dd.2.streamer) ++ (s.slices.flatMap fun (dd : Nat × Slice) => ofStreamer dd.2.streamer) ++
    (s.spires.flatMap fun (ps : Nat × Spire) =>
      (ps.2.retries.filterMap fun x => if x.op.region == r then x.op.pin else none) ++ pinsOfGraver r ps.2.graver) ++
    s.saved.flatMap fun v => v.spires.flatMap fun x => pinsOfGraver r x.graver

/-- A dome without the copies and the held AMOs of dead regions. -/
def dropDome (cores : Tab Core) (dead : List Nat) (x : Dome) : Dome :=
  let gone (h : HeldOp) : Bool := h.pkt.isNone && cores.any fun ck => ck.1 == h.core && dead.contains ck.2.region
  { x with
    streamer := dropCopies dead x.streamer
    holds := (x.holds.map fun bh => (bh.1, bh.2.filter fun h => !gone h)).filter fun bh => !bh.2.isEmpty }

end State

/-! ## Kinds of storage -/

def isHbm (loc : Nat) : Bool := decide (loc < Config.hbmSize)
def isDome (loc : Nat) : Bool := decide (Config.domeBase ≤ loc) && decide (loc < Config.wsBase)
def isWs (loc : Nat) : Bool := decide (Config.wsBase ≤ loc) && decide (loc < Config.scratchBase)
def isScratch (loc : Nat) : Bool := decide (Config.scratchBase ≤ loc) && decide (loc < Config.objectStore)

/-- The dome of a dome-memory byte, and its bank within the dome (R136). -/
def locDome (loc : Nat) : Nat := (loc - Config.domeBase) / 2 ^ 23
def locBank (loc : Nat) : Nat := (loc - Config.domeBase) % 2 ^ 23 / 2048
/-- The slice of a scratchpad byte. -/
def locSlice (loc : Nat) : Nat := (loc - Config.scratchBase) / 2 ^ 22
def locWay (loc : Nat) : Nat := (loc - Config.scratchBase) % 2 ^ 22 / 2 ^ 18

/-- Storage address of a dome-memory offset of the interleaved view: word r of bank b is at 8 (4096 r + b) (R136). -/
def domeLoc (d off : Nat) : Nat :=
  Config.domeBase + d * 2 ^ 23 + (off / 8 % 4096) * 2048 + (off / 32768) * 8 + off % 8

/-- The first storage address of the unit that carries poison: a word in dome memory, else a sector of 32 bytes
(13_dome_memory R272, 21_memory_system R365). -/
def poisonKey (loc : Nat) : Nat := if isDome loc then loc / 8 * 8 else loc / 32 * 32

/-! ## HBM4E (21_memory_system R364, R368, R371) -/

/-- The channel of a physical address: stack times 32 plus channel. -/
def chanOf (pa : Nat) : Nat := pa / 2 ^ 15 % 8 * 32 + pa / 2 ^ 10 % 32

/-- Whether a remap entry is in force for the row of a physical address (R216). -/
def remapNames (e : Word) (pa : Nat) : Bool :=
  e.getLsbD 63 && decide ((e.extractLsb' 52 2).toNat = pa / 2 ^ 20 % 4) &&
    decide ((e.extractLsb' 50 2).toNat = pa / 2 ^ 18 % 4) && decide ((e.extractLsb' 32 17).toNat = pa / 2 ^ 22)

/-- Whether a beat has a stuck cell. -/
def BeatErr.isStuck : BeatErr → Bool
  | .stuck | .stuckBad | .stuckMark => true
  | .correctable | .uncorrectable | .mark => false

namespace State

/-- The spare a physical address is redirected to (R368). -/
def remapOf (s : State) (pa : Nat) : Option Nat :=
  (List.find? (fun (ke : Nat × Word) => decide (ke.1 / 64 = chanOf pa) && remapNames ke.2 pa) s.hbm.remap).map fun ke => (ke.2.extractLsb' 0 5).toNat

/-- Storage address of a physical address. -/
def hbmLoc (s : State) (pa : Nat) : Nat :=
  match s.remapOf pa with
  | some sp => Config.spareBase + ((chanOf pa * 4 + pa / 2 ^ 20 % 4) * 32 + sp) * 1024 + pa % 1024
  | none => pa

/-- The storage address a byte is really kept at. -/
def storeLoc (s : State) (loc : Nat) : Nat := if isHbm loc then s.hbmLoc loc else loc

/-- n bytes of storage, by little-endian value; an access never crosses a row. -/
def peek (s : State) (w loc n : Nat) : BitVec w := Mem.load s.mem w (s.storeLoc loc) n

/-- Whether a Spire owns a line. -/
def spireOwns (s : State) (ln : Nat) : Bool := s.spires.any fun (px : Nat × Spire) => match Tab.find? px.2.lines ln with
  | some l => l.owned
  | none => false

/-- Whether a slice or a Spire cache holds a line, so that a write to it stays there until it is written back. -/
def lineHeld (s : State) (ln : Nat) : Bool :=
  (match Tab.find? s.lines ln with
    | some l => l.held
    | none => false) || s.spireOwns ln

/-- The first write to a row of HBM4E makes it live (07_system_isa R217). It re-initialises no byte: a row not live holds
zeros and no error but of stuck cells, since `State.blankRow` leaves it so and no strike of `State.strikeSoft` lands in it. -/
def touchRow (s : State) (loc : Nat) : State :=
  if isHbm loc then
    let row := s.hbmLoc loc / 1024
    { s with hbm := { s.hbm with live := Tab.put s.hbm.live row () } }
  else s

/-- A write of a beat removes its error, but for a stuck cell. -/
def clearErr (t : Tab BeatErr) (k : Nat) : Tab BeatErr :=
  match Tab.find? t k with
  | some e => if e.isStuck then Tab.put t k .stuck else Tab.del t k
  | none => t

/-- A write of the poison mark into a beat (21_memory_system R365). -/
def markErr (t : Tab BeatErr) (k : Nat) : Tab BeatErr :=
  match Tab.find? t k with
  | some e => Tab.put t k (if e.isStuck then .stuckMark else .mark)
  | none => Tab.put t k .mark

/-- A store of n bytes clears the poison of the units it covers whole (R365, R272), and the error of the beat in HBM4E when
no cache holds its line. -/
def clean (s : State) (loc n : Nat) : State :=
  let k := poisonKey loc
  let u := if isDome loc then 8 else 32
  if k = loc ∧ u ≤ n then
    { s with poison := Tab.del s.poison k
             hbm := { s.hbm with errs := if s.lineHeld (loc / 128) then s.hbm.errs else clearErr s.hbm.errs (s.storeLoc loc / 32) } }
  else s

/-- A write reaches a line that a Spire owns, one that a slice holds, which is then to be written back, or its row of HBM4E
(21_memory_system R371). -/
def touch (s : State) (loc : Nat) : State :=
  if isHbm loc = true ∧ s.lineHeld (loc / 128) = true then
    match Tab.find? s.lines (loc / 128) with
    | some l =>
      if l.held && !l.dirty && !s.spireOwns (loc / 128) then
        let now : BitVec 1024 := s.peek 1024 (loc / 128 * 128) 128
        { s with lines := Tab.put s.lines (loc / 128) { l with dirty := true, under := some (l.under.getD now) } }
      else s
    | none => s
  else s.touchRow loc

/-- A write whose parts together cover a unit whole clears its mark (R365, R272): the parts by storage address and size. -/
def cleanSpans (s : State) (spans : List (Nat × Nat)) : State :=
  if s.poison.isEmpty && s.hbm.errs.isEmpty then s
  else spans.foldl (fun (s : State) x =>
    let u := if isDome x.1 then 8 else 32
    if poisonKey x.1 = x.1 ∧ (List.range u).all (fun j => spans.any fun y => decide (y.1 ≤ x.1 + j) && decide (x.1 + j < y.1 + y.2)) then
      s.clean x.1 u
    else s) s

/-- A write of a range of HBM4E clears the marks of the sectors it covers whole (R365). -/
def cleanRange (s : State) (base len : Nat) : State :=
  (List.range (len / 32 + 1)).foldl (fun (s : State) k =>
    let a := (base + 31) / 32 * 32 + 32 * k
    if a + 32 ≤ base + len then s.clean a 32 else s) s

/-- Write n bytes of storage. -/
def poke {w : Nat} (s : State) (loc n : Nat) (x : BitVec w) : State :=
  let s := (s.touch loc).clean loc n
  { s with mem := Mem.store s.mem (s.storeLoc loc) n x }

/-- The trace buffer lies in system memory: its header and its records (22_host_compat R382). -/
def traceFits (base log2 : Nat) : Bool := decide (base + 64 + 32 * 2 ^ log2 ≤ Config.hbmSize)

/-- The header of the trace buffer (22_host_compat R382; assumption log 45): word 0 counts the records written, word 1 is
software's count of those it has read, word 2 is the drop count. -/
def traceHeader (s : State) : State :=
  (s.poke s.trace.base 8 (BitVec.ofNat 64 s.trace.next)).poke (s.trace.base + 16) 8 (BitVec.ofNat 64 s.trace.dropped)

/-- Whether the circular buffer is full: it holds its size of records that software has not counted as read. -/
def traceFull (s : State) : Bool :=
  decide (2 ^ s.trace.log2 ≤ (BitVec.ofNat 64 s.trace.next - s.peek 64 (s.trace.base + 8) 8).toNat)

/-- A trace record (22_host_compat R382), written to the next place of the circular buffer when tracing is on and the buffer
has room, and counted as dropped in the buffer's header when it has none. -/
def traceRec (s : State) (ty tenant level region lcore : Nat) (arg : Word) : State :=
  if s.trace.on && traceFits s.trace.base s.trace.log2 then
    if s.traceFull = false then
      let a := s.trace.base + 64 + 32 * (s.trace.next % 2 ^ s.trace.log2)
      let w1 : Word := BitVec.ofNat 64 (ty * 2 ^ 56 + tenant % 16 * 2 ^ 52 + level % 16 * 2 ^ 48 + region % 65536 * 2 ^ 32 + lcore % 2 ^ 32)
      let s := (((s.poke a 8 (BitVec.ofNat 64 s.time)).poke (a + 8) 8 w1).poke (a + 16) 8 arg).poke (a + 24) 8 (0 : Word)
      let s := s.cleanRange a 32
      ({ s with trace := { s.trace with next := s.trace.next + 1 } } : State).traceHeader
    else ({ s with trace := { s.trace with dropped := s.trace.dropped + 1 } } : State).traceHeader
  else s

/-- Whether a launch still in a FIFO of a tenant lies in the fault domain of region r (R246). -/
def launchInDomain (s : State) (r tenant : Nat) (l : Launch) : Bool :=
  match s.region? r with
  | none => false
  | some x => match (x.rcb.extractLsb' 42 2).toNat with
    | 0 => false
    | 3 => x.tenant == tenant
    | _ => match l.parent with
      | some p => s.inDomain r p
      | none => false

/-- The record of a region killed in its FIFO: its RCB is still to be read (R246). -/
def deadLaunch (code key id : Nat) (l : Launch) : Region :=
  { id := id, tenant := key / 12, prio := key % 12, fifo := key % 12, rcbAddr := l.rcb, ctx := l.ctx, rcb := 0, status := .killed
    parent := l.parent, wake := l.wake, root := l.root, kill := code, unread := true, successorOf := l.successorOf }

/-- Remove the launches of a fault domain from the FIFOs (R246). -/
def killLaunches (s : State) (r code : Nat) : State :=
  s.fifos.foldl (fun (s : State) (kl : Nat × List Launch) =>
    let gone := kl.2.filter (s.launchInDomain r (kl.1 / 12))
    let made := gone.zipIdx.map fun li => deadLaunch code kl.1 (s.regNext + li.2) li.1
    let s := gone.foldl (fun (s : State) l => s.countFor (kl.1 / 12) (80 + kl.1 % 12) (s.time - l.accepted)) s
    { s with
      fifos := if gone.isEmpty then s.fifos else Tab.put s.fifos kl.1 (kl.2.filter fun l => !s.launchInDomain r (kl.1 / 12) l)
      regions := s.regions ++ made, regNext := s.regNext + gone.length }) s

/-- The ticks that regions which stop waiting have waited since they were last counted (22_host_compat R381). -/
def countWaits (s : State) (ids : List Nat) : State :=
  s.regions.foldl (fun (s : State) x =>
    if ids.contains x.id && (x.status == .waiting || x.status == .switched) then s.countFor x.tenant (80 + x.prio) (s.time - x.waitFrom) else s) s

/-- Kill every region of the fault domain of region r with a completion code (09_execution R246): its cores exit, its
Graver operations and copies are abandoned; the regions retire by their own event. -/
def kill (s : State) (r code : Nat) : State :=
  let s := s.killLaunches r code
  let dead := (s.regions.filter fun (x : Region) => s.inDomain r x.id && x.status != .retired && x.status != .killed).map (·.id)
  let s := s.countWaits dead
  let s : State := { s with
    cores := s.killCores dead
    regions := s.regions.map fun x => if dead.contains x.id then { x with status := .killed, kill := code, pins := s.pinsOfRegion x.id, spires := if x.status = .switched then [] else x.spires } else x
    spires := s.spires.map fun ps => (ps.1, dropSpire dead ps.2)
    domes := s.domes.map fun dd => (dd.1, dropDome s.cores dead dd.2)
    slices := s.slices.map fun dd => (dd.1, { dd.2 with streamer := dropCopies dead dd.2.streamer })
    landings := s.landings.filter fun l => !dead.contains l.region
    saved := s.saved.filter fun (v : Saved) => !dead.contains v.region }
  dead.foldl (fun (s : State) r => match s.region? r with
    | some x => (s.countFor x.tenant 71 1).traceRec 8 x.tenant x.level x.id 0xFFFFFFFF (BitVec.ofNat 64 (2 ^ 63 + code * 2 ^ 56 + s.time % 2 ^ 48))
    | none => s) s

/-! ## Trap entry and return (16_traps R309-R312) -/

/-- Entry k of the Keep table, 64 bytes at the table's base + 64·k (18_protection R335); none for Keep 0, above 255, or not
valid. -/
def keepEntry (s : State) (k : Nat) : Option (BitVec 512) :=
  if k = 0 ∨ 255 < k then none
  else match s.keepTable with
    | some b =>
      let e : BitVec 512 := s.peek 512 (b + 64 * k) 64
      if e.getLsbD 63 then some e else none
    | none => none

/-- The record of a tenant (18_protection R333). -/
def tenantRec (s : State) (t : Nat) : BitVec 2048 := Tab.get s.tenants t 0

/-- Storage address of gate frame n of a core (07_system_isa R200). -/
def frameLoc (s : State) (n : Nat) : Nat := wsLoc s.cur ((s.core.kres.extractLsb' 0 16).toNat + 64 * n)

/-- Word k of gate frame n. -/
def frame (s : State) (n k : Nat) : Word := Mem.load s.mem 64 (s.frameLoc n + 8 * k) 8

/-- The current Keep (18_protection R336); 0 when there is none. -/
def currentKeep (s : State) : Nat :=
  if s.core.gdepth ≠ 0 then ((s.frame (s.core.gdepth.toNat - 1) 7).extractLsb' 16 16).toNat
  else if s.core.priv = 1 then ((s.tenantRec s.core.tenant).extractLsb' 0 16).toNat else 0

/-- KPERM of the current Keep (07_system_isa R192, R206). -/
def kperm (s : State) : BitVec 5 :=
  match s.keepEntry s.currentKeep with
  | some e => e.extractLsb' 0 5
  | none => 0

/-- The handler that takes a trap now: its level, its WP and its entry (16_traps R309, 18_protection R336). -/
def handler (s : State) : BitVec 2 × BitVec 14 × Word :=
  if s.core.gdepth ≠ 0 then
    let e := (s.keepEntry s.currentKeep).getD 0
    (1, e.extractLsb' (64 + 48) 14, (e.extractLsb' 64 48).setWidth 64)
  else (s.core.tvec.extractLsb' 62 2, s.core.tvec.extractLsb' 48 14, (s.core.tvec.extractLsb' 0 48).setWidth 64)

/-- TCAUSE (07_system_isa R202). -/
def tcauseWord (async : Bool) (twp : BitVec 14) (ppriv : BitVec 2) (code : BitVec 8) : Word :=
  BitVec.ofBool async ++ (0 : BitVec 33) ++ twp ++ (0 : BitVec 6) ++ ppriv ++ code

/-- A WP that a core may hold: a multiple of 0x100 up to 0x3A00 (02_scalar R42). Where a saved or configured word names
another, the spec states no result: a free value (assumption log 6). -/
def fixWp (x : BitVec 14) : BitVec 14 :=
  if x.toNat % 256 = 0 ∧ x.toNat ≤ 0x3A00 then x else BitVec.ofNat 14 (256 * (Config.otherWp x).val)

/-- A level that a core may hold (07_system_isa R191): a dome core runs at TENANT or KEEP level, a Belfry core at SYSTEM.
Where a saved or configured word names another, the spec states no result: a free value (assumption log 6). -/
def fixPriv (s : State) (x : BitVec 2) : BitVec 2 :=
  if s.isBelfry then 2 else if x = 0 ∨ x = 1 then x else if Config.otherLevel x then 1 else 0

/-- The effective level of a region, for its trace records. -/
def levelOf (s : State) (r : Nat) : Nat :=
  match s.region? r with
  | some x => x.level
  | none => 0

/-- Whether trap entry, which loads the handler's workspace, meets a corrupted word of it that it does not itself write
(16_traps R311). -/
def softEntry (s : State) (hwp : BitVec 14) : Bool :=
  s.core.soft.any fun x => x.1 == 1 && decide (hwp.toNat ≤ x.2) && decide (x.2 < hwp.toNat + 0x600) &&
    (let off := (x.2 - hwp.toNat) / 8 * 8
     !(off == Ws.tcause || off == Ws.tpc || off == Ws.tval || off == Ws.tjrnl || off == Ws.repState))

/-- Followers of a leader that leaves the stream stop at the instruction they have not completed (R312). -/
def stopFollowers (s : State) : State :=
  if s.core.chained && s.core.pos == 0 then
    { s with cores := s.cores.map fun ck =>
        let stopped := match ck.2.status with
          | .waiting _ => true
          | _ => false
        if ck.2.follower && ck.1 != s.cur && ck.1 / 32 == s.cur / 32 && ck.2.leader == s.core.leader && stopped then
          (ck.1, { ck.2 with status := .running, released := false }) else ck }
  else s

/-- Whole words of the workspace memory of the current core are written: their corruption is gone (07_system_isa R222). -/
def wipeRange (s : State) (lo n : Nat) : State :=
  match s.core.soft with
  | [] => s
  | _ => s.onCore fun k => { k with soft := k.soft.filter fun x => !(x.1 == 1 && decide (lo ≤ x.2) && decide (x.2 < lo + n)) }

/-- Take a trap at `pc` (16_traps R310): the handler's workspace receives the trap words, WP, PRIV and PC change, and
the handler's first instruction issues 56 core cycles later. A trap raised while the handler's workspace is live, or whose
entry meets corruption there, is fatal and kills the region (R311). A follower detaches; a leader's followers stop (R312). -/
def takeTrap (s : State) (async : Bool) (pc : Word) (t : Trap) : State :=
  let h := s.handler
  let k := s.core
  let hwp := fixWp h.2.1
  let s := s.count (if async then 73 else 72) 1
  if hwp = k.wp ∨ s.softEntry hwp = true then (s.kill k.region 1).onCore fun k => { k with status := .exited }
  else
    let tc := tcauseWord async k.wp k.priv t.code
    let at_ := wsLoc s.cur hwp.toNat
    let m := Mem.store s.mem (at_ + Ws.tcause) 8 tc
    let m := Mem.store m (at_ + Ws.tpc) 8 pc
    let m := Mem.store m (at_ + Ws.tval) 8 t.tval
    let m := Mem.store m (at_ + Ws.tjrnl) 8 t.tjrnl
    let m := Mem.store m (at_ + Ws.repState) 8 (0 : Word)
    let s := ((({ s with mem := m } : State).wipeRange (hwp.toNat + Ws.tcause) 32).wipeRange (hwp.toNat + Ws.repState) 8).stopFollowers
    let s := s.onCore fun k =>
      { k with wp := hwp, priv := s.fixPriv h.1, pc := h.2.2, status := .running, done := false, released := false
               detached := k.detached || k.follower
               away := if k.chained && k.pos == 0 then k.away + 1 else k.away
               leftAt := if k.away = 0 then pc else k.leftAt
               holdUntil := s.clock + 56 }
    s.traceRec 9 k.tenant (s.levelOf k.region) k.region k.lcore.toNat tc

/-- Return from a trap (07_system_isa R204): WP, PRIV and PC come from TCAUSE and TPC of the live workspace, and the
resumed context issues 52 core cycles later. -/
def returnFromTrap (s : State) : State :=
  let tc := s.word Ws.tcause
  let tpc := s.word Ws.tpc
  s.onCore fun k =>
    { k with wp := fixWp (tc.extractLsb' 16 14), priv := s.fixPriv (tc.extractLsb' 8 2), pc := tpc
             away := k.away - 1, done := false, holdUntil := s.clock + 52 }

end State

end Sys2Proof.Machine
end

