-- ==== Sys2Proof/Machine/Cache.lean ====
section
/-!
DEFINITION. What the L2 slices and the Spire caches hold: sets, ways and tree pseudo-LRU, fetching a line from HBM4E and
writing it back (00_scope R1, R2, 21_memory_system R359, R365, R371, 15_consistency R293). The bytes of a line are those of
storage, which keeps the newest; a line records what differs (assumption log 59).
-/

namespace Sys2Proof.Machine

open Sys2Proof

/-! ## Sets (R359; assumption log 59) -/

namespace CacheSet

/-- The way a pseudo-LRU tree points at among those allowed: `l` levels below node `n`, whose first way is `w`. -/
def pick (bits : BitVec 16) (ok : Nat → Bool) : Nat → Nat → Nat → Option Nat
  | 0, _, w => if ok w then some w else none
  | l + 1, n, w =>
    let a := pick bits ok l (2 * n) w
    let b := pick bits ok l (2 * n + 1) (w + 2 ^ l)
    if bits.getLsbD n then b.or a else a.or b

/-- The bits of the nodes above a way, all pointing at it or all away from it. -/
def point (bits : BitVec 16) (levels way : Nat) (at_ : Bool) : BitVec 16 :=
  (List.range levels).foldl (fun (x : BitVec 16) k =>
    let n := 2 ^ k + way / 2 ^ (levels - k)
    let right := (way / 2 ^ (levels - k - 1)).testBit 0
    if right == at_ then x ||| ((1 : BitVec 16) <<< n) else x &&& ~~~((1 : BitVec 16) <<< n)) bits

/-- The way that holds a line. -/
def wayOf (c : CacheSet) (ln : Nat) : Option Nat := (List.find? (fun (x : Nat × Nat) => x.2 == ln) c.ways).map (·.1)

/-- A line enters a set, or is used again: the set, and the line it replaces. `first` for a line that enters first for
replacement. -/
def enter (c : CacheSet) (levels : Nat) (ok : Nat → Bool) (ln : Nat) (first : Bool) : CacheSet × Option Nat :=
  let free := (List.range (2 ^ levels)).find? fun w => ok w && (Tab.find? c.ways w).isNone
  match (c.wayOf ln).or (free.or (pick c.plru ok levels 1 0)) with
  | none => (c, none)
  | some w =>
    let old := match Tab.find? c.ways w with
      | some x => if x = ln then none else some x
      | none => none
    ({ ways := Tab.put c.ways w ln, plru := point c.plru levels w first }, old)

/-- A line leaves a set. -/
def drop (c : CacheSet) (ln : Nat) : CacheSet := { c with ways := c.ways.filter fun x => x.2 != ln }

end CacheSet

namespace State

/-! ## Homes (R360) -/

/-- The home slice of a physical address under HMODE 1 and a mask: the mask's k-th slice (R360). -/
def maskHome (mask : BitVec 64) (pa : Nat) : Nat :=
  let set := (List.range 64).filter fun i => mask.getLsbD i
  let l := pa / 128
  let h := Nat.xor (Nat.xor (l % 2 ^ 13) (l / 2 ^ 13 % 2 ^ 13)) (l / 2 ^ 26 % 2 ^ 11)
  nth set (h % set.length) 0

/-- The home of what the hardware accesses by physical address: HMODE 1 and HOME 0, as for the host (22_host_compat R374;
assumption log 59). -/
def hwHome (s : State) (pa : Nat) : Nat := maskHome (Tab.get s.masks 0 0) pa

/-! ## HBM4E and the slices (R365, R371) -/

/-- Whether a Spire cache holds a line. -/
def cached (s : State) (ln : Nat) : Bool := s.spires.any fun (px : Nat × Spire) => (Tab.find? px.2.lines ln).isSome

/-- The Spire that owns a line, and the line. -/
def ownerOfLine (s : State) (ln : Nat) : Option (Nat × CLine) :=
  s.spires.findSome? fun px => match Tab.find? px.2.lines ln with
    | some l => if l.owned then some (px.1, l) else none
    | none => none

def setSliceLine (s : State) (ln : Nat) (x : SLine) : State := { s with lines := Tab.put s.lines ln x }

/-- The four sectors of a line. -/
def sectors (ln : Nat) : List Nat := (List.range 4).map fun k => ln * 128 + 32 * k

/-- The poison marks of a line's newest bytes (R365). -/
def lineMarks (s : State) (ln : Nat) : BitVec 4 :=
  (sectors ln).zipIdx.foldl (fun (m : BitVec 4) x => if (Tab.find? s.poison x.1).isSome then m ||| ((1 : BitVec 4) <<< x.2) else m) 0

/-- Give a line marks. -/
def setLineMarks (s : State) (ln : Nat) (m : BitVec 4) : State :=
  { s with poison := (sectors ln).zipIdx.foldl (fun (t : Tab Unit) x => if m.getLsbD x.2 then Tab.put t x.1 () else Tab.del t x.1) s.poison }

/-- The newest bytes and marks of a line. -/
def lineImage (s : State) (ln : Nat) : LineImage := (s.peek 1024 (ln * 128) 128, s.lineMarks ln)

/-- What a line holds at its home: what the home slice still holds of an owned line, else the newest. -/
def homeImage (s : State) (ln : Nat) : LineImage :=
  match s.ownerOfLine ln with
  | some (_, c) => c.home.getD (s.lineImage ln)
  | none => s.lineImage ln

/-- Before a line is written, every leased copy keeps the bytes and the marks it holds (15_consistency R293). -/
def keepLeases (s : State) (ln : Nat) : State :=
  let now := s.lineImage ln
  { s with spires := s.spires.map fun px =>
      match Tab.find? px.2.lines ln with
      | some l => if !l.owned && l.old.isNone then (px.1, { px.2 with lines := Tab.put px.2.lines ln { l with old := some now } }) else px
      | none => px }

/-- The controller delivers a sector with or without its mark: to the slice, unless a Spire owns the line (R365). -/
def deliverSector (s : State) (b : Nat) (bad : Bool) : State :=
  let ln := b / 128
  let bit : BitVec 4 := (1 : BitVec 4) <<< (b / 32 % 4)
  match s.ownerOfLine ln with
  | some (p, c) =>
    let im := c.home.getD (s.lineImage ln)
    let m := if bad then im.2 ||| bit else im.2 &&& ~~~bit
    if m = im.2 then s
    else
      let x := s.spireAt p
      s.setSpireAt p { x with lines := Tab.put x.lines ln { c with home := some (im.1, m) } }
  | none =>
    if (Tab.find? s.poison b).isSome = bad then s
    else
      let s := s.keepLeases ln
      { s with poison := if bad then Tab.put s.poison b () else Tab.del s.poison b }

/-- The marks of a line that no slice and no owner holds any more leave with it; leased copies keep theirs. -/
def dropMarks (s : State) (ln : Nat) : State :=
  if s.spireOwns ln = true ∨ s.lineMarks ln = 0 then s else (s.keepLeases ln).setLineMarks ln 0

/-- HBM4E takes the marks of a line written back, or loses its errors (R365): a beat that takes the mark holds it until it is
written whole. -/
def writeMarks (s : State) (ln : Nat) (m : BitVec 4) : State :=
  { s with hbm := { s.hbm with errs := (sectors ln).zipIdx.foldl (fun (t : Tab BeatErr) x =>
      let k := s.hbmLoc x.1 / 32
      if m.getLsbD x.2 then markErr t k else clearErr t k) s.hbm.errs } }

/-- A dirty line is written back: the first write of a row not live makes it live (07_system_isa R217, R371), and a beat takes
the poison mark or loses its error (R365). -/
def writeBack (s : State) (ln : Nat) : State :=
  ((s.touchRow (ln * 128)).countBy 41 4).writeMarks ln (s.homeImage ln).2

/-- A line leaves its slice: a dirty one is written back; under a clean one HBM4E may hold other bytes, which are the line's
from now on. -/
def evictSlice (s : State) (ln : Nat) : State :=
  match Tab.find? s.lines ln with
  | none => s
  | some l =>
    let t := s.setSliceLine ln { l with held := false, dirty := false, under := none }
    if l.dirty then (t.writeBack ln).dropMarks ln
    else match l.under with
      | none => t.dropMarks ln
      | some u => match t.ownerOfLine ln with
        | some (p, c) =>
          let x := t.spireAt p
          t.setSpireAt p { x with lines := Tab.put x.lines ln { c with home := some (u, 0) } }
        | none =>
          let t := t.keepLeases ln
          ({ t with mem := Mem.store t.mem (t.storeLoc (ln * 128)) 128 u } : State).dropMarks ln

/-- What HBM4E holds of a line. -/
def hbmLine (s : State) (ln : Nat) : BitVec 1024 :=
  match Tab.find? s.lines ln with
  | some l => if l.held then l.under.getD (s.homeImage ln).1 else (s.homeImage ln).1
  | none => (s.homeImage ln).1

/-- HBM4E comes to hold other bytes of a line while caches keep theirs (21_memory_system R371). -/
def setHbmLine (s : State) (ln : Nat) (x : BitVec 1024) : State :=
  let l := Tab.get s.lines ln {}
  let under (h : Nat) : State := s.setSliceLine ln { l with held := true, home := h, under := some x }
  match s.ownerOfLine ln with
  | some (p, c) =>
    if l.held then under l.home
    else if c.home.isNone then under c.slice
    else
      let y := s.spireAt p
      s.setSpireAt p { y with lines := Tab.put y.lines ln { c with home := some (x, 0) } }
  | none =>
    if l.held then under l.home
    else
      let s := s.keepLeases ln
      { s with mem := Mem.store s.mem (s.storeLoc (ln * 128)) 128 x }

/-! ## A line with two homes (R361) -/

/-- The key of what a slice holds of a line beside the active home. -/
def splitKey (n ln : Nat) : Nat := n * 2 ^ 32 + ln

/-- A line that another slice acts as home for leaves slice n: dirty, it is written back on its own. -/
def evictSplit (s : State) (n ln : Nat) : State :=
  match Tab.find? s.split (splitKey n ln) with
  | none => s
  | some x =>
    let s : State := { s with split := Tab.del s.split (splitKey n ln) }
    if x.dirty then (((s.touchRow (ln * 128)).countBy 41 4).setHbmLine ln x.image.1).writeMarks ln x.image.2 else s

/-- Slice n evicts a line, as its home or beside another. -/
def evictAt (s : State) (n ln : Nat) : State :=
  let l := Tab.get s.lines ln {}
  if l.held = true ∧ l.home = n then s.evictSlice ln else s.evictSplit n ln

/-- A line leaves its set. -/
def leaveSet (s : State) (n ln : Nat) : State :=
  let x := s.sliceAt n
  s.setSliceAt n { x with sets := Tab.put x.sets (ln % 2048) ((Tab.get x.sets (ln % 2048) {}).drop ln) }

/-- A line enters a slice, or is used there again; the line it replaces is evicted. -/
def enterSlice (s : State) (n ln : Nat) (first : Bool) : State :=
  let x := s.sliceAt n
  let r := (Tab.get x.sets (ln % 2048) {}).enter 4 (fun w => (Tab.find? x.ways w).isNone) ln first
  let s := s.setSliceAt n { x with sets := Tab.put x.sets (ln % 2048) r.1 }
  match r.2 with
  | some old => (s.evictAt n old).countBy 39 1
  | none => s

/-! ## Owners (15_consistency R293) -/

/-- The number of no Spire. -/
def noSpire : Nat := 1000

/-- A line leaves a Spire cache: an owned one returns to the slice with its timestamps, to be written back if it was
written (R293). What HBM4E holds under it is what the slice held. -/
def returnLine (s : State) (sp ln : Nat) : State :=
  let x := s.spireAt sp
  match Tab.find? x.lines ln with
  | none => s
  | some l =>
    let s := s.setSpireAt sp { x with lines := Tab.del x.lines ln, sets := Tab.put x.sets (ln % 256) ((Tab.get x.sets (ln % 256) {}).drop ln) }
    if l.owned then
      let sl := Tab.get s.lines ln {}
      let home := if sl.held then sl.home else l.slice
      (s.setSliceLine ln { sl with wts := l.wts, rts := l.rts, held := true, home := home, dirty := sl.dirty || l.home.isSome,
                                   under := if l.home.isSome then sl.under.or (l.home.map (·.1)) else sl.under }).enterSlice home ln false
    else s

/-- Recall the owner of a line other than a Spire: the slice takes the line and its timestamps back (R293). -/
def recallLine (s : State) (except ln : Nat) : State :=
  match s.ownerOfLine ln with
  | some (p, _) => if p = except then s else (s.returnLine p ln).countBy 27 1
  | none => s

/-- The slice that acts as home of a line no Spire owns puts it aside: its own bytes, marks and timestamps stand beside those
of HBM4E, which are the line's until a slice holds it again (R361). -/
def park (s : State) (ln : Nat) : State :=
  let l := Tab.get s.lines ln {}
  if l.held then
    let now := s.lineImage ln
    let s := s.keepLeases ln
    let s : State := { s with
      lines := Tab.put s.lines ln { l with held := false, dirty := false, under := none }
      split := Tab.put s.split (splitKey l.home ln) { image := now, wts := l.wts, rts := l.rts, dirty := l.dirty }
      mem := match l.under with
        | some u => Mem.store s.mem (s.storeLoc (ln * 128)) 128 u
        | none => s.mem }
    s.setLineMarks ln 0
  else s

/-- A slice acts as home again with what it holds of a line that no other slice holds (R361). -/
def unpark (s : State) (home ln : Nat) : State :=
  match Tab.find? s.split (splitKey home ln) with
  | none => s
  | some x =>
    let hb : BitVec 1024 := s.peek 1024 (ln * 128) 128
    let s := s.keepLeases ln
    let s : State := { s with
      lines := Tab.put s.lines ln { wts := x.wts, rts := x.rts, held := true, home := home, dirty := x.dirty
                                    under := if x.dirty || hb != x.image.1 then some hb else none }
      split := Tab.del s.split (splitKey home ln)
      mem := Mem.store s.mem (s.storeLoc (ln * 128)) 128 x.image.1 }
    s.setLineMarks ln x.image.2

/-- Slice `home` acts as home of a line for an access routed to it (R361): what another slice holds of the line stands aside,
with what its owner returns to it. -/
def activate (s : State) (home ln : Nat) : State :=
  let l := Tab.get s.lines ln {}
  let other := match s.ownerOfLine ln with
    | some (_, c) => (if l.held then l.home else c.slice) != home
    | none => l.held && l.home != home
  let s := if other && isHbm (ln * 128) then (s.recallLine noSpire ln).park ln else s
  if s.split.isEmpty || s.lineHeld ln then s else s.unpark home ln

end State

end Sys2Proof.Machine
end

