-- ==== Sys2Proof/Machine/Memory.lean ====
section
/-!
DEFINITION. Windows, translation, protection and the accesses of a core to memory (05_memory_isa R135-R138,
15_consistency R290-R296, 16_traps R323-R324, 18_protection R334, 21_memory_system R360-R371).
-/

namespace Sys2Proof.Machine

open Sys2Proof

/-- The kinds of access of R138 and R323. -/
inductive Acc where
  | load | store | fetch
  deriving DecidableEq, Repr

/-- Where a byte lies: its storage address, and for global memory the attributes of its page (R137) and whether the
memory refuses it because it lies outside the owner's windows (18_protection R334). -/
structure Place where
  loc : Nat
  kind : Nat := 0
  home : Nat := 0
  share : Nat := 2
  outside : Bool := false
  /-- The leaf of its page, and the bytes of that page (16_traps R323). -/
  leaf : Word := 0
  size : Nat := 65536
  /-- Reached through a remote window: the mesh port of its dome presents the access (13_dome_memory R274). -/
  mesh : Bool := false
  deriving DecidableEq, Repr

/-- Why an access stops: a trap, with the state its reads left if they were made, or a wait (05_memory_isa R164). -/
inductive Stop where
  | trap (t : Trap) | trapIn (t : Trap) (s : State) | wait (w : WaitCond) | waitIn (w : WaitCond) (s : State)

/-- A computation an access may stop. -/
abbrev Chk (α : Type) := Except Stop α

def Stop.res (x : Stop) (s : State) : Res :=
  match x with
  | .trap t => .trap t s
  | .trapIn t s' => .trap t s'
  | .wait w => .wait w s
  | .waitIn w s' => .wait w s'

/-- Stop with a trap. -/
def trapWith {α : Type} (code : BitVec 8) (tval : Word) : Chk α := .error (.trap { code := code, tval := tval })

/-- A trap of a later check leaves the state that earlier accesses left. -/
def Chk.after {α : Type} (c : Chk α) (s : State) : Chk α :=
  match c with
  | .error (.trap t) => .error (.trapIn t s)
  | x => x

/-- Go on with a result, or stop. -/
def Chk.run {α : Type} (c : Chk α) (s : State) (f : α → Res) : Res :=
  match c with
  | .ok x => f x
  | .error e => e.res s

namespace State

/-! ## Tenants and windows -/

/-- The tenant a bank belongs to: that of the partition its Spire is bound to, or none (R136). -/
def bankTenant (s : State) (d b : Nat) : Option Nat :=
  let e := Tab.get s.slotTable (d * 32 + b / 128) 0
  if e.getLsbD 63 && !e.getLsbD 62 then some (e.extractLsb' 44 4).toNat else none

/-- Whether a physical range lies in one of the windows packed from bit 0 of a record (18_protection R333). -/
def inWindows {w : Nat} (rec : BitVec w) (base count lo hi : Nat) : Bool :=
  (List.range count).any fun k =>
    let b := (rec.extractLsb' (8 * base + 128 * k) 44).toNat
    let l := (rec.extractLsb' (8 * base + 128 * k + 64) 44).toNat
    decide (b ≤ lo) && decide (hi ≤ l)

/-- The windows of the owner of a context: Keep k, or the tenant (18_protection R334), without the pages of the bad-page
list (21_memory_system R370). -/
def ownerWindow (s : State) (tenant keep lo hi : Nat) : Bool :=
  if s.excluded.any fun p => decide (p * 65536 < hi) && decide (lo < p * 65536 + 65536) then false
  else if keep = 0 then inWindows (s.tenantRec tenant) 0x90 4 lo hi
  else match s.keepEntry keep with
    | some e => inWindows e 0x10 3 lo hi
    | none => false

/-- The context-table entry of a tenant's context, and its storage address (22_host_compat R378). -/
def ctxLoc (s : State) (tenant : Nat) (ctx : BitVec 16) : Nat := ((s.tenantRec tenant).extractLsb' (8 * 0x18) 44).toNat + 16 * ctx.toNat
def ctxEntry (s : State) (tenant : Nat) (ctx : BitVec 16) : Word := s.peek 64 (s.ctxLoc tenant ctx) 8

/-- A context that V allows, with its Keep and root table. -/
def context? (s : State) (tenant : Nat) (ctx : BitVec 16) : Option (Nat × Nat) :=
  let e := s.ctxEntry tenant ctx
  if e.getLsbD 63 && e &&& 0x7F00F00000000FFF == 0 then
    some ((e.extractLsb' 48 8).toNat, (e.extractLsb' 12 32).toNat * 4096) else none

/-- The Keep that owns a context, or 0 for its tenant (18_protection R334). -/
def ctxKeep (s : State) (tenant : Nat) (ctx : BitVec 16) : Nat := ((s.context? tenant ctx).getD (0, 0)).1

/-- Bytes of a page whose leaf lies at a level of the walk (16_traps R323). -/
def pageSize (level : Nat) : Nat := if level = 1 then 2 ^ 30 else if level = 2 then 2 ^ 21 else 2 ^ 16

/-- The index a walk uses at a level (R323). -/
def walkIndex (level va : Nat) : Nat :=
  match level with
  | 0 => va / 2 ^ 39 % 512
  | 1 => va / 2 ^ 30 % 512
  | 2 => va / 2 ^ 21 % 512
  | _ => va / 2 ^ 16 % 32

/-! ## Fault records and trackers (21_memory_system R367, R369) -/

/-- The owner of the beat of a physical address: the tenant whose windows hold it, but for listed pages (R369, R370). -/
def ownerOf (s : State) (pa : Nat) : Option Nat :=
  let b := pa / 32 * 32
  (List.range 16).find? fun t => (s.tenantRec t).getLsbD 63 && s.ownerWindow t 0 b (b + 32)

/-- Bits 63:32 of the row locator of a physical address (07_system_isa R213, R364). -/
def locatorHi (pa : Nat) : BitVec 32 :=
  BitVec.ofNat 32 (pa / 2 ^ 15 % 8 * 2 ^ 29 + pa / 2 ^ 10 % 32 * 2 ^ 24 + pa / 2 ^ 20 % 4 * 2 ^ 20 + pa / 2 ^ 18 % 4 * 2 ^ 18 + pa / 2 ^ 22)

/-- Whether a row's bank group has no free spare, or its channel no free remap entry (R367): one that an MSPARE in progress
reserves is not free (07_system_isa R215). -/
def noSpare (s : State) (pa : Nat) : Bool :=
  let bg := chanOf pa * 4 + pa / 2 ^ 20 % 4
  let taken (e : Nat) : Bool := match Tab.find? s.hbm.copies (chanOf pa) with
    | some c => c.entry == e
    | none => false
  Tab.get s.hbm.spareUse bg 0 == 0xFFFFFFFF ||
    (List.range 64).all fun e => taken e || (Tab.get s.hbm.remap (chanOf pa * 64 + e) 0).getLsbD 63

/-- The tracker entry and counter of a row (R367). -/
def tracked (s : State) (pa : Nat) : Option (Nat × Nat) :=
  (List.find? (fun (x : Nat × (Nat × Nat)) => x.2.1 == pa / 1024) (Tab.get s.hbm.track (chanOf pa) [])).map fun x => (x.1, x.2.2)

/-- The counter of a row; 0 when it is not tracked. -/
def counterOf (s : State) (pa : Nat) : Nat :=
  match s.tracked pa with
  | some (_, n) => n
  | none => 0

/-- Bytes of the fault-address queue: its header and 4,096 records (R369). -/
def queueBytes : Nat := 64 + 32 * 4096

/-- Post a record to the fault-address queue, which lies in system memory (R369): COUNT is the row's counter after the
event. -/
def postFault (s : State) (kind source pa : Nat) : State :=
  match s.faultQueue with
  | none => s
  | some q =>
    if Config.hbmSize < q + queueBytes then s else
    let prod := s.peek 64 q 8
    let cons := s.peek 64 (q + 8) 8
    if prod - cons = 4096 then s.poke (q + 16) 8 (s.peek 64 (q + 16) 8 + 1)
    else
      let a := q + 64 + 32 * (prod.toNat % 4096)
      let own := s.ownerOf pa
      let w0 : Word := BitVec.ofNat 64 (kind * 2 ^ 56 + source * 2 ^ 48 + own.getD 0 * 2 ^ 44 + pa / 32 * 32)
      let w1 : Word := locatorHi pa ++ BitVec.ofNat 32 (pa / 32 % 32)
      let w3 : Word := BitVec.ofNat 64 (s.counterOf pa * 2 ^ 60 + (if kind = 1 ∧ s.noSpare pa then 2 ^ 59 else 0) +
        (if own.isSome then 2 ^ 58 else 0))
      let s := (((s.poke a 8 w0).poke (a + 8) 8 w1).poke (a + 16) 8 (BitVec.ofNat 64 s.time)).poke (a + 24) 8 w3
      let s := (s.cleanRange a 32).poke q 8 (prod + 1)
      let s : State := { s with cores := (List.range 4).foldl (fun (t : Tab Core) b =>
        Tab.put t (Config.domeCores + b) { (Tab.get t (Config.domeCores + b) (Core.init (Config.domeCores + b))) with irq := true }) s.cores }
      s.traceRec 10 (own.getD 0) 0 0 0xFFFFFFFF w0

/-- A read of a beat that needed correction adds 1 to its row's counter (R367); a row being copied keeps its counter
(20_prog_scrub R356). -/
def countCorrected (s : State) (source pa : Nat) : State :=
  let ch := chanOf pa
  let row := pa / 1024
  let t := Tab.get s.hbm.track ch []
  let held := match Tab.find? s.hbm.copies ch with
    | some c => c.row == row
    | none => false
  let s := s.countBy 42 1
  if held then s
  else
    let put (s : State) (e n : Nat) : State :=
      { s with hbm := { s.hbm with track := Tab.put s.hbm.track ch (if n = 0 then Tab.del t e else Tab.put t e (row, n)) } }
    match List.find? (fun (x : Nat × (Nat × Nat)) => x.2.1 == row) t with
    | some (e, _, n) =>
      let n' := min 15 (n + 1)
      let s := put s e n'
      if n = 7 then s.postFault 1 source pa else s
    | none =>
      match (List.range 4096).find? fun e => (Tab.find? t e).isNone with
      | some e => put s e 1
      | none => (s.countBy 47 1).postFault 4 source pa

/-- The controller delivers a beat (R365): a not-live row reads zeros, without error and without mark (R371), a correctable
beat is counted, an uncorrectable one is delivered poisoned and recorded, a beat that holds the poison mark is delivered
poisoned. -/
def demandBeat (s : State) (pa : Nat) : State :=
  let b := pa / 32 * 32
  if (Tab.find? s.hbm.live (s.hbmLoc b / 1024)).isNone then (s.countBy 44 1).deliverSector b false
  else
    let s := s.countBy 40 1
    match Tab.find? s.hbm.errs (s.hbmLoc b / 32) with
    | some .correctable | some .stuck => (s.deliverSector b false).countCorrected 0 b
    | some .uncorrectable | some .stuckBad => ((s.countBy 43 1).postFault 2 0 b).deliverSector b true
    | some .mark | some .stuckMark => s.deliverSector b true
    | none => s.deliverSector b false

/-- The home slice's record of a line; a line it does not hold is fetched from HBM4E (R359, R365). What another slice holds of
the line stands aside (R361). -/
def sliceLine (s : State) (home ln : Nat) (first : Bool) : SLine × State :=
  let s := s.activate home ln
  let l := Tab.get s.lines ln {}
  if l.held then (l, (s.enterSlice l.home ln first).countBy 32 1)
  else
    let s := s.countBy 33 1
    let s := if isHbm (ln * 128) then (sectors ln).foldl (fun s a => s.demandBeat a) s else s
    let l : SLine := { l with held := true, home := home, dirty := false, under := none }
    (l, (s.setSliceLine ln l).enterSlice home ln first)

/-- The home of an access by physical address for which the spec names none: the slice that acts as home of the line, else
that of `hwHome` (assumption log 60). -/
def physHome (s : State) (pa : Nat) : Nat :=
  let l := Tab.get s.lines (pa / 128) {}
  if l.held then l.home
  else match s.ownerOfLine (pa / 128) with
    | some (_, c) => c.slice
    | none => s.hwHome pa

/-- The hardware reads a word by physical address at its home slice: the line is fetched unless a cache holds it. -/
def hwFetch (s : State) (loc : Nat) : State :=
  if isHbm loc = true ∧ s.lineHeld (loc / 128) = false then (s.sliceLine (s.hwHome loc) (loc / 128) false).2 else s

/-- The same for n bytes, which may lie in two lines. -/
def hwFetchRange (s : State) (loc n : Nat) : State := (s.hwFetch loc).hwFetch (loc + n - 1)

/-- Whether a byte lies in a poisoned unit. -/
def isPoisoned (s : State) (loc : Nat) : Bool := (Tab.find? s.poison (poisonKey loc)).isSome

/-- The slice masks the configuration grants to the owner of a context, a tenant or a Keep (R360; assumption log 65). -/
def grantedMasks (s : State) (tenant keep : Nat) : BitVec 64 := Tab.get s.maskGrants (if keep = 0 then tenant else 16 + keep) 0

/-- A leaf the walk accepts at a level: attributes legal, the page aligned and inside the owner's windows, a slice mask
with a slice that is granted to the owner, and not both writable and executable (R323, R334, R360, R385). -/
def leafOk (s : State) (tenant keep level : Nat) (e : Word) : Bool :=
  let home := (e.extractLsb' 48 6).toNat
  let pa := (e.extractLsb' 8 36).toNat * 256
  e &&& 0x0000F000000000FF == 0 && e.extractLsb' 55 2 != 3 && level != 0 && decide (pa % pageSize level = 0) &&
    decide (pa + pageSize level ≤ Config.hbmSize) && s.ownerWindow tenant keep pa (pa + pageSize level) &&
    !(e.getLsbD 54 && (Tab.get s.masks home 0 == 0 || !(s.grantedMasks tenant keep).getLsbD home)) && !(e.getLsbD 58 && e.getLsbD 57)

/-- The walk of R323 from a table at a level: the leaf and its level. Table entries are read at their home slices
(16_traps R324); one that is poisoned makes the walk fail (assumption log 61). -/
def walkFrom (tenant keep va : Nat) : Nat → Nat → Nat → State → Option (Word × Nat) × State
  | 0, _, _, s => (none, s)
  | fuel + 1, level, table, s =>
    let a := table + 8 * walkIndex level va
    let s := s.hwFetch a
    let e := s.peek 64 a 8
    if s.isPoisoned a || !e.getLsbD 63 then (none, s)
    else if e.getLsbD 62 then (if s.leafOk tenant keep level e then some (e, level) else none, s)
    else
      let pa := (e.extractLsb' 8 36).toNat * 256
      if level = 3 ∨ e &&& 0x0000F000000000FF ≠ 0 ∨ e.extractLsb' 55 2 = 3 ∨ (level < 2 ∧ pa % 4096 ≠ 0) ∨
          Config.hbmSize ≤ pa then (none, s)
      else walkFrom tenant keep va fuel (level + 1) pa s

/-- The hardware reads the context-table entry of a context, and the Keep-table entry of the Keep that owns it, at their home
slices (22_host_compat R378, 18_protection R334); whether one of them is poisoned (assumption log 61). -/
def readContext (s : State) (tenant : Nat) (ctx : BitVec 16) : Bool × State :=
  let a := s.ctxLoc tenant ctx
  let s := s.hwFetch a
  let k := s.ctxKeep tenant ctx
  match (if k = 0 then none else s.keepTable) with
  | none => (s.isPoisoned a, s)
  | some b =>
    let e := b + 64 * k
    let s := s.hwFetchRange e 64
    (s.isPoisoned a || s.isPoisoned e || s.isPoisoned (e + 32) || s.isPoisoned (e + 63), s)

/-- A walk of the tenant's context (R323); none when it fails. -/
def walk (s : State) (tenant : Nat) (ctx : BitVec 16) (va : Nat) : Option (Word × Nat) × State :=
  let x := s.readContext tenant ctx
  if x.1 then (none, x.2)
  else match x.2.context? tenant ctx with
    | none => (none, x.2)
    | some (keep, root) => walkFrom tenant keep va 4 0 root x.2

/-- Enter a translation in a Spire's TLB, which holds as many as QCAP reports: 1,024 but on a repaired part (00_scope R1,
02_scalar R61; assumption log 59). -/
def fillTlb (s : State) (spire : Nat) (e : TlbEntry) : State :=
  let x := s.spireAt spire
  s.setSpireAt spire { x with tlb := (e :: x.tlb).take (Config.tlbEntries spire).val }

/-- The code object that maps a virtual address in a context (07_system_isa R207, R209). -/
def objectAt (s : State) (tenant : Nat) (ctx : BitVec 16) (va : Nat) : Option CodeObj :=
  match s.context? tenant ctx with
  | none => none
  | some (keep, _) => s.objects.find? fun o =>
      decide (o.base ≤ va) && decide (va < o.base + o.len) && o.keep == keep && (keep != 0 || o.tenant == tenant)

/-- A TLB entry of a Spire that maps an address. -/
def tlbHit (s : State) (spire tenant : Nat) (ctx : BitVec 16) (va : Nat) : Option TlbEntry :=
  (s.spireAt spire).tlb.find? fun e => e.tenant == tenant && e.ctx == ctx && e.vpage == va / pageSize e.level

/-- The slice a leaf makes the home of a physical address (21_memory_system R360). -/
def homeSlice (s : State) (leaf : Word) (pa : Nat) : Nat :=
  let home := (leaf.extractLsb' 48 6).toNat
  if leaf.getLsbD 54 then maskHome (Tab.get s.masks home 0) pa else home

/-- The place a leaf gives an address, when it permits the access (R137) and lies in HBM4E (R323). -/
def leafPlace (s : State) (tenant : Nat) (ctx : BitVec 16) (acc : Acc) (va level : Nat) (leaf : Word) : Option Place :=
  let ok := match acc with
    | .load => leaf.getLsbD 59
    | .store => leaf.getLsbD 58
    | .fetch => leaf.getLsbD 57
  let pa := (leaf.extractLsb' 8 36).toNat * 256 + va % pageSize level
  let keep := s.ctxKeep tenant ctx
  if ok && isHbm pa then
    some { loc := pa, kind := (leaf.extractLsb' 55 2).toNat, home := s.homeSlice leaf pa, share := (leaf.extractLsb' 60 2).toNat
           leaf := leaf, size := pageSize level
           outside := !s.ownerWindow tenant keep (pa / 65536 * 65536) (pa / 65536 * 65536 + 65536) }
  else none

/-- Translate an address of the global window for a Spire (R323, R324): through a published object, the TLB, or a walk
that fills the TLB. -/
def translate (s : State) (spire tenant : Nat) (ctx : BitVec 16) (acc : Acc) (va : Nat) : Option (Place × State) :=
  match s.objectAt tenant ctx va with
  | some o => if acc = .store then none else some ({ loc := Config.objectStore + o.store + (va - o.base), share := 3 }, s)
  | none =>
    match s.tlbHit spire tenant ctx va with
    | some e => (s.leafPlace tenant ctx acc va e.level e.leaf).map fun p => (p, s)
    | none =>
      match s.walk tenant ctx va with
      | (none, _) => none
      | (some (leaf, level), s) =>
        let e : TlbEntry := { tenant := tenant, ctx := ctx, vpage := va / pageSize level, leaf := leaf, level := level }
        let s' := ((s.fillTlb spire e).countFor tenant 56 1).countFor tenant 57 1
        (s'.leafPlace tenant ctx acc va level leaf).map fun p => (p, s')

/-- The live translation context. -/
def ctx (s : State) : BitVec 16 := (s.word Ws.ctx).setWidth 16

/-- A byte of the core's own workspace memory (R43, 07_system_isa R200): KRES is closed to TENANT level, and so are the
PRV words of the live workspace, which are read and written at privileged level only (00_scope R9). R43 names STORE_FAULT for
their stores; that a load of one raises LOAD_FAULT is the model's choice (assumption log 76). -/
def wsPlace (s : State) (_acc : Acc) (off : Nat) : Option Place :=
  let k := s.core
  let inKres := decide ((k.kres.extractLsb' 0 16).toNat ≤ off) && decide (off < (k.kres.extractLsb' 16 16).toNat)
  let prv := decide (k.wp.toNat ≤ off) && Ws.isPrv (off - k.wp.toNat)
  if k.priv = 0 ∧ (inKres ∨ prv) then none else some { loc := wsLoc s.cur off }

/-- A byte of dome memory, when its bank belongs to the core's tenant (R136). -/
def domePlace (s : State) (tenant d off : Nat) : Option Place :=
  let loc := domeLoc d off
  if s.bankTenant d (locBank loc) = some tenant then some { loc := loc } else none

/-- The windows of R135 for a data access of a core by Spire, dome, tenant and context; no workspace window. -/
def outer (s : State) (spire d tenant : Nat) (ctx : BitVec 16) (belfry : Bool) (acc : Acc) (va : Nat) :
    Option (Place × State) :=
  if 0x1000000 ≤ va ∧ va < 0x1800000 then
    if belfry then none else (s.domePlace tenant d (va - 0x1000000)).map fun p => (p, s)
  else if 0x1800000 ≤ va ∧ va < 0x2000000 then
    if belfry then none
    else
      let loc := Config.domeBase + d * 2 ^ 23 + (va - 0x1800000)
      if s.bankTenant d (locBank loc) = some tenant then some ({ loc := loc }, s) else none
  else if 0x10000000 ≤ va ∧ va < 0x18000000 then
    let o := va % 2 ^ 24
    if o < 0x800000 then (s.domePlace tenant ((va - 0x10000000) / 2 ^ 24) o).map fun p => ({ p with mesh := true }, s) else none
  else if 0x20000000 ≤ va ∧ va < 0x30000000 then
    let loc := Config.scratchBase + (va - 0x20000000)
    if Tab.find? (s.sliceAt (locSlice loc)).ways (locWay loc) = some tenant then
      some ({ loc := loc, home := locSlice loc }, s) else none
  else if 0x100000000 ≤ va ∧ va < 0x1000000000000 then s.translate spire tenant ctx acc va
  else none

/-- Where a byte of a data access of the current core lies, with the TLB filled; none where it faults (R135-R138). -/
def place (s : State) (acc : Acc) (va : Word) : Option (Place × State) :=
  if va.toNat < 0x4000 then (s.wsPlace acc va.toNat).map fun p => (p, s)
  else s.outer s.mySpire s.myDome s.core.tenant s.ctx s.isBelfry acc va.toNat

/-- The remote windows (R135): a store there is posted (R139). -/
def isRemote (va : Word) : Bool :=
  decide (0x10000000 ≤ va.toNat) && decide (va.toNat < 0x18000000) && decide (va.toNat % 2 ^ 24 < 0x800000)

def isDomeWindow (va : Word) : Bool := (decide (0x1000000 ≤ va.toNat) && decide (va.toNat < 0x2000000)) || isRemote va

/-- The fault of an access (R138 step 2). -/
def faultOf (acc : Acc) : BitVec 8 :=
  match acc with
  | .load => Cause.loadFault
  | .store => Cause.storeFault
  | .fetch => Cause.fetchFault

/-- The places of a list of accesses, or the lowest faulting address (R138 step 2). -/
def placesAux (acc : Acc) : State → List Word → List Place × Option Word × State
  | s, [] => ([], none, s)
  | s, va :: vas =>
    match s.place acc va with
    | some (p, s') =>
      let r := placesAux acc s' vas
      (p :: r.1, r.2)
    | none =>
      let r := placesAux acc s vas
      (r.1, some (match r.2.1 with | some a => if a.toNat < va.toNat then a else va | none => va), r.2.2)

def places (s : State) (acc : Acc) (vas : List Word) : Chk (List Place × State) :=
  match placesAux acc s vas with
  | (ps, none, s') => .ok (ps, s')
  | (_, some a, _) => trapWith (faultOf acc) a

/-- The alignment of R138 step 1. -/
def aligned (va : Word) (n : Nat) : Chk Unit :=
  if va.toNat % n = 0 then .ok () else trapWith Cause.misalign va

/-- An access of n bytes at an aligned address: where it lies. -/
def access (s : State) (acc : Acc) (va : Word) (n : Nat) : Chk (Place × State) :=
  match aligned va n with
  | .error e => .error e
  | .ok _ =>
    match s.place acc va with
    | some ps => .ok ps
    | none => trapWith (faultOf acc) va

/-- The storage a journal entry of a posted store names (R139). -/
def entryLoc (e : JEntry) : Nat := domeLoc ((e.vaddr.toNat - 0x10000000) / 2 ^ 24) (e.vaddr.toNat % 2 ^ 24)

/-- The first journal entry holding a store in flight that overlaps n bytes at a place (R139). -/
def overlapEntry (s : State) (loc n : Nat) : Option Nat :=
  s.core.journal.findIdx? fun e =>
    e.st == 1 && e.kind == 0 && decide (entryLoc e < loc + n) && decide (loc < entryLoc e + 2 ^ e.size.toNat)

/-- Whether the mesh port presents a released ordered operation at the bank of a word, ahead of its other requests
(13_dome_memory R277). -/
def meshHeld (s : State) (loc : Nat) : Bool :=
  (Tab.get (s.domeAt (locDome loc)).holds (locBank loc) []).any fun h => h.ready && h.port == 1057

/-- An access through the mesh port comes after a released ordered operation that the port presents at the bank (R277). -/
def portFree (s : State) (p : Place) : Chk Unit :=
  if isDome p.loc && (p.mesh || s.isBelfry) && s.meshHeld p.loc then .error (.wait (.port p.loc)) else .ok ()

/-- A load or AMO waits for its overlapping posted stores (R139, R296), and for its port (R277). -/
def noOverlap (s : State) (p : Place) (n : Nat) : Chk Unit :=
  if isDome p.loc then
    match s.overlapEntry p.loc n with
    | some e => .error (.wait (.overlap e))
    | none => s.portFree p
  else .ok ()

/-! ## Timestamps, leases and ownership (15_consistency R291-R296) -/

/-- The logical time of the current core with its floor (R291). -/
def ltNow (s : State) : Nat := max s.core.lt (4 * s.time)

def setLt (s : State) (ts : Nat) : State := s.onCore fun k => { k with lt := ts }

/-- Logical time rises to cover what was acquired (R299). -/
def acquire (s : State) (ts : Nat) : State := s.setLt (max s.ltNow (ts + 1))

/-- An owned line is written back to its slice and stays with its Spire (07_system_isa R211, 09_execution R245). -/
def writeToSlice (s : State) (sp ln : Nat) : State :=
  let x := s.spireAt sp
  match Tab.find? x.lines ln with
  | none => s
  | some l =>
    if l.owned = true ∧ l.home.isSome = true then
      let s := s.setSpireAt sp { x with lines := Tab.put x.lines ln { l with home := none, writers := [] } }
      let sl := Tab.get s.lines ln {}
      let home := if sl.held then sl.home else l.slice
      ((s.setSliceLine ln { sl with wts := l.wts, rts := l.rts, held := true, home := home, dirty := true
                                    under := sl.under.or (l.home.map (·.1)) }).enterSlice home ln false).countBy 28 1
    else s

/-- A line enters a Spire cache, or is used there again; the line it replaces leaves. -/
def enterSpire (s : State) (sp ln : Nat) (c : CLine) : State :=
  let x := s.spireAt sp
  let r := (Tab.get x.sets (ln % 256) {}).enter 3 (fun _ => true) ln false
  let s := s.setSpireAt sp { x with lines := Tab.put x.lines ln c, sets := Tab.put x.sets (ln % 256) r.1 }
  match r.2 with
  | some old => s.returnLine sp old
  | none => s

/-- The part of n bytes at a place within its line, from the line's bytes. -/
def fromLine (w : Nat) (x : BitVec 1024) (loc n : Nat) : BitVec w :=
  (x >>> (8 * (loc % 128))).setWidth w &&& BitVec.ofNat w (2 ^ (8 * n) - 1)

/-- A timestamp from a slice clock (R293, R359). -/
def sliceStamp (s : State) (n : Nat) : State :=
  let x := s.sliceAt n
  let ts := max s.ltNow (x.sclk + 1)
  (s.setSliceAt n { x with sclk := ts }).setLt ts

/-- The port through which the current core reaches a bank (13_dome_memory R274). -/
def corePort (s : State) (p : Place) : Nat :=
  if p.mesh = false ∧ s.isBelfry = false then 33 * (s.mySpire % 32) + coreInSpire s.cur else 1057

/-- A timestamp from a bank clock, at a grant that moves the bank's pointer (R293, 13_dome_memory R275). -/
def bankStamp (s : State) (p : Place) : State :=
  let loc := p.loc
  let d := s.domeAt (locDome loc)
  let b := locBank loc
  let ts := max s.ltNow (Tab.get d.bclk b 0 + 1)
  (s.setDomeAt (locDome loc) { d with bclk := Tab.put d.bclk b ts, ptr := Tab.put d.ptr b (s.corePort p) }).setLt ts

/-- Note the timestamp of a write to global memory (R295). -/
def noteGlobal (s : State) (ts : Nat) : State := { s with globalTs := max s.globalTs ts }

/-- Whether a line holds a handle-table entry of some tenant: its home slice performs every access to it, as on an uncached
page (18_protection R345, 21_memory_system R359). -/
def handleLine (s : State) (ln : Nat) : Bool :=
  (List.range 16).any fun t =>
    let r := s.tenantRec t
    let base := (r.extractLsb' (8 * 0x10) 44).toNat
    r.getLsbD 63 && decide (base < 128 * ln + 128) && decide (128 * ln < base + 16 * ((r.extractLsb' (8 * 0x10 + 44) 20).toNat + 1))

/-- The kind of caching of an access to global memory (R359): 0 normal, 1 streaming, 2 uncached. -/
def kindAt (s : State) (p : Place) : Nat := if s.handleLine (p.loc / 128) then 2 else p.kind

/-- The order of an access the home slice performs against memory, after recalling any owner: ts := max(LT, SCLK + 1)
(R359). -/
def stampUncached (s : State) (ln home : Nat) : State :=
  (((s.recallLine noSpire ln).activate home ln).keepLeases ln).sliceStamp home

/-- A load of global memory (R293): from an owned line, from a leased line while its lease covers the timestamp, or by
renewal at the home slice. -/
def loadGlobal (s : State) (p : Place) (w n : Nat) : BitVec w × State :=
  let ln := p.loc / 128
  let me := s.mySpire
  let x := s.spireAt me
  let kind := s.kindAt p
  let fresh (s : State) : BitVec w × State :=
    let s := s.recallLine me ln
    let (l, s) := s.sliceLine p.home ln (kind == 1)
    let ts := max s.ltNow (l.wts + 1)
    let rts := max l.rts (ts + 256)
    let s := s.setSliceLine ln { Tab.get s.lines ln {} with rts := rts }
    let s := if kind = 0 then s.enterSpire me ln { wts := l.wts, rts := rts, slice := l.home } else s
    (s.peek w p.loc n, (s.setLt ts).count 25 1)
  if kind = 2 then
    let s := (s.recallLine noSpire ln).activate p.home ln
    let s := if isHbm p.loc = true ∧ s.lineHeld ln = false then s.demandBeat p.loc else s
    (s.peek w p.loc n, s.sliceStamp p.home)
  else
    match Tab.find? x.lines ln with
    | none => fresh s
    | some l =>
      let ts := max s.ltNow (l.wts + 1)
      if l.owned then
        let s := s.enterSpire me ln { l with rts := max l.rts ts }
        (s.peek w p.loc n, (s.setLt ts).count 24 1)
      else if ts ≤ l.rts then
        let v := match l.old with
          | some o => fromLine w o.1 p.loc n
          | none => s.peek w p.loc n
        (v, ((s.enterSpire me ln l).setLt ts).count 24 1)
      else fresh (s.count 26 1)

/-- Whether a load of a place, once made, has read poison: of the sector a leased copy held where the load read that copy, else
of the newest (21_memory_system R365). -/
def loadBad (s : State) (p : Place) : Bool :=
  match (if isHbm p.loc then (Tab.find? (s.spireAt s.mySpire).lines (p.loc / 128)).bind (·.old) else none) with
  | some o => if s.kindAt p = 2 then s.isPoisoned p.loc else o.2.getLsbD (p.loc / 32 % 4)
  | none => s.isPoisoned p.loc

/-- The timestamp of a write performed at the home slice after recalling any owner (R293: AMO; R298: engines). -/
def slicedWrite (s : State) (home ln floor : Nat) (first : Bool) : Nat × State :=
  let s := s.recallLine noSpire ln
  let (l, s) := s.sliceLine home ln first
  let ts := max floor (max l.rts l.wts + 1)
  (ts, ((s.keepLeases ln).setSliceLine ln { Tab.get s.lines ln {} with wts := ts, rts := ts }).noteGlobal ts)

/-- The home slice grants ownership of a line, after recalling any other owner (R293). -/
def takeLine (s : State) (p : Place) (me : Nat) : State :=
  let ln := p.loc / 128
  let s := s.recallLine me ln
  let (l, s) := s.sliceLine p.home ln false
  let ts := max s.ltNow (l.rts + 1)
  let now := s.lineImage ln
  let s := s.keepLeases ln
  let c : CLine := { owned := true, wts := ts, rts := ts, home := some now, writers := [s.core.region], slice := l.home }
  ((s.enterSpire me ln c).setLt ts).noteGlobal ts

/-- The store half of R293 in global memory: the line becomes owned by the Spire. -/
def ownLine (s : State) (p : Place) : State :=
  let ln := p.loc / 128
  let me := s.mySpire
  match Tab.find? (s.spireAt me).lines ln with
  | some l =>
    if l.owned then
      let ts := max s.ltNow (l.rts + 1)
      let now := s.lineImage ln
      let s := s.keepLeases ln
      let r := s.core.region
      let c : CLine := { l with wts := ts, rts := ts, home := some (l.home.getD now), writers := if l.writers.contains r then l.writers else r :: l.writers }
      ((s.enterSpire me ln c).setLt ts).noteGlobal ts
    else s.takeLine p me
  | none => s.takeLine p me

/-- The order of a store in global memory: by ownership, or at the slice for streaming and uncached pages (R359). -/
def stampGlobal (s : State) (p : Place) : State :=
  let kind := s.kindAt p
  if kind = 0 then s.ownLine p
  else if kind = 2 then
    let t := s.stampUncached (p.loc / 128) p.home
    t.noteGlobal t.core.lt
  else
    let (ts, s) := s.slicedWrite p.home (p.loc / 128) s.ltNow true
    s.setLt ts

/-! ## Core records of a save area (16_traps R319) -/

/-- The three words of a journal entry in a core record. -/
def journalWords (e : JEntry) : List Word :=
  [BitVec.ofBool e.reported ++ (e.op.setWidth 5) ++ e.ty ++ e.st ++ e.kind ++ e.size ++ e.vaddr, e.data, e.ts]

/-- Word 3 of a core record. -/
def dueWord (k : Core) : Word := BitVec.ofNat 64 ((if k.mcDue.isEmpty then 0 else 1) + (if k.wdDue.isNone then 0 else 2))

/-- Words 8 to 55, and words 64 to 95. -/
def journalRecord (k : Core) : List Word := k.journal.flatMap journalWords
def tokenRecord (k : Core) : List Word := k.tokens.map fun t => match t with
  | some a => BitVec.ofNat 64 (2 ^ 63 + a)
  | none => 0

/-- Write words to physical memory. -/
def putWords (s : State) (at_ : Nat) (ws : List Word) : State :=
  (ws.zipIdx.foldl (fun (s : State) x => s.poke (at_ + 8 * x.2) 8 x.1) s).cleanRange at_ (8 * ws.length)

/-- The address of the record of core n of logical Spire ls in a save area. -/
def recordAt (save ls n : Nat) : Nat := save + 0x100000 * (ls + 1) + 0xC0000 + 1024 * n

/-- What has come to a logical core while its partition is out stands in its core record too (R317, 14_prog_sampling R286). -/
def refreshRecord (s : State) (at_ : Nat) (k : Core) : State :=
  ((s.putWords (at_ + 24) [dueWord k]).putWords (at_ + 64) (journalRecord k)).putWords (at_ + 512) (tokenRecord k)

/-- Change cores of a partition switched out, in its image and in its core records. -/
def onSavedCores (s : State) (r : Nat) (test : Core → Bool) (f : Core → Core) : State :=
  s.saved.foldl (fun (s : State) v =>
    if v.region = r then
      let hits := v.spires.zipIdx.flatMap fun x => (x.1.cores.zipIdx.filter fun k => test k.1).map fun k => (recordAt v.save x.2 k.2, f k.1)
      let spires := v.spires.map fun x => { x with cores := x.cores.map fun k => if test k then f k else k }
      let s : State := { s with saved := s.saved.map fun u => if u.region == r then { u with spires := spires } else u }
      hits.foldl (fun (s : State) h => s.refreshRecord h.1 h.2) s
    else s) s

/-- A MACHINE_CHECK for every core of a partition, wherever it is (18_protection R334, 22_host_compat R386). -/
def machineCheck (s : State) (region : Nat) (fatal : Bool) (what : Word) : State :=
  let i := BitVec.ofNat 64 s.mcLog.length
  let alive (k : Core) : Bool := k.status != .exited && k.status != .notPlaced
  let due (k : Core) : Core := { k with mcDue := k.mcDue ++ [i] }
  let s : State := { s with
    mcLog := s.mcLog ++ [(what, fatal)]
    cores := s.cores.map fun ck => if ck.2.region == region && alive ck.2 then (ck.1, due ck.2) else ck
    regions := s.regions.map fun r => if r.id == region && r.status == .placed && !r.begun then { r with mcDue := r.mcDue ++ [i] } else r }
  s.onSavedCores region alive due

/-! ## The accesses of a core -/

/-- An access through the workspace window to landed token registers of the live workspace acquires the writes of their copies
(15_consistency R299). -/
def acquireLanded (s : State) (loc n : Nat) : State :=
  let hit (x : Nat × Nat) : Bool :=
    decide (s.core.wp.toNat ≤ x.1) && decide (x.1 < s.core.wp.toNat + 0x600) && decide (wsLoc s.cur x.1 < loc + n) && decide (loc < wsLoc s.cur x.1 + 8)
  match s.core.landed.filter hit with
  | [] => s
  | xs => (s.onCore fun k => { k with landed := k.landed.filter fun x => !hit x }).acquire (xs.foldl (fun m x => max m x.2) 0)

/-- What n bytes of the workspace window read as: those of the words after the registers of the live workspace without their
reserved bits (00_scope R9, 02_scalar R43). -/
def wsBytes (s : State) (w loc n : Nat) : BitVec w :=
  let off := loc - s.live 0
  if s.live 0 ≤ loc ∧ 0x520 ≤ off ∧ off < 0x600 then s.peek w loc n &&& ((Ws.readMask (off / 8 * 8)) >>> (8 * (off % 8))).setWidth w
  else s.peek w loc n

/-- Load n bytes from a place, with their place in the order (R293). The words at 0x000 and 0x500 of the live workspace read as
their memory through the window (02_scalar R43; assumption log 64). -/
def loadAt (s : State) (p : Place) (w n : Nat) : BitVec w × State :=
  if isWs p.loc then (s.wsBytes w p.loc n, s.acquireLanded p.loc n)
  else if isDome p.loc then (s.peek w p.loc n, (s.bankStamp p).count 8 1)
  else if isScratch p.loc then (s.peek w p.loc n, (s.sliceStamp p.home).count 35 1)
  else s.loadGlobal p w n

/-- Store to the workspace window: the live workspace's words keep their write rules (02_scalar R43, R45). -/
def storeWs {w : Nat} (s : State) (loc n : Nat) (x : BitVec w) : State :=
  let off := loc - s.live 0
  if s.live 0 ≤ loc ∧ 0x520 ≤ off ∧ off < 0x600 then
    let base := off / 8 * 8
    let old := s.word base
    let merged := Mem.load (Mem.store s.mem loc n x) 64 (s.live base) 8
    let y := Ws.filter base old (if base = Ws.wake then merged &&& (Mem.load (Mem.store [] loc n x) 64 (s.live base) 8) &&& ~~~s.newWakes else merged)
    { s with mem := Mem.store s.mem loc n (y >>> (8 * (off % 8))) }
  else { s with mem := Mem.store s.mem loc n x }

/-- A store of a whole workspace word ends its corruption (07_system_isa R222 SOFT). -/
def wipeSoft (s : State) (loc n : Nat) : State :=
  match s.core.soft with
  | [] => s
  | _ => if n = 8 then s.onCore fun k => { k with soft := k.soft.filter fun x => !(x.1 == 1 && decide (wsLoc s.cur (x.2 / 8 * 8) = loc)) } else s

/-- Store n bytes at a place, with their place in the order (R293); a write outside the owner's windows is dropped and
raises MACHINE_CHECK (18_protection R334). -/
def storeAt {w : Nat} (s : State) (p : Place) (n : Nat) (x : BitVec w) : State :=
  if isWs p.loc then ((s.acquireLanded p.loc n).wipeSoft p.loc n).storeWs p.loc n x
  else if isDome p.loc then ((s.bankStamp p).count 8 1).poke p.loc n x
  else if isScratch p.loc then ((s.sliceStamp p.home).count 35 1).poke p.loc n x
  else if p.outside then (s.postFault 3 0 p.loc).machineCheck s.core.region false 0x334
  else (s.stampGlobal p).poke p.loc n x

/-- The timestamp of an AMO in a scratchpad way, above every lease of its line and in SCLK order (R293, 21_memory_system
R362; assumption log 62). -/
def stampScratch (s : State) (p : Place) : State :=
  let ln := p.loc / 128
  let l := Tab.get s.lines ln {}
  let x := s.sliceAt p.home
  let ts := max (max s.ltNow (x.sclk + 1)) (l.rts + 1)
  ((s.setSliceAt p.home { x with sclk := ts }).setSliceLine ln { l with wts := ts, rts := ts }).setLt ts

/-- The timestamp of an AMO (R293). -/
def stampAmo (s : State) (p : Place) : State :=
  if isDome p.loc then ((s.bankStamp p).count 8 1).count 10 1
  else if isScratch p.loc then s.stampScratch p
  else if s.kindAt p = 2 then
    let t := s.stampUncached (p.loc / 128) p.home
    let t := if t.lineHeld (p.loc / 128) then t else t.demandBeat p.loc
    (t.noteGlobal t.core.lt).count 10 1
  else
    let (ts, s) := s.slicedWrite p.home (p.loc / 128) s.ltNow (p.kind == 1)
    (s.setLt ts).count 10 1

/-! ## Handle tables (18_protection R345, R346) -/

/-- Storage address of a tenant's handle entry (R345). -/
def handleLoc (s : State) (tenant slot : Nat) : Nat := ((s.tenantRec tenant).extractLsb' (8 * 0x10) 44).toNat + 16 * slot

/-- The handle entry a storage address lies in, if any tenant's table holds it. -/
def handleEntryAt (s : State) (loc : Nat) : Option Nat :=
  if isHbm loc then
    ((List.range 16).find? fun t =>
      let r := s.tenantRec t
      let base := (r.extractLsb' (8 * 0x10) 44).toNat
      r.getLsbD 63 && decide (base ≤ loc) && decide (loc < base + 16 * ((r.extractLsb' (8 * 0x10 + 44) 20).toNat + 1))).map
      fun _ => loc / 16 * 16
  else none

/-- PINS of a handle entry (14/17: R328). -/
def pinsOf (s : State) (entry : Nat) : Nat := (s.peek 64 (entry + 8) 8).toNat / 2 ^ 52

/-- Change PINS. -/
def setPins (s : State) (entry n : Nat) : State :=
  s.poke (entry + 8) 8 ((s.peek 64 (entry + 8) 8 &&& 0x000FFFFFFFFFFFFF) ||| BitVec.ofNat 64 (n * 2 ^ 52))

def unpin (s : State) (entry : Nat) : State := s.setPins entry (s.pinsOf entry - 1)

/-- A store or AMO that would change GEN or BASE, or set VALID, of a pinned entry waits; word 1 keeps its PINS (R346).
The answer is the value to store. -/
def handleGuard (s : State) (loc n : Nat) (x : Word) : Chk Word :=
  match s.handleEntryAt loc with
  | none => .ok x
  | some e =>
    let base := loc / 8 * 8
    let old := s.peek 64 base 8
    let new := Mem.load (Mem.store (Mem.store [] base 8 old) loc n x) 64 base 8
    if base = e then
      if s.pinsOf e ≠ 0 ∧ ((old ^^^ new) &&& 0x00FFFFFFFFFFFFFF ≠ 0 ∨ (new.getLsbD 63 ∧ !old.getLsbD 63)) then
        .error (.wait (.pins e true))
      else .ok x
    else
      let kept := (new &&& 0x000FFFFFFFFFFFFF) ||| (old &&& 0xFFF0000000000000)
      .ok (kept >>> (8 * (loc % 8)))

/-! ## Fetch (01_encoding R18-R22, 05_memory_isa R135) -/

/-- A fetch of a block of HBM4E at its home slice: on a page of KIND 2 against memory, else its line is in the slice or comes
there (21_memory_system R359). -/
def fetchLine (s : State) (p : Place) : State :=
  let ln := p.loc / 128
  if s.kindAt p = 2 then
    let s := (s.recallLine noSpire ln).activate p.home ln
    if s.lineHeld ln then s else s.demandBeat p.loc
  else if s.lineHeld ln = true ∧ s.physHome p.loc = p.home then s
  else (s.sliceLine p.home ln (p.kind == 1)).2

/-- The bytes of a fetch block, from an address to the block's end, or the state in which the fetch faults: a block of HBM4E
is read at its home slice, and one that arrives poisoned faults (assumption log 61); one outside the owner's windows is
recorded and raises MACHINE_CHECK too (18_protection R334). -/
def fetchBytes (s : State) (va : Word) : Except State (List Byte × State) :=
  if 0x100000000 ≤ va.toNat ∧ va.toNat < 0x1000000000000 then
    match s.translate s.mySpire s.core.tenant s.ctx .fetch va.toNat with
    | some (p, s') =>
      if p.outside then .error ((s'.postFault 3 0 p.loc).machineCheck s'.core.region false 0x334)
      else
        let s' := if isHbm p.loc then s'.fetchLine p else s'
        if s'.isPoisoned p.loc then .error s'
        else .ok (Mem.bytes s'.mem (s'.storeLoc p.loc) (32 - va.toNat % 32), s')
    | none => .error s
  else .error s

end State

/-- What the fetch at an address finds (R30 steps 1 to 3): an instruction, or the trap it raises. -/
inductive Fetched where
  | instr (at_ : Word) (i : Instr) (s : State)
  | trap (at_ : Word) (t : Trap) (s : State)
  /-- A long run of FILL parcels: fetch goes on at an address (R20). -/
  | skip (at_ : Word) (s : State)

namespace State

/-- Fetch and decode at an address, skipping FILL parcels (R20); `stagger` changes the fields of a word before it is
decoded (02_scalar R78). MISALIGN comes before any fetch whatever put the PC there, and TVAL of an ILLEGAL parcel holds zero
above its 32 bits: both are the model's choice (assumption log 63). -/
def fetchAt (s : State) (stagger : Raw → Raw) : Nat → Word → Fetched
  | 0, va => .skip va s
  | fuel + 1, va =>
    if va.toNat % 4 ≠ 0 then .trap va { code := Cause.misalign, tval := va } s
    else match s.fetchBytes va with
    | .error s' => .trap va { code := Cause.fetchFault, tval := va &&& ~~~31 } s'
    | .ok (bs, s') =>
      let n := lenBytes ((nth bs 0 0).setWidth 2)
      if bs.length < n then .trap va { code := Cause.fetchCross, tval := va } s'
      else
        let w : BitVec 128 := ofBytes 128 (bs.take n)
        if w = 3 then fetchAt s' stagger fuel (va + 4)
        else
          let r : Except Reject Instr :=
            if w.extractLsb' 0 2 = 3 then .error .badFill else (stagger (Raw.unpack w)).decode
          match r with
          | .ok i => .instr va i s'
          | .error _ => .trap va { code := Cause.illegal, tval := w.setWidth 64 } s'

end State

end Sys2Proof.Machine
end

