-- ==== Sys2Proof/Machine/Operands.lean ====
section
/-!
DEFINITION. The operand forms: the value of operand B (01_encoding R26), the registers an instruction names, its jet
groups (R28) and the privilege it needs (07_system_isa R192).
-/

namespace Sys2Proof

namespace Machine.State

/-- Operand B of a scalar instruction: a register, or the sign-extended immediate (R26). -/
def opB (s : State) : OpB → Word
  | .reg b | .reg96 b => s.reg b
  | .imm16 v => v.signExtend 64
  | .imm32 v => v.signExtend 64

def opB64 (s : State) : OpB64 → Word
  | .reg b => s.reg b
  | .imm16 v => v.signExtend 64

/-- The jet order J (02_scalar R46). -/
def jet (s : State) : Nat := ((s.word Ws.jctl) &&& 7).toNat

/-- Guard(i) = p[PG]<i> xor PN (00_scope R12). -/
def guardLane (s : State) (g : Guard) (i : Nat) : Bool := xor ((s.pred g.pg).getLsbD i) g.pn

end Machine.State

/-- GroupSize(J) (00_scope R17). -/
def groupSize (j : Nat) : Nat := if j = 0 then 1 else if j = 1 then 2 else if j ≤ 3 then 4 else 8

/-- The parcel offset of BR and CALL, in bytes (02_scalar R73). -/
def Offset.bytes : Offset → Word
  | .off16 v => v.signExtend 64 <<< 2
  | .off32 v => v.signExtend 64 <<< 2

/-- The value of MOVI (02_scalar R59). -/
def MoviImm.value : MoviImm → Word
  | .imm16 v => v.signExtend 64
  | .imm32 v => v.signExtend 64
  | .imm64 v => v

/-- The scalar registers an operand B names. -/
def OpB.regs : OpB → List SReg
  | .reg b | .reg96 b => [b]
  | _ => []
def OpB64.regs : OpB64 → List SReg
  | .reg b => [b]
  | _ => []
def LeaB.regs : LeaB → List SReg
  | .idx b _ | .idxDisp b _ _ => [b]
  | _ => []
def RegRange.regs : RegRange → List SReg
  | .scalar f l => (List.range 32).filterMap fun i => if f.toNat ≤ i ∧ i ≤ l.toNat then some (BitVec.ofNat 5 i) else none
  | .vector _ _ => []
def SVReg.regs : SVReg → List SReg
  | .s r => [r]
  | .v _ => []

/-- The scalar registers an instruction reads or writes, for the scoreboard of COPY tokens (05_memory_isa R150); a gate
call reads or writes its arguments and results. -/
def Instr.sregs : Instr → List SReg
  | .add _ _ d a b => [d, a] ++ b.regs
  | .sub _ _ d a b => [d, a] ++ b.regs
  | .and _ _ d a b => [d, a] ++ b.regs
  | .or _ _ d a b => [d, a] ++ b.regs
  | .xor _ _ d a b => [d, a] ++ b.regs
  | .andn _ _ d a b => [d, a] ++ b.regs
  | .shl _ _ d a b => [d, a] ++ b.regs
  | .shr _ _ d a b => [d, a] ++ b.regs
  | .sar _ _ d a b => [d, a] ++ b.regs
  | .ror _ _ d a b => [d, a] ++ b.regs
  | .min _ _ d a b => [d, a] ++ b.regs
  | .max _ _ d a b => [d, a] ++ b.regs
  | .mul _ _ d a b => [d, a] ++ b.regs
  | .mulh _ _ d a b => [d, a] ++ b.regs
  | .div _ _ d a b => [d, a] ++ b.regs
  | .rem _ _ d a b => [d, a] ++ b.regs
  | .clz _ _ d a => [d, a]
  | .ctz _ _ d a => [d, a]
  | .popc _ _ d a => [d, a]
  | .brev _ _ d a => [d, a]
  | .bswap _ _ d a => [d, a]
  | .bext _ _ d a _ _ => [d, a]
  | .bins _ _ d a _ _ => [d, a]
  | .sext _ _ d a => [d, a]
  | .zext _ _ d a => [d, a]
  | .cmpEq _ _ _ a b => [a] ++ b.regs
  | .cmpNe _ _ _ a b => [a] ++ b.regs
  | .cmpLt _ _ _ a b => [a] ++ b.regs
  | .cmpLe _ _ _ a b => [a] ++ b.regs
  | .cmpGt _ _ _ a b => [a] ++ b.regs
  | .cmpGe _ _ _ a b => [a] ++ b.regs
  | .movi _ d _ => [d]
  | .mov _ d a => [d, a]
  | .lea _ d a b => [d, a] ++ b.regs
  | .sel _ d a b _ => [d, a, b]
  | .qcap _ d b => [d] ++ b.regs
  | .rndc _ d a b => [d, a, b]
  | .mfs _ d _ => [d]
  | .mts _ a _ => [a]
  | .mtsWp _ a => [a]
  | .pushm _ r => r.regs
  | .popm _ r => r.regs
  | .fadd _ _ d a b => [d, a, b]
  | .fsub _ _ d a b => [d, a, b]
  | .fmul _ _ d a b => [d, a, b]
  | .fdiv _ _ d a b => [d, a, b]
  | .fsqrt _ _ d a => [d, a]
  | .fmin _ _ d a b => [d, a, b]
  | .fmax _ _ d a b => [d, a, b]
  | .fneg _ _ d a => [d, a]
  | .fabs _ _ d a => [d, a]
  | .fma _ _ d a b c => [d, a, b, c]
  | .fms _ _ d a b c => [d, a, b, c]
  | .fnma _ _ d a b c => [d, a, b, c]
  | .fnms _ _ d a b c => [d, a, b, c]
  | .fcmpEq _ _ _ a b => [a, b]
  | .fcmpLt _ _ _ a b => [a, b]
  | .fcmpLe _ _ _ a b => [a, b]
  | .fcmpUn _ _ _ a b => [a, b]
  | .fcvt _ _ d a _ _ => [d, a]
  | .fclass _ _ d a => [d, a]
  | .call _ d _ => [d]
  | .jmp _ d a => [d, a]
  | .ret _ a => [a]
  | .brx _ a b _ => [a, b]
  | .loop _ a _ => [a]
  | .rep a _ _ _ => [a]
  | .vqmx _ _ _ b _ => [b]
  | .vdqmx _ _ _ b _ => [b]
  | .vrot _ _ _ _ b => b.regs
  | .vins _ _ _ a _ => [a]
  | .vext _ _ d _ _ => [d]
  | .vsplat _ _ _ a => [a]
  | .jseed _ _ _ a => a.regs
  | .ld _ _ d a b => [d, a] ++ b.regs
  | .st _ _ a b c => [a, c] ++ b.regs
  | .vld _ _ a b => [a] ++ b.regs
  | .vst _ a b _ => [a] ++ b.regs
  | .vgather _ _ _ a _ _ => [a]
  | .vscatter _ _ a _ _ _ => [a]
  | .ldb _ _ a _ => [a]
  | .amoAdd _ _ d a b => [d, a, b]
  | .amoAnd _ _ d a b => [d, a, b]
  | .amoOr _ _ d a b => [d, a, b]
  | .amoXor _ _ d a b => [d, a, b]
  | .amoMin _ _ d a b => [d, a, b]
  | .amoMax _ _ d a b => [d, a, b]
  | .amoSwap _ _ d a b => [d, a, b]
  | .amoCas _ _ d a b c => [d, a, b, c]
  | .amoFadd _ _ d a b => [d, a, b]
  | .amoFaddOrd _ _ d a b c _ => [d, a, b, c]
  | .redAdd _ _ a b => [a, b]
  | .redMin _ _ a b => [a, b]
  | .redMax _ _ a b => [a, b]
  | .redAddOrd _ _ a b c _ => [a, b, c]
  | .redMinOrd _ _ a b c _ => [a, b, c]
  | .redMaxOrd _ _ a b c _ => [a, b, c]
  | .pref _ a _ => [a]
  | .chint _ a _ => [a]
  | .copy _ d a b c _ _ _ _ => [d, a, b, c]
  | .copyh _ d a b c _ _ _ _ _ => [d, a, b, c]
  | .binit _ a _ => [a]
  | .barrive _ d _ => [d]
  | .bwait _ a _ => [a]
  | .bstat _ d _ => [d]
  | .tlwait _ _ b => b.regs
  | .tlread _ d _ _ _ => [d]
  | .fence _ a _ => [a]
  | .wake _ a b => [a] ++ b.regs
  | .wait _ d b => [d] ++ b.regs
  | .chinit _ a b c => [a, b, c]
  | .send _ d a b c => [d, a, b, c]
  | .sendNb _ d a b c => [d, a, b, c]
  | .recv _ d a b => [d, a, b]
  | .recvNb _ d a b => [d, a, b]
  | .mshl _ _ a _ => [a]
  | .mshf _ _ a _ _ => [a]
  | .mshs _ a _ _ => [a]
  | .mclaim _ d _ _ => [d]
  | .mrel _ a _ => [a]
  | .mld _ d _ _ _ _ => [d]
  | .mldx _ d _ _ _ _ => [d]
  | .mma _ _ c _ _ _ => [c]
  | .mmaS _ _ c _ _ _ => [c]
  | .mst _ d _ _ c _ _ _ => [d, c]
  | .tgemm _ d _ _ _ _ _ _ _ => [d]
  | .tfact _ d _ _ _ _ => [d]
  | .tsolve _ _ _ b _ => [b]
  | .mqsync _ d _ => [d]
  | .launch d a _ _ => [d, a]
  | .yield d => [d]
  | .gcall _ => [1, 2, 3, 4, 5, 6, 7, 8]
  | .gret _ _ => [1, 2, 3, 4, 5, 6, 7, 8]
  | .sysr _ d _ => [d]
  | .sysw _ a _ => [a]
  | .publish d a c => [d, a, c]
  | .tlbinv _ a b _ _ => [a, b]
  | .lflush _ a b _ _ => [a, b]
  | .l2cfg _ d a b _ => [d, a, b]
  | .mscrub _ d a b => [d, a, b]
  | .mspare _ d a b => [d, a, b]
  | .mrmapRead _ d a b c => [d, a, b, c]
  | .mrmapWrite _ d a b c => [d, a, b, c]
  | .mrmapInvalidate _ d a b c => [d, a, b, c]
  | .mrmapSpareBitmap _ d a b c => [d, a, b, c]
  | .mliveNotLive _ d a b => [d, a, b]
  | .mliveLive _ d a b => [d, a, b]
  | .jrnl _ d a _ _ => [d, a]
  | .msave _ d a => [d, a]
  | .bind _ d a b => [d, a, b]
  | .gswitchCancel _ d a b => [d, a, b]
  | .gswitchArm _ d a b => [d, a, b]
  | _ => []

/-- The scalar registers an instruction reads (07_system_isa R222 SOFT: what consumes a corrupted register). -/
def Instr.sources : Instr → List SReg
  | .add _ _ _ a b => [a] ++ b.regs
  | .sub _ _ _ a b => [a] ++ b.regs
  | .and _ _ _ a b => [a] ++ b.regs
  | .or _ _ _ a b => [a] ++ b.regs
  | .xor _ _ _ a b => [a] ++ b.regs
  | .andn _ _ _ a b => [a] ++ b.regs
  | .shl _ _ _ a b => [a] ++ b.regs
  | .shr _ _ _ a b => [a] ++ b.regs
  | .sar _ _ _ a b => [a] ++ b.regs
  | .ror _ _ _ a b => [a] ++ b.regs
  | .min _ _ _ a b => [a] ++ b.regs
  | .max _ _ _ a b => [a] ++ b.regs
  | .mul _ _ _ a b => [a] ++ b.regs
  | .mulh _ _ _ a b => [a] ++ b.regs
  | .div _ _ _ a b => [a] ++ b.regs
  | .rem _ _ _ a b => [a] ++ b.regs
  | .clz _ _ _ a => [a]
  | .ctz _ _ _ a => [a]
  | .popc _ _ _ a => [a]
  | .brev _ _ _ a => [a]
  | .bswap _ _ _ a => [a]
  | .bext _ _ _ a _ _ => [a]
  | .bins _ _ d a _ _ => [d, a]
  | .sext _ _ _ a => [a]
  | .zext _ _ _ a => [a]
  | .cmpEq _ _ _ a b => [a] ++ b.regs
  | .cmpNe _ _ _ a b => [a] ++ b.regs
  | .cmpLt _ _ _ a b => [a] ++ b.regs
  | .cmpLe _ _ _ a b => [a] ++ b.regs
  | .cmpGt _ _ _ a b => [a] ++ b.regs
  | .cmpGe _ _ _ a b => [a] ++ b.regs
  | .mov _ _ a => [a]
  | .lea _ _ a b => [a] ++ b.regs
  | .sel _ _ a b _ => [a, b]
  | .qcap _ _ b => b.regs
  | .rndc _ _ a b => [a, b]
  | .mts _ a _ => [a]
  | .mtsWp _ a => [a]
  | .pushm _ r => r.regs
  | .fadd _ _ _ a b => [a, b]
  | .fsub _ _ _ a b => [a, b]
  | .fmul _ _ _ a b => [a, b]
  | .fdiv _ _ _ a b => [a, b]
  | .fsqrt _ _ _ a => [a]
  | .fmin _ _ _ a b => [a, b]
  | .fmax _ _ _ a b => [a, b]
  | .fneg _ _ _ a => [a]
  | .fabs _ _ _ a => [a]
  | .fma _ _ _ a b c => [a, b, c]
  | .fms _ _ _ a b c => [a, b, c]
  | .fnma _ _ _ a b c => [a, b, c]
  | .fnms _ _ _ a b c => [a, b, c]
  | .fcmpEq _ _ _ a b => [a, b]
  | .fcmpLt _ _ _ a b => [a, b]
  | .fcmpLe _ _ _ a b => [a, b]
  | .fcmpUn _ _ _ a b => [a, b]
  | .fcvt _ _ _ a _ _ => [a]
  | .fclass _ _ _ a => [a]
  | .jmp _ _ a => [a]
  | .ret _ a => [a]
  | .brx _ a b _ => [a, b]
  | .loop _ a _ => [a]
  | .rep a _ _ _ => [a]
  | .vqmx _ _ _ b _ => [b]
  | .vdqmx _ _ _ b _ => [b]
  | .vrot _ _ _ _ b => b.regs
  | .vins _ _ _ a _ => [a]
  | .vsplat _ _ _ a => [a]
  | .jseed _ _ _ a => a.regs
  | .ld _ _ _ a b => [a] ++ b.regs
  | .st _ _ a b c => [a, c] ++ b.regs
  | .vld _ _ a b => [a] ++ b.regs
  | .vst _ a b _ => [a] ++ b.regs
  | .vgather _ _ _ a _ _ => [a]
  | .vscatter _ _ a _ _ _ => [a]
  | .ldb _ _ a _ => [a]
  | .amoAdd _ _ _ a b => [a, b]
  | .amoAnd _ _ _ a b => [a, b]
  | .amoOr _ _ _ a b => [a, b]
  | .amoXor _ _ _ a b => [a, b]
  | .amoMin _ _ _ a b => [a, b]
  | .amoMax _ _ _ a b => [a, b]
  | .amoSwap _ _ _ a b => [a, b]
  | .amoCas _ _ _ a b c => [a, b, c]
  | .amoFadd _ _ _ a b => [a, b]
  | .amoFaddOrd _ _ _ a b c _ => [a, b, c]
  | .redAdd _ _ a b => [a, b]
  | .redMin _ _ a b => [a, b]
  | .redMax _ _ a b => [a, b]
  | .redAddOrd _ _ a b c _ => [a, b, c]
  | .redMinOrd _ _ a b c _ => [a, b, c]
  | .redMaxOrd _ _ a b c _ => [a, b, c]
  | .pref _ a _ => [a]
  | .chint _ a _ => [a]
  | .copy _ _ a b c _ _ _ _ => [a, b, c]
  | .copyh _ _ a b c _ _ _ _ _ => [a, b, c]
  | .binit _ a _ => [a]
  | .bwait _ a _ => [a]
  | .tlwait _ _ b => b.regs
  | .fence _ a _ => [a]
  | .wake _ a b => [a] ++ b.regs
  | .wait _ _ b => b.regs
  | .chinit _ a b c => [a, b, c]
  | .send _ _ a b c => [a, b, c]
  | .sendNb _ _ a b c => [a, b, c]
  | .recv _ _ a b => [a, b]
  | .recvNb _ _ a b => [a, b]
  | .mshl _ _ a _ => [a]
  | .mshf _ _ a _ _ => [a]
  | .mshs _ a _ _ => [a]
  | .mrel _ a _ => [a]
  | .mma _ _ c _ _ _ => [c]
  | .mmaS _ _ c _ _ _ => [c]
  | .mst _ _ _ _ c _ _ _ => [c]
  | .tsolve _ _ _ b _ => [b]
  | .launch _ a _ _ => [a]
  | .gcall _ => [1, 2, 3, 4, 5, 6, 7, 8]
  | .gret _ _ => [1, 2, 3, 4, 5, 6, 7, 8]
  | .sysw _ a _ => [a]
  | .publish _ a c => [a, c]
  | .tlbinv _ a b _ _ => [a, b]
  | .lflush _ a b _ _ => [a, b]
  | .l2cfg _ _ a b _ => [a, b]
  | .mscrub _ _ a b => [a, b]
  | .mspare _ _ a b => [a, b]
  | .mrmapRead _ _ a b c => [a, b, c]
  | .mrmapWrite _ _ a b c => [a, b, c]
  | .mrmapInvalidate _ _ a b c => [a, b, c]
  | .mrmapSpareBitmap _ _ a b c => [a, b, c]
  | .mliveNotLive _ _ a b => [a, b]
  | .mliveLive _ _ a b => [a, b]
  | .jrnl _ _ a _ _ => [a]
  | .msave _ _ a => [a]
  | .bind _ _ a b => [a, b]
  | .gswitchCancel _ _ a b => [a, b]
  | .gswitchArm _ _ a b => [a, b]
  | _ => []

/-- The vector register an operand B names. -/
def OpBV.regs : OpBV → List VReg
  | .reg b => [b]
  | .imm16 _ => []

def RegRange.vregs : RegRange → List VReg
  | .scalar _ _ => []
  | .vector f l => (List.range 32).filterMap fun i => if f.toNat ≤ i ∧ i ≤ l.toNat then some (BitVec.ofNat 5 i) else none

def SVReg.vregs : SVReg → List VReg
  | .s _ => []
  | .v r => [r]

/-- The first registers of the vector groups an instruction reads. -/
def Instr.vsources : Instr → List VReg
  | .pushm _ r => r.vregs
  | .vadd _ _ _ a b => [a, b]
  | .vsub _ _ _ a b => [a, b]
  | .vmul _ _ _ a b => [a, b]
  | .vmin _ _ _ a b => [a, b]
  | .vmax _ _ _ a b => [a, b]
  | .vneg _ _ _ a => [a]
  | .vabs _ _ _ a => [a]
  | .vfma _ _ _ a b c => [a, b, c]
  | .vfms _ _ _ a b c => [a, b, c]
  | .vfnma _ _ _ a b c => [a, b, c]
  | .vfnms _ _ _ a b c => [a, b, c]
  | .vdiv _ _ _ a b => [a, b]
  | .vrcp _ _ _ a => [a]
  | .vsqrt _ _ _ a => [a]
  | .vrsqrt _ _ _ a => [a]
  | .vexp _ _ _ a => [a]
  | .vlog _ _ _ a => [a]
  | .vsincos _ _ _ a => [a]
  | .vtanh _ _ _ a => [a]
  | .vsigm _ _ _ a => [a]
  | .vcmpEq _ _ _ a b => [a, b]
  | .vcmpNe _ _ _ a b => [a, b]
  | .vcmpLt _ _ _ a b => [a, b]
  | .vcmpLe _ _ _ a b => [a, b]
  | .vsel _ _ a b _ _ => [a, b]
  | .vcvt _ _ _ a _ _ _ => [a]
  | .vqmx _ _ a _ _ => [a]
  | .vdqmx _ _ a _ _ => [a]
  | .vredAdd _ _ _ a => [a]
  | .vredMin _ _ _ a => [a]
  | .vredMax _ _ _ a => [a]
  | .vaddInt _ _ _ a b => [a] ++ b.regs
  | .vsubInt _ _ _ a b => [a] ++ b.regs
  | .vand _ _ _ a b => [a] ++ b.regs
  | .vor _ _ _ a b => [a] ++ b.regs
  | .vxor _ _ _ a b => [a] ++ b.regs
  | .vshl _ _ _ a b => [a] ++ b.regs
  | .vshr _ _ _ a b => [a] ++ b.regs
  | .vsar _ _ _ a b => [a] ++ b.regs
  | .vminInt _ _ _ a b => [a] ++ b.regs
  | .vmaxInt _ _ _ a b => [a] ++ b.regs
  | .vadds _ _ _ a b => [a] ++ b.regs
  | .vsubs _ _ _ a b => [a] ++ b.regs
  | .vcmpEqInt _ _ _ a b => [a] ++ b.regs
  | .vcmpNeInt _ _ _ a b => [a] ++ b.regs
  | .vcmpLtInt _ _ _ a b => [a] ++ b.regs
  | .vcmpLeInt _ _ _ a b => [a] ++ b.regs
  | .vmulInt _ _ _ a b => [a, b]
  | .vmulh _ _ _ a b => [a, b]
  | .vmac _ _ d a b => [d, a, b]
  | .vsat _ _ _ a _ => [a]
  | .vdot4 _ _ d a b => [d, a, b]
  | .vdot2 _ _ d a b => [d, a, b]
  | .vcmul _ _ _ a b _ => [a, b]
  | .vcmac _ _ d a b _ => [d, a, b]
  | .vconj _ _ _ a => [a]
  | .vbfly _ _ _ a b c => [a, b, c]
  | .vbflys _ _ _ a b c => [a, b, c]
  | .vperm _ _ _ a b => [a, b]
  | .vshuf _ _ _ a b c => [a, b, c]
  | .vrot _ _ _ a _ => [a]
  | .vbcast _ _ _ a _ => [a]
  | .vmov _ _ a _ => [a]
  | .vins _ _ d _ _ => [d]
  | .vext _ _ _ a _ => [a]
  | .jseed _ _ _ a => a.vregs
  | .jext _ _ _ a _ => [a]
  | .jplane _ _ _ a _ _ => [a]
  | .vst _ _ _ c => [c]
  | .vgather _ _ _ _ b _ => [b]
  | .vscatter _ _ _ b c _ => [b, c]
  | .mmovr _ _ a _ _ => [a]
  | _ => []

/-- The predicates an instruction reads, its guard among them. -/
def Instr.psources : Instr → List PReg
  | .add g _ _ _ _ => [g.pg]
  | .sub g _ _ _ _ => [g.pg]
  | .and g _ _ _ _ => [g.pg]
  | .or g _ _ _ _ => [g.pg]
  | .xor g _ _ _ _ => [g.pg]
  | .andn g _ _ _ _ => [g.pg]
  | .shl g _ _ _ _ => [g.pg]
  | .shr g _ _ _ _ => [g.pg]
  | .sar g _ _ _ _ => [g.pg]
  | .ror g _ _ _ _ => [g.pg]
  | .min g _ _ _ _ => [g.pg]
  | .max g _ _ _ _ => [g.pg]
  | .mul g _ _ _ _ => [g.pg]
  | .mulh g _ _ _ _ => [g.pg]
  | .div g _ _ _ _ => [g.pg]
  | .rem g _ _ _ _ => [g.pg]
  | .clz g _ _ _ => [g.pg]
  | .ctz g _ _ _ => [g.pg]
  | .popc g _ _ _ => [g.pg]
  | .brev g _ _ _ => [g.pg]
  | .bswap g _ _ _ => [g.pg]
  | .bext g _ _ _ _ _ => [g.pg]
  | .bins g _ _ _ _ _ => [g.pg]
  | .sext g _ _ _ => [g.pg]
  | .zext g _ _ _ => [g.pg]
  | .cmpEq g _ _ _ _ => [g.pg]
  | .cmpNe g _ _ _ _ => [g.pg]
  | .cmpLt g _ _ _ _ => [g.pg]
  | .cmpLe g _ _ _ _ => [g.pg]
  | .cmpGt g _ _ _ _ => [g.pg]
  | .cmpGe g _ _ _ _ => [g.pg]
  | .pand g _ a b => [g.pg, a, b]
  | .por g _ a b => [g.pg, a, b]
  | .pxor g _ a b => [g.pg, a, b]
  | .pandn g _ a b => [g.pg, a, b]
  | .pnot g _ a => [g.pg, a]
  | .pmov g _ a => [g.pg, a]
  | .pset g _ _ => [g.pg]
  | .movi g _ _ => [g.pg]
  | .mov g _ _ => [g.pg]
  | .lea g _ _ _ => [g.pg]
  | .sel g _ _ _ c => [g.pg, c]
  | .qcap g _ _ => [g.pg]
  | .rndc g _ _ _ => [g.pg]
  | .mfs g _ _ => [g.pg]
  | .mts g _ _ => [g.pg]
  | .mtsWp g _ => [g.pg]
  | .pushm g _ => [g.pg]
  | .popm g _ => [g.pg]
  | .fadd g _ _ _ _ => [g.pg]
  | .fsub g _ _ _ _ => [g.pg]
  | .fmul g _ _ _ _ => [g.pg]
  | .fdiv g _ _ _ _ => [g.pg]
  | .fsqrt g _ _ _ => [g.pg]
  | .fmin g _ _ _ _ => [g.pg]
  | .fmax g _ _ _ _ => [g.pg]
  | .fneg g _ _ _ => [g.pg]
  | .fabs g _ _ _ => [g.pg]
  | .fma g _ _ _ _ _ => [g.pg]
  | .fms g _ _ _ _ _ => [g.pg]
  | .fnma g _ _ _ _ _ => [g.pg]
  | .fnms g _ _ _ _ _ => [g.pg]
  | .fcmpEq g _ _ _ _ => [g.pg]
  | .fcmpLt g _ _ _ _ => [g.pg]
  | .fcmpLe g _ _ _ _ => [g.pg]
  | .fcmpUn g _ _ _ _ => [g.pg]
  | .fcvt g _ _ _ _ _ => [g.pg]
  | .fclass g _ _ _ => [g.pg]
  | .br g _ => [g.pg]
  | .call g _ _ => [g.pg]
  | .jmp g _ _ => [g.pg]
  | .ret g _ => [g.pg]
  | .brx g _ _ _ => [g.pg]
  | .loop g _ _ => [g.pg]
  | .nop g => [g.pg]
  | .hint g _ => [g.pg]
  | .vadd g _ _ _ _ => [g.pg]
  | .vsub g _ _ _ _ => [g.pg]
  | .vmul g _ _ _ _ => [g.pg]
  | .vmin g _ _ _ _ => [g.pg]
  | .vmax g _ _ _ _ => [g.pg]
  | .vneg g _ _ _ => [g.pg]
  | .vabs g _ _ _ => [g.pg]
  | .vfma g _ _ _ _ _ => [g.pg]
  | .vfms g _ _ _ _ _ => [g.pg]
  | .vfnma g _ _ _ _ _ => [g.pg]
  | .vfnms g _ _ _ _ _ => [g.pg]
  | .vdiv g _ _ _ _ => [g.pg]
  | .vrcp g _ _ _ => [g.pg]
  | .vsqrt g _ _ _ => [g.pg]
  | .vrsqrt g _ _ _ => [g.pg]
  | .vexp g _ _ _ => [g.pg]
  | .vlog g _ _ _ => [g.pg]
  | .vsincos g _ _ _ => [g.pg]
  | .vtanh g _ _ _ => [g.pg]
  | .vsigm g _ _ _ => [g.pg]
  | .vcmpEq g _ _ _ _ => [g.pg]
  | .vcmpNe g _ _ _ _ => [g.pg]
  | .vcmpLt g _ _ _ _ => [g.pg]
  | .vcmpLe g _ _ _ _ => [g.pg]
  | .vsel g _ _ _ c _ => [g.pg, c]
  | .vcvt g _ _ _ _ _ _ => [g.pg]
  | .vqmx g _ _ _ _ => [g.pg]
  | .vdqmx g _ _ _ _ => [g.pg]
  | .vredAdd g _ _ _ => [g.pg]
  | .vredMin g _ _ _ => [g.pg]
  | .vredMax g _ _ _ => [g.pg]
  | .vaddInt g _ _ _ _ => [g.pg]
  | .vsubInt g _ _ _ _ => [g.pg]
  | .vand g _ _ _ _ => [g.pg]
  | .vor g _ _ _ _ => [g.pg]
  | .vxor g _ _ _ _ => [g.pg]
  | .vshl g _ _ _ _ => [g.pg]
  | .vshr g _ _ _ _ => [g.pg]
  | .vsar g _ _ _ _ => [g.pg]
  | .vminInt g _ _ _ _ => [g.pg]
  | .vmaxInt g _ _ _ _ => [g.pg]
  | .vadds g _ _ _ _ => [g.pg]
  | .vsubs g _ _ _ _ => [g.pg]
  | .vcmpEqInt g _ _ _ _ => [g.pg]
  | .vcmpNeInt g _ _ _ _ => [g.pg]
  | .vcmpLtInt g _ _ _ _ => [g.pg]
  | .vcmpLeInt g _ _ _ _ => [g.pg]
  | .vmulInt g _ _ _ _ => [g.pg]
  | .vmulh g _ _ _ _ => [g.pg]
  | .vmac g _ _ _ _ => [g.pg]
  | .vsat g _ _ _ _ => [g.pg]
  | .vdot4 g _ _ _ _ => [g.pg]
  | .vdot2 g _ _ _ _ => [g.pg]
  | .vcmul g _ _ _ _ _ => [g.pg]
  | .vcmac g _ _ _ _ _ => [g.pg]
  | .vconj g _ _ _ => [g.pg]
  | .vbfly g _ _ _ _ _ => [g.pg]
  | .vbflys g _ _ _ _ _ => [g.pg]
  | .vperm g _ _ _ _ => [g.pg]
  | .vshuf g _ _ _ _ _ => [g.pg]
  | .vrot g _ _ _ _ => [g.pg]
  | .vbcast g _ _ _ _ => [g.pg]
  | .vmov g _ _ _ => [g.pg]
  | .vins g _ _ _ _ => [g.pg]
  | .vext g _ _ _ _ => [g.pg]
  | .vsplat g _ _ _ => [g.pg]
  | .jseed g _ _ _ => [g.pg]
  | .jext g _ _ _ _ => [g.pg]
  | .jplane g _ _ _ _ _ => [g.pg]
  | .jclr g _ => [g.pg]
  | .ld g _ _ _ _ => [g.pg]
  | .st g _ _ _ _ => [g.pg]
  | .vld g _ _ _ => [g.pg]
  | .vst g _ _ _ => [g.pg]
  | .vgather g _ _ _ _ _ => [g.pg]
  | .vscatter g _ _ _ _ _ => [g.pg]
  | .ldb g _ _ _ => [g.pg]
  | .amoAdd g _ _ _ _ => [g.pg]
  | .amoAnd g _ _ _ _ => [g.pg]
  | .amoOr g _ _ _ _ => [g.pg]
  | .amoXor g _ _ _ _ => [g.pg]
  | .amoMin g _ _ _ _ => [g.pg]
  | .amoMax g _ _ _ _ => [g.pg]
  | .amoSwap g _ _ _ _ => [g.pg]
  | .amoCas g _ _ _ _ _ => [g.pg]
  | .amoFadd g _ _ _ _ => [g.pg]
  | .amoFaddOrd g _ _ _ _ _ _ => [g.pg]
  | .redAdd g _ _ _ => [g.pg]
  | .redMin g _ _ _ => [g.pg]
  | .redMax g _ _ _ => [g.pg]
  | .redAddOrd g _ _ _ _ _ => [g.pg]
  | .redMinOrd g _ _ _ _ _ => [g.pg]
  | .redMaxOrd g _ _ _ _ _ => [g.pg]
  | .pref g _ _ => [g.pg]
  | .chint g _ _ => [g.pg]
  | .copy g _ _ _ _ _ _ _ _ => [g.pg]
  | .copyh g _ _ _ _ _ _ _ _ _ => [g.pg]
  | .binit g _ _ => [g.pg]
  | .barrive g _ _ => [g.pg]
  | .bwait g _ _ => [g.pg]
  | .bsync g _ => [g.pg]
  | .bstat g _ _ => [g.pg]
  | .tlwait g _ _ => [g.pg]
  | .tlread g _ _ _ _ => [g.pg]
  | .fence g _ _ => [g.pg]
  | .wake g _ _ => [g.pg]
  | .wait g _ _ => [g.pg]
  | .chinit g _ _ _ => [g.pg]
  | .send g _ _ _ _ => [g.pg]
  | .sendNb g _ _ _ _ => [g.pg]
  | .recv g _ _ _ => [g.pg]
  | .recvNb g _ _ _ => [g.pg]
  | .mshl g _ _ _ => [g.pg]
  | .mshf g _ _ _ _ => [g.pg]
  | .mshs g _ _ _ => [g.pg]
  | .mclaim g _ _ _ => [g.pg]
  | .mrel g _ _ => [g.pg]
  | .mld g _ _ _ _ _ => [g.pg]
  | .mldx g _ _ _ _ _ => [g.pg]
  | .mma g _ _ _ _ _ => [g.pg]
  | .mmaS g _ _ _ _ _ => [g.pg]
  | .mzero g _ _ => [g.pg]
  | .mmov g _ _ _ _ _ _ => [g.pg]
  | .mmovr g _ _ _ _ => [g.pg]
  | .mst g _ _ _ _ _ _ _ => [g.pg]
  | .mspec g _ _ => [g.pg]
  | .mresolve g c _ => [g.pg, c]
  | .mcommit g _ => [g.pg]
  | .mdiscard g _ => [g.pg]
  | .tgemm g _ _ _ _ _ _ _ _ => [g.pg]
  | .tfact g _ _ _ _ _ => [g.pg]
  | .tsolve g _ _ _ _ => [g.pg]
  | .mqpri g _ _ => [g.pg]
  | .mqsync g _ _ => [g.pg]
  | .sysr g _ _ => [g.pg]
  | .sysw g _ _ => [g.pg]
  | .tlbinv g _ _ _ _ => [g.pg]
  | .lflush g _ _ _ _ => [g.pg]
  | .l2cfg g _ _ _ _ => [g.pg]
  | .mscrub g _ _ _ => [g.pg]
  | .mspare g _ _ _ => [g.pg]
  | .mrmapRead g _ _ _ _ => [g.pg]
  | .mrmapWrite g _ _ _ _ => [g.pg]
  | .mrmapInvalidate g _ _ _ _ => [g.pg]
  | .mrmapSpareBitmap g _ _ _ _ => [g.pg]
  | .mliveNotLive g _ _ _ => [g.pg]
  | .mliveLive g _ _ _ => [g.pg]
  | .jrnl g _ _ _ _ => [g.pg]
  | .msave g _ _ => [g.pg]
  | .bind g _ _ _ => [g.pg]
  | .gswitchCancel g _ _ _ => [g.pg]
  | .gswitchArm g _ _ _ => [g.pg]
  | _ => []

/-- A vector group is written whole under the guard that is always true. -/
def wholly (g : Guard) (d : VReg) : List VReg := if g.pg = 0 ∧ g.pn = false then [d] else []

/-- The first registers of the vector groups, and the predicates, an instruction writes (16_traps R315). -/
def Instr.written : Instr → List VReg × List PReg
  | .vadd _ _ d _ _ => ([d], [])
  | .vsub _ _ d _ _ => ([d], [])
  | .vmul _ _ d _ _ => ([d], [])
  | .vmin _ _ d _ _ => ([d], [])
  | .vmax _ _ d _ _ => ([d], [])
  | .vneg _ _ d _ => ([d], [])
  | .vabs _ _ d _ => ([d], [])
  | .vfma _ _ d _ _ _ => ([d], [])
  | .vfms _ _ d _ _ _ => ([d], [])
  | .vfnma _ _ d _ _ _ => ([d], [])
  | .vfnms _ _ d _ _ _ => ([d], [])
  | .vdiv _ _ d _ _ => ([d], [])
  | .vrcp _ _ d _ => ([d], [])
  | .vsqrt _ _ d _ => ([d], [])
  | .vrsqrt _ _ d _ => ([d], [])
  | .vexp _ _ d _ => ([d], [])
  | .vlog _ _ d _ => ([d], [])
  | .vsincos _ _ d _ => ([d], [])
  | .vtanh _ _ d _ => ([d], [])
  | .vsigm _ _ d _ => ([d], [])
  | .vsel _ d _ _ _ _ => ([d], [])
  | .vcvt _ _ d _ _ _ _ => ([d], [])
  | .vqmx _ d _ _ _ => ([d], [])
  | .vdqmx _ d _ _ _ => ([d], [])
  | .vredAdd _ _ d _ => ([d], [])
  | .vredMin _ _ d _ => ([d], [])
  | .vredMax _ _ d _ => ([d], [])
  | .vaddInt _ _ d _ _ => ([d], [])
  | .vsubInt _ _ d _ _ => ([d], [])
  | .vand _ _ d _ _ => ([d], [])
  | .vor _ _ d _ _ => ([d], [])
  | .vxor _ _ d _ _ => ([d], [])
  | .vshl _ _ d _ _ => ([d], [])
  | .vshr _ _ d _ _ => ([d], [])
  | .vsar _ _ d _ _ => ([d], [])
  | .vminInt _ _ d _ _ => ([d], [])
  | .vmaxInt _ _ d _ _ => ([d], [])
  | .vadds _ _ d _ _ => ([d], [])
  | .vsubs _ _ d _ _ => ([d], [])
  | .vmulInt _ _ d _ _ => ([d], [])
  | .vmulh _ _ d _ _ => ([d], [])
  | .vmac _ _ d _ _ => ([d], [])
  | .vsat _ _ d _ _ => ([d], [])
  | .vdot4 _ _ d _ _ => ([d], [])
  | .vdot2 _ _ d _ _ => ([d], [])
  | .vcmul _ _ d _ _ _ => ([d], [])
  | .vcmac _ _ d _ _ _ => ([d], [])
  | .vconj _ _ d _ => ([d], [])
  | .vbfly _ _ d _ _ _ => ([d], [])
  | .vbflys _ _ d _ _ _ => ([d], [])
  | .vperm _ _ d _ _ => ([d], [])
  | .vshuf _ _ d _ _ _ => ([d], [])
  | .vrot _ _ d _ _ => ([d], [])
  | .vbcast _ _ d _ _ => ([d], [])
  | .vmov _ d _ _ => ([d], [])
  | .vins _ _ d _ _ => ([d], [])
  | .vsplat _ _ d _ => ([d], [])
  | .jseed _ _ d _ => ([d], [])
  | .jext _ _ d _ _ => ([d], [])
  | .jplane _ _ d _ _ _ => ([d], [])
  | .vld _ d _ _ => ([d], [])
  | .vgather _ _ d _ _ _ => ([d], [])
  | .ldb _ d _ _ => ([d], [])
  | .mmov _ d _ _ _ _ _ => ([d], [])
  | .cmpEq _ _ d _ _ => ([], [d])
  | .cmpNe _ _ d _ _ => ([], [d])
  | .cmpLt _ _ d _ _ => ([], [d])
  | .cmpLe _ _ d _ _ => ([], [d])
  | .cmpGt _ _ d _ _ => ([], [d])
  | .cmpGe _ _ d _ _ => ([], [d])
  | .pand _ d _ _ => ([], [d])
  | .por _ d _ _ => ([], [d])
  | .pxor _ d _ _ => ([], [d])
  | .pandn _ d _ _ => ([], [d])
  | .pnot _ d _ => ([], [d])
  | .pmov _ d _ => ([], [d])
  | .pset _ d _ => ([], [d])
  | .fcmpEq _ _ d _ _ => ([], [d])
  | .fcmpLt _ _ d _ _ => ([], [d])
  | .fcmpLe _ _ d _ _ => ([], [d])
  | .fcmpUn _ _ d _ _ => ([], [d])
  | .vcmpEq _ _ d _ _ => ([], [d])
  | .vcmpNe _ _ d _ _ => ([], [d])
  | .vcmpLt _ _ d _ _ => ([], [d])
  | .vcmpLe _ _ d _ _ => ([], [d])
  | .vcmpEqInt _ _ d _ _ => ([], [d])
  | .vcmpNeInt _ _ d _ _ => ([], [d])
  | .vcmpLtInt _ _ d _ _ => ([], [d])
  | .vcmpLeInt _ _ d _ _ => ([], [d])
  | .popm _ r => (r.vregs, [])
  | _ => ([], [])

/-- The scalar register an instruction writes whole, and the vector group it writes whole. -/
def Instr.dests : Instr → List SReg × List VReg
  | .add _ _ d _ _ => ([d], [])
  | .sub _ _ d _ _ => ([d], [])
  | .and _ _ d _ _ => ([d], [])
  | .or _ _ d _ _ => ([d], [])
  | .xor _ _ d _ _ => ([d], [])
  | .andn _ _ d _ _ => ([d], [])
  | .shl _ _ d _ _ => ([d], [])
  | .shr _ _ d _ _ => ([d], [])
  | .sar _ _ d _ _ => ([d], [])
  | .ror _ _ d _ _ => ([d], [])
  | .min _ _ d _ _ => ([d], [])
  | .max _ _ d _ _ => ([d], [])
  | .mul _ _ d _ _ => ([d], [])
  | .mulh _ _ d _ _ => ([d], [])
  | .div _ _ d _ _ => ([d], [])
  | .rem _ _ d _ _ => ([d], [])
  | .clz _ _ d _ => ([d], [])
  | .ctz _ _ d _ => ([d], [])
  | .popc _ _ d _ => ([d], [])
  | .brev _ _ d _ => ([d], [])
  | .bswap _ _ d _ => ([d], [])
  | .bext _ _ d _ _ _ => ([d], [])
  | .bins _ _ d _ _ _ => ([d], [])
  | .sext _ _ d _ => ([d], [])
  | .zext _ _ d _ => ([d], [])
  | .movi _ d _ => ([d], [])
  | .mov _ d _ => ([d], [])
  | .lea _ d _ _ => ([d], [])
  | .sel _ d _ _ _ => ([d], [])
  | .qcap _ d _ => ([d], [])
  | .rndc _ d _ _ => ([d], [])
  | .mfs _ d _ => ([d], [])
  | .fadd _ _ d _ _ => ([d], [])
  | .fsub _ _ d _ _ => ([d], [])
  | .fmul _ _ d _ _ => ([d], [])
  | .fdiv _ _ d _ _ => ([d], [])
  | .fsqrt _ _ d _ => ([d], [])
  | .fmin _ _ d _ _ => ([d], [])
  | .fmax _ _ d _ _ => ([d], [])
  | .fneg _ _ d _ => ([d], [])
  | .fabs _ _ d _ => ([d], [])
  | .fma _ _ d _ _ _ => ([d], [])
  | .fms _ _ d _ _ _ => ([d], [])
  | .fnma _ _ d _ _ _ => ([d], [])
  | .fnms _ _ d _ _ _ => ([d], [])
  | .fcvt _ _ d _ _ _ => ([d], [])
  | .fclass _ _ d _ => ([d], [])
  | .call _ d _ => ([d], [])
  | .jmp _ d _ => ([d], [])
  | .vadd g _ d _ _ => ([], wholly g d)
  | .vsub g _ d _ _ => ([], wholly g d)
  | .vmul g _ d _ _ => ([], wholly g d)
  | .vmin g _ d _ _ => ([], wholly g d)
  | .vmax g _ d _ _ => ([], wholly g d)
  | .vneg g _ d _ => ([], wholly g d)
  | .vabs g _ d _ => ([], wholly g d)
  | .vfma g _ d _ _ _ => ([], wholly g d)
  | .vfms g _ d _ _ _ => ([], wholly g d)
  | .vfnma g _ d _ _ _ => ([], wholly g d)
  | .vfnms g _ d _ _ _ => ([], wholly g d)
  | .vdiv g _ d _ _ => ([], wholly g d)
  | .vrcp g _ d _ => ([], wholly g d)
  | .vsqrt g _ d _ => ([], wholly g d)
  | .vrsqrt g _ d _ => ([], wholly g d)
  | .vexp g _ d _ => ([], wholly g d)
  | .vlog g _ d _ => ([], wholly g d)
  | .vsincos g _ d _ => ([], wholly g d)
  | .vtanh g _ d _ => ([], wholly g d)
  | .vsigm g _ d _ => ([], wholly g d)
  | .vsel g d _ _ _ _ => ([], wholly g d)
  | .vcvt g _ d _ _ _ _ => ([], wholly g d)
  | .vqmx g d _ _ _ => ([], wholly g d)
  | .vdqmx g d _ _ _ => ([], wholly g d)
  | .vredAdd g _ d _ => ([], wholly g d)
  | .vredMin g _ d _ => ([], wholly g d)
  | .vredMax g _ d _ => ([], wholly g d)
  | .vaddInt g _ d _ _ => ([], wholly g d)
  | .vsubInt g _ d _ _ => ([], wholly g d)
  | .vand g _ d _ _ => ([], wholly g d)
  | .vor g _ d _ _ => ([], wholly g d)
  | .vxor g _ d _ _ => ([], wholly g d)
  | .vshl g _ d _ _ => ([], wholly g d)
  | .vshr g _ d _ _ => ([], wholly g d)
  | .vsar g _ d _ _ => ([], wholly g d)
  | .vminInt g _ d _ _ => ([], wholly g d)
  | .vmaxInt g _ d _ _ => ([], wholly g d)
  | .vadds g _ d _ _ => ([], wholly g d)
  | .vsubs g _ d _ _ => ([], wholly g d)
  | .vmulInt g _ d _ _ => ([], wholly g d)
  | .vmulh g _ d _ _ => ([], wholly g d)
  | .vmac g _ d _ _ => ([], wholly g d)
  | .vsat g _ d _ _ => ([], wholly g d)
  | .vdot4 g _ d _ _ => ([], wholly g d)
  | .vdot2 g _ d _ _ => ([], wholly g d)
  | .vcmul g _ d _ _ _ => ([], wholly g d)
  | .vcmac g _ d _ _ _ => ([], wholly g d)
  | .vconj g _ d _ => ([], wholly g d)
  | .vbfly g _ d _ _ _ => ([], wholly g d)
  | .vbflys g _ d _ _ _ => ([], wholly g d)
  | .vperm g _ d _ _ => ([], wholly g d)
  | .vshuf g _ d _ _ _ => ([], wholly g d)
  | .vrot g _ d _ _ => ([], wholly g d)
  | .vbcast g _ d _ _ => ([], wholly g d)
  | .vmov g d _ _ => ([], wholly g d)
  | .vins g _ d _ _ => ([], wholly g d)
  | .vext _ _ d _ _ => ([d], [])
  | .vsplat g _ d _ => ([], wholly g d)
  | .jseed g _ d _ => ([], wholly g d)
  | .jext g _ d _ _ => ([], wholly g d)
  | .jplane g _ d _ _ _ => ([], wholly g d)
  | .ld _ _ d _ _ => ([d], [])
  | .vld g d _ _ => ([], wholly g d)
  | .vgather g _ d _ _ _ => ([], wholly g d)
  | .ldb g d _ _ => ([], wholly g d)
  | .amoAdd _ _ d _ _ => ([d], [])
  | .amoAnd _ _ d _ _ => ([d], [])
  | .amoOr _ _ d _ _ => ([d], [])
  | .amoXor _ _ d _ _ => ([d], [])
  | .amoMin _ _ d _ _ => ([d], [])
  | .amoMax _ _ d _ _ => ([d], [])
  | .amoSwap _ _ d _ _ => ([d], [])
  | .amoCas _ _ d _ _ _ => ([d], [])
  | .amoFadd _ _ d _ _ => ([d], [])
  | .amoFaddOrd _ _ d _ _ _ _ => ([d], [])
  | .copy _ d _ _ _ _ _ _ _ => ([d], [])
  | .copyh _ d _ _ _ _ _ _ _ _ => ([d], [])
  | .barrive _ d _ => ([d], [])
  | .bstat _ d _ => ([d], [])
  | .tlread _ d _ _ _ => ([d], [])
  | .wait _ d _ => ([d], [])
  | .send _ d _ _ _ => ([d], [])
  | .sendNb _ d _ _ _ => ([d], [])
  | .recv _ d _ _ => ([d], [])
  | .recvNb _ d _ _ => ([d], [])
  | .mclaim _ d _ _ => ([d], [])
  | .mld _ d _ _ _ _ => ([d], [])
  | .mldx _ d _ _ _ _ => ([d], [])
  | .mmov g d _ _ _ _ _ => ([], wholly g d)
  | .mst _ d _ _ _ _ _ _ => ([d], [])
  | .tgemm _ d _ _ _ _ _ _ _ => ([d], [])
  | .tfact _ d _ _ _ _ => ([d], [])
  | .mqsync _ d _ => ([d], [])
  | .launch d _ _ _ => ([d], [])
  | .yield d => ([d], [])
  | .sysr _ d _ => ([d], [])
  | .publish d _ _ => ([d], [])
  | .l2cfg _ d _ _ _ => ([d], [])
  | .mscrub _ d _ _ => ([d], [])
  | .mspare _ d _ _ => ([d], [])
  | .mrmapRead _ d _ _ _ => ([d], [])
  | .mrmapWrite _ d _ _ _ => ([d], [])
  | .mrmapInvalidate _ d _ _ _ => ([d], [])
  | .mrmapSpareBitmap _ d _ _ _ => ([d], [])
  | .mliveNotLive _ d _ _ => ([d], [])
  | .mliveLive _ d _ _ => ([d], [])
  | .jrnl _ d _ _ _ => ([d], [])
  | .msave _ d _ => ([d], [])
  | .bind _ d _ _ => ([d], [])
  | .gswitchCancel _ d _ _ => ([d], [])
  | .gswitchArm _ d _ _ => ([d], [])
  | _ => ([], [])

/-- Whether a base register is aligned for a group of that many registers (01_encoding R28). -/
def groupAligned (n : Nat) (v : VReg) : Bool := decide (v.toNat % n = 0)

def OpBV.aligned (n : Nat) : OpBV → Bool
  | .reg b => groupAligned n b
  | .imm16 _ => true

/-- Whether every jet group an instruction names is aligned for groups of G registers (01_encoding R28, 04_vector
R110, R112); a double group is aligned to 2G. -/
def Instr.groupsOk (n : Nat) : Instr → Bool
  | .vadd _ _ d a b => groupAligned n d && groupAligned n a && groupAligned n b
  | .vsub _ _ d a b => groupAligned n d && groupAligned n a && groupAligned n b
  | .vmul _ _ d a b => groupAligned n d && groupAligned n a && groupAligned n b
  | .vmin _ _ d a b => groupAligned n d && groupAligned n a && groupAligned n b
  | .vmax _ _ d a b => groupAligned n d && groupAligned n a && groupAligned n b
  | .vneg _ _ d a => groupAligned n d && groupAligned n a
  | .vabs _ _ d a => groupAligned n d && groupAligned n a
  | .vfma _ _ d a b c => groupAligned n d && groupAligned n a && groupAligned n b && groupAligned n c
  | .vfms _ _ d a b c => groupAligned n d && groupAligned n a && groupAligned n b && groupAligned n c
  | .vfnma _ _ d a b c => groupAligned n d && groupAligned n a && groupAligned n b && groupAligned n c
  | .vfnms _ _ d a b c => groupAligned n d && groupAligned n a && groupAligned n b && groupAligned n c
  | .vdiv _ _ d a b => groupAligned n d && groupAligned n a && groupAligned n b
  | .vrcp _ _ d a => groupAligned n d && groupAligned n a
  | .vsqrt _ _ d a => groupAligned n d && groupAligned n a
  | .vrsqrt _ _ d a => groupAligned n d && groupAligned n a
  | .vexp _ _ d a => groupAligned n d && groupAligned n a
  | .vlog _ _ d a => groupAligned n d && groupAligned n a
  | .vsincos _ _ d a => groupAligned (2 * n) d && groupAligned n a
  | .vtanh _ _ d a => groupAligned n d && groupAligned n a
  | .vsigm _ _ d a => groupAligned n d && groupAligned n a
  | .vcmpEq _ _ _ a b => groupAligned n a && groupAligned n b
  | .vcmpNe _ _ _ a b => groupAligned n a && groupAligned n b
  | .vcmpLt _ _ _ a b => groupAligned n a && groupAligned n b
  | .vcmpLe _ _ _ a b => groupAligned n a && groupAligned n b
  | .vsel _ d a b _ _ => groupAligned n d && groupAligned n a && groupAligned n b
  | .vcvt _ _ d a _ _ _ => groupAligned n d && groupAligned n a
  | .vredAdd _ _ d a => groupAligned n d && groupAligned n a
  | .vredMin _ _ d a => groupAligned n d && groupAligned n a
  | .vredMax _ _ d a => groupAligned n d && groupAligned n a
  | .vaddInt _ _ d a b => groupAligned n d && groupAligned n a && b.aligned n
  | .vsubInt _ _ d a b => groupAligned n d && groupAligned n a && b.aligned n
  | .vand _ _ d a b => groupAligned n d && groupAligned n a && b.aligned n
  | .vor _ _ d a b => groupAligned n d && groupAligned n a && b.aligned n
  | .vxor _ _ d a b => groupAligned n d && groupAligned n a && b.aligned n
  | .vshl _ _ d a b => groupAligned n d && groupAligned n a && b.aligned n
  | .vshr _ _ d a b => groupAligned n d && groupAligned n a && b.aligned n
  | .vsar _ _ d a b => groupAligned n d && groupAligned n a && b.aligned n
  | .vminInt _ _ d a b => groupAligned n d && groupAligned n a && b.aligned n
  | .vmaxInt _ _ d a b => groupAligned n d && groupAligned n a && b.aligned n
  | .vadds _ _ d a b => groupAligned n d && groupAligned n a && b.aligned n
  | .vsubs _ _ d a b => groupAligned n d && groupAligned n a && b.aligned n
  | .vcmpEqInt _ _ _ a b => groupAligned n a && b.aligned n
  | .vcmpNeInt _ _ _ a b => groupAligned n a && b.aligned n
  | .vcmpLtInt _ _ _ a b => groupAligned n a && b.aligned n
  | .vcmpLeInt _ _ _ a b => groupAligned n a && b.aligned n
  | .vmulInt _ _ d a b => groupAligned n d && groupAligned n a && groupAligned n b
  | .vmulh _ _ d a b => groupAligned n d && groupAligned n a && groupAligned n b
  | .vmac _ _ d a b => groupAligned n d && groupAligned n a && groupAligned n b
  | .vsat _ _ d a _ => groupAligned n d && groupAligned n a
  | .vdot4 _ _ d a b => groupAligned n d && groupAligned n a && groupAligned n b
  | .vdot2 _ _ d a b => groupAligned n d && groupAligned n a && groupAligned n b
  | .vcmul _ _ d a b _ => groupAligned n d && groupAligned n a && groupAligned n b
  | .vcmac _ _ d a b _ => groupAligned n d && groupAligned n a && groupAligned n b
  | .vconj _ _ d a => groupAligned n d && groupAligned n a
  | .vbfly _ _ d a b c => groupAligned (2 * n) d && groupAligned n a && groupAligned n b && groupAligned n c
  | .vbflys _ _ d a b c => groupAligned (2 * n) d && groupAligned n a && groupAligned n b && groupAligned n c
  | .vperm _ _ d a _ => groupAligned n d && groupAligned n a
  | .vshuf _ _ d a b _ => groupAligned n d && groupAligned n a && groupAligned n b
  | .vrot _ _ d a _ => groupAligned n d && groupAligned n a
  | .vbcast _ _ d a _ => groupAligned n d && groupAligned n a
  | .vmov _ d a _ => groupAligned n d && groupAligned n a
  | .vins _ _ d _ _ => groupAligned n d
  | .vext _ _ _ a _ => groupAligned n a
  | .vsplat _ _ d _ => groupAligned n d
  | .jseed _ _ d _ => groupAligned n d
  | .jext _ _ d a _ => groupAligned n d && groupAligned n a
  | .jplane _ _ d a _ _ => groupAligned n d && groupAligned n a
  | .vld _ d _ _ => groupAligned n d
  | .vst _ _ _ c => groupAligned n c
  | .vgather _ _ d _ _ _ => groupAligned n d
  | .vscatter _ _ _ _ c _ => groupAligned n c
  | _ => true

/-- The privilege an operation needs (07_system_isa R192): none, group A, a bit of KPERM, or group S. -/
inductive Need where
  | none | groupA | kperm (bit : Nat) | groupS
  deriving DecidableEq, Repr

/-- The special registers marked PRV (02_scalar R45). -/
def prvIndex (i : BitVec 10) : Bool := i == 0 || i == 12 || (decide (0x20 ≤ i.toNat) && decide (i.toNat ≤ 0x23))

/-- The operations marked P (01_encoding R31). -/
def Instr.need : Instr → Need
  | .mfs _ _ idx => if prvIndex idx then .groupA else .none
  | .mts _ _ idx => if prvIndex idx then .groupA else .none
  | .mtsWp _ _ => .groupA
  | .halt => .groupS
  | .eret => .groupA
  | .sysr _ _ _ => .kperm 0
  | .sysw _ _ _ => .kperm 0
  | .tlbinv _ _ _ _ _ => .kperm 1
  | .lflush _ _ _ _ _ => .kperm 1
  | .l2cfg _ _ _ _ _ => .kperm 2
  | .mscrub _ _ _ _ => .kperm 3
  | .mspare _ _ _ _ => .kperm 3
  | .mrmapRead _ _ _ _ _ => .kperm 3
  | .mrmapWrite _ _ _ _ _ => .kperm 3
  | .mrmapInvalidate _ _ _ _ _ => .kperm 3
  | .mrmapSpareBitmap _ _ _ _ _ => .kperm 3
  | .mliveNotLive _ _ _ _ => .kperm 3
  | .mliveLive _ _ _ _ => .kperm 3
  | .msave _ _ _ => .kperm 4
  | .bind _ _ _ _ => .groupS
  | .gswitchCancel _ _ _ _ => .groupS
  | .gswitchArm _ _ _ _ => .groupS
  | _ => .none

/-- The major of an instruction; FILL and events have none and count as major 0. -/
def Instr.major (i : Instr) : Nat := match i.toRaw with | some x => x.maj.toNat | none => 0

/-- The majors the Belfry cores implement (01_encoding R33). -/
def belfryMajor (m : Nat) : Bool := decide (m < 0x20) || (decide (0x70 ≤ m) && decide (m ≤ 0x7A))

namespace Machine.State

/-- Whether the core is at privileged level for a need (07_system_isa R192). -/
def privileged (s : State) : Need → Bool
  | .none => true
  | .groupA => decide (s.core.priv = 2) || decide (s.core.priv = 1)
  | .kperm b => decide (s.core.priv = 2) || (decide (s.core.priv = 1) && s.kperm.getLsbD b)
  | .groupS => decide (s.core.priv = 2)

end Machine.State

end Sys2Proof
end

