-- ==== Sys2Proof/Machine/Flags.lean ====
section
/-!
DEFINITION. The IEEE flags: the flag set CF of 00_scope R14, its places in FCSR (02_scalar R47) and in JFLAGS (R48).
-/

namespace Sys2Proof.Machine

open Sys2Proof

/-- A set of IEEE flags in the order of FCSR<12:8>: NV, DZ, OF, UF, NX from bit 4 down. -/
abbrev Flags := BitVec 5

namespace Flags
def nx : Flags := 1
def uf : Flags := 2
def of : Flags := 4
def dz : Flags := 8
def nv : Flags := 16
end Flags

namespace State

/-- OR flags into FCSR<12:8> (02_scalar R47). -/
def raise (s : State) (f : Flags) : State := s.setWord Ws.fcsr (s.word Ws.fcsr ||| (f.setWidth 64 <<< 8))

/-- OR flags into the flags of plane p in JFLAGS (04_vector R111). -/
def raisePlane (s : State) (p : Nat) (f : Flags) : State :=
  s.setWord Ws.jflags (s.word Ws.jflags ||| (f.setWidth 64 <<< (8 * p)))

/-- OR the flags of planes 0, 1, … into JFLAGS. -/
def raisePlanes (s : State) : Nat → List Flags → State
  | _, [] => s
  | p, f :: fs => raisePlanes (s.raisePlane p f) (p + 1) fs

/-- FCSR.RM (02_scalar R47). -/
def rm (s : State) : Nat := ((s.word Ws.fcsr) &&& 7).toNat

/-- The flags of a plane in JFLAGS. -/
def planeFlags (p : Nat) : Word := 0x1F <<< (8 * p)

/-- JCLR: clear the flags of each plane whose mask bit is 1 (04_vector R133). -/
def clearFlags (s : State) (mask : BitVec 8) : State :=
  s.setWord Ws.jflags ((List.range 8).foldl
    (fun (x : Word) p => if mask.getLsbD p then x &&& ~~~(planeFlags p) else x) (s.word Ws.jflags))

end State

end Sys2Proof.Machine
end

