-- ==== Sys2Proof/Machine/Run.lean ====
section
/-!
DEFINITION. Running one instruction: the checks of R30 steps 3 to 5 that depend on the state, the scoreboard, retiring
(INSTRET, the repetition of 02_scalar R79, the program counter), and taking the trap an instruction raises.
-/

namespace Sys2Proof.Machine

open Sys2Proof

/-! ## The repetition (02_scalar R78-R81) -/

namespace Rep
def active (r : Word) : Bool := r.getLsbD 63
def index (r : Word) : Nat := (r.extractLsb' 56 4).toNat
def lenM1 (r : Word) : Nat := (r.extractLsb' 52 4).toNat
def stride (r : Word) : Nat := (r.extractLsb' 47 5).toNat
def mask (r : Word) : BitVec 4 := r.extractLsb' 43 4
def kmod (r : Word) : Nat := (r.extractLsb' 32 5).toNat
def remain (r : Word) : BitVec 32 := r.extractLsb' 0 32

/-- REP_STATE at the start of a repetition (R79). -/
def start (lenM1 : BitVec 4) (stride : BitVec 5) (mask : BitVec 4) (count : BitVec 32) : Word :=
  (8 : BitVec 4) ++ (0 : BitVec 4) ++ lenM1 ++ stride ++ mask ++ (0 : BitVec 6) ++ (0 : BitVec 5) ++ count

/-- REP_STATE and the PC after a body instruction retires (R79): `base` is REP_BASE, `next` the address after it. -/
def step (r base next : Word) : Word × Word :=
  if index r = lenM1 r then
    if remain r = 1 then (0, next)
    else
      let k := BitVec.ofNat 64 ((kmod r + 1) % 32)
      ((r &&& 0x80FFFFE000000000) ||| (k <<< 32) ||| ((remain r - 1).setWidth 64), base)
  else (r + 0x0100000000000000, next)

/-- A masked operand field of a body instruction in iteration k (R78). -/
def field (r : Word) (bit : Nat) (v : BitVec 6) : BitVec 6 :=
  if (mask r).getLsbD bit ∧ v.getLsbD 5 then (1#1 ++ BitVec.ofNat 5 ((v.toNat - 32 + kmod r * stride r) % 32)) else v

/-- The stagger of a body instruction (R78). -/
def stagger (r : Word) (x : Raw) : Raw :=
  if active r then { x with d := field r 0 x.d, a := field r 1 x.a, b := field r 2 x.b, c := field r 3 x.c } else x

/-- An operand field as it was before the stagger. -/
def unfield (r : Word) (bit : Nat) (v : BitVec 6) : BitVec 6 :=
  if (mask r).getLsbD bit ∧ v.getLsbD 5 then (1#1 ++ BitVec.ofNat 5 ((v.toNat + 992 - kmod r * stride r) % 32)) else v

/-- A body instruction as it stands in memory. -/
def unstagger (r : Word) (x : Raw) : Raw :=
  if active r then { x with d := unfield r 0 x.d, a := unfield r 1 x.a, b := unfield r 2 x.b, c := unfield r 3 x.c } else x

end Rep

namespace State

/-- Bits 63:0 of an instruction as fetched, without the stagger of a repetition (07_system_isa R222). -/
def instrBits (s : State) (i : Instr) : Word :=
  match i.toRaw with
  | some x => (Rep.unstagger (s.word Ws.repState) x).base
  | none => i.bits

/-- The address of the body instruction n instructions after an address, FILL parcels passed over. -/
def bodyAt (s : State) : Nat → Word → Word
  | n, va => match s.fetchAt id 4194304 va with
    | .instr at_ i _ => match n with
      | 0 => at_
      | n + 1 => bodyAt s n (at_ + BitVec.ofNat 64 i.size)
    | .trap at_ _ _ => at_
    | .skip at_ _ => at_

/-- Where the current core goes on once a switch of WP has loaded a workspace (02_scalar R81): at the body instruction INDEX
from REP_BASE when a repetition is active there, else at the next instruction. -/
def resumeAt (s : State) (next : Word) : Word :=
  let r := s.word Ws.repState
  if Rep.active r then s.bodyAt (Rep.index r) (s.word Ws.repBase) else next

/-! ## Chains (02_scalar R72) -/

/-- The core index of the leader of the current core's chain. -/
def leaderIdx (s : State) : Nat := s.cur / 32 * 32 + s.core.leader.toNat

/-- The state seen by the core that decides for the current core: the leader of an attached follower, else itself. -/
def decider (s : State) : State := if s.core.follower then { s with cur := s.leaderIdx } else s

/-- Where a control decision goes: an attached follower goes where its leader went (R72). -/
def follow (s : State) (t : Word) : Word :=
  if s.core.follower && (s.coreAt s.leaderIdx).done then (s.coreAt s.leaderIdx).pc else t

/-! ## Retiring -/

/-- The record of a core whose instruction retires (R51, R72); a leader in its handler runs alone (16_traps R312). A counted
arrival of its workspace at another instruction is not resumed any more (05_memory_isa R164; assumption log 21). -/
def retiredCore (k : Core) (pc : Word) : Core :=
  { k with pc := pc, instret := k.instret + 1, status := .running, done := k.chained && k.away == 0, released := false
           bsync := k.bsync.filter fun a => a.wp != k.wp || a.pc == k.pc }

/-- An instruction of `size` bytes retires without a transfer (R51, R79). -/
def retire (s : State) (size : Nat) : State :=
  let next := s.core.pc + BitVec.ofNat 64 size
  let r := s.word Ws.repState
  if Rep.active r then
    let x := Rep.step r (s.word Ws.repBase) next
    ((s.setWord Ws.repState x.1).count 0 1).onCore fun k => retiredCore k x.2
  else (s.count 0 1).onCore fun k => retiredCore k next

/-- An instruction retires and the core goes on at an address. -/
def retireAt (s : State) (t : Word) : State := (s.count 0 1).onCore fun k => retiredCore k t

/-- An instruction retires and transfers to a target. -/
def retireTo (s : State) (t : Word) : State := (s.count 7 1).retireAt t

/-- A core waits (09_execution R243). -/
def waitOn (s : State) (w : WaitCond) : State := s.onCore fun k => { k with status := .waiting w }

/-! ## The scoreboard of COPY tokens (05_memory_isa R150, 16_traps R315) -/

/-- Word k of gate entry g: a physical read (07_system_isa R199). -/
def gateWord (s : State) (g k : Nat) : Word := s.peek 64 (s.core.gatetab.toNat % 2 ^ 44 + 64 * g + 8 * k) 8

/-- The counts of a frame word 7 (07_system_isa R200): NARGS, NRES. -/
def frameCounts (w : Word) : Nat × Nat := ((w.extractLsb' 4 4).toNat, (w.extractLsb' 8 4).toNat)

/-- w1 to wn. -/
def firstRegs (n : Nat) : List SReg := (List.range n).map fun k => BitVec.ofNat 5 (k + 1)

/-- The counts of the innermost gate frame. -/
def topCounts (s : State) : Nat × Nat := frameCounts (s.frame (s.core.gdepth.toNat - 1) 7)

/-- The scalar registers an instruction reads or writes: a gate call reads its arguments, a return reads its results, or
its abort code, and scrubs its arguments and results (07_system_isa R199, R201). -/
def sregs (s : State) (i : Instr) : List SReg :=
  match i with
  | .gcall g => firstRegs ((s.gateWord g.toNat 2).extractLsb' 60 4).toNat
  | .gret a _ => a :: firstRegs (max s.topCounts.1 s.topCounts.2)
  | _ => i.sregs

/-- The scalar registers an instruction reads. -/
def sources (s : State) (i : Instr) : List SReg :=
  match i with
  | .gcall g => firstRegs ((s.gateWord g.toNat 2).extractLsb' 60 4).toNat
  | .gret a ab => if ab = 1 then [a] else firstRegs s.topCounts.2
  | _ => i.sources

/-- The predicates an instruction reads: a gate call saves all of them (07_system_isa R199). -/
def psources (i : Instr) : List PReg :=
  match i with
  | .gcall _ => (List.range 7).map fun k => BitVec.ofNat 3 (k + 1)
  | _ => i.psources

/-- Whether the word of the live workspace at an offset lies in a group of vector registers that begins at one of a list. -/
def inGroup (s : State) (rs : List VReg) (off : Nat) : Bool :=
  rs.any fun r => decide (r.toNat ≤ (off - 0x100) / 32) && decide ((off - 0x100) / 32 < r.toNat + groupSize s.jet)

/-- Whether it holds one of a list of predicates. -/
def inPreds (ps : List PReg) (off : Nat) : Bool := ps.any fun r => r != 0 && decide (r.toNat / 2 = (off - 0x500) / 8)

/-- The workspace word of a special register marked "ws" in R45. -/
def specialOffset (n : Nat) : Nat :=
  if n = 1 then Ws.ssp else if n = 2 then Ws.ssl else if n = 3 then Ws.jctl else if n = 4 then Ws.jflags
  else if n = 5 then Ws.fcsr else if n = 12 then Ws.ctx else if n = 19 then Ws.wake else if n = 20 then Ws.scope
  else if n = 22 then Ws.bwin else if 24 ≤ n ∧ n ≤ 31 then Ws.tl (n - 24) else Ws.tcause + 8 * (n - 32)

/-- The workspace word an instruction reads or writes as a special register (02_scalar R44). -/
def specialRead : Instr → Option Nat
  | .mfs _ _ idx => some (specialOffset idx.toNat)
  | _ => none
def specialWritten : Instr → Option Nat
  | .mts _ _ idx => some (specialOffset idx.toNat)
  | _ => none

/-- Whether an instruction reads FCSR: for its rounding mode, or to OR flags into it (02_scalar R47). -/
def readsFcsr (i : Instr) : Bool :=
  match i with
  | .fneg _ _ _ _ | .fabs _ _ _ _ | .fclass _ _ _ _ | .vmin _ _ _ _ _ | .vmax _ _ _ _ _ | .vneg _ _ _ _ | .vabs _ _ _ _ => false
  | _ => [0x10, 0x11, 0x12, 0x13, 0x20, 0x21, 0x22, 0x23, 0x25, 0x26, 0x2E, 0x66].contains i.major || (match i with
    | .mst _ _ _ _ _ _ _ _ => true
    | _ => false)

/-- Whether an instruction reads JFLAGS, to OR flags into it or to clear some (02_scalar R48). -/
def readsJflags (i : Instr) : Bool :=
  match i with
  | .vneg _ _ _ _ | .vabs _ _ _ _ | .vsel _ _ _ _ _ _ => false
  | .jclr _ _ => true
  | _ => decide (0x20 ≤ i.major) && decide (i.major ≤ 0x26)

/-- Whether an instruction reads a word of the live workspace after its registers: the translation context and the repetition
serve every instruction, SAVED_PC, TVAL, TJRNL and the reserved words none but MFS. -/
def readsControl (s : State) (i : Instr) (off : Nat) : Bool :=
  specialRead i == some off ||
    (if off = Ws.jctl then decide (0x20 ≤ i.major) && decide (i.major < 0x40)
     else if off = Ws.jflags then readsJflags i
     else if off = Ws.fcsr then readsFcsr i
     else if off = Ws.ctx ∨ off = Ws.repState then true
     else if off = Ws.repBase then Rep.active (s.word Ws.repState)
     else match i with
       | .eret => off == Ws.tcause || off == Ws.tpc
       | .pushm _ _ => off == Ws.ssp || off == Ws.ssl
       | .popm _ _ => off == Ws.ssp
       | .wait _ _ _ | .halt => off == Ws.wake
       | .fence _ a _ => a == 0 && off == Ws.scope
       | .tlwait _ k _ => off == Ws.tl k.toNat
       | .tlread _ _ k _ _ => off == Ws.tl k.toNat
       | .copy _ _ _ _ _ _ bar tlk tls => (bar == 1 && off == Ws.bwin) || (tls == 1 && off == Ws.tl tlk.toNat)
       | .copyh _ _ _ _ _ _ bar tlk tls _ => (bar == 1 && off == Ws.bwin) || (tls == 1 && off == Ws.tl tlk.toNat)
       | .binit _ _ _ | .barrive _ _ _ | .bwait _ _ _ | .bsync _ _ | .bstat _ _ _ | .rechain _ => off == Ws.bwin
       | _ => false)

/-- Whether an instruction reads the word of the live workspace at an offset (R222 SOFT): a scalar register, a vector
register of a group, a predicate, or one of the words after them. -/
def readsWord (s : State) (i : Instr) (off : Nat) : Bool :=
  if off < 0x100 then (s.sources i).any fun r => r != 0 && decide (r.toNat = off / 8)
  else if off < 0x500 then s.inGroup i.vsources off
  else if off < 0x520 then inPreds (psources i) off
  else s.readsControl i off

/-- Whether an instruction reads or writes it (16_traps R315). -/
def namesWord (s : State) (i : Instr) (off : Nat) : Bool :=
  if off < 0x100 then (s.sregs i).any fun r => decide (r.toNat = off / 8)
  else s.readsWord i off || (if off < 0x500 then s.inGroup i.written.1 off else if off < 0x520 then inPreds i.written.2 off
    else specialWritten i == some off)

/-- Whether an instruction reads a word of the gate frames (07_system_isa R200): a return reads the top frame; EXIT, YIELD,
LAUNCH and what a KPERM bit opens read its last word, and a gate call those of all frames. -/
def readsFrame (s : State) (i : Instr) (at_ : Nat) : Bool :=
  let base := (s.core.kres.extractLsb' 0 16).toNat
  let top := base + 64 * (s.core.gdepth.toNat - 1)
  s.core.gdepth != 0 && decide (base ≤ at_) && decide (at_ < top + 64) && (match i with
    | .gret _ _ => decide (top ≤ at_)
    | .gcall _ => decide (56 ≤ (at_ - base) % 64)
    | .exit | .yield _ | .launch _ _ _ _ | .publish _ _ _ => decide (top + 56 ≤ at_)
    | _ => decide (top + 56 ≤ at_) && (match i.need with
      | .kperm _ => true
      | _ => false))

/-- The address of a token register of the current core whose copy has not landed and that an instruction reads or writes
in the live workspace (R150, 16_traps R315). -/
def pendingHere (s : State) (i : Instr) : Option Nat :=
  s.core.tokens.findSome? fun a => match a with
    | some x => if s.core.wp.toNat ≤ x ∧ s.namesWord i (x - s.core.wp.toNat) = true then some x else none
    | none => none

/-- The attached members of the chain of a leader, the leader first. -/
def attached (s : State) (l : Nat) : List Nat :=
  (List.range ((s.coreAt l).widthM1.toNat + 1)).filterMap fun i =>
    let k := s.coreAt (l + i)
    if i = 0 ∨ (!k.detached && k.status != .exited) then some (l + i) else none

/-- The core and the token register an instruction waits for: in a chain, of every attached member, since it issues once the
registers are ready in all of them (R72). -/
def pendingToken (s : State) (i : Instr) : Option (Nat × Nat) :=
  if s.core.chained && s.core.pos == 0 && s.core.away == 0 then
    (s.attached s.cur).findSome? fun c => (({ s with cur := c } : State).pendingHere i).map fun a => (c, a)
  else (s.pendingHere i).map fun a => (s.cur, a)

/-- Reading or writing a landed token register acquires its copy's writes (15_consistency R299). -/
def acquireTokens (s : State) (i : Instr) : State :=
  let hit (x : Nat × Nat) : Bool := decide (s.core.wp.toNat ≤ x.1) && s.namesWord i (x.1 - s.core.wp.toNat)
  match s.core.landed.filter hit with
  | [] => s
  | xs =>
    let s := s.onCore fun k => { k with landed := k.landed.filter fun x => !hit x }
    s.acquire (xs.foldl (fun m x => max m x.2) 0)

/-- A corrupted word of the live workspace that the guard of an instruction reads (07_system_isa R222 SOFT). -/
def softGuard (s : State) (i : Instr) : Option (Nat × Nat) :=
  match s.core.soft with
  | [] => none
  | xs => xs.find? fun x =>
    (x.1 == 1 && decide (s.core.wp.toNat + 0x500 ≤ x.2) && decide (x.2 < s.core.wp.toNat + 0x520) &&
      inPreds (i.psources.take 1) ((x.2 - s.core.wp.toNat) / 8 * 8)) || (x.1 == 2 && Rep.active (s.word Ws.repState))

/-- A corrupted word of the live workspace, or repetition buffer, that the instruction consumes (07_system_isa R222
SOFT): the unit, the address and the mark. -/
def softHit (s : State) (i : Instr) : Option (Nat × Nat) :=
  match s.core.soft with
  | [] => none
  | xs => xs.find? fun x =>
    (x.1 == 1 && decide (s.core.wp.toNat ≤ x.2) && s.readsWord i ((x.2 - s.core.wp.toNat) / 8 * 8)) || (x.1 == 1 && s.readsFrame i x.2) ||
      (x.1 == 2 && Rep.active (s.word Ws.repState))

/-- Take SOFT at a mark, which is consumed (07_system_isa R222). -/
def takeSoft (s : State) (x : Nat × Nat) : State :=
  (s.onCore fun k => { k with soft := k.soft.erase x }).takeTrap false s.core.pc
    { code := Cause.soft, tval := BitVec.ofNat 64 (x.1 * 2 ^ 56 + x.2) }

/-- An instruction that completed has overwritten the corrupted registers it writes whole. -/
def wiped (s : State) (i : Instr) : State :=
  match s.core.soft with
  | [] => s
  | _ => s.onCore fun k => { k with soft := k.soft.filter fun x =>
      let off := (x.2 - k.wp.toNat) / 8 * 8
      !(x.1 == 1 && decide (k.wp.toNat ≤ x.2) &&
        (specialWritten i == some off || (i.dests.1.any fun r => decide (8 * r.toNat = off)) || (i.dests.2.any fun r => decide (r.toNat = (off - 0x100) / 32 ∧ 0x100 ≤ off)))) }

/-- JEXT and JPLANE name planes up to J only (04_vector R133). -/
def planesOk (j : Nat) : Instr → Bool
  | .jext _ _ _ _ k => decide (k.toNat ≤ j)
  | .jplane _ _ _ _ k m => decide (k.toNat ≤ j) && decide (m.toNat ≤ j)
  | _ => true

/-- The trap an instruction raises before its guard is looked at (01_encoding R30 steps 3 and 4), for the checks that
depend on the state. -/
def preTrap (s : State) (i : Instr) : Option Trap :=
  if s.isBelfry ∧ belfryMajor i.major = false then some { code := Cause.illegal, tval := s.instrBits i }
  else if i.groupsOk (groupSize s.jet) = false ∨ planesOk s.jet i = false then some { code := Cause.illegal, tval := s.instrBits i }
  else if s.privileged i.need = false then some { code := Cause.priv, tval := s.instrBits i }
  else none

/-- An instruction raises a trap: TPC is its own address (R222). -/
def raiseTrap (s : State) (t : Trap) : State := s.takeTrap false s.core.pc t

end State

/-- A completed instruction wipes the marks of what it wrote. -/
def Res.wiped (i : Instr) : Res → Res
  | .done s => .done (s.wiped i)
  | x => x

/-- The next state an outcome of an instruction of `size` bytes gives. -/
def Res.next (size : Nat) : Res → State
  | .done s => s.retire size
  | .jump t s => s.retireTo t
  | .goto t s => s.retireAt t
  | .asIs s => s
  | .trap t s => s.raiseTrap t
  | .wait w s => s.waitOn w

/-- The module has power and the boot ROM did not halt it (22_host_compat R380, R386). -/
def powered (s : State) (o : Out) : Out :=
  if s.power = false then .fault .powerOff else if s.boot = .halted then .fault .bootHalted else o

/-- Run an instruction whose guard is already decided (R29, R30): the checks, the scoreboard, then its body; a guarded-off
instruction only retires. -/
def instrIf (i : Instr) (g : Bool) (body : State → Res) (s : State) : Out :=
  powered s <| .next <|
    match s.preTrap i with
    | some t => s.raiseTrap t
    | none =>
      match s.pendingToken i with
      | some a => s.waitOn (.token a.1 a.2)
      | none =>
        match s.softGuard i with
        | some x => s.takeSoft x
        | none =>
          if g then
            match s.softHit i with
            | some x => s.takeSoft x
            | none => ((body (s.acquireTokens i)).wiped i).next i.size
          else (s.count 6 1).retire i.size

/-- Run an instruction guarded as a whole by Guard(0) (R29). -/
def instr (i : Instr) (g : Guard) (body : State → Res) (s : State) : Out := instrIf i (s.guardLane g 0) body s

/-- Run an instruction without a whole guard: unguardable, or guarded lane by lane. -/
def instrAll (i : Instr) (body : State → Res) (s : State) : Out := instrIf i true body s

/-- An event of the device. -/
def event (f : State → State) (s : State) : Out := powered s (.next (f s))

end Sys2Proof.Machine
end

