-- ==== Sys2Proof/Machine/Scalar.lean ====
section
/-!
DEFINITION. The integer, predicate, move and special-register instructions (02_scalar R42, R44, R45, R49, R51-R62).
-/

namespace Sys2Proof.Machine

open Sys2Proof

/-! ## Integer results (02_scalar R52) -/

/-- A 32-bit type of R52. -/
def isW32 : Ty → Bool
  | .s32 | .z32 => true
  | _ => false

/-- A signed type of R52; the default is .s64. -/
def isSigned : Ty → Bool
  | .s8 | .s16 | .s32 | .s64 | .dflt => true
  | _ => false

/-- Extend a 32-bit result to 64 bits by the type (R52). -/
def extend32 (t : Ty) (r : BitVec 32) : Word := if t = .s32 then r.signExtend 64 else r.setWidth 64

/-- An operation of width W on two operands, extended to a register (R52). -/
def intOp (t : Ty) (f : (w : Nat) → BitVec w → BitVec w → BitVec w) (a b : Word) : Word :=
  if isW32 t then extend32 t (f 32 (a.setWidth 32) (b.setWidth 32)) else f 64 a b

/-- A comparison of width W. -/
def intCmp (t : Ty) (f : (w : Nat) → BitVec w → BitVec w → Bool) (a b : Word) : Bool :=
  if isW32 t then f 32 (a.setWidth 32) (b.setWidth 32) else f 64 a b

/-- An operation of width W on one operand, zero-extended (R55). -/
def bitOp (t : Ty) (f : (w : Nat) → BitVec w → BitVec w) (a : Word) : Word :=
  if isW32 t then (f 32 (a.setWidth 32)).setWidth 64 else f 64 a

namespace Alu

def add (w : Nat) (a b : BitVec w) : BitVec w := a + b
def sub (w : Nat) (a b : BitVec w) : BitVec w := a - b
def and (w : Nat) (a b : BitVec w) : BitVec w := a &&& b
def or (w : Nat) (a b : BitVec w) : BitVec w := a ||| b
def xor (w : Nat) (a b : BitVec w) : BitVec w := a ^^^ b
def andn (w : Nat) (a b : BitVec w) : BitVec w := a &&& ~~~b
def shl (w : Nat) (a b : BitVec w) : BitVec w := a <<< (b.toNat % w)
def shr (w : Nat) (a b : BitVec w) : BitVec w := a >>> (b.toNat % w)
def sar (w : Nat) (a b : BitVec w) : BitVec w := a.sshiftRight (b.toNat % w)
def ror (w : Nat) (a b : BitVec w) : BitVec w := a.rotateRight (b.toNat % w)
/-- Less than, in a signedness. -/
def lt (sg : Bool) (w : Nat) (a b : BitVec w) : Bool := if sg then a.slt b else a.ult b
def min (sg : Bool) (w : Nat) (a b : BitVec w) : BitVec w := if lt sg w b a then b else a
def max (sg : Bool) (w : Nat) (a b : BitVec w) : BitVec w := if lt sg w a b then b else a
def mul (w : Nat) (a b : BitVec w) : BitVec w := a * b
/-- The exact value of an operand in a signedness. -/
def value (sg : Bool) (w : Nat) (a : BitVec w) : Int := if sg then a.toInt else a.toNat
/-- The high half of the exact product (R54). -/
def mulh (sg : Bool) (w : Nat) (a b : BitVec w) : BitVec w := BitVec.ofInt w (value sg w a * value sg w b / 2 ^ w)
/-- The truncated quotient; all ones for b = 0 (R54). The signed overflow case wraps to a. -/
def div (sg : Bool) (w : Nat) (a b : BitVec w) : BitVec w :=
  if b = 0 then BitVec.allOnes w else BitVec.ofInt w ((value sg w a).tdiv (value sg w b))
/-- The remainder of truncated division; a for b = 0 (R54). The signed overflow case gives 0. -/
def rem (sg : Bool) (w : Nat) (a b : BitVec w) : BitVec w :=
  if b = 0 then a else BitVec.ofInt w ((value sg w a).tmod (value sg w b))
def eq (w : Nat) (a b : BitVec w) : Bool := a == b
def ne (w : Nat) (a b : BitVec w) : Bool := a != b
def le (sg : Bool) (w : Nat) (a b : BitVec w) : Bool := !lt sg w b a
def gt (sg : Bool) (w : Nat) (a b : BitVec w) : Bool := lt sg w b a
def ge (sg : Bool) (w : Nat) (a b : BitVec w) : Bool := !lt sg w a b

/-- Leading and trailing zeros, ones, reversals (R55). -/
def leading (w : Nat) (a : BitVec w) : Nat := ((List.range w).takeWhile fun i => !a.getMsbD i).length
def trailing (w : Nat) (a : BitVec w) : Nat := ((List.range w).takeWhile fun i => !a.getLsbD i).length
def clz (w : Nat) (a : BitVec w) : BitVec w := BitVec.ofNat w (leading w a)
def ctz (w : Nat) (a : BitVec w) : BitVec w := BitVec.ofNat w (trailing w a)
def popc (w : Nat) (a : BitVec w) : BitVec w := BitVec.ofNat w ((List.range w).filter fun i => a.getLsbD i).length
def brev (w : Nat) (a : BitVec w) : BitVec w := a.reverse
def bswap (w : Nat) (a : BitVec w) : BitVec w := ofBytes w (toBytes (w / 8) a).reverse
/-- Bits pos+len-1 down to pos (R55). -/
def bext (pos len : Nat) (w : Nat) (a : BitVec w) : BitVec w := (a >>> pos) &&& BitVec.ofNat w (2 ^ len - 1)
def bins (pos len : Nat) (w : Nat) (d a : BitVec w) : BitVec w :=
  (d &&& ~~~(BitVec.ofNat w (2 ^ len - 1) <<< pos)) ||| ((a &&& BitVec.ofNat w (2 ^ len - 1)) <<< pos)

end Alu

/-! ## The shapes of the family -/

/-- w[D] := f(w[A], operand B). -/
def scalarOp (i : Instr) (g : Guard) (d a : SReg) (b : OpB) (f : Word → Word → Word) (s : State) : Out :=
  instr i g (fun s => .done (s.setReg d (f (s.reg a) (s.opB b)))) s

/-- w[D] := f(w[A]). -/
def scalarUn (i : Instr) (g : Guard) (d a : SReg) (f : Word → Word) (s : State) : Out :=
  instr i g (fun s => .done (s.setReg d (f (s.reg a)))) s

/-- A predicate value: all ones or zero (R57). -/
def predOf (c : Bool) : BitVec 32 := if c then 0xFFFFFFFF else 0

/-- p[D] := cond(w[A], operand B). -/
def scalarCmp (i : Instr) (g : Guard) (d : PReg) (a : SReg) (b : OpB) (f : Word → Word → Bool) (s : State) : Out :=
  instr i g (fun s => .done (s.setPred d (predOf (f (s.reg a) (s.opB b))))) s

/-- p[D] := f(p[A], p[B]). -/
def predOp (i : Instr) (g : Guard) (d a b : PReg) (f : BitVec 32 → BitVec 32 → BitVec 32) (s : State) : Out :=
  instr i g (fun s => .done (s.setPred d (f (s.pred a) (s.pred b)))) s

/-! ## Special registers (02_scalar R44, R45) -/

namespace State

/-- CORE_XY of a core of a dome (00_scope R5). -/
def coreXY (c : Nat) : Word :=
  let d := c / 1024
  let sp := c / 32 % 32
  let k := c % 32
  BitVec.ofNat 64 ((d / 4 * 32 + sp / 4 * 4 + k / 8) * 65536 + (d % 4 * 32 + sp % 4 * 8 + k % 8))

/-- CHAIN (R49). -/
def chainWord (k : Core) : Word :=
  (0 : BitVec 43) ++ k.leader ++ (0 : BitVec 7) ++ BitVec.ofBool k.detached ++ (0 : BitVec 2) ++ k.widthM1 ++ k.pos

/-- The values of TIME that R51 allows: within 2 ticks of the time base, and never below an earlier read. -/
def readTime (s : State) : Word × State :=
  let (x, s) := s.free
  let v := max s.core.lastTime (s.time + x.toNat % 5 - 2)
  (BitVec.ofNat 64 v, s.onCore fun k => { k with lastTime := v })

/-- The value of a special register (R45); of one marked "ws" it is its workspace word without reserved bits (00_scope R9). -/
def readSpecial (s : State) (idx : BitVec 10) : Word × State :=
  let n := idx.toNat
  if n = 0 then (s.core.wp.setWidth 64, s)
  else if n = 8 then (if s.isBelfry then s.free else (coreXY s.cur, s))
  else if n = 9 then (s.core.lcore.setWidth 64, s)
  else if n = 10 then (chainWord s.core, s)
  else if n = 11 then (s.core.priv.setWidth 64, s)
  else if n = 16 then s.readTime
  else if n = 17 then (BitVec.ofNat 64 s.clock, s)
  else if n = 18 then (s.core.instret, s)
  else if n = 19 then (s.word Ws.wake, s)
  else if n = 21 then (s.core.gdepth.setWidth 64, s)
  else (s.word (specialOffset n) &&& Ws.readMask (specialOffset n), s)

/-- MTS to a workspace word, under its write rule (R45); a wake of the same core cycle stays (R50). -/
def writeSpecial (s : State) (idx : BitVec 10) (x : Word) : State :=
  let off := specialOffset idx.toNat
  s.setWord off (Ws.filter off (s.word off) (if off = Ws.wake then x &&& ~~~s.newWakes else x))

end State

/-! ## Capabilities and the counter mix (02_scalar R61, R62) -/

/-- The capability values of R61; a Belfry core's bitmaps of majors are its own. -/
def capability (s : State) (i : Nat) : Word :=
  if i = 0x0 then 9 else if i = 0x1 then 1
  else if i = 0x4 then (if s.isBelfry then 0xFF0F03FF else 0x7FFFFF0F03FF)
  else if i = 0x5 then (if s.isBelfry then 0x07FF000000000000 else 0x07FF01FF007F01FF)
  else if i = 0x10 then 8 else if i = 0x11 then 32 else if i = 0x12 then 32 else if i = 0x13 then 8
  else if i = 0x14 then 0x800000 else if i = 0x15 then 4096 else if i = 0x16 then 0x4000 else if i = 0x17 then 256
  else if i = 0x18 then 8192 else if i = 0x19 then 16 else if i = 0x1A then 16
  else if i = 0x20 then 1 else if i = 0x21 then 0x3FF else if i = 0x22 then 128 else if i = 0x23 then 8
  else if i = 0x24 then 4 else if i = 0x25 then 4 else if i = 0x30 then 256 else if i = 0x31 then 7
  else if i = 0x32 then 0x1F else if i = 0x40 then 2300000 else if i = 0x41 then 1800000
  else if i = 0x42 then 1000000000 else if i = 0x50 then 64 else if i = 0x51 then 0x400000
  else if i = 0x52 then 0x8000000000 else if i = 0x60 then BitVec.ofNat 64 (Config.tlbEntries s.mySpire).val
  else if i = 0x61 then BitVec.ofNat 64 (Config.wsCacheBytes s.cur).val
  else if i = 0x70 then 96 else if i = 0x71 then 12 else if i = 0x72 then 16
  else 0x8000000000000000

/-- RNDC (R62). -/
def rndcMix (a b : BitVec 32) : BitVec 32 :=
  let z := a * 0x9E3779B1 + b
  let z := z ^^^ (z >>> 15)
  let z := z * 0x2C1B3C6D
  let z := z ^^^ (z >>> 12)
  let z := z * 0x297A2D39
  z ^^^ (z >>> 15)

/-- The displacement and scaled index of LEA (R59). -/
def leaSum (s : State) (a : SReg) : LeaB → Word
  | .idx b sc => s.reg a + (s.reg b <<< sc.toNat)
  | .idxDisp b sc disp => s.reg a + (s.reg b <<< sc.toNat) + disp.signExtend 64
  | .imm16 v => s.reg a + v.signExtend 64
  | .imm32 v => s.reg a + v.signExtend 64

/-! ## Meanings -/

/-- ADD (R53). -/
def execAdd (g : Guard) (t : Ty) (d a : SReg) (b : OpB) (s : State) : Out :=
  scalarOp (.add g t d a b) g d a b (intOp t Alu.add) s

/-- SUB (R53). -/
def execSub (g : Guard) (t : Ty) (d a : SReg) (b : OpB) (s : State) : Out :=
  scalarOp (.sub g t d a b) g d a b (intOp t Alu.sub) s

/-- AND (R53). -/
def execAnd (g : Guard) (t : Ty) (d a : SReg) (b : OpB) (s : State) : Out :=
  scalarOp (.and g t d a b) g d a b (intOp t Alu.and) s

/-- OR (R53). -/
def execOr (g : Guard) (t : Ty) (d a : SReg) (b : OpB) (s : State) : Out :=
  scalarOp (.or g t d a b) g d a b (intOp t Alu.or) s

/-- XOR (R53). -/
def execXor (g : Guard) (t : Ty) (d a : SReg) (b : OpB) (s : State) : Out :=
  scalarOp (.xor g t d a b) g d a b (intOp t Alu.xor) s

/-- ANDN (R53). -/
def execAndn (g : Guard) (t : Ty) (d a : SReg) (b : OpB) (s : State) : Out :=
  scalarOp (.andn g t d a b) g d a b (intOp t Alu.andn) s

/-- SHL (R53). -/
def execShl (g : Guard) (t : Ty) (d a : SReg) (b : OpB) (s : State) : Out :=
  scalarOp (.shl g t d a b) g d a b (intOp t Alu.shl) s

/-- SHR (R53). -/
def execShr (g : Guard) (t : Ty) (d a : SReg) (b : OpB) (s : State) : Out :=
  scalarOp (.shr g t d a b) g d a b (intOp t Alu.shr) s

/-- SAR (R53). -/
def execSar (g : Guard) (t : Ty) (d a : SReg) (b : OpB) (s : State) : Out :=
  scalarOp (.sar g t d a b) g d a b (intOp t Alu.sar) s

/-- ROR (R53). -/
def execRor (g : Guard) (t : Ty) (d a : SReg) (b : OpB) (s : State) : Out :=
  scalarOp (.ror g t d a b) g d a b (intOp t Alu.ror) s

/-- MIN (R53). -/
def execMin (g : Guard) (t : Ty) (d a : SReg) (b : OpB) (s : State) : Out :=
  scalarOp (.min g t d a b) g d a b (intOp t (Alu.min (isSigned t))) s

/-- MAX (R53). -/
def execMax (g : Guard) (t : Ty) (d a : SReg) (b : OpB) (s : State) : Out :=
  scalarOp (.max g t d a b) g d a b (intOp t (Alu.max (isSigned t))) s

/-- MUL (R54). -/
def execMul (g : Guard) (t : Ty) (d a : SReg) (b : OpB) (s : State) : Out :=
  scalarOp (.mul g t d a b) g d a b (intOp t Alu.mul) s

/-- MULH (R54). -/
def execMulh (g : Guard) (t : Ty) (d a : SReg) (b : OpB) (s : State) : Out :=
  scalarOp (.mulh g t d a b) g d a b (intOp t (Alu.mulh (isSigned t))) s

/-- DIV (R54). -/
def execDiv (g : Guard) (t : Ty) (d a : SReg) (b : OpB) (s : State) : Out :=
  scalarOp (.div g t d a b) g d a b (intOp t (Alu.div (isSigned t))) s

/-- REM (R54). -/
def execRem (g : Guard) (t : Ty) (d a : SReg) (b : OpB) (s : State) : Out :=
  scalarOp (.rem g t d a b) g d a b (intOp t (Alu.rem (isSigned t))) s

/-- CLZ (R55). -/
def execClz (g : Guard) (t : Ty) (d a : SReg) (s : State) : Out :=
  scalarUn (.clz g t d a) g d a (bitOp t Alu.clz) s

/-- CTZ (R55). -/
def execCtz (g : Guard) (t : Ty) (d a : SReg) (s : State) : Out :=
  scalarUn (.ctz g t d a) g d a (bitOp t Alu.ctz) s

/-- POPC (R55). -/
def execPopc (g : Guard) (t : Ty) (d a : SReg) (s : State) : Out :=
  scalarUn (.popc g t d a) g d a (bitOp t Alu.popc) s

/-- BREV (R55). -/
def execBrev (g : Guard) (t : Ty) (d a : SReg) (s : State) : Out :=
  scalarUn (.brev g t d a) g d a (bitOp t Alu.brev) s

/-- BSWAP (R55). -/
def execBswap (g : Guard) (t : Ty) (d a : SReg) (s : State) : Out :=
  scalarUn (.bswap g t d a) g d a (bitOp t Alu.bswap) s

/-- BEXT (R55). -/
def execBext (g : Guard) (t : Ty) (d a : SReg) (pos lenM1 : BitVec 6) (s : State) : Out :=
  scalarUn (.bext g t d a pos lenM1) g d a (bitOp t (Alu.bext pos.toNat (lenM1.toNat + 1))) s

/-- BINS (R55): the third source is w[D]. -/
def execBins (g : Guard) (t : Ty) (d a : SReg) (pos lenM1 : BitVec 6) (s : State) : Out :=
  instr (.bins g t d a pos lenM1) g (fun s => .done (s.setReg d (
    if isW32 t then (Alu.bins pos.toNat (lenM1.toNat + 1) 32 ((s.reg d).setWidth 32) ((s.reg a).setWidth 32)).setWidth 64
    else Alu.bins pos.toNat (lenM1.toNat + 1) 64 (s.reg d) (s.reg a)))) s

/-- SEXT (R56). -/
def execSext (g : Guard) (t : Ty) (d a : SReg) (s : State) : Out :=
  scalarUn (.sext g t d a) g d a (fun x => (x.setWidth t.bits).signExtend 64) s

/-- ZEXT (R56). -/
def execZext (g : Guard) (t : Ty) (d a : SReg) (s : State) : Out :=
  scalarUn (.zext g t d a) g d a (fun x => (x.setWidth t.bits).setWidth 64) s

/-- CMP.EQ (R57). -/
def execCmpEq (g : Guard) (t : Ty) (d : PReg) (a : SReg) (b : OpB) (s : State) : Out :=
  scalarCmp (.cmpEq g t d a b) g d a b (intCmp t Alu.eq) s

/-- CMP.NE (R57). -/
def execCmpNe (g : Guard) (t : Ty) (d : PReg) (a : SReg) (b : OpB) (s : State) : Out :=
  scalarCmp (.cmpNe g t d a b) g d a b (intCmp t Alu.ne) s

/-- CMP.LT (R57). -/
def execCmpLt (g : Guard) (t : Ty) (d : PReg) (a : SReg) (b : OpB) (s : State) : Out :=
  scalarCmp (.cmpLt g t d a b) g d a b (intCmp t (Alu.lt (isSigned t))) s

/-- CMP.LE (R57). -/
def execCmpLe (g : Guard) (t : Ty) (d : PReg) (a : SReg) (b : OpB) (s : State) : Out :=
  scalarCmp (.cmpLe g t d a b) g d a b (intCmp t (Alu.le (isSigned t))) s

/-- CMP.GT (R57). -/
def execCmpGt (g : Guard) (t : Ty) (d : PReg) (a : SReg) (b : OpB) (s : State) : Out :=
  scalarCmp (.cmpGt g t d a b) g d a b (intCmp t (Alu.gt (isSigned t))) s

/-- CMP.GE (R57). -/
def execCmpGe (g : Guard) (t : Ty) (d : PReg) (a : SReg) (b : OpB) (s : State) : Out :=
  scalarCmp (.cmpGe g t d a b) g d a b (intCmp t (Alu.ge (isSigned t))) s

/-- PAND (R58). -/
def execPand (g : Guard) (d a b : PReg) (s : State) : Out :=
  predOp (.pand g d a b) g d a b (fun x y => x &&& y) s

/-- POR (R58). -/
def execPor (g : Guard) (d a b : PReg) (s : State) : Out :=
  predOp (.por g d a b) g d a b (fun x y => x ||| y) s

/-- PXOR (R58). -/
def execPxor (g : Guard) (d a b : PReg) (s : State) : Out :=
  predOp (.pxor g d a b) g d a b (fun x y => x ^^^ y) s

/-- PANDN (R58). -/
def execPandn (g : Guard) (d a b : PReg) (s : State) : Out :=
  predOp (.pandn g d a b) g d a b (fun x y => x &&& ~~~y) s

/-- PNOT (R58). -/
def execPnot (g : Guard) (d a : PReg) (s : State) : Out :=
  instr (.pnot g d a) g (fun s => .done (s.setPred d (~~~(s.pred a)))) s

/-- PMOV (R58). -/
def execPmov (g : Guard) (d a : PReg) (s : State) : Out :=
  instr (.pmov g d a) g (fun s => .done (s.setPred d (s.pred a))) s

/-- PSET (R58). -/
def execPset (g : Guard) (d : PReg) (imm : BitVec 32) (s : State) : Out :=
  instr (.pset g d imm) g (fun s => .done (s.setPred d imm)) s

/-- MOVI (R59). -/
def execMovi (g : Guard) (d : SReg) (imm : MoviImm) (s : State) : Out :=
  instr (.movi g d imm) g (fun s => .done (s.setReg d imm.value)) s

/-- MOV (R59). -/
def execMov (g : Guard) (d a : SReg) (s : State) : Out :=
  instr (.mov g d a) g (fun s => .done (s.setReg d (s.reg a))) s

/-- LEA (R59). -/
def execLea (g : Guard) (d a : SReg) (b : LeaB) (s : State) : Out :=
  instr (.lea g d a b) g (fun s => .done (s.setReg d (leaSum s a b))) s

/-- SEL (R59). -/
def execSel (g : Guard) (d a b : SReg) (c : PReg) (s : State) : Out :=
  instr (.sel g d a b c) g (fun s => .done (s.setReg d (if (s.pred c).getLsbD 0 then s.reg a else s.reg b))) s

/-- QCAP (R60). -/
def execQcap (g : Guard) (d : SReg) (b : OpB64) (s : State) : Out :=
  instr (.qcap g d b) g (fun s => .done (s.setReg d (capability s (s.opB64 b).toNat))) s

/-- RNDC (R62). -/
def execRndc (g : Guard) (d a b : SReg) (s : State) : Out :=
  instr (.rndc g d a b) g
    (fun s => .done (s.setReg d ((rndcMix ((s.reg a).setWidth 32) ((s.reg b).setWidth 32)).setWidth 64))) s

/-- MFS (R44). -/
def execMfs (g : Guard) (d : SReg) (idx : BitVec 10) (s : State) : Out :=
  instr (.mfs g d idx) g (fun s => let (x, s) := s.readSpecial idx; .done (s.setReg d x)) s

/-- MTS (R44). -/
def execMts (g : Guard) (a : SReg) (idx : BitVec 10) (s : State) : Out :=
  instr (.mts g a idx) g (fun s => .done (s.writeSpecial idx (s.reg a))) s

/-- MTS WP (R42): the next instruction runs in the new workspace, 52 core cycles later. A repetition that is active in
the workspace entered goes on at the unchanged PC (R81, assumption log 9). -/
def execMtsWp (g : Guard) (a : SReg) (s : State) : Out :=
  instr (.mtsWp g a) g (fun s =>
    let x := s.reg a
    if x &&& 0xFF ≠ 0 then .trap { code := Cause.misalign, tval := x } s
    else if 0x3A00 < x.toNat then .trap { code := Cause.loadFault, tval := x } s
    else
      let t := s.onCore fun k => { k with wp := x.setWidth 14, holdUntil := s.clock + 52 }
      .goto (t.resumeAt (s.core.pc + 8)) t) s

end Sys2Proof.Machine
end

