-- ==== Sys2Proof/Machine/Wait.lean ====
section
/-!
DEFINITION. When a wait is over (05_memory_isa R164, 09_execution R243, R251), and the asynchronous traps
(16_traps R313, R314).
-/

namespace Sys2Proof.Machine

open Sys2Proof

/-- Whether an operation is a TGEMM. -/
def GEntry.isGemm (e : GEntry) : Bool :=
  match e.op with
  | .tgemm _ _ _ _ _ _ _ => true
  | _ => false

namespace State

/-! ## Timelines (05_memory_isa R152) -/

/-- A timeline of a Spire: a Graver queue context or a copy context. -/
def timeline (s : State) (graver : Bool) (sp n : Nat) : Timeline :=
  if graver then (nth (s.spireAt sp).graver.ctx n {}).tl else nth (s.spireAt sp).copyCtx n {}

/-- A barrier object of a dome. -/
def barrierAt (s : State) (d obj : Nat) : BObj := Tab.get (s.domeAt d).barriers obj {}

/-- The number of free journal entries (R139). -/
def freeEntries (s : State) : Nat := (s.core.journal.filter fun e => e.st == 0).length

/-- Whether every posted operation of the core is acknowledged or refused (R157, R196). -/
def drained (s : State) : Bool := s.core.journal.all fun e => e.st != 1

/-- Whether every posted store of the core is granted or refused (R296). -/
def storesSettled (s : State) : Bool := s.core.journal.all fun e => !(e.st == 1 && e.kind == 0)

/-- Whether the kinds a FENCE selects have completed (R157). -/
def fenced (s : State) (kinds : BitVec 5) : Bool :=
  (!kinds.getLsbD 0 || s.drained) && (!kinds.getLsbD 1 || s.core.copies == 0) &&
    (!kinds.getLsbD 2 || (List.range 4).all fun c => decide (nth s.core.lastOp c 0 ≤ (s.timeline true s.mySpire c).comp)) &&
    (!kinds.getLsbD 3 || (s.core.resv.isNone && s.core.journal.all fun e => !(e.st == 1 && e.notify)))

/-- Whether the queue of a context has a free entry: an operation leaves it when it starts (R166, R167, R189). -/
def queueRoom (s : State) (sp c : Nat) : Bool :=
  decide (((nth (s.spireAt sp).graver.ctx c {}).queue.filter fun e => !e.started).length < 32)

/-- Whether a core presents a matrix instruction that can be accepted (11_matrix_engine R256): the port chooses when every core that
issues in a core cycle has presented, at the end of that cycle (assumption log 86). -/
def presents (s : State) (c : Nat) : Bool :=
  match (s.coreAt c).status with
  | .waiting (.queue sp q since) => decide (since < s.domeClock (sp / 32)) && s.queueRoom sp q
  | _ => false

/-- The port's cyclic order of the cores of a Spire, after the core accepted last (R256). -/
def portOrder (s : State) (sp : Nat) : List Nat :=
  (List.range 32).map fun k => sp * 32 + ((s.spireAt sp).graver.portLast + 1 + k) % 32

/-- Whether the port accepts the current core's instruction of a context: it has accepted none in this core cycle, the queue has
room, and the core is the first in the port's order that presents one that can be accepted (R256). -/
def portTurn (s : State) (sp q : Nat) : Bool :=
  (s.spireAt sp).graver.acceptAt != some (s.domeClock (sp / 32)) && s.queueRoom sp q && (s.portOrder sp).find? s.presents == some s.cur

/-- The wait of the current core for the port: it presents its instruction since this core cycle, or since it first did (R256). -/
def presenting (s : State) (sp q : Nat) : WaitCond :=
  match s.core.status with
  | .waiting (.queue _ _ since) => .queue sp q since
  | _ => .queue sp q (s.domeClock (sp / 32))

/-- Whether a Graver has nothing to do (R219). -/
def graverIdle (s : State) (sp : Nat) : Bool := (s.spireAt sp).graver.ctx.all fun c => c.queue.isEmpty

/-- The Spires that a REACH of the current core selects (07_system_isa R210). -/
def reaches (s : State) (reach sp : Nat) : Bool :=
  match reach with
  | 0 => sp == s.mySpire
  | 1 => sp / 32 == s.myDome
  | _ => true

/-- Whether an accepted operation of a Graver still uses a translation of a tenant (R210): of one context or of all, of every
page size that maps one address or of all. -/
def graverUses (g : Graver) (tenant : Nat) (ctx : Option (BitVec 16)) (va : Option Nat) : Bool :=
  g.ctx.any fun c => c.queue.any fun e => e.tenant == tenant && e.pages.any fun x =>
    (match ctx with | some n => x.ctx == n | none => true) &&
      (match va with | some a => x.va * 65536 / x.size == a / x.size | none => true)

/-- Whether an accepted operation in reach still uses translations that a TLBINV removes (R210); those of a partition switched
out are in reach of the whole device. A copy translates each byte as it moves it. -/
def usesTranslation (s : State) (reach tenant : Nat) (ctx : Option (BitVec 16)) (va : Option Nat) : Bool :=
  (s.spires.any fun (px : Nat × Spire) => s.reaches reach px.1 && graverUses px.2.graver tenant ctx va) ||
    (reach == 2 && s.saved.any fun v => v.spires.any fun x => graverUses x.graver tenant ctx va)

/-- The waits that make a core WAITING (09_execution R243); at the others it is RUNNING, inside its instruction. -/
def listed : WaitCond → Bool
  | .token _ _ | .tokenTable | .journal _ | .barrier _ _ _ | .rechain _ _ _ | .timeline _ _ _ _ | .wake _ | .channel _ _ | .held _
  | .yield | .halt | .pins _ _ | .translation _ _ _ _ => true
  | .stores sync => sync
  | .fence _ publish => publish
  | .overlap _ | .drain | .queue _ _ _ | .graverOp _ _ _ | .spare _ | .graverIdle _ | .port _ => false

/-! ## Boundaries of a waiting instruction (05_memory_isa R164, 16_traps R313, R316) -/

/-- Whether the partition of the current core has reached the agreed time of a gang switch (R316). -/
def stopping (s : State) : Bool :=
  match s.region? s.core.region with
  | some r => match Tab.find? s.armed r.part with
    | some t => decide (t ≤ s.time) && r.status == .running
    | none => false
  | none => false

/-- The first bank byte of a Spire (05_memory_isa R136). -/
def bankBase (sp : Nat) : Nat := Config.domeBase + sp * 2 ^ 18

/-- Whether a storage address lies in the banks of one of the Spires. -/
def inBanks (sps : List Nat) (loc : Nat) : Bool := sps.any fun sp => decide (bankBase sp ≤ loc) && decide (loc < bankBase sp + 2 ^ 18)

/-- Whether a posted packet goes to one of the banks. -/
def toBanks (sps : List Nat) (p : Packet) : Bool :=
  match p.kind with
  | .store loc _ _ _ => inBanks sps loc
  | .red loc _ _ _ _ _ => inBanks sps loc
  | .wake _ _ _ => false

/-- The journal entries of the current core whose packets a gang switch keeps from arriving (R318). -/
def heldEntries (s : State) : List Nat :=
  let sps := match s.region? s.core.region with
    | some r => r.spires
    | none => []
  let mine (p : Packet) : Option Nat := if p.region = s.core.region ∧ p.lcore = s.core.lcore ∧ toBanks sps p = false then some p.entry else none
  s.packets.filterMap mine ++ s.spires.flatMap fun (px : Nat × Spire) => px.2.port.filterMap fun q => mine q.pkt

/-- Whether a Graver has stopped between two operations, or between two k-steps of a TGEMM (06_matrix_isa R189). -/
def graverHalted (s : State) (sp : Nat) : Bool :=
  (s.spireAt sp).graver.ctx.all fun c => c.queue.all fun e => !e.started || e.isGemm

/-- Whether a gang switch itself holds up what an instruction that has issued waits for: its own packets to other partitions'
banks and cores, or the Graver it has stopped (assumption log 85). -/
def heldUp (s : State) (w : WaitCond) : Bool :=
  let entry (e : Nat) : JEntry := nth s.core.journal e {}
  match w with
  | .fence kinds _ =>
    (kinds.getLsbD 0 && !s.heldEntries.isEmpty) || (kinds.getLsbD 3 && s.heldEntries.any fun e => (entry e).notify) ||
      (kinds.getLsbD 2 && !s.fenced 4 && s.graverHalted s.mySpire)
  | .overlap e => s.heldEntries.contains e
  | .stores _ => s.heldEntries.any fun e => (entry e).kind == 0
  | _ => false

/-- The waits at which an instruction is abandoned: those of R243 and R164, an EXIT that waits for its journal, which resumes
whole (07_system_isa R196), and a matrix instruction not accepted yet (06_matrix_isa R167). FENCE, a LAUNCH behind its fence,
MSAVE, a load behind a posted store and BARRIVE are inside their instructions until they complete. -/
def boundaryWait : WaitCond → Bool
  | .drain | .queue _ _ _ => true
  | w => listed w

/-- Whether what the current core waits for has come (R243). -/
def condHolds (s : State) (w : WaitCond) : Bool :=
  match w with
  | .token c a => !(s.coreAt c).tokens.contains (some a)
  | .tokenTable => s.core.tokens.contains none
  | .journal n => decide (n ≤ s.freeEntries)
  | .stores _ => s.storesSettled
  | .overlap e => (nth s.core.journal e {}).st != 1
  | .fence kinds _ => s.fenced kinds
  | .drain => s.drained
  | .barrier d o ph => s.core.released || (s.barrierAt d o).phase != ph
  | .rechain d o ph => s.core.released || (s.barrierAt d o).phase != ph
  | .timeline g sp c n => decide (n ≤ (s.timeline g sp c).comp)
  | .wake mask => s.word Ws.wake &&& mask != 0
  | .channel _ due => decide (due ≤ s.clock)
  | .held _ => s.core.amo.isSome || s.core.amoBad
  | .port loc => !s.meshHeld loc
  | .queue sp c _ => s.portTurn sp c
  | .graverOp _ _ _ => s.core.gres.isSome
  | .yield => s.core.yielded || (match s.core.yieldAt with | some t => decide (t + 64000 ≤ s.time) | none => true)
  | .halt => s.word Ws.wake != 0 || s.core.irq
  | .spare ch => (Tab.find? s.hbm.copies ch).isNone
  | .pins e zero => if zero then s.pinsOf e == 0 else decide (s.pinsOf e < 4095)
  | .graverIdle sp => s.graverIdle sp || (s.stopping && s.graverHalted sp)
  | .translation r t c a => !s.usesTranslation r t c a

/-! ## Asynchronous traps (16_traps R313, R314) -/

/-- The first journal entry whose refusal is due (R314). -/
def refusedEntry (s : State) : Option Nat := s.core.journal.findIdx? fun e => e.st == 2 && !e.reported

/-- The asynchronous trap the current core takes at its next boundary, with whether it is fatal. -/
def asyncDue (s : State) : Option (Trap × Bool) :=
  match s.core.mcDue with
  | i :: _ => some ({ code := Cause.machineCheck, tval := i }, (nth s.mcLog i.toNat (0, false)).2)
  | [] =>
    if s.core.priv ≠ 0 then none
    else match s.core.wdDue with
    | some v => some ({ code := Cause.watchdog, tval := v }, false)
    | none => match s.refusedEntry with
      | some e => some ({ code := Cause.remoteRefused, tval := (nth s.core.journal e {}).vaddr.setWidth 64,
                          tjrnl := BitVec.ofNat 64 e }, false)
      | none => none

/-- Mark a journal entry and its mate as reported (R314). -/
def report (j : List JEntry) (e : Nat) : List JEntry :=
  let mark (x : JEntry) : JEntry := { x with reported := true }
  let j' := j.modify e mark
  match (nth j e {}).mate with
  | some m => j'.modify m mark
  | none => j'

/-- The core record once an asynchronous trap is taken. -/
def takenCore (code : BitVec 8) (entry : Nat) (k : Core) : Core :=
  if code = Cause.machineCheck then { k with mcDue := k.mcDue.tail }
  else if code = Cause.watchdog then { k with wdDue := none }
  else { k with journal := report k.journal entry }

/-- Withdraw a held AMO.FADD.ORD of a core from its bank (05_memory_isa R164). -/
def withdraw (s : State) (c : Nat) : State :=
  { s with domes := s.domes.map fun dd =>
      (dd.1, { dd.2 with holds := (dd.2.holds.map fun bh => (bh.1, bh.2.filter fun h => h.pkt.isSome || h.core != c)).filter fun bh => !bh.2.isEmpty }) }

/-- Whether an asynchronous trap is due to the current core, held or not (R313). -/
def trapDue (s : State) : Bool := !s.core.mcDue.isEmpty || s.core.wdDue.isSome || s.refusedEntry.isSome

/-- Whether the current core is inside no instruction: not in an operation of the Graver it waits on, not between the
header operations of a SEND, not in an MSCRUB or an MSPARE begun, not at an AMO the bank has applied (R164,
07_system_isa R214, R215, 13_dome_memory R279), not in a wait that its instruction sees through, unless a gang switch holds up
what it waits for. -/
def outside (s : State) : Bool :=
  !s.core.inside && s.core.gop.isNone && (match s.core.status with
    | .waiting w => boundaryWait w || (s.stopping && s.heldUp w)
    | _ => true)

/-- Whether the current core stands at an instruction boundary (R313): inside no instruction, and in an attached chain not
ahead of a member that has yet to complete the instruction (02_scalar R72); a leader that would stop its followers is at
one when none of them is inside an instruction (R312). -/
def atBoundary (s : State) : Bool :=
  s.outside && !s.core.done &&
    (s.core.status == .running || (match s.core.status with | .waiting _ => true | _ => false)) &&
    (!(s.core.chained && s.core.pos == 0) || (s.attached s.cur).all fun c => ({ s with cur := c } : State).outside)

/-- Where the current core stands at a boundary: in a repetition FILL parcels before the next body instruction are passed
over (02_scalar R79). -/
def boundaryPc (s : State) : Word := if Rep.active (s.word Ws.repState) then s.bodyAt 0 s.core.pc else s.core.pc

/-- Take the asynchronous trap that is due (R313): a waiting instruction is abandoned, and TPC names it. -/
def takeAsync (s : State) : State :=
  match s.asyncDue with
  | none => s
  | some (t, fatal) =>
    let s := (s.withdraw s.cur).onCore (takenCore t.code t.tjrnl.toNat)
    if fatal then (s.kill s.core.region 1).onCore fun k => { k with status := .exited }
    else s.takeTrap true s.boundaryPc t

/-! ## The turns of a core (02_scalar R72, 16_traps R312, R316) -/

/-- Set the PC of the current core. -/
def setPc (s : State) (pc : Word) : State := s.onCore fun k => { k with pc := pc }

/-- Whether the current core may issue: it runs, or what it waits for has come; its hold is over; its dome's clock runs
(22_host_compat R386); its partition is not stopping, unless the core is inside an instruction (R316, 13_dome_memory
R279). -/
def mayIssue (s : State) : Bool :=
  (match s.core.status with
    | .running => true
    | .waiting w => s.condHolds w
    | _ => false) &&
  decide (s.core.holdUntil ≤ s.clock) && (s.domeAt s.myDome).stopAt.isNone && !(s.stopping && s.outside)

/-- The next instruction of the current core, under the stagger of an active repetition. -/
def fetchNext (s : State) : Fetched := s.fetchAt (Rep.stagger (s.word Ws.repState)) 4096 s.core.pc

/-- Whether the current core takes an asynchronous trap now: one is due, it stands at a boundary, and its gang switch does
not stop it first (R313, R321). -/
def asyncNow (s : State) : Bool := s.atBoundary && s.asyncDue.isSome && !s.stopping

/-- The waits at which an instruction has passed the checks of R30 and R138 and the other members of its chain may be what
it waits for, or may act meanwhile (R72, 17_prog_gatecall R330); SEND and RECV may still trap when they are tried again. -/
def passed : WaitCond → Bool
  | .barrier _ _ _ | .rechain _ _ _ | .timeline _ _ _ _ | .wake _ | .held _ | .yield => true
  | _ => false

/-- Whether a core has an arrival at RECHAIN whose phase has ended while a trap or a switch kept it from completing. -/
def rechainDue (k : Core) : Bool := k.status != .exited && k.bsync.any fun a => a.rechain && a.ended

/-- Whether the current leader has completed its RECHAIN and a member of its chain has still to (R84; assumption log 25). -/
def lateMember (s : State) : Bool :=
  !rechainDue s.core && (List.range s.core.widthM1.toNat).any fun i => rechainDue (s.coreAt (s.cur + 1 + i))

/-- Whether the current member of an attached chain acts now (R72, R312, R330): the leader once every member's hold is over and
none has its RECHAIN still to complete; a follower once the leader has completed the instruction, or waits in it past its checks, or has exited. -/
def joins (s : State) : Bool :=
  let lead := s.coreAt s.leaderIdx
  if s.core.pos = 0 then lead.away != 0 || (!s.lateMember && (s.attached s.cur).all fun c => decide ((s.coreAt c).holdUntil ≤ s.clock))
  else lead.away == 0 && (lead.done || lead.status == .exited || (match lead.status with
    | .waiting w => passed w
    | _ => false))

/-- Whether the region of the current core has been killed, so that the core stops at this boundary (09_execution R246). -/
def killedNow (s : State) : Bool :=
  decide (s.cur < Config.domeCores) && !s.core.inside && (match s.region? s.core.region with
    | some r => r.status == .killed
    | none => false)

/-- When every attached member has completed the instruction, the chain goes on to the leader's next one. -/
def endLockstep (s : State) (l : Nat) : State :=
  let ms := s.attached l
  if (s.coreAt l).away = 0 ∧ (ms.all fun c => (s.coreAt c).done || (s.coreAt c).status == .exited) then
    let lead := s.coreAt l
    ms.foldl (fun (s : State) c => s.setCoreAt c
      { s.coreAt c with pc := if lead.status = .exited then (s.coreAt c).pc else lead.pc, done := false }) s
  else s

end State

end Sys2Proof.Machine
end

