-- ==== Sys2Proof/Machine/Access.lean ====
section
/-!
DEFINITION. The accesses of an instruction to memory, one element at a time, and posted traffic (05_memory_isa
R138-R143, 15_consistency R290, R296).
-/

namespace Sys2Proof.Machine

open Sys2Proof

/-- One access: an address, its size in bytes, and for a store its data. -/
structure Elem where
  va : Word
  n : Nat
  x : Word := 0
  deriving DecidableEq, Repr

namespace State

/-! ## Loads -/

/-- A token register of the live workspace whose copy has not landed among n bytes at a place: the workspace window reads
and writes the register itself (02_scalar R43, 16_traps R315). -/
def noToken (s : State) (p : Place) (n : Nat) : Chk Unit :=
  if isWs p.loc then
    match s.core.tokens.findSome? fun a => match a with
      | some x => if s.core.wp.toNat ≤ x ∧ x < s.core.wp.toNat + 0x600 ∧ p.loc < wsLoc s.cur x + 8 ∧ wsLoc s.cur x < p.loc + n then some x else none
      | none => none with
    | some x => .error (.wait (.token s.cur x))
    | none => .ok ()
  else .ok ()

/-- The first wait of a list of places to load from (R139, 16_traps R315). -/
def checkLoads (s : State) : List (Elem × Place) → Chk Unit
  | [] => .ok ()
  | (e, p) :: xs =>
    match s.noOverlap p e.n with
    | .error w => .error w
    | .ok _ => match s.noToken p e.n with
      | .error w => .error w
      | .ok _ => checkLoads s xs

/-- The lower of two poisoned words (R138 step 3). -/
def lowerWord (m : Option Word) (va : Word) : Option Word :=
  let a := va &&& ~~~7
  match m with
  | some b => some (if a.toNat < b.toNat then a else b)
  | none => some a

/-- The first corrupted word of the core's workspace memory that the places read (07_system_isa R222 SOFT). -/
def softWord (s : State) (xs : List (Elem × Place)) : Option (Nat × Nat) :=
  match s.core.soft with
  | [] => none
  | ms => ms.find? fun m => m.1 == 1 && xs.any fun x => isWs x.2.loc && decide (x.2.loc / 8 = wsLoc s.cur m.2 / 8)

/-- Read the elements in order; the lowest word that was poisoned as it was read, or that comes from outside the windows of its
context's owner and so arrives poisoned (R138 step 3, 18_protection R334). -/
def readElems : State → List (Elem × Place) → List Word × Option Word × State
  | s, [] => ([], none, s)
  | s, (e, p) :: xs =>
    let (x, s) := s.loadAt p 64 e.n
    let bad := s.loadBad p || p.outside
    let (ys, m, s) := readElems s xs
    (x :: ys, if bad then lowerWord m e.va else m, s)

/-- Load a list of elements: the checks of R138 over all of them, then the reads in order. -/
def loadElems (s : State) (es : List Elem) : Chk (List Word × State) :=
  match s.places .load (es.map (·.va)) with
  | .error e => .error e
  | .ok (ps, s) =>
    match s.checkLoads (es.zip ps) with
    | .error e => .error e
    | .ok _ =>
      match s.softWord (es.zip ps) with
      | some m => .error (.trapIn { code := Cause.soft, tval := BitVec.ofNat 64 (m.1 * 2 ^ 56 + m.2) }
          (s.onCore fun k => { k with soft := k.soft.erase m }))
      | none =>
      let r := s.readElems (es.zip ps)
      match r.2.1 with
      | some a =>
        let s := match (es.zip ps).find? fun x => x.2.outside with
          | some x => (r.2.2.postFault 3 0 x.2.loc).machineCheck r.2.2.core.region false 0x334
          | none => r.2.2
        .error (.trapIn { code := Cause.poison, tval := a } s)
      | none => .ok (r.1, r.2.2)

/-- Load one naturally aligned element (R138, R141). -/
def coreLoad (s : State) (va : Word) (n : Nat) : Chk (Word × State) :=
  match aligned va n with
  | .error e => .error e
  | .ok _ =>
    match s.loadElems [{ va := va, n := n }] with
    | .error e => .error e
    | .ok (xs, s) => .ok (xs.headD 0, s)

/-! ## Posted traffic (R139, R296) -/

/-- The first free journal entry. -/
def freeEntry (s : State) : Nat := (s.core.journal.findIdx? fun e => e.st == 0).getD 0

/-- The timestamp a posted operation takes at issue (R296). -/
def postTs (s : State) : Nat := s.ltNow + 1

/-- Hand a packet of a core to its Spire's port (09_execution R248). -/
def sendPort (s : State) (bytes : Nat) (p : Packet) : State :=
  let x := s.spireAt s.mySpire
  s.setSpireAt s.mySpire { x with port := x.port ++ [{ core := coreInSpire s.cur, flits := 1 + (bytes + 31) / 32, pkt := p }] }

/-- Fill a journal entry. -/
def setEntry (s : State) (k : Nat) (e : JEntry) : State := s.onCore fun c => { c with journal := c.journal.set k e }

/-- The packet of the current core that holds a journal entry. -/
def packet (s : State) (entry dest : Nat) (kind : PktKind) : Packet :=
  { src := s.cur, region := s.core.region, lcore := s.core.lcore, entry := entry, dest := dest, kind := kind }

/-- log2 of an access size, as the journal records it. -/
def logSize (n : Nat) : BitVec 2 := BitVec.ofNat 2 (Nat.log2 n)

/-- The storage address a remote-window address names (R135, R136). -/
def remoteLoc (va : Word) : Nat := domeLoc ((va.toNat - 0x10000000) / 2 ^ 24) (va.toNat % 2 ^ 24)

/-- Issue a posted store (R139, R296): it takes a journal entry and its place in the global order. -/
def postStore (s : State) (op : BitVec 6) (ty : BitVec 4) (e : Elem) : State :=
  let k := s.freeEntry
  let ts := s.postTs
  let j : JEntry := { op := op, ty := ty, st := 1, kind := 0, size := logSize e.n, vaddr := e.va.setWidth 48, data := e.x,
                      ts := BitVec.ofNat 64 ts }
  let loc := remoteLoc e.va
  let s := (s.setEntry k j).setLt ts
  s.sendPort e.n (s.packet k loc (.store loc e.n e.x (BitVec.ofNat 64 ts)))

/-! ## Stores -/

/-- A store to a token register whose copy has not landed waits (16_traps R315), and so does one behind a released ordered
operation of its port (13_dome_memory R277), and one to a pinned handle entry, which keeps PINS (18_protection R346): the
elements with the values to store. -/
def guardStores (s : State) : List (Elem × Place) → Chk (List (Elem × Place))
  | [] => .ok []
  | (e, p) :: xs =>
    match s.noToken p e.n with
    | .error w => .error w
    | .ok _ => match s.portFree p with
      | .error w => .error w
      | .ok _ => match s.handleGuard p.loc e.n e.x with
        | .error w => .error w
        | .ok x => match guardStores s xs with
          | .ok ys => .ok (({ e with x := x }, p) :: ys)
          | .error w => .error w

/-- Make the stores in order. -/
def writeElems : State → List (Elem × Place) → State
  | s, [] => s
  | s, (e, p) :: xs => writeElems (s.storeAt p e.n e.x) xs

/-- The words of a store that keep their mark by the sector, with their sizes (21_memory_system R365). -/
def sectorSpans (xs : List (Elem × Place)) : List (Nat × Nat) :=
  xs.filterMap fun x =>
    if x.1.n = 8 ∧ (isHbm x.2.loc = true ∨ isScratch x.2.loc = true) ∧ x.2.outside = false then some (x.2.loc, 8) else none

/-- The elements of a store with their places and the values to store (R138). -/
def toStore (s : State) (es : List Elem) : Chk (List (Elem × Place) × State) :=
  match s.places .store (es.map (·.va)) with
  | .error e => .error e
  | .ok (ps, s') => match s'.guardStores (es.zip ps) with
    | .error w => .error (match w with
      | .wait (.pins a z) => .waitIn (.pins a z) (s'.count 63 1)
      | .wait c => .waitIn c s'
      | x => x)
    | .ok xs => .ok (xs, s')

/-- Store a list of elements (R138): the checks over all of them, then the stores in order. They are core accesses through
every window (15_consistency R290; assumption log 10). -/
def storeElems (s : State) (es : List Elem) (done : State → Res) : Res :=
  (s.toStore es).run s fun (xs, s') => done ((s'.writeElems xs).cleanSpans (sectorSpans xs))

/-- ST (R139, R141, 15_consistency R290): posted through a remote window, at once elsewhere. -/
def coreStore (s : State) (op : BitVec 6) (ty : BitVec 4) (e : Elem) (done : State → Res) : Res :=
  match aligned e.va e.n with
  | .error x => x.res s
  | .ok _ =>
    if isRemote e.va then if s.freeEntries = 0 then .wait (.journal 1) s else done (s.postStore op ty e)
    else s.storeElems [e] done

end State

end Sys2Proof.Machine
end

