-- ==== Sys2Proof/Machine/Control.lean ====
section
/-!
DEFINITION. Control transfers, repetition, hints and UNCHAIN (02_scalar R72-R83), and the spill stack (R63-R65).
-/

namespace Sys2Proof.Machine

open Sys2Proof

/-! ## Control transfers (02_scalar R72) -/

/-- Run a control transfer. The leader's guard decides the transfer; a core's own guard decides its register write. An
attached follower acts after its leader and goes where it went. -/
def control (i : Instr) (g : Guard) (write : State → State) (decide : State → Res) (s : State) : Out :=
  let own := s.guardLane g 0
  let led := s.decider.guardLane g 0
  if s.core.follower && !(s.coreAt s.leaderIdx).done then powered s (.next s)
  else instrIf i (own || led) (fun s =>
    if s.core.follower then .goto (s.follow s.core.pc) (if own then write s else s) else decide s) s

/-- The address after an instruction. -/
def State.after (s : State) (i : Instr) : Word := s.core.pc + BitVec.ofNat 64 i.size

/-- BR (R73). -/
def execBr (g : Guard) (off : Offset) (s : State) : Out :=
  control (.br g off) g id (fun s => .jump (s.core.pc + off.bytes) s) s

/-- CALL (R74). -/
def execCall (g : Guard) (d : SReg) (off : Offset) (s : State) : Out :=
  let link (s : State) : State := s.setReg d (s.after (.call g d off))
  control (.call g d off) g link (fun s => .jump (s.core.pc + off.bytes) (link s)) s

/-- Transfer to a register target, or MISALIGN without any effect (R75, 01_encoding R22). -/
def jumpTo (t : Word) (write : State → State) (s : State) : Res :=
  if t &&& 3 ≠ 0 then .trap { code := Cause.misalign, tval := t } s else .jump t (write s)

/-- JMP (R75). -/
def execJmp (g : Guard) (d a : SReg) (s : State) : Out :=
  let link (s : State) : State := s.setReg d (s.core.pc + 8)
  control (.jmp g d a) g link (fun s => jumpTo (s.reg a) link s) s

/-- RET (R75). -/
def execRet (g : Guard) (a : SReg) (s : State) : Out :=
  control (.ret g a) g id (fun s => jumpTo (s.reg a) id s) s

/-- BRX (R76): the table read is an ordinary access of the core (R165). -/
def execBrx (g : Guard) (a b : SReg) (count : BitVec 16) (s : State) : Out :=
  control (.brx g a b count) g id (fun s =>
    let i := s.reg b
    if count.toNat ≤ i.toNat then .trap { code := Cause.brxRange, tval := i } s
    else (s.coreLoad (s.reg a + 8 * i) 8).run s fun (t, s) => jumpTo t id s) s

/-- LOOP (R77). -/
def execLoop (g : Guard) (a : SReg) (off : BitVec 16) (s : State) : Out :=
  let dec (s : State) : State := s.setReg a (s.reg a - 1)
  control (.loop g a off) g dec (fun s =>
    if s.reg a - 1 ≠ 0 then .jump (s.core.pc + (off.signExtend 64 <<< 2)) (dec s) else .done (dec s)) s

/-! ## Repetition (02_scalar R78-R81) -/

/-- The majors no body may hold (R80). -/
def bodyExcluded (i : Instr) : Bool :=
  let m := i.major
  (decide (0x18 ≤ m) && decide (m ≤ 0x1F)) || (decide (0x70 ≤ m) && decide (m ≤ 0x73)) || m == 0x75 ||
    (match i with
      | .mts _ _ _ => true
      | .mtsWp _ _ => true
      | _ => false)

/-- The addresses of a repetition body: its first instruction and its end. -/
structure Body where
  first : Word
  last : Word

/-- Decode `n` body instructions from an address (R80); FILL parcels between them are skipped. A jet plane above J is a
reserved value (04_vector R133), not an alignment. -/
def scanBody : Nat → Word → Option Word → State → Except Trap (Body × State)
  | 0, va, first, s => .ok ({ first := first.getD va, last := va }, s)
  | n + 1, va, first, s =>
    match s.fetchAt id 4194304 va with
    | .trap at_ t _ => .error (if t.code = Cause.illegal then { t with tval := at_ } else t)
    | .skip at_ _ => .error { code := Cause.fetchFault, tval := at_ &&& ~~~31 }
    | .instr at_ i s =>
      if bodyExcluded i || !State.planesOk s.jet i || (s.isBelfry && !belfryMajor i.major) then .error { code := Cause.illegal, tval := at_ }
      else scanBody n (at_ + BitVec.ofNat 64 i.size) (some (first.getD at_)) s

/-- REP (R78-R80): the count is the leader's. -/
def execRep (a : SReg) (lenM1 : BitVec 4) (stride : BitVec 5) (mask : BitVec 4) (s : State) : Out :=
  if s.core.follower && !(s.coreAt s.leaderIdx).done then powered s (.next s)
  else instrAll (.rep a lenM1 stride mask) (fun s =>
    let count : BitVec 32 := (s.decider.reg a).setWidth 32
    match scanBody (lenM1.toNat + 1) (s.core.pc + 8) none s with
    | .error t => .trap t s
    | .ok (b, s) =>
      if count = 0 then .goto b.last s
      else .goto b.first ((s.setWord Ws.repState (Rep.start lenM1 stride mask count)).setWord Ws.repBase b.first)) s

/-! ## NOP, HINT, UNCHAIN (02_scalar R82, R83) -/

/-- NOP (R82). -/
def execNop (g : Guard) (s : State) : Out := instr (.nop g) g (fun s => .done s) s

/-- HINT (R82): nothing issues for 8 or 64 core cycles after it. -/
def execHint (g : Guard) (code : BitVec 16) (s : State) : Out :=
  instr (.hint g code) g (fun s => .done (s.onCore fun k =>
    { k with holdUntil := s.clock + 1 + (if code = 1 then 8 else 64) })) s

/-- UNCHAIN in an attached chain detaches every member of it (R83): the leader's for all, so that each follower fetches the
UNCHAIN and what comes after it for itself; that of a leader in its handler, which runs alone (16_traps R312), its own. -/
def State.unchain (s : State) : State :=
  let members := if s.core.chained && s.core.pos == 0 && s.core.away == 0 then s.attached s.cur else []
  (members.foldl (fun (s : State) c => s.setCoreAt c { s.coreAt c with detached := true }) s).onCore fun k =>
    { k with detached := k.detached || k.chained }

/-- UNCHAIN (R83). -/
def execUnchain (s : State) : Out := instrAll .unchain (fun s => .done s.unchain) s

/-- FILL (01_encoding R20): skipped without issue, retirement or count. -/
def execFill (s : State) : Out := event (fun s => s.setPc (s.core.pc + 4)) s

/-! ## The spill stack (02_scalar R63-R65) -/

/-- Whether a range meets the live workspace inside the workspace window (R63). -/
def meetsWorkspace (s : State) (base : Word) (size : Nat) : Bool :=
  decide (base.toNat < s.core.wp.toNat + 1536) && decide (s.core.wp.toNat < base.toNat + size) &&
    decide (base.toNat < 0x4000)

/-- The 8-byte words of a register range: their place in the range and how to read and write one. -/
def rangeWords : RegRange → Nat
  | .scalar f l => l.toNat - f.toNat + 1
  | .vector f l => 4 * (l.toNat - f.toNat + 1)

def rangeElem : RegRange → Nat
  | .scalar _ _ => 8
  | .vector _ _ => 32

def rangeRead (r : RegRange) (s : State) (k : Nat) : Word :=
  match r with
  | .scalar f _ => s.reg (f + BitVec.ofNat 5 k)
  | .vector f _ => (s.vreg (f + BitVec.ofNat 5 (k / 4))).extractLsb' (64 * (k % 4)) 64

def rangeWrite (r : RegRange) (s : State) (k : Nat) (x : Word) : State :=
  match r with
  | .scalar f _ => s.setReg (f + BitVec.ofNat 5 k) x
  | .vector f _ => s.setWord (0x100 + 32 * (f + BitVec.ofNat 5 (k / 4)).toNat + 8 * (k % 4)) x

/-- The word k of a range stored at a base. -/
def pushElem (r : RegRange) (s : State) (base : Word) (k : Nat) : Elem :=
  { va := base + BitVec.ofNat 64 (8 * k), n := 8, x := rangeRead r s k }

/-- The store of a whole vector register clears the mark of the sector it covers (21_memory_system R365). -/
def State.cleanSector (s : State) (va : Word) : State :=
  match s.place .store va with
  | some (p, _) => if (isHbm p.loc = true ∨ isScratch p.loc = true) ∧ p.outside = false then s.clean p.loc 32 else s
  | none => s

/-- A wait some word of a range would meet: the instruction waits for it before its first word (R65, 05_memory_isa R139,
R164). -/
def rangeWait (s : State) (acc : Acc) (es : List Elem) : Option WaitCond :=
  es.findSome? fun e => match s.place acc e.va with
    | some (p, s') =>
      let c : Chk Unit := if acc = .store then (s'.guardStores [(e, p)]).map fun _ => () else s'.checkLoads [(e, p)]
      match c with
      | .error (.wait w) => some w
      | _ => none
    | none => none

/-- Store the words of a range one by one; what an earlier word stored persists (R64). -/
def pushWords (r : RegRange) (base : Word) : List Nat → State → Res
  | [], s => .done s
  | k :: ks, s =>
    match s.storeElems [pushElem r s base k] .done with
    | .done s => pushWords r base ks
        (if rangeElem r = 32 ∧ k % 4 = 3 then s.cleanSector (base + BitVec.ofNat 64 (8 * (k - 3))) else s)
    | x => x

/-- Load the words of a range one by one; what an earlier word loaded persists when a later one faults (R64), and when it is
poisoned too, which R64 does not say (assumption log 57). -/
def popWords (r : RegRange) (base : Word) : List Nat → State → (State → Res) → Res
  | [], s, done => done s
  | k :: ks, s, done =>
    (s.coreLoad (base + BitVec.ofNat 64 (8 * k)) 8).run s fun (x, s) => popWords r base ks (rangeWrite r s k x) done

/-- PUSHM (R63). -/
def execPushm (g : Guard) (r : RegRange) (s : State) : Out :=
  instr (.pushm g r) g (fun s =>
    let ssp := s.word Ws.ssp
    let size := 8 * rangeWords r
    let base := ssp - BitVec.ofNat 64 size
    if ssp.toNat % rangeElem r ≠ 0 then .trap { code := Cause.misalign, tval := ssp } s
    else if base.toNat < (s.word Ws.ssl).toNat ∨ meetsWorkspace s base size = true then
      .trap { code := Cause.spillLimit, tval := base } s
    else match rangeWait s .store ((List.range (rangeWords r)).map (pushElem r s base)) with
    | some w => .wait w s
    | none => match pushWords r base (List.range (rangeWords r)) s with
      | .done s => .done (s.setWord Ws.ssp base)
      | x => x) s

/-- POPM (R63). -/
def execPopm (g : Guard) (r : RegRange) (s : State) : Out :=
  instr (.popm g r) g (fun s =>
    let base := s.word Ws.ssp
    let size := 8 * rangeWords r
    if base.toNat % rangeElem r ≠ 0 then .trap { code := Cause.misalign, tval := base } s
    else if meetsWorkspace s base size = true then .trap { code := Cause.spillLimit, tval := base } s
    else match rangeWait s .load ((List.range (rangeWords r)).map (pushElem r s base)) with
    | some w => .wait w s
    | none => popWords r base (List.range (rangeWords r)) s fun s => .done (s.setWord Ws.ssp (base + BitVec.ofNat 64 size))) s

end Sys2Proof.Machine
end

