-- ==== Sys2Proof/Machine/Fp.lean ====
section
/-!
DEFINITION. Floating-point values, rounding and the exact operations (00_scope R14, R15, 03_formats R87-R100): a value
is an exact dyadic number, an infinity or a NaN, and every operation computes exactly and rounds once.
-/

namespace Sys2Proof.Machine

open Sys2Proof

/-- A binary format: exponent bits and fraction bits (R89). -/
structure Fmt where
  exp : Nat
  frac : Nat
  deriving DecidableEq, Repr

namespace Fmt
def fp64 : Fmt := ⟨11, 52⟩
def fp32 : Fmt := ⟨8, 23⟩
def fp16 : Fmt := ⟨5, 10⟩
def bf16 : Fmt := ⟨8, 7⟩
def fa56 : Fmt := ⟨11, 44⟩
def bias (F : Fmt) : Nat := 2 ^ (F.exp - 1) - 1
def width (F : Fmt) : Nat := F.exp + F.frac + 1
/-- The exponent of the smallest normal. -/
def emin (F : Fmt) : Int := 1 - F.bias
/-- The encoding of +∞, of the largest finite value, and the sign bit. -/
def inf (F : Fmt) : Nat := (2 ^ F.exp - 1) * 2 ^ F.frac
def top (F : Fmt) : Nat := F.inf - 1
def signBit (F : Fmt) : Nat := 2 ^ (F.exp + F.frac)
/-- CanonNaN (00_scope R17). -/
def canon (F : Fmt) : Nat := F.inf + 2 ^ (F.frac - 1)
end Fmt

/-- The value of a floating-point datum: a NaN (signalling or not), an infinity, or (-1)^neg m 2^e. -/
inductive FpVal where
  | nan (sig : Bool) | inf (neg : Bool) | fin (neg : Bool) (m : Nat) (e : Int)
  deriving DecidableEq, Repr

namespace FpVal
def isNan : FpVal → Bool
  | .nan _ => true
  | _ => false
def isSig : FpVal → Bool
  | .nan sg => sg
  | _ => false
def isInf : FpVal → Bool
  | .inf _ => true
  | _ => false
def isZero : FpVal → Bool
  | .fin _ m _ => m == 0
  | _ => false
def isNeg : FpVal → Bool
  | .inf n => n
  | .fin n _ _ => n
  | .nan _ => false
def neg : FpVal → FpVal
  | .nan sg => .nan sg
  | .inf n => .inf (!n)
  | .fin n m e => .fin (!n) m e
def abs : FpVal → FpVal
  | .nan sg => .nan sg
  | .inf _ => .inf false
  | .fin _ m e => .fin false m e
def zero : FpVal := .fin false 0 0
def one : FpVal := .fin false 1 0
/-- An exact integer. -/
def ofInt (x : Int) : FpVal := .fin (decide (x < 0)) x.natAbs 0
/-- Multiply by 2^k. -/
def scale (k : Int) : FpVal → FpVal
  | .fin n m e => .fin n m (e + k)
  | v => v
end FpVal

/-- The value an encoding holds (R89). -/
def Fmt.val (F : Fmt) (x : Nat) : FpVal :=
  let neg := decide (x / F.signBit % 2 = 1)
  let e := x / 2 ^ F.frac % 2 ^ F.exp
  let f := x % 2 ^ F.frac
  if e = 2 ^ F.exp - 1 then (if f = 0 then .inf neg else .nan (decide (f < 2 ^ (F.frac - 1))))
  else if e = 0 then .fin neg f (F.emin - F.frac)
  else .fin neg (2 ^ F.frac + f) (F.emin - F.frac + (e - 1 : Nat))

/-! ## Rounding (00_scope R14, 03_formats R93) -/

/-- Whether rounding away from zero by one unit is due, from the remainder below a unit of 2^d. That a live FCSR.RM of 5 to 7, which
only a workspace that was not live can hold (02_scalar R47), rounds as RNE is the model's choice (assumption log 77). -/
def roundUp (mode : Nat) (neg : Bool) (q rem d : Nat) : Bool :=
  match mode with
  | 1 => false
  | 2 => !neg && rem != 0
  | 3 => neg && rem != 0
  | 4 => decide (2 ^ d ≤ 2 * rem)
  | _ => decide (2 ^ d < 2 * rem) || (decide (2 ^ d = 2 * rem) && q % 2 == 1)

/-- m 2^e as a whole number of units 2^u, rounded in a mode, and whether it was inexact. -/
def roundAt (mode : Nat) (neg : Bool) (m : Nat) (e u : Int) : Nat × Bool :=
  if u ≤ e then (m * 2 ^ (e - u).toNat, false)
  else
    let d := (u - e).toNat
    let q := m / 2 ^ d
    let rem := m % 2 ^ d
    (if roundUp mode neg q rem d then q + 1 else q, rem != 0)

/-- A magnitude rounded to `frac` fraction bits above exponent `emin`, as a whole number of units (R14 steps 3 and 5). -/
structure Rounded where
  units : Nat
  unit : Int
  inexact : Bool
  tiny : Bool

def roundMag (frac : Nat) (emin : Int) (mode : Nat) (neg : Bool) (m : Nat) (e : Int) : Rounded :=
  let top : Int := e + (Nat.log2 m : Nat)
  if emin ≤ top then
    let r := roundAt mode neg m e (top - frac)
    { units := r.1, unit := top - frac, inexact := r.2, tiny := false }
  else
    let free := roundAt mode neg m e (top - frac)
    let r := roundAt mode neg m e (emin - frac)
    { units := r.1, unit := emin - frac, inexact := r.2,
      tiny := decide (free.1 < 2 ^ (frac + 1)) || decide (top + 1 < emin) }

/-- The overflow result of R14 step 4: whether it is the infinity. -/
def overflowsToInf (mode : Nat) (neg : Bool) : Bool :=
  match mode with
  | 1 => false
  | 2 => !neg
  | 3 => neg
  | _ => true

/-- RoundTo of a nonzero magnitude (R14): the encoding and the flags. -/
def Fmt.roundFin (F : Fmt) (mode : Nat) (neg : Bool) (m : Nat) (e : Int) : Nat × Flags :=
  let sg := if neg then F.signBit else 0
  let r := roundMag F.frac F.emin mode neg m e
  let code := (r.unit + F.frac - F.emin).toNat * 2 ^ F.frac + r.units
  if F.inf ≤ code then
    (sg + (if overflowsToInf mode neg then F.inf else F.top), Flags.of ||| Flags.nx)
  else (sg + code, (if r.inexact then Flags.nx else 0) ||| (if r.tiny && r.inexact then Flags.uf else 0))

/-- RoundTo (R14). -/
def Fmt.round (F : Fmt) (mode : Nat) : FpVal → Nat × Flags
  | .nan _ => (F.canon, 0)
  | .inf n => ((if n then F.signBit else 0) + F.inf, 0)
  | .fin n m e => if m = 0 then (if n then F.signBit else 0, 0) else F.roundFin mode n m e

/-! ## The exact operations (00_scope R15) -/

/-- The exact sum of two finite values; an exact zero takes the sign of R15. -/
def addExact (mode : Nat) (n1 : Bool) (m1 : Nat) (e1 : Int) (n2 : Bool) (m2 : Nat) (e2 : Int) : FpVal :=
  let e := min e1 e2
  let v (n : Bool) (m : Nat) (x : Int) : Int := (if n then -1 else 1) * ((m * 2 ^ (x - e).toNat : Nat) : Int)
  let s := v n1 m1 e1 + v n2 m2 e2
  if s = 0 then .fin (if m1 = 0 ∧ m2 = 0 ∧ n1 = n2 then n1 else decide (mode = 3)) 0 0
  else .fin (decide (s < 0)) s.natAbs e

/-- The sum of two values; `none` for opposite infinities. -/
def sumVal (mode : Nat) : FpVal → FpVal → Option FpVal
  | .nan a, _ => some (.nan a)
  | _, .nan b => some (.nan b)
  | .inf a, .inf b => if a = b then some (.inf a) else none
  | .inf a, _ => some (.inf a)
  | _, .inf b => some (.inf b)
  | .fin n1 m1 e1, .fin n2 m2 e2 => some (addExact mode n1 m1 e1 n2 m2 e2)

/-- The exact product; `none` for 0·∞. -/
def mulVal : FpVal → FpVal → Option FpVal
  | .nan a, _ => some (.nan a)
  | _, .nan b => some (.nan b)
  | .inf a, .inf b => some (.inf (xor a b))
  | .inf a, .fin n m _ => if m = 0 then none else some (.inf (xor a n))
  | .fin n m _, .inf b => if m = 0 then none else some (.inf (xor n b))
  | .fin n1 m1 e1, .fin n2 m2 e2 => some (.fin (xor n1 n2) (m1 * m2) (e1 + e2))

namespace Fmt

/-- A result whose operands hold a NaN: NV for a signalling one. -/
def nanOf (F : Fmt) (sig : Bool) : Nat × Flags := (F.canon, if sig then Flags.nv else 0)

/-- Add (R15). -/
def add (F : Fmt) (mode : Nat) (a b : FpVal) : Nat × Flags :=
  if a.isNan || b.isNan then F.nanOf (a.isSig || b.isSig)
  else match sumVal mode a b with
    | none => (F.canon, Flags.nv)
    | some v => F.round mode v

/-- Mul (R15). -/
def mul (F : Fmt) (mode : Nat) (a b : FpVal) : Nat × Flags :=
  if a.isNan || b.isNan then F.nanOf (a.isSig || b.isSig)
  else match mulVal a b with
    | none => (F.canon, Flags.nv)
    | some v => F.round mode v

/-- FMA (R15): the product and the sum are exact, with one rounding. -/
def fma (F : Fmt) (mode : Nat) (a b c : FpVal) : Nat × Flags :=
  if a.isSig || b.isSig || c.isSig then (F.canon, Flags.nv)
  else match mulVal a b with
    | none => (F.canon, Flags.nv)
    | some p =>
      if p.isNan || c.isNan then (F.canon, 0)
      else match sumVal mode p c with
        | none => (F.canon, Flags.nv)
        | some v => F.round mode v

end Fmt

/-- A magnitude with enough bits for a correct rounding: a quotient and a sticky bit below it. -/
def sticky (q : Nat) (inexact : Bool) (e : Int) : Nat × Int := (2 * q + (if inexact then 1 else 0), e - 1)

/-- The quotient of two nonzero magnitudes to at least `p` bits. -/
def divMag (p m1 : Nat) (e1 : Int) (m2 : Nat) (e2 : Int) : Nat × Int :=
  let k := p + 3 + Nat.log2 m2
  let n := m1 * 2 ^ k
  sticky (n / m2) (n % m2 != 0) (e1 - e2 - k)

/-- The integer square root, one bit at a time. -/
def isqrtFrom (n : Nat) : Nat → Nat → Nat
  | 0, r => r
  | b + 1, r =>
    let c := r + 2 ^ b
    isqrtFrom n b (if c * c ≤ n then c else r)

def isqrt (n : Nat) : Nat := isqrtFrom n (Nat.log2 n / 2 + 1) 0

/-- The square root of a nonzero magnitude to at least `p` bits. -/
def sqrtMag (p m : Nat) (e : Int) : Nat × Int :=
  let k := 2 * (p + 3) + (if (e % 2) = 0 then 0 else 1)
  let n := m * 2 ^ k
  let r := isqrt n
  sticky r (r * r != n) ((e - k) / 2)

namespace Fmt

/-- The bits a correctly rounded result needs beyond its precision. -/
def prec (F : Fmt) : Nat := F.frac + 4

/-- FDIV (02_scalar R67). -/
def div (F : Fmt) (mode : Nat) (a b : FpVal) : Nat × Flags :=
  match a, b with
  | .nan x, y => F.nanOf (x || y.isSig)
  | _, .nan y => F.nanOf y
  | .inf _, .inf _ => (F.canon, Flags.nv)
  | .inf n, .fin n2 _ _ => F.round mode (.inf (xor n n2))
  | .fin n _ _, .inf n2 => F.round mode (.fin (xor n n2) 0 0)
  | .fin n1 m1 e1, .fin n2 m2 e2 =>
    if m2 = 0 then
      if m1 = 0 then (F.canon, Flags.nv) else ((F.round mode (.inf (xor n1 n2))).1, Flags.dz)
    else if m1 = 0 then F.round mode (.fin (xor n1 n2) 0 0)
    else
      let q := divMag F.prec m1 e1 m2 e2
      F.round mode (.fin (xor n1 n2) q.1 q.2)

/-- FSQRT (02_scalar R67). -/
def sqrt (F : Fmt) (mode : Nat) (a : FpVal) : Nat × Flags :=
  match a with
  | .nan x => F.nanOf x
  | .inf n => if n then (F.canon, Flags.nv) else F.round mode (.inf false)
  | .fin n m e =>
    if m = 0 then F.round mode (.fin n 0 0)
    else if n then (F.canon, Flags.nv)
    else
      let q := sqrtMag F.prec m e
      F.round mode (.fin false q.1 q.2)

end Fmt

/-! ## Comparisons -/

/-- The exact value of a finite datum at a common exponent. -/
def atExp (n : Bool) (m : Nat) (x e : Int) : Int := (if n then -1 else 1) * ((m * 2 ^ (x - e).toNat : Nat) : Int)

/-- a < b of values that are no NaN; −0 equals +0. -/
def FpVal.lt : FpVal → FpVal → Bool
  | .nan _, _ => false
  | _, .nan _ => false
  | .inf a, .inf b => a && !b
  | .inf a, _ => a
  | _, .inf b => !b
  | .fin n1 m1 e1, .fin n2 m2 e2 => decide (atExp n1 m1 e1 (min e1 e2) < atExp n2 m2 e2 (min e1 e2))

def FpVal.eq (a b : FpVal) : Bool := !a.isNan && !b.isNan && !FpVal.lt a b && !FpVal.lt b a

/-- Less in the order of minimumNumber, where −0 < +0. -/
def FpVal.below (a b : FpVal) : Bool := FpVal.lt a b || (a.isZero && b.isZero && a.isNeg && !b.isNeg)

namespace Fmt

/-- FMIN and FMAX (02_scalar R67): one operand's encoding, or CanonNaN. -/
def minNum (F : Fmt) (greater : Bool) (x y : Nat) : Nat × Flags :=
  let a := F.val x
  let b := F.val y
  let fl := if a.isSig || b.isSig then Flags.nv else 0
  if a.isNan && b.isNan then (F.canon, fl)
  else if a.isNan then (y, fl)
  else if b.isNan then (x, fl)
  else if greater then (if FpVal.below a b then y else x, fl)
  else (if FpVal.below b a then y else x, fl)

/-- A NaN becomes CanonNaN and another encoding has its sign changed, without flags (02_scalar R67). -/
def negate (F : Fmt) (x : Nat) : Nat := if (F.val x).isNan then F.canon else (x + F.signBit) % (2 * F.signBit)
def absolute (F : Fmt) (x : Nat) : Nat := if (F.val x).isNan then F.canon else x % F.signBit

/-- FCLASS (02_scalar R71): the number of the class bit. -/
def classOf (F : Fmt) (x : Nat) : Nat :=
  match F.val x with
  | .nan sg => if sg then 8 else 9
  | .inf n => if n then 0 else 7
  | .fin n m _ =>
    if m = 0 then (if n then 3 else 4)
    else if x % F.signBit < 2 ^ F.frac then (if n then 2 else 5)
    else if n then 1 else 6

end Fmt

/-! ## Conversions (03_formats R95, R96) -/

/-- ToInt (R96): the n-bit pattern and the flags. -/
def toInt (n : Nat) (sg : Bool) (mode : Nat) (v : FpVal) : Nat × Flags :=
  let lo : Int := if sg then -(2 ^ (n - 1) : Nat) else 0
  let hi : Int := if sg then (2 ^ (n - 1) : Nat) - 1 else (2 ^ n : Nat) - 1
  let wrap (x : Int) : Nat := (x % (2 ^ n : Nat)).toNat
  match v with
  | .nan _ => (0, Flags.nv)
  | .inf ng => (wrap (if ng then lo else hi), Flags.nv)
  | .fin ng m e =>
    let r := roundAt mode ng m e 0
    let y : Int := if ng then -r.1 else r.1
    if y < lo then (wrap lo, Flags.nv) else if hi < y then (wrap hi, Flags.nv)
    else (wrap y, if r.2 then Flags.nx else 0)

/-- Conversion of a value to a format (R95): NV for a signalling NaN. -/
def Fmt.convert (F : Fmt) (mode : Nat) (v : FpVal) : Nat × Flags :=
  if v.isNan then F.nanOf v.isSig else F.round mode v

end Sys2Proof.Machine
end

