-- ==== Sys2Proof/Machine/Mx.lean ====
section
/-!
DEFINITION. The microscaled element formats, their packing, block quantisation and dequantisation
(03_formats R97-R102).
-/

namespace Sys2Proof.Machine

open Sys2Proof

namespace Mx

/-- The shape of an element format: exponent bits, fraction bits, bias, and the code of the largest finite value (R97). -/
structure Elt where
  bits : Nat
  exp : Nat
  frac : Nat
  bias : Nat
  max : Nat

/-- The subformats of 01_encoding R25; 5 is MXINT8, which has no exponent. -/
def elt (f : Nat) : Elt :=
  match f with
  | 0 => ⟨8, 4, 3, 7, 0x7E⟩
  | 1 => ⟨8, 5, 2, 15, 0x7B⟩
  | 2 => ⟨6, 3, 2, 3, 0x1F⟩
  | 3 => ⟨6, 2, 3, 1, 0x1F⟩
  | 4 => ⟨4, 2, 1, 1, 0x7⟩
  | _ => ⟨8, 0, 6, 0, 0x7F⟩

/-- Emax of a format (R97). -/
def emax (f : Nat) : Int :=
  match f with
  | 0 => 8 | 1 => 15 | 2 => 4 | 3 => 2 | 4 => 2 | _ => 0

/-- The exponent of the smallest normal. -/
def Elt.emin (E : Elt) : Int := 1 - E.bias

/-- The value of an element code (R97). -/
def val (f x : Nat) : FpVal :=
  let E := elt f
  let x := x % 2 ^ E.bits
  if 5 ≤ f then .fin (decide (128 ≤ x)) (if 128 ≤ x then 256 - x else x) (-6)
  else
    let neg := decide (2 ^ (E.bits - 1) ≤ x)
    let y := x % 2 ^ (E.bits - 1)
    let e := y / 2 ^ E.frac
    let m := y % 2 ^ E.frac
    if f = 0 ∧ y = 0x7F then .nan false
    else if f = 1 ∧ e = 31 then (if m = 0 then .inf neg else .nan (decide (m < 2)))
    else if e = 0 then .fin neg m (E.emin - E.frac)
    else .fin neg (2 ^ E.frac + m) (E.emin - E.frac + (e - 1 : Nat))

/-- The code of a rounded magnitude, before any bound. -/
def code (E : Elt) (r : Rounded) : Nat := (r.unit + E.frac - E.emin).toNat * 2 ^ E.frac + r.units

def signOf (E : Elt) (neg : Bool) : Nat := if neg then 2 ^ (E.bits - 1) else 0

/-- ToElem (R100). -/
def toElem (f mode : Nat) (v : FpVal) : Nat × Flags :=
  let E := elt f
  if f = 1 then Fmt.round ⟨5, 2⟩ mode v
  else match v with
    | .nan _ => if f = 0 then (0x7F, 0) else (0, Flags.nv)
    | .inf n =>
      if 5 ≤ f then (if n then 0x80 else 0x7F, Flags.of ||| Flags.nx) else (signOf E n + E.max, Flags.of ||| Flags.nx)
    | .fin n m e =>
      if 5 ≤ f then
        let r := roundAt mode n m e (-6)
        let bound := if n then 128 else 127
        if bound < r.1 then (if n then 0x80 else 0x7F, Flags.of ||| Flags.nx)
        else (if n then (256 - r.1) % 256 else r.1, if r.2 then Flags.nx else 0)
      else if m = 0 then (signOf E n, 0)
      else
        let r := roundMag E.frac E.emin mode n m e
        if E.max < code E r then (signOf E n + E.max, Flags.of ||| Flags.nx)
        else (signOf E n + code E r, (if r.inexact then Flags.nx else 0) ||| (if r.tiny && r.inexact then Flags.uf else 0))

/-- One element of QuantBlock (R101): rounded, then clamped with NX and without OF. -/
def quantElem (f mode : Nat) (v : FpVal) : Nat × Flags :=
  let E := elt f
  match v with
  | .fin n m e =>
    if 5 ≤ f then
      let r := roundAt mode n m e (-6)
      if !n && decide (127 < r.1) then (0x7F, Flags.nx)
      else (if n then (256 - r.1) % 256 else r.1, if r.2 then Flags.nx else 0)
    else if m = 0 then (signOf E n, 0)
    else
      let r := roundMag E.frac E.emin mode n m e
      let fl := (if r.inexact then Flags.nx else 0) ||| (if r.tiny && r.inexact then Flags.uf else 0)
      if E.max < code E r then (signOf E n + E.max, fl ||| Flags.nx) else (signOf E n + code E r, fl)
  | _ => (0, 0)

/-- Floor(Log2) of the largest magnitude of a list; none when all are zero. -/
def topExp (xs : List FpVal) : Option Int :=
  xs.foldl (fun (t : Option Int) v =>
    match v with
    | .fin _ m e =>
      if m = 0 then t
      else
        let k : Int := e + (Nat.log2 m : Nat)
        match t with
        | some u => some (max u k)
        | none => some k
    | _ => t) none

/-- QuantBlock (R101): the scale, the codes and the flags. -/
def quantBlock (f mode : Nat) (xs : List FpVal) : Nat × List Nat × Flags :=
  if xs.any fun v => v.isNan || v.isInf then (0xFF, xs.map fun _ => 0, Flags.nv)
  else
    let e0 : Int := match topExp xs with
      | none => -127
      | some t => t - emax f
    let e := max (-127) (min 127 e0)
    let rs := xs.map fun v => quantElem f mode (v.scale (-e))
    ((e + 127).toNat, rs.map (·.1), rs.foldl (fun a r => a ||| r.2) 0)

/-- One element of a block with its scale (R98). -/
def scaled (f scale x : Nat) : FpVal := if scale = 0xFF then .nan false else (val f x).scale ((scale : Int) - 127)

/-- One element of a dequantised block (R102). -/
def dequant (f mode scale x : Nat) : Nat × Flags :=
  let v := scaled f scale x
  if v.isNan then (Fmt.fp32.canon, 0) else Fmt.fp32.round mode v

/-- Packing (R99): element i at bit w i. -/
def pack (w : Nat) (xs : List Nat) : Nat := xs.foldr (fun x a => a * 2 ^ w + x % 2 ^ w) 0
def unpack (w : Nat) (x i : Nat) : Nat := x / 2 ^ (w * i) % 2 ^ w

end Mx

end Sys2Proof.Machine
end

