-- ==== Sys2Proof/Machine/ScalarFp.lean ====
section
/-!
DEFINITION. The scalar floating-point instructions (02_scalar R66-R71).
-/

namespace Sys2Proof.Machine

open Sys2Proof

/-- The format of a scalar floating-point type; the default is .f64 (R66). -/
def scalarFmt (t : Ty) : Fmt := if t = .f32 then .fp32 else .fp64

/-- The encoding an operand of a format holds in a register (R66). -/
def fpBits (F : Fmt) (x : Word) : Nat := x.toNat % 2 ^ F.width

/-- The value of a register in a format. -/
def fpReg (F : Fmt) (s : State) (r : SReg) : FpVal := F.val (fpBits F (s.reg r))

/-- Write a floating-point result and its flags (R66). -/
def State.fpResult (s : State) (d : SReg) (r : Nat × Flags) : State := (s.setReg d (BitVec.ofNat 64 r.1)).raise r.2

/-- The shapes of one, two and three operands. -/
def fpUn (i : Instr) (g : Guard) (t : Ty) (d a : SReg) (f : Fmt → Nat → FpVal → Nat × Flags) (s : State) : Out :=
  instr i g (fun s => .done (s.fpResult d (f (scalarFmt t) s.rm (fpReg (scalarFmt t) s a)))) s

def fpBin (i : Instr) (g : Guard) (t : Ty) (d a b : SReg) (f : Fmt → Nat → FpVal → FpVal → Nat × Flags) (s : State) :
    Out :=
  instr i g (fun s => .done (s.fpResult d
    (f (scalarFmt t) s.rm (fpReg (scalarFmt t) s a) (fpReg (scalarFmt t) s b)))) s

def fpFma (i : Instr) (g : Guard) (t : Ty) (d a b c : SReg) (na nc : Bool) (s : State) : Out :=
  instr i g (fun s =>
    let F := scalarFmt t
    let flip (n : Bool) (v : FpVal) : FpVal := if n then v.neg else v
    .done (s.fpResult d (F.fma s.rm (flip na (fpReg F s a)) (fpReg F s b) (flip nc (fpReg F s c))))) s

/-- FMIN and FMAX select an encoding. -/
def fpSelect (i : Instr) (g : Guard) (t : Ty) (d a b : SReg) (greater : Bool) (s : State) : Out :=
  instr i g (fun s =>
    let F := scalarFmt t
    .done (s.fpResult d (F.minNum greater (fpBits F (s.reg a)) (fpBits F (s.reg b))))) s

/-- A change of sign, without flags (R67). -/
def fpSign (i : Instr) (g : Guard) (t : Ty) (d a : SReg) (f : Fmt → Nat → Nat) (s : State) : Out :=
  instr i g (fun s => .done (s.setReg d (BitVec.ofNat 64 (f (scalarFmt t) (fpBits (scalarFmt t) (s.reg a)))))) s

/-- FCMP (R69): the condition, and whether a quiet NaN raises NV too. -/
def fpCmp (i : Instr) (g : Guard) (t : Ty) (d : PReg) (a b : SReg) (quiet : Bool) (f : FpVal → FpVal → Bool)
    (s : State) : Out :=
  instr i g (fun s =>
    let x := fpReg (scalarFmt t) s a
    let y := fpReg (scalarFmt t) s b
    let nv := x.isSig || y.isSig || (quiet && (x.isNan || y.isNan))
    .done ((s.setPred d (predOf (f x y))).raise (if nv then Flags.nv else 0))) s

/-- The rounding mode a conversion names: 0 for FCSR.RM, else a mode plus 1 (R70). -/
def modeOf (s : State) (rm : Nat) : Nat := if rm = 0 then s.rm else rm - 1

/-- The exact value of an integer operand of a type (R70). -/
def intValue (t : Ty) (x : Nat) : Int := Alu.value (isSigned t) t.bits (BitVec.ofNat t.bits x)

/-- FCVT's result and flags (R70). -/
def fcvtResult (t src : Ty) (mode : Nat) (x : Word) : Word × Flags :=
  let v := if src.isInt then FpVal.ofInt (intValue src x.toNat) else (scalarFmt src).val (fpBits (scalarFmt src) x)
  if t.isInt then
    let r := toInt t.bits (isSigned t) mode v
    let y : BitVec t.bits := BitVec.ofNat t.bits r.1
    (if isSigned t then y.signExtend 64 else y.setWidth 64, r.2)
  else
    let r := (scalarFmt t).convert mode v
    (BitVec.ofNat 64 r.1, r.2)

/-! ## Meanings -/

/-- FADD (R67). -/
def execFadd (g : Guard) (t : Ty) (d a b : SReg) (s : State) : Out :=
  fpBin (.fadd g t d a b) g t d a b (fun F m x y => F.add m x y) s

/-- FSUB (R67). -/
def execFsub (g : Guard) (t : Ty) (d a b : SReg) (s : State) : Out :=
  fpBin (.fsub g t d a b) g t d a b (fun F m x y => F.add m x y.neg) s

/-- FMUL (R67). -/
def execFmul (g : Guard) (t : Ty) (d a b : SReg) (s : State) : Out :=
  fpBin (.fmul g t d a b) g t d a b (fun F m x y => F.mul m x y) s

/-- FDIV (R67). -/
def execFdiv (g : Guard) (t : Ty) (d a b : SReg) (s : State) : Out :=
  fpBin (.fdiv g t d a b) g t d a b (fun F m x y => F.div m x y) s

/-- FSQRT (R67). -/
def execFsqrt (g : Guard) (t : Ty) (d a : SReg) (s : State) : Out :=
  fpUn (.fsqrt g t d a) g t d a (fun F m x => F.sqrt m x) s

/-- FMIN (R67). -/
def execFmin (g : Guard) (t : Ty) (d a b : SReg) (s : State) : Out :=
  fpSelect (.fmin g t d a b) g t d a b false s

/-- FMAX (R67). -/
def execFmax (g : Guard) (t : Ty) (d a b : SReg) (s : State) : Out :=
  fpSelect (.fmax g t d a b) g t d a b true s

/-- FNEG (R67). -/
def execFneg (g : Guard) (t : Ty) (d a : SReg) (s : State) : Out :=
  fpSign (.fneg g t d a) g t d a Fmt.negate s

/-- FABS (R67). -/
def execFabs (g : Guard) (t : Ty) (d a : SReg) (s : State) : Out :=
  fpSign (.fabs g t d a) g t d a Fmt.absolute s

/-- FMA (R68). -/
def execFma (g : Guard) (t : Ty) (d a b c : SReg) (s : State) : Out :=
  fpFma (.fma g t d a b c) g t d a b c false false s

/-- FMS (R68). -/
def execFms (g : Guard) (t : Ty) (d a b c : SReg) (s : State) : Out :=
  fpFma (.fms g t d a b c) g t d a b c false true s

/-- FNMA (R68). -/
def execFnma (g : Guard) (t : Ty) (d a b c : SReg) (s : State) : Out :=
  fpFma (.fnma g t d a b c) g t d a b c true false s

/-- FNMS (R68). -/
def execFnms (g : Guard) (t : Ty) (d a b c : SReg) (s : State) : Out :=
  fpFma (.fnms g t d a b c) g t d a b c true true s

/-- FCMP.EQ (R69). -/
def execFcmpEq (g : Guard) (t : Ty) (d : PReg) (a b : SReg) (s : State) : Out :=
  fpCmp (.fcmpEq g t d a b) g t d a b false (fun x y => FpVal.eq x y) s

/-- FCMP.LT (R69). -/
def execFcmpLt (g : Guard) (t : Ty) (d : PReg) (a b : SReg) (s : State) : Out :=
  fpCmp (.fcmpLt g t d a b) g t d a b true (fun x y => FpVal.lt x y) s

/-- FCMP.LE (R69). -/
def execFcmpLe (g : Guard) (t : Ty) (d : PReg) (a b : SReg) (s : State) : Out :=
  fpCmp (.fcmpLe g t d a b) g t d a b true (fun x y => FpVal.lt x y || FpVal.eq x y) s

/-- FCMP.UN (R69). -/
def execFcmpUn (g : Guard) (t : Ty) (d : PReg) (a b : SReg) (s : State) : Out :=
  fpCmp (.fcmpUn g t d a b) g t d a b false (fun x y => x.isNan || y.isNan) s

/-- FCVT (R70). -/
def execFcvt (g : Guard) (t : Ty) (d a : SReg) (src : Ty) (rm : BitVec 4) (s : State) : Out :=
  instr (.fcvt g t d a src rm) g (fun s =>
    let r := fcvtResult t src (modeOf s rm.toNat) (s.reg a)
    .done ((s.setReg d r.1).raise r.2)) s

/-- FCLASS (R71). -/
def execFclass (g : Guard) (t : Ty) (d a : SReg) (s : State) : Out :=
  instr (.fclass g t d a) g (fun s =>
    .done (s.setReg d (BitVec.ofNat 64 (2 ^ (scalarFmt t).classOf (fpBits (scalarFmt t) (s.reg a)))))) s

end Sys2Proof.Machine
end

