-- ==== Sys2Proof/Machine/Vec.lean ====
section
/-!
DEFINITION. Lanes, jet groups and the shapes of the vector instructions (04_vector R108-R112).
-/

namespace Sys2Proof.Machine

open Sys2Proof

/-- The planes of one lane, from plane 0. -/
abbrev Jet := List Nat

/-- Lane i of a register (R108). -/
def lane (n : Nat) (x : VWord) (i : Nat) : Nat := x.toNat / 2 ^ (n * i) % 2 ^ n

/-- A register from its lanes. -/
def joinLanes (n : Nat) (xs : List Nat) : VWord := BitVec.ofNat 256 (xs.foldr (fun x a => a * 2 ^ n + x % 2 ^ n) 0)

/-- Plane k of a jet. -/
def Jet.plane (x : Jet) (k : Nat) : Nat := x.getD k 0

/-- Lane i of every register of a group. -/
def jetAt (n : Nat) (xs : List VWord) (i : Nat) : Jet := xs.map fun x => lane n x i

/-- The registers of a group after some lanes received a jet; the others keep their bits (R109). -/
def mergeLanes (n : Nat) (old : List VWord) (res : List (Option Jet)) : List VWord :=
  old.zipIdx.map fun xk => joinLanes n (res.zipIdx.map fun ri => match ri.1 with
    | some j => j.getD xk.2 0
    | none => lane n xk.1 ri.2)

namespace State

/-- The registers of a group. -/
def group (s : State) (base : VReg) (count : Nat) : List VWord :=
  (List.range count).map fun k => s.vreg (base + BitVec.ofNat 5 k)

/-- Write the registers of a group. -/
def setGroup : State → VReg → List VWord → State
  | s, _, [] => s
  | s, base, x :: xs => setGroup (s.setVreg base x) (base + 1) xs

/-- The group size in force (R110). -/
def gsize (s : State) : Nat := groupSize s.jet

/-- Write the lanes of a destination of `count` registers, and raise the flags of each plane (R109, R111). -/
def writeLanes (s : State) (n : Nat) (d : VReg) (count : Nat) (res : List (Option (Jet × List Flags))) : State :=
  let s' := s.setGroup d (mergeLanes n (s.group d count) (res.map fun r => r.map (·.1)))
  let fl := (List.range 8).map fun k => res.foldl (fun (a : Flags) r => match r with
    | some x => a ||| x.2.getD k 0
    | none => a) 0
  if fl.all (· == 0) then s' else s'.raisePlanes 0 fl

/-- The results of the enabled lanes (R109). -/
def enabledLanes (s : State) (n : Nat) (g : Guard) (f : Nat → Jet × List Flags) : List (Option (Jet × List Flags)) :=
  (List.range (256 / n)).map fun i => if s.guardLane g i then some (f i) else none

/-- Write a grouped destination in the enabled lanes. -/
def vecWrite (s : State) (n : Nat) (g : Guard) (d : VReg) (count : Nat) (f : Nat → Jet × List Flags) : State :=
  s.writeLanes n d count (s.enabledLanes n g f)

/-- The predicate of a condition by lane (R109): 0 in disabled lanes and above the lanes. -/
def lanePred (s : State) (n : Nat) (g : Guard) (f : Nat → Bool) : BitVec 32 :=
  (List.range (256 / n)).foldl (fun (x : BitVec 32) i => if s.guardLane g i && f i then x ||| (1#32 <<< i) else x) 0

end State

/-- A vector instruction: guarded lane by lane, and counted. -/
def vector (i : Instr) (body : State → State) (s : State) : Out := instrAll i (fun s => .done ((body s).count 4 1)) s

/-- Planes formed independently. -/
def planes (J : Nat) (f : Nat → Nat × Flags) : Jet × List Flags :=
  let rs := (List.range (J + 1)).map f
  (rs.map (·.1), rs.map (·.2))

/-- Planes formed in turn, each from the ones before it. -/
def recurrence (J : Nat) (f : List (Nat × Flags) → Nat → Nat × Flags) : List (Nat × Flags) :=
  (List.range (J + 1)).foldl (fun rs k => rs ++ [f rs k]) []

/-- A result of planes without flags. -/
def plain (x : Jet) : Jet × List Flags := (x, [])

end Sys2Proof.Machine
end

