-- ==== Sys2Proof/Machine/MemoryIsa.lean ====
section
/-!
DEFINITION. Loads, stores, atomics, reduce packets and cache hints (05_memory_isa R141-R148, 13_dome_memory R277).
-/

namespace Sys2Proof.Machine

open Sys2Proof

/-! ## Loads and stores (R141) -/

/-- The size of a scalar access; the default is .z64. -/
def memBytes (t : Ty) : Nat := if t = .dflt then 8 else t.bits / 8

/-- A loaded value extended to a register by its type. -/
def loadExtend (t : Ty) (x : Word) : Word :=
  match t with
  | .s8 => (x.setWidth 8).signExtend 64
  | .s16 => (x.setWidth 16).signExtend 64
  | .s32 => (x.setWidth 32).signExtend 64
  | _ => x

/-- The type code a journal entry records: that of the type operated on, since a suffix that names the default type behaves
as no suffix does (R139, 01_encoding R25). -/
def journalType (default : Ty) (t : Ty) : BitVec 4 := if t = .dflt then default.code else t.code

/-- The low n bytes of a value. -/
def lowBytes (n : Nat) (x : Word) : Word := x &&& BitVec.ofNat 64 (2 ^ (8 * n) - 1)

/-- The 8-byte words of a jet access that hold an enabled lane: plane, word, and which of its two lanes (R142). -/
def jetWords (s : State) (g : Guard) : List (Nat × Nat × Bool × Bool) :=
  (List.range s.gsize).flatMap fun k => (List.range 4).filterMap fun j =>
    let lo := s.guardLane g (2 * j)
    let hi := s.guardLane g (2 * j + 1)
    if lo || hi then some (k, j, lo, hi) else none

/-- The access of one such word. -/
def jetElem (base : Word) (x : Nat × Nat × Bool × Bool) (data : Word) : Elem :=
  let va := base + BitVec.ofNat 64 (32 * x.1 + 8 * x.2.1)
  if x.2.2.1 then (if x.2.2.2 then { va := va, n := 8, x := data } else { va := va, n := 4, x := lowBytes 4 data })
  else { va := va + 4, n := 4, x := data >>> 32 }

/-- A register with the loaded lanes of its words. -/
def mergeWord (old : Word) (x : Nat × Nat × Bool × Bool) (data : Word) : Word :=
  if x.2.2.1 then (if x.2.2.2 then data else (old &&& 0xFFFFFFFF00000000) ||| lowBytes 4 data)
  else (old &&& 0xFFFFFFFF) ||| (data <<< 32)

/-- Write the loaded words of a jet group. -/
def putJetWords (d : VReg) : State → List ((Nat × Nat × Bool × Bool) × Word) → State
  | s, [] => s
  | s, (x, data) :: xs =>
    let off := 0x100 + 32 * (d.toNat + x.1) + 8 * x.2.1
    putJetWords d (s.setWord off (mergeWord (s.word off) x data)) xs

/-! ## Gather and scatter (R143) -/

/-- The enabled lanes of an instruction of n-bit lanes. -/
def lanesOn (s : State) (n : Nat) (g : Guard) : List Nat := (List.range (256 / n)).filter fun l => s.guardLane g l

/-- The elements of a gather or scatter, by enabled lane and plane, with their addresses. -/
def gatherElems (s : State) (g : Guard) (n : Nat) (a : SReg) (b : VReg) (stride : BitVec 16) : List (Nat × Nat × Word) :=
  (lanesOn s n g).flatMap fun l => (List.range s.gsize).map fun k =>
    (l, k, s.reg a + BitVec.ofNat 64 (lane n (s.vreg b) l * (n / 8)) + BitVec.ofNat 64 k * stride.signExtend 64)

/-- The first misaligned address of a list of elements (R138 step 1). -/
def misaligned (n : Nat) (es : List (Nat × Nat × Word)) : Option Word :=
  (es.find? fun e => e.2.2.toNat % (n / 8) != 0).map (·.2.2)

/-- Write one element of a jet group. -/
def putLane (s : State) (n : Nat) (d : VReg) (l k : Nat) (x : Word) : State :=
  { s with mem := Mem.store s.mem (s.live (0x100 + 32 * (d.toNat + k) + l * (n / 8))) (n / 8) x }

/-! ## Atomics (R145, R147) -/

/-- What an atomic computes. -/
inductive AtomOp where
  | add | and | or | xor | min | max | swap | cas
  deriving DecidableEq, Repr

def isFp (t : Ty) : Bool := t == .f32 || t == .f64
def atomBytes (t : Ty) : Nat := if t = .s32 ∨ t = .z32 ∨ t = .f32 then 4 else 8

/-- The new value of X, from the old one and the operands (R145, R147). -/
def atomNew (op : AtomOp) (t : Ty) (old b c : Word) : Word :=
  if isFp t then
    let F := scalarFmt t
    match op with
    | .min => BitVec.ofNat 64 (F.minNum false (fpBits F old) (fpBits F b)).1
    | .max => BitVec.ofNat 64 (F.minNum true (fpBits F old) (fpBits F b)).1
    | _ => BitVec.ofNat 64 (F.add 0 (F.val (fpBits F old)) (F.val (fpBits F b))).1
  else
    let f : (w : Nat) → BitVec w → BitVec w → BitVec w :=
      match op with
      | .add => Alu.add
      | .and => Alu.and
      | .or => Alu.or
      | .xor => Alu.xor
      | .min => Alu.min (isSigned t)
      | .max => Alu.max (isSigned t)
      | .swap => fun _ _ y => y
      | .cas => fun _ x _ => x
    match op with
    | .cas => if lowBytes (atomBytes t) old = lowBytes (atomBytes t) b then c else old
    | _ => intOp t f old b

/-- The old value as w[D] receives it (R145). -/
def atomOld (t : Ty) (x : Word) : Word := if t = .s32 then (x.setWidth 32).signExtend 64 else x

namespace State

/-- Read, modify and write X as one access (R145); a failed CAS writes nothing. A poisoned word stays poisoned
(assumption log 11). -/
def atomApply (s : State) (loc : Nat) (op : AtomOp) (t : Ty) (b c : Word) : Word × State :=
  let n := atomBytes t
  let old := s.peek 64 loc n
  let bad := s.isPoisoned loc
  if op = .cas ∧ lowBytes n old ≠ lowBytes n b then (old, s)
  else
    let s := s.poke loc n (atomNew op t old b c)
    (old, if bad then { s with poison := Tab.put s.poison (poisonKey loc) () } else s)

/-- The place of an AMO: readable and writable, and not the workspace (R137, R145). -/
def atomPlace (s : State) (x : Word) (n : Nat) (domeOnly : Bool) : Chk (Place × State) :=
  match aligned x n with
  | .error e => .error e
  | .ok _ =>
    if x.toNat < 0x4000 ∨ (domeOnly = true ∧ isDomeWindow x = false) then trapWith Cause.storeFault x
    else match s.place .store x with
      | none => trapWith Cause.storeFault x
      | some (p, s') => match s'.place .load x with
        | none => trapWith Cause.storeFault x
        | some _ => match s'.noOverlap p n with
          | .error e => .error e
          | .ok _ => .ok (p, s')

/-- AMO at its bank or home slice (R145); outside the owner's windows it is not performed, reads poison, and raises
MACHINE_CHECK (18_protection R334). -/
def amo (s : State) (op : AtomOp) (t : Ty) (x b c : Word) : Chk (Word × State) :=
  let n := atomBytes t
  match s.atomPlace x n false with
  | .error e => .error e
  | .ok (p, s) =>
    match s.handleGuard p.loc n (atomNew op t (s.peek 64 p.loc n) b c) with
    | .error e => .error e
    | .ok new =>
      if p.outside then .error (.trapIn { code := Cause.poison, tval := x &&& ~~~7 }
        ((s.postFault 3 0 p.loc).machineCheck s.core.region false 0x334))
      else
      let s := s.stampAmo p
      if s.isPoisoned p.loc then .error (.trapIn { code := Cause.poison, tval := x &&& ~~~7 } s)
      else if (s.handleEntryAt p.loc).isSome then
        let old := s.peek 64 p.loc n
        .ok (old, s.poke p.loc n new)
      else .ok (s.atomApply p.loc op t b c)

/-! ## Ordered streams (R146, 13_dome_memory R277) -/

/-- The stream table and hold buffer of the bank of a word. -/
def streamsOf (s : State) (loc : Nat) : List (Nat × BitVec 32) := Tab.get (s.domeAt (locDome loc)).streams (locBank loc) []
def holdsOf (s : State) (loc : Nat) : List HeldOp := Tab.get (s.domeAt (locDome loc)).holds (locBank loc) []

def putTab {α : Type} (t : Tab (List α)) (k : Nat) (xs : List α) : Tab (List α) :=
  if xs.isEmpty then Tab.del t k else Tab.put t k xs

def setStreams (s : State) (loc : Nat) (xs : List (Nat × BitVec 32)) : State :=
  let d := s.domeAt (locDome loc)
  s.setDomeAt (locDome loc) { d with streams := putTab d.streams (locBank loc) xs }

def setHolds (s : State) (loc : Nat) (xs : List HeldOp) : State :=
  let d := s.domeAt (locDome loc)
  s.setDomeAt (locDome loc) { d with holds := putTab d.holds (locBank loc) xs }

/-- The operation of a packet or AMO by its FN<5:0>: 01/11 MIN, 02/12 MAX of RED, else ADD. -/
def redOp (op : BitVec 6) : AtomOp :=
  if op = 0x01 ∨ op = 0x11 then .min else if op = 0x02 ∨ op = 0x12 then .max else .add

/-- A grant of a bank that reads and writes no word moves its pointer (13_dome_memory R275, R277). -/
def grantOnly (s : State) (loc port : Nat) : State :=
  let d := s.domeAt (locDome loc)
  (s.setDomeAt (locDome loc) { d with ptr := Tab.put d.ptr (locBank loc) port }).countBy 8 1

/-- The stream after an operation of sequence number NEXT applied; the held operation it releases is presented again. Operations
still held for X when LAST closes the stream stay held (assumption log 66). -/
def advance (s : State) (h : HeldOp) : State :=
  let others := (s.streamsOf h.loc).filter fun e => e.1 != h.loc
  if h.last then s.setStreams h.loc others
  else
    let s := s.setStreams h.loc (others ++ [(h.loc, h.q + 1)])
    s.setHolds h.loc ((s.holdsOf h.loc).map fun x => if x.loc = h.loc ∧ x.q = h.q + 1 then { x with ready := true } else x)

end State

/-- What a bank does with an ordered operation. -/
inductive Ordered where
  | applied (old : Word) (s : State)
  | held (s : State)
  | refused
  /-- An AMO.FADD.ORD whose turn it is has read a poisoned word: it is not applied, and NEXT stays (R138 step 3). -/
  | poisoned

namespace State

/-- An ordered operation reaches its bank (R146): the word is read only if the operation is neither held nor refused
(13_dome_memory R277). -/
def orderedArrive (s : State) (h : HeldOp) : Ordered :=
  let st := s.streamsOf h.loc
  let entry := (st.find? fun e => e.1 == h.loc).map (·.2)
  let next := entry.getD 0
  let holds := s.holdsOf h.loc
  if (holds.any fun x => x.loc == h.loc && x.q == h.q) || decide (h.q.toNat < next.toNat) || (entry.isNone && decide (8 ≤ st.length)) then
    .refused
  else if h.q = next then
    if h.pkt.isNone = true ∧ s.isPoisoned h.loc = true then .poisoned
    else
    let r := s.atomApply h.loc (redOp h.op) h.ty h.data 0
    .applied r.1 (r.2.advance h)
  else if 32 ≤ holds.length then .refused
  else
    let s := if entry.isNone then s.setStreams h.loc (st ++ [(h.loc, 0)]) else s
    .held (s.setHolds h.loc (s.holdsOf h.loc ++ [h]))

end State

/-! ## The shapes -/

/-- AMO of one operation: w[D] receives the old value (R145). -/
def amoOp (i : Instr) (g : Guard) (t : Ty) (d a b : SReg) (c : Option SReg) (op : AtomOp) (s : State) : Out :=
  instr i g (fun s =>
    (s.amo op t (s.reg a) (s.reg b) (match c with | some r => s.reg r | none => 0)).run s fun (old, s) =>
      .done (s.setReg d (atomOld t old))) s

/-- The window check of RED: any dome-memory window; an own-dome bank of another tenant faults (R136, R147). -/
def redCheck (s : State) (x : Word) (n : Nat) : Chk Nat :=
  match State.aligned x n with
  | .error e => .error e
  | .ok _ =>
    if State.isDomeWindow x = false then trapWith Cause.storeFault x
    else if State.isRemote x then .ok (State.remoteLoc x)
    else match s.place .store x with
      | some (p, _) => .ok p.loc
      | none => trapWith Cause.storeFault x

/-- Issue a RED packet (R139, R146, R147): one journal entry in arrival mode, two in ordered mode. -/
def sendRed (s : State) (op : BitVec 6) (t : Ty) (x : Word) (loc n : Nat) (b : Word) (ord : Option (BitVec 32 × Bool)) :
    State :=
  let ts := s.postTs
  let e (data : Word) : JEntry := { op := op, ty := journalType .s64 t, st := 1, kind := 1, size := State.logSize n, vaddr := x.setWidth 48,
                                    data := data, ts := BitVec.ofNat 64 ts }
  let k := s.freeEntry
  let s := s.setLt ts
  let s := match ord with
    | none => s.setEntry k (e b)
    | some (q, last) =>
      let s := s.setEntry k (e ((q.setWidth 64 <<< 32) ||| (if last then 0x80000000 else 0)))
      let m := s.freeEntry
      (s.setEntry m (e b)).onCore fun c => { c with journal := c.journal.modify k fun j => { j with mate := some m } }
  s.sendPort n (s.packet k loc (.red loc n op t b ord))

/-- RED of one operation. -/
def redInstr (i : Instr) (g : Guard) (t : Ty) (a b : SReg) (op : BitVec 6) (ord : Option (SReg × BitVec 1)) (s : State) : Out :=
  instr i g (fun s =>
    let n := atomBytes t
    (redCheck s (s.reg a) n).run s fun loc =>
      let need := if ord.isSome then 2 else 1
      if s.freeEntries < need then .wait (.journal need) s
      else .done (sendRed s op t (s.reg a) loc n (lowBytes n (s.reg b))
        (ord.map fun x => ((s.reg x.1).setWidth 32, x.2 == 1)))) s

/-! ## Cache hints (R148) -/

namespace State

/-- Write a line back to the L2 and drop it from a Spire's cache. -/
def dropLine (s : State) (sp ln : Nat) : State :=
  match Tab.find? (s.spireAt sp).lines ln with
  | none => s
  | some l => if l.owned then (s.returnLine sp ln).count 28 1 else s.returnLine sp ln

/-- PREF: fetch a line into the Spire cache or the L2, without any effect on values or logical time. -/
def prefetch (s : State) (va : Word) (level : Nat) : State :=
  match s.place .load va with
  | none => s
  | some (p, s') =>
    if isHbm p.loc && s'.kindAt p != 2 && !p.outside then
      if level = 0 then (s'.loadGlobal p 64 1).2.onCore fun k => { k with lt := s.core.lt } else (s'.sliceLine p.home (p.loc / 128) false).2
    else s'

/-- A line a Spire cache holds becomes the first of its set for replacement. -/
def markFirst (s : State) (sp ln : Nat) : State :=
  let x := s.spireAt sp
  match Tab.find? x.lines ln with
  | none => s
  | some _ => s.setSpireAt sp { x with sets := Tab.put x.sets (ln % 256) ((Tab.get x.sets (ln % 256) {}).enter 3 (fun _ => true) ln true).1 }

/-- CHINT op 0: write back and drop; op 1: the line is replaced first. -/
def cacheHint (s : State) (va : Word) (hop : Nat) : State :=
  match s.place .load va with
  | none => s
  | some (p, s') =>
    if isHbm p.loc then
      if hop = 0 then s'.dropLine s'.mySpire (p.loc / 128) else s'.markFirst s'.mySpire (p.loc / 128)
    else s'

end State

/-! ## Meanings -/

/-- LD (R141). -/
def execLd (g : Guard) (t : Ty) (d a : SReg) (b : OpB) (s : State) : Out :=
  instr (.ld g t d a b) g (fun s =>
    (s.coreLoad (s.reg a + s.opB b) (memBytes t)).run s fun (x, s) => .done (s.setReg d (loadExtend t x))) s

/-- ST (R141): posted through a remote window. -/
def execSt (g : Guard) (t : Ty) (a : SReg) (b : OpB) (c : SReg) (s : State) : Out :=
  instr (.st g t a b c) g (fun s =>
    s.coreStore 0 (journalType .z64 t) { va := s.reg a + s.opB b, n := memBytes t, x := lowBytes (memBytes t) (s.reg c) } .done) s

/-- VLD (R142). -/
def execVld (g : Guard) (d : VReg) (a : SReg) (b : OpB) (s : State) : Out :=
  instrAll (.vld g d a b) (fun s =>
    let ws := jetWords s g
    let base := s.reg a + s.opB b
    if ws.isEmpty then .done s
    else (State.aligned base 32).run s fun _ =>
      (s.loadElems (ws.map fun x => jetElem base x 0)).run s fun (xs, s) => .done (putJetWords d s (ws.zip xs))) s

/-- VST (R142). -/
def execVst (g : Guard) (a : SReg) (b : OpB) (c : VReg) (s : State) : Out :=
  instrAll (.vst g a b c) (fun s =>
    let ws := jetWords s g
    let base := s.reg a + s.opB b
    if ws.isEmpty then .done s
    else (State.aligned base 32).run s fun _ =>
      s.storeElems (ws.map fun x => jetElem base x (s.word (0x100 + 32 * (c.toNat + x.1) + 8 * x.2.1))) .done) s

/-- VGATHER (R143). -/
def execVgather (g : Guard) (t : Ty) (d : VReg) (a : SReg) (b : VReg) (stride : BitVec 16) (s : State) : Out :=
  instrAll (.vgather g t d a b stride) (fun s =>
    let n := t.bits
    let es := gatherElems s g n a b stride
    match misaligned n es with
    | some x => .trap { code := Cause.misalign, tval := x } s
    | none => (s.loadElems (es.map fun e => { va := e.2.2, n := n / 8 })).run s fun (xs, s) =>
        .done ((es.zip xs).foldl (fun s ex => putLane s n d ex.1.1 ex.1.2.1 ex.2) s)) s

/-- VSCATTER (R143): in ascending lanes, then planes. -/
def execVscatter (g : Guard) (t : Ty) (a : SReg) (b c : VReg) (stride : BitVec 16) (s : State) : Out :=
  instrAll (.vscatter g t a b c stride) (fun s =>
    let n := t.bits
    let es := gatherElems s g n a b stride
    match misaligned n es with
    | some x => .trap { code := Cause.misalign, tval := x } s
    | none => s.storeElems (es.map fun e =>
        { va := e.2.2, n := n / 8, x := BitVec.ofNat 64 (lane n (s.vreg (c + BitVec.ofNat 5 e.2.1)) e.1) }) .done) s

/-- LDB (R144). -/
def execLdb (g : Guard) (d : VReg) (a : SReg) (nM1 : BitVec 3) (s : State) : Out :=
  instr (.ldb g d a nM1) g (fun s =>
    let x := s.reg a
    let n := nM1.toNat + 1
    if x.toNat % 8 ≠ 0 ∨ 2048 < x.toNat % 2048 + 8 * n then .trap { code := Cause.misalign, tval := x } s
    else if x.toNat < 0x1800000 ∨ 0x2000000 ≤ x.toNat then .trap { code := Cause.loadFault, tval := x } s
    else (s.loadElems ((List.range n).map fun j => { va := x + BitVec.ofNat 64 (8 * j), n := 8 })).run s fun (xs, s) =>
      .done ((s.setGroup d ((List.range ((n + 3) / 4)).map fun r =>
        BitVec.ofNat 256 ((List.range 4).foldl (fun z j => z + (xs.getD (4 * r + j) 0).toNat * 2 ^ (64 * j)) 0))).count 15 n)) s

/-- AMO.ADD (R145). -/
def execAmoAdd (g : Guard) (t : Ty) (d a b : SReg) (s : State) : Out :=
  amoOp (.amoAdd g t d a b) g t d a b none .add s

/-- AMO.AND (R145). -/
def execAmoAnd (g : Guard) (t : Ty) (d a b : SReg) (s : State) : Out :=
  amoOp (.amoAnd g t d a b) g t d a b none .and s

/-- AMO.OR (R145). -/
def execAmoOr (g : Guard) (t : Ty) (d a b : SReg) (s : State) : Out :=
  amoOp (.amoOr g t d a b) g t d a b none .or s

/-- AMO.XOR (R145). -/
def execAmoXor (g : Guard) (t : Ty) (d a b : SReg) (s : State) : Out :=
  amoOp (.amoXor g t d a b) g t d a b none .xor s

/-- AMO.MIN (R145). -/
def execAmoMin (g : Guard) (t : Ty) (d a b : SReg) (s : State) : Out :=
  amoOp (.amoMin g t d a b) g t d a b none .min s

/-- AMO.MAX (R145). -/
def execAmoMax (g : Guard) (t : Ty) (d a b : SReg) (s : State) : Out :=
  amoOp (.amoMax g t d a b) g t d a b none .max s

/-- AMO.SWAP (R145). -/
def execAmoSwap (g : Guard) (t : Ty) (d a b : SReg) (s : State) : Out :=
  amoOp (.amoSwap g t d a b) g t d a b none .swap s

/-- AMO.CAS (R145). -/
def execAmoCas (g : Guard) (t : Ty) (d a b c : SReg) (s : State) : Out :=
  amoOp (.amoCas g t d a b c) g t d a b (some c) .cas s

/-- AMO.FADD (R145): the default type is .f64; rounding is RNE and flags are discarded. -/
def execAmoFadd (g : Guard) (t : Ty) (d a b : SReg) (s : State) : Out :=
  amoOp (.amoFadd g t d a b) g (if t = .dflt then .f64 else t) d a b none .add s

/-- AMO.FADD.ORD (R146): waits while the bank holds it; a refusal is the exact trap REMOTE_REFUSED; a poisoned word raises POISON
when its turn has come, at once or once it is released (R138). -/
def execAmoFaddOrd (g : Guard) (t : Ty) (d a b c : SReg) (last : BitVec 1) (s : State) : Out :=
  instr (.amoFaddOrd g t d a b c last) g (fun s =>
    let ty : Ty := if t = .dflt then .f64 else t
    let x := s.reg a
    let poison : Trap := { code := Cause.poison, tval := x &&& ~~~7 }
    if s.core.amoBad then .trap poison (s.onCore fun k => { k with amoBad := false })
    else match s.core.amo with
    | some old => .done ((s.setReg d old).onCore fun k => { k with amo := none })
    | none =>
      (s.atomPlace x (atomBytes ty) true).run s fun (p, s) =>
        if (s.holdsOf p.loc).any fun h => h.pkt.isNone && h.core == s.cur then .wait (.held (locBank p.loc)) s
        else
          let h : HeldOp := { loc := p.loc, q := (s.reg c).setWidth 32, last := (last == 1), port := s.corePort p, core := s.cur
                              op := 9, ty := ty, n := atomBytes ty, data := s.reg b }
          match s.orderedArrive h with
          | .applied old s => .done ((s.stampAmo p).setReg d old)
          | .held s => .wait (.held (locBank p.loc)) ((s.grantOnly p.loc h.port).count 13 1)
          | .refused => .trap { code := Cause.remoteRefused, tval := x } ((s.grantOnly p.loc h.port).count 14 1)
          | .poisoned => .trap poison (s.stampAmo p)) s

/-- RED.ADD (R147). -/
def execRedAdd (g : Guard) (t : Ty) (a b : SReg) (s : State) : Out :=
  redInstr (.redAdd g t a b) g t a b 0x00 none s

/-- RED.MIN (R147). -/
def execRedMin (g : Guard) (t : Ty) (a b : SReg) (s : State) : Out :=
  redInstr (.redMin g t a b) g t a b 0x01 none s

/-- RED.MAX (R147). -/
def execRedMax (g : Guard) (t : Ty) (a b : SReg) (s : State) : Out :=
  redInstr (.redMax g t a b) g t a b 0x02 none s

/-- RED.ADD.ORD (R146, R147). -/
def execRedAddOrd (g : Guard) (t : Ty) (a b c : SReg) (last : BitVec 1) (s : State) : Out :=
  redInstr (.redAddOrd g t a b c last) g t a b 0x10 (some (c, last)) s

/-- RED.MIN.ORD (R146, R147). -/
def execRedMinOrd (g : Guard) (t : Ty) (a b c : SReg) (last : BitVec 1) (s : State) : Out :=
  redInstr (.redMinOrd g t a b c last) g t a b 0x11 (some (c, last)) s

/-- RED.MAX.ORD (R146, R147). -/
def execRedMaxOrd (g : Guard) (t : Ty) (a b c : SReg) (last : BitVec 1) (s : State) : Out :=
  redInstr (.redMaxOrd g t a b c last) g t a b 0x12 (some (c, last)) s

/-- PREF (R148). -/
def execPref (g : Guard) (a : SReg) (level : BitVec 2) (s : State) : Out :=
  instr (.pref g a level) g (fun s => .done (s.prefetch (s.reg a) level.toNat)) s

/-- CHINT (R148). -/
def execChint (g : Guard) (a : SReg) (hop : BitVec 2) (s : State) : Out :=
  instr (.chint g a hop) g (fun s => .done (s.cacheHint (s.reg a) hop.toNat)) s

end Sys2Proof.Machine
end

