-- ==== Sys2Proof/Machine/Sync.lean ====
section
/-!
DEFINITION. Timelines, barriers, RECHAIN, fences and wakes (02_scalar R84, 05_memory_isa R152-R159, 13_dome_memory R281,
R282, 15_consistency R296-R302).
-/

namespace Sys2Proof.Machine

open Sys2Proof

namespace State

/-- The slot-table entry that binds the current core's Spire (09_execution R240), and a word of it. -/
def bindEntry (s : State) : BitVec 512 := Tab.get s.slotTable s.mySpire 0
def bindWord (e : BitVec 512) (k : Nat) : Word := e.extractLsb' (64 * k) 64

/-- The physical dome of a logical dome, by the route table (R240). -/
def routeDome (e : BitVec 512) (l : Nat) : Nat := ((bindWord e 3).extractLsb' (3 * l) 3).toNat

/-! ## Barrier objects (R154, R155) -/

/-- The object a slot names: its physical dome and its number (R154). -/
def barrierSlot (s : State) (slot : BitVec 8) : Chk (Nat × Nat) :=
  let bwin := s.word Ws.bwin
  let dome := (bwin.extractLsb' 13 3).toNat
  let idx := (bwin.extractLsb' 0 13).toNat + slot.toNat
  let e := s.bindEntry
  let grant := bindWord e 4
  let base := (grant.extractLsb' 0 13).toNat
  if 8191 < idx then trapWith Cause.illegal (slot.setWidth 64)
  else if dome ≠ (grant.extractLsb' 13 3).toNat ∨ idx < base ∨ base + (grant.extractLsb' 16 9).toNat ≤ idx then
    trapWith Cause.storeFault (BitVec.ofNat 64 (dome * 8192 + idx))
  else .ok (routeDome e dome, idx)

def setBarrier (s : State) (d obj : Nat) (o : BObj) : State :=
  let x := s.domeAt d
  s.setDomeAt d { x with barriers := Tab.put x.barriers obj o }

/-- The evaluation of R155: the phase flips when the arrivals suffice and no bytes are pending; it releases what its own arrivals
and bytes carried (15_consistency R299). -/
def flip (o : BObj) : BObj :=
  if o.expect.toNat ≤ o.arrived.toNat ∧ o.pending = 0 then
    { o with phase := !o.phase, arrived := 0, relTs := o.accTs, accTs := 0 } else o

/-- A core that waits for the end of a phase of an object is released (R156, 13_dome_memory R282). -/
def releaseCore (d obj : Nat) (phase : Bool) (k : Core) : Core :=
  let waits := match k.status with
    | .waiting (.barrier d' o' p) => d' == d && o' == obj && p == phase
    | .waiting (.rechain d' o' p) => d' == d && o' == obj && p == phase
    | _ => false
  if waits then { k with released := true } else k

/-- The end of a phase ends the waits of the arrivals a core has counted for it, whatever the core does now (R164): their
objects are named by logical dome, which the core's Spire places in a dome. -/
def endArrivals (dome : Nat → Nat) (d obj : Nat) (phase : Bool) (k : Core) : Core :=
  if k.bsync.isEmpty then k
  else { k with bsync := k.bsync.map fun a =>
    if a.obj == obj && a.phase == phase && dome a.dome == d then { a with ended := true } else a }

/-- Evaluate an object: a flip is delivered to every core that waits for it (13_dome_memory R282). -/
def evaluate (s : State) (d obj : Nat) : State :=
  let o := s.barrierAt d obj
  let o' := flip o
  if o'.phase = o.phase then s
  else
    let s := s.setBarrier d obj o'
    { s with cores := s.cores.map fun ck =>
        (ck.1, endArrivals (routeDome (Tab.get s.slotTable (spireOf ck.1) 0)) d obj o.phase (releaseCore d obj o.phase ck.2)) }

/-- What BSTAT reads of an object (R155). -/
def bstatWord (b : BObj) : Word := BitVec.ofBool b.phase ++ b.err ++ (0 : BitVec 4) ++ b.arrived ++ BitVec.ofNat 40 b.pending

/-- A BSTAT of the cycle that ends reads its object after what the cycle has brought (13_dome_memory R282). -/
def endBstat (s : State) (x : Nat × SReg × Nat × Nat) : State :=
  { ({ s with cur := x.1 } : State).setReg x.2.1 (bstatWord (s.barrierAt x.2.2.1 x.2.2.2)) with cur := s.cur }

/-- Evaluate the objects that a core cycle has changed, and end its BSTATs. -/
def endCycle (s : State) : State :=
  let t : State := s.evals.foldl (fun (t : State) x => t.evaluate x.1 x.2) { s with evals := [] }
  t.bstats.foldl endBstat { t with bstats := [] }

/-- Evaluate some of the objects that the present core cycle has changed before it ends, with their BSTATs: those of a partition that
stops in it (R155, 16_traps R316). -/
def settleObjects (s : State) (mine : Nat × Nat → Bool) : State :=
  let t : State := (s.evals.filter mine).foldl (fun (t : State) x => t.evaluate x.1 x.2) { s with evals := s.evals.filter fun x => !mine x }
  let own (x : Nat × SReg × Nat × Nat) : Bool := mine x.2.2
  (t.bstats.filter own).foldl endBstat { t with bstats := t.bstats.filter fun x => !own x }

/-- A core goes on within the cycle, so that its register keeps what the core makes of it: the BSTATs of the cores named are over. -/
def dropBstats (s : State) (mine : Nat → Bool) : State := { s with bstats := s.bstats.filter fun x => !mine x.1 }

/-- Core cycles pass. What reached a barrier object in one cycle has been applied together, and is evaluated when the cycle
ends (05_memory_isa R155, 13_dome_memory R281). -/
def tick (s : State) (dt : Nat) : State :=
  if dt = 0 then s else { s.endCycle with cycle := s.cycle + dt }

/-- Change an object that is then due for evaluation. -/
def applyAt (s : State) (d obj : Nat) (f : BObj → BObj) : State :=
  let s := s.setBarrier d obj (f (s.barrierAt d obj))
  { s with evals := if s.evals.contains (d, obj) then s.evals else s.evals ++ [(d, obj)] }

/-- The arrivals of the present core cycle at an object. -/
def arrivalsNow (s : State) (o : BObj) : BitVec 16 := if o.now.1 = s.cycle then o.now.2 else 0

/-- The failing code that the present core cycle has brought to an object. -/
def errorNow (s : State) (o : BObj) : BitVec 3 := if o.errNow.1 = s.cycle then o.errNow.2 else 0

/-- An arrival of the current core, with the writes it releases (R156, R296). -/
def arrive (s : State) (d obj : Nat) : State :=
  s.applyAt d obj fun o => { o with arrived := o.arrived + 1, now := (s.cycle, s.arrivalsNow o + 1)
                                    accTs := max o.accTs (max s.ltNow s.core.grantTs) }

/-- The counted arrival of the current instruction (R164). -/
def counted (s : State) : Option Arrival := s.core.bsync.find? fun a => a.wp == s.core.wp && a.pc == s.core.pc

/-- The record of an arrival of the current instruction, which returned a phase. -/
def arrival (s : State) (obj : Nat) (rechain phase : Bool) : Arrival :=
  { wp := s.core.wp, pc := s.core.pc, phase := phase, dome := ((s.word Ws.bwin).extractLsb' 13 3).toNat, obj := obj, rechain := rechain }

/-- The wait of the current instruction is over: its arrival is forgotten. -/
def forgetArrival (k : Core) : Core := { k with bsync := k.bsync.filter fun a => !(a.wp == k.wp && a.pc == k.pc) }

/-- Arrive once, then wait for the flip; `finish` completes (BSYNC and RECHAIN). -/
def arriveWait (s : State) (slot : BitVec 8) (rechain : Bool) (finish : Nat → Nat → Bool → State → Res) : Res :=
  (s.barrierSlot slot).run s fun (d, o) =>
    let check (a : Arrival) (s : State) : Res :=
      if s.core.released || a.ended || (s.barrierAt d o).phase != a.phase then
        finish d o a.phase ((s.acquire (s.barrierAt d o).relTs).onCore forgetArrival)
      else .wait (if rechain then .rechain d o a.phase else .barrier d o a.phase) s
    match s.counted with
    | some a => check a s
    | none =>
      if s.storesSettled = false then .wait (.stores true) s
      else
        let a := s.arrival o rechain (s.barrierAt d o).phase
        check a ((s.arrive d o).onCore fun k => { k with bsync := a :: k.bsync })

/-! ## RECHAIN (02_scalar R84) -/

/-- Whether a core waits in RECHAIN for the end of a phase of an object. -/
def inRechain (k : Core) (d o : Nat) (phase : Bool) : Bool :=
  match k.status with
  | .waiting (.rechain d' o' p) => d' == d && o' == o && p == phase
  | _ => false

/-- The arrival at RECHAIN that a leader has counted for a phase of an object and that is not over: a trap or a switch has taken
the leader out of its wait. -/
def rechainOf (k : Core) (o : Nat) (phase : Bool) : Option Arrival := k.bsync.find? fun a => a.rechain && a.obj == o && a.phase == phase

/-- Where the chain goes on (R84): after the leader's RECHAIN, which stands where the leader waits, or where it was counted
if a trap or a switch has taken the leader out of it. A leader that has completed RECHAIN has been held there until every
member has (`State.lateMember`); one in its handler has left the stream there. -/
def rechainPc (s : State) (l : Nat) (d o : Nat) (phase : Bool) : Word :=
  let lead := s.coreAt l
  if l = s.cur ∨ inRechain lead d o phase = true then lead.pc + 8
  else match rechainOf lead o phase with
    | some a => a.pc + 8
    | none => if lead.away = 0 then lead.pc else lead.leftAt

/-- The record of a member whose RECHAIN completes: it is attached, and is at the instruction after the leader's RECHAIN as
soon as every attached member is. One that completes after its leader takes part in what the leader does next. A member whose
leader has exited goes on alone (assumption log 25). -/
def rechained (k lead : Core) (isLeader late : Bool) (pc : Word) : Core :=
  let alone := lead.status == .exited && !isLeader
  let k' : Core := { forgetArrival k with detached := alone && k.detached, released := false, instret := k.instret + 1
                                          status := .running, pc := if alone then k.pc + 8 else pc }
  { k' with done := k'.chained && (!isLeader || k.away == 0) && !alone && (!late || lead.done) }

/-- The end of a phase completes RECHAIN in every member of the chain that waits for it, the current core among them. -/
def rechainAll (s : State) (d o : Nat) (phase : Bool) : State :=
  let l := s.leaderIdx
  let lead := s.coreAt l
  let pc := s.rechainPc l d o phase
  let ts := (s.barrierAt d o).relTs
  let late := l != s.cur && !inRechain lead d o phase && (rechainOf lead o phase).isNone
  (List.range ((s.core.widthM1).toNat + 1)).foldl (fun (s : State) i =>
    let c := l + i
    let k := s.coreAt c
    if c = s.cur ∨ inRechain k d o phase = true then
      (s.setCoreAt c { rechained k lead (i == 0) late pc with lt := max (max k.lt (4 * s.time)) (ts + 1) }).countFor k.tenant 0 1
    else s) s

/-! ## Timelines (R152, R153) -/

/-- The timeline a binding names: whether of a Graver, and its number; none when unbound. -/
def binding (s : State) (k : BitVec 3) : Option (Bool × Nat) :=
  let x := s.word (Ws.tl k.toNat)
  let idx := (x.extractLsb' 0 4).toNat
  match (x.extractLsb' 6 2).toNat with
  | 1 => if idx ≤ 3 then some (true, idx) else none
  | 2 => some (false, idx)
  | _ => none

/-- Change a timeline of a Spire. -/
def onTimeline (s : State) (graver : Bool) (sp n : Nat) (f : Timeline → Timeline) : State :=
  let x := s.spireAt sp
  if graver then
    s.setSpireAt sp { x with graver := { x.graver with ctx := x.graver.ctx.modify n fun q => { q with tl := f q.tl } } }
  else s.setSpireAt sp { x with copyCtx := x.copyCtx.modify n f }

end State

/-- Completed numbers above the counter move it on while they follow it. -/
def Timeline.absorb : Nat → Timeline → Timeline
  | 0, t => t
  | fuel + 1, t =>
    if t.early.contains (t.comp + 1) then
      absorb fuel { t with comp := t.comp + 1, early := t.early.filter fun n => n != t.comp + 1 }
    else t

/-- The largest timestamp of the writes of the operations numbered n or below (R153, 15_consistency R299). -/
def Timeline.tsUpTo (t : Timeline) (n : Nat) : Nat := t.ts.foldl (fun m x => if x.1 ≤ n then max m x.2 else m) 0

/-- Note the timestamp of the writes of operation n. -/
def Timeline.noteTs (t : Timeline) (n ts : Nat) : Timeline :=
  if ts ≤ t.tsUpTo n then t
  else { t with ts := (t.ts.filter fun x => decide (x.1 < n)) ++ (n, ts) :: t.ts.filter fun x => decide (n < x.1) && decide (ts < x.2) }

/-- Operation n of a timeline completes with a code (R152): the error word keeps the first failure. -/
def Timeline.complete (t : Timeline) (n code ts : Nat) : Timeline :=
  let err := if t.err = 0 ∧ code ≠ 0 then BitVec.ofNat 64 (code * 2 ^ 56 + n % 2 ^ 56) else t.err
  (Timeline.absorb (t.early.length + 1) { t with err := err, early := n :: t.early }).noteTs n ts

namespace State

/-- What a FENCE acquires (15_consistency R295, R299). -/
def fenceTs (s : State) (kinds : BitVec 5) : Nat :=
  let b0 := if kinds.getLsbD 0 then s.core.grantTs else 0
  let b1 := max (if kinds.getLsbD 1 then s.core.copyTs else 0) (if kinds.getLsbD 3 then s.core.chanTs else 0)
  let b2 := if kinds.getLsbD 2 then
      (List.range 4).foldl (fun m c => max m ((s.timeline true s.mySpire c).tsUpTo (nth s.core.lastOp c 0))) 0 else 0
  let b4 := if kinds.getLsbD 4 then s.globalTs else 0
  max (max b0 b1) (max b2 b4)

/-- The number of cores of a region (09_execution R227). -/
def regionCores (r : Region) : Nat :=
  (r.rcb.extractLsb' 64 4).toNat * (r.rcb.extractLsb' 80 6).toNat * (r.rcb.extractLsb' 96 6).toNat

def coreCount (s : State) : Nat :=
  match s.region? s.core.region with
  | some r => regionCores r
  | none => 0

end State

/-! ## Meanings -/

/-- BINIT (R155): it causes no evaluation, and stands before the arrivals and the failures of its cycle (13_dome_memory
R282). -/
def execBinit (g : Guard) (a : SReg) (slot : BitVec 8) (s : State) : Out :=
  instr (.binit g a slot) g (fun s =>
    (s.barrierSlot slot).run s fun (d, o) =>
      .done (s.setBarrier d o { s.barrierAt d o with
        expect := (s.reg a).setWidth 16, arrived := s.arrivalsNow (s.barrierAt d o), err := s.errorNow (s.barrierAt d o) })) s

/-- BARRIVE (R155): applied after the grant or refusal of the core's earlier posted stores (15_consistency R296). -/
def execBarrive (g : Guard) (d : SReg) (slot : BitVec 8) (s : State) : Out :=
  instr (.barrive g d slot) g (fun s =>
    (s.barrierSlot slot).run s fun (dm, o) =>
      if s.storesSettled = false then .wait (.stores false) s
      else .done ((s.arrive dm o).setReg d (BitVec.ofNat 64 (s.barrierAt dm o).phase.toNat))) s

/-- BWAIT (R155, R156). -/
def execBwait (g : Guard) (a : SReg) (slot : BitVec 8) (s : State) : Out :=
  instr (.bwait g a slot) g (fun s =>
    (s.barrierSlot slot).run s fun (d, o) =>
      let ph := (s.reg a).getLsbD 0
      if s.core.released || (s.barrierAt d o).phase != ph then .done (s.acquire (s.barrierAt d o).relTs)
      else .wait (.barrier d o ph) s) s

/-- BSYNC (R155): an arrival, once counted, is not repeated (R164). -/
def execBsync (g : Guard) (slot : BitVec 8) (s : State) : Out :=
  instr (.bsync g slot) g (fun s => s.arriveWait slot false (fun _ _ _ s => .done s)) s

/-- BSTAT (R155): it reads the object after what its cycle has brought, which is noted until the cycle ends (13_dome_memory
R282). -/
def execBstat (g : Guard) (d : SReg) (slot : BitVec 8) (s : State) : Out :=
  instr (.bstat g d slot) g (fun s =>
    (s.barrierSlot slot).run s fun (dm, o) =>
      let b := if s.evals.contains (dm, o) then State.flip (s.barrierAt dm o) else s.barrierAt dm o
      .done { s.setReg d (State.bstatWord b) with bstats := s.bstats ++ [(s.cur, d, dm, o)] }) s

/-- RECHAIN (02_scalar R84). -/
def execRechain (slot : BitVec 8) (s : State) : Out :=
  instrAll (.rechain slot) (fun s => s.arriveWait slot true (fun d o ph s => .asIs (s.rechainAll d o ph))) s

/-- TLWAIT (R153). -/
def execTlwait (g : Guard) (a : BitVec 3) (b : OpB) (s : State) : Out :=
  instr (.tlwait g a b) g (fun s =>
    match s.binding a with
    | none => .trap { code := Cause.illegal, tval := a.setWidth 64 } s
    | some (gr, n) =>
      let num := (s.opB b).toNat
      let t := s.timeline gr s.mySpire n
      if num ≤ t.comp then .done (s.acquire (t.tsUpTo num)) else .wait (.timeline gr s.mySpire n num) s) s

/-- TLREAD (R153). -/
def execTlread (g : Guard) (d : SReg) (a : BitVec 3) (wide : Bool) (selr : BitVec 2) (s : State) : Out :=
  instr (.tlread g d a wide selr) g (fun s =>
    match s.binding a with
    | none => .trap { code := Cause.illegal, tval := a.setWidth 64 } s
    | some (gr, n) =>
      let t := s.timeline gr s.mySpire n
      match selr.toNat with
      | 0 => .done (s.setReg d (BitVec.ofNat 64 t.comp))
      | 1 => .done (s.setReg d (BitVec.ofNat 64 t.sub))
      | 2 => .done (s.setReg d t.err)
      | _ => .done ((s.onTimeline gr s.mySpire n fun t => { t with err := 0 }).setReg d t.err)) s

/-- Whether a rectangle word contains the core at column x and row y of the mesh, to which it is clipped (00_scope R7). -/
def Rect.contains (w : Word) (x y : Nat) : Bool :=
  decide ((w.extractLsb' 0 16).toNat ≤ x) && decide (x ≤ (w.extractLsb' 32 16).toNat) && decide (x ≤ 127) &&
    decide ((w.extractLsb' 16 16).toNat ≤ y) && decide (y ≤ (w.extractLsb' 48 16).toNat) && decide (y ≤ 63)

/-- Whether a rectangle word contains some core of the mesh (00_scope R7; `Rect.holdsCore_iff`). -/
def Rect.holdsCore (w : Word) : Bool :=
  decide ((w.extractLsb' 0 16).toNat ≤ min (w.extractLsb' 32 16).toNat 127) &&
    decide ((w.extractLsb' 16 16).toNat ≤ min (w.extractLsb' 48 16).toNat 63)

/-- Whether a FENCE orders for some core (R157, 15_consistency R300): its rectangle is not empty, or SCOPEMODE takes the
scope of each access from the SHARE of its page, which holds at least the issuing core. -/
def State.fenceOrders (s : State) (a : SReg) : Bool :=
  s.sysctl.getLsbD 0 || Rect.holdsCore (if a = 0 then s.word Ws.scope else s.reg a)

/-- FENCE (R157): it waits for the selected kinds, then orders them before the core's later accesses; an empty rectangle
makes it a wait. Cores outside a scope observe the fenced effects too, one of the outcomes R300 allows (assumption log 17). -/
def execFence (g : Guard) (a : SReg) (kinds : BitVec 5) (s : State) : Out :=
  instr (.fence g a kinds) g (fun s =>
    if s.fenced kinds = true then .done (if s.fenceOrders a then s.acquire (s.fenceTs kinds) else s)
    else .wait (.fence kinds false) s) s

/-- Issue a wake (R139, R158): it takes a journal entry and its place in the order; that of a channel covers the writes its SEND
made (15_consistency R302). -/
def State.postWake (s : State) (target : Nat) (mask : Word) (notify : Bool) : State :=
  let ts := s.postTs
  let k := s.freeEntry
  let e : JEntry := { op := 0, ty := 0, st := 1, kind := 2, size := 3, vaddr := BitVec.ofNat 48 target, data := mask
                      ts := BitVec.ofNat 64 ts, notify := notify }
  ((s.setEntry k e).setLt ts).sendPort 8 (s.packet k target (.wake target mask (if notify then max ts s.core.chanTs else ts)))

/-- WAKE (R158): posted. -/
def execWake (g : Guard) (a : SReg) (b : OpB64) (s : State) : Out :=
  instr (.wake g a b) g (fun s =>
    let target := (s.reg a).toNat % 2 ^ 32
    if s.coreCount ≤ target then .trap { code := Cause.storeFault, tval := s.reg a } s
    else if s.freeEntries = 0 then .wait (.journal 1) s
    else
      .done (s.postWake target (s.opB64 b) false)) s

/-- The timestamp a WAIT acquires on some wake bits (15_consistency R302). -/
def State.wakeStamp (s : State) (hit : Word) : Nat :=
  s.core.wakeTs.foldl (fun m x => if x.1 &&& hit ≠ 0 then max m x.2 else m) 0

/-- WAIT (R158): it clears the bits it took, but not those a wake set in the same core cycle (02_scalar R50). -/
def execWait (g : Guard) (d : SReg) (b : OpB64) (s : State) : Out :=
  instr (.wait g d b) g (fun s =>
    let mask := s.opB64 b
    let hit := s.word Ws.wake &&& mask
    if mask = 0 then .done (s.setReg d 0)
    else if hit = 0 then .wait (.wake mask) s
    else
      let t := (s.setWord Ws.wake (s.word Ws.wake &&& ~~~(mask &&& ~~~s.newWakes))).acquire (s.wakeStamp hit)
      .done ((t.onCore fun k => { k with wakeTs := (k.wakeTs.map fun x => (x.1 &&& ~~~hit, x.2)).filter fun x => x.1 != 0 }).setReg d hit)) s

end Sys2Proof.Machine
end

