-- ==== Sys2Proof/Machine/Engine.lean ====
section
/-!
DEFINITION. The accesses of the engines (15_consistency R298) and the handle checks (18_protection R345, 17_prog_gatecall
R328, R329).
-/

namespace Sys2Proof.Machine

open Sys2Proof

namespace State

/-! ## Engine traffic (R298) -/

/-- The physical Spires of a region's partition. -/
def regionSpires (s : State) (r : Nat) : List Nat :=
  match s.region? r with
  | some x => x.spires
  | none => []

/-- n bytes of a line's image, and whether their sector carries a mark. -/
def fromImage (w : Nat) (x : LineImage) (loc n : Nat) : BitVec w × Bool := (fromLine w x.1 loc n, x.2.getLsbD (loc / 32 % 4))

/-- The newest n bytes, and whether their unit is poisoned. -/
def newest (s : State) (w loc n : Nat) : BitVec w × Bool := (s.peek w loc n, s.isPoisoned loc)

/-- Bytes as the home slice holds them, with their poison: those of an owned line are the ones before it was owned (R298). -/
def homeBytes (s : State) (w loc n : Nat) : BitVec w × Bool :=
  match s.ownerOfLine (loc / 128) with
  | some (_, l) => match l.home with
    | some h => fromImage w h loc n
    | none => s.newest w loc n
  | none => s.newest w loc n

/-- What a Spire's own cache gives its Graver at a logical time: the bytes of a line it owns, or of a line whose lease
covers the time (06_matrix_isa R177, R293). -/
def cachedBytes (s : State) (sp lt w loc n : Nat) : Option (BitVec w × Bool) :=
  match Tab.find? (s.spireAt sp).lines (loc / 128) with
  | none => none
  | some l =>
    if l.owned then some (s.newest w loc n)
    else if max lt (l.wts + 1) ≤ l.rts then some (match l.old with
      | some o => fromImage w o loc n
      | none => s.newest w loc n)
    else none

/-- A dirty line that a region wrote, though others wrote it later, or that one of its Spires holds, is recalled; those of others
are not (R298, R303). -/
def recallOwn (s : State) (region ln : Nat) : State :=
  match s.ownerOfLine ln with
  | some (p, l) => if l.writers.contains region = true ∨ (s.regionSpires region).contains p = true then s.recallLine noSpire ln else s
  | none => s

/-- A line that a Graver has read enters its Spire's cache on a lease (R177, R293), unless another Spire owns it. -/
def leaseTo (s : State) (sp lt ln : Nat) : State :=
  match s.ownerOfLine ln with
  | some _ => s
  | none =>
    let l := Tab.get s.lines ln {}
    let rts := max l.rts (max lt (l.wts + 1) + 256)
    (s.setSliceLine ln { l with rts := rts }).enterSpire sp ln { wts := l.wts, rts := rts, slice := l.home }

/-- The KIND by which an engine's access to a line is cached (21_memory_system R359, 18_protection R345). -/
def engineKind (s : State) (kind ln : Nat) : Nat := if s.handleLine ln then 2 else kind

/-- An engine of a region reads n bytes that lie in one line, at the home slice, with their poison; a Graver reads through its own
Spire's cache: `via` is that Spire and the logical time the operation was accepted at. A page of KIND 2 enters no cache: its
beat is read once (21_memory_system R359, R367). -/
def engineRead (s : State) (region : Nat) (via : Option (Nat × Nat)) (home kind w loc n : Nat) : (BitVec w × Bool) × State :=
  if isHbm loc then
    match via.bind fun x => s.cachedBytes x.1 x.2 w loc n with
    | some v => (v, s)
    | none =>
      let ln := loc / 128
      let kind := s.engineKind kind ln
      let s := s.recallOwn region ln
      if kind = 2 then
        let s := s.activate home ln
        let s := if s.lineHeld ln then s else s.demandBeat loc
        (s.homeBytes w loc n, s)
      else
        let s := (s.sliceLine home ln (kind == 1)).2
        (s.homeBytes w loc n, match via with
          | some x => if kind = 0 then s.leaseTo x.1 x.2 ln else s
          | none => s)
  else (s.newest w loc n, s)

/-- A timestamp of an engine at a bank, through a port (R298, 13_dome_memory R275). -/
def engineBank (s : State) (loc port : Nat) : Nat × State :=
  let d := s.domeAt (locDome loc)
  let b := locBank loc
  let ts := Tab.get d.bclk b 0 + 1
  (ts, (s.setDomeAt (locDome loc) { d with bclk := Tab.put d.bclk b ts, ptr := Tab.put d.ptr b port }).countBy 8 1)

/-- A timestamp of an engine at a slice's scratchpad. -/
def engineSlice (s : State) (loc : Nat) : Nat × State :=
  let x := s.sliceAt (locSlice loc)
  (x.sclk + 1, s.setSliceAt (locSlice loc) { x with sclk := x.sclk + 1 })

/-- Write n bytes; PINS of the handle entries among them stay (17_prog_gatecall R328). -/
def pokeKept {w : Nat} (s : State) (loc n : Nat) (x : BitVec w) : State :=
  (List.range (n / 16 + 2)).foldl (fun (t : State) k =>
    let e := loc / 16 * 16 + 16 * k
    if e < loc + n ∧ (s.handleEntryAt e).isSome = true ∧ t.pinsOf e ≠ s.pinsOf e then t.setPins e (s.pinsOf e) else t) (s.poke loc n x)

/-- A write of an engine to a page of KIND 2, which the home slice performs against memory (21_memory_system R359). -/
def engineUncached (s : State) (home ln : Nat) : Nat × State :=
  let s := ((s.recallLine noSpire ln).activate home ln).keepLeases ln
  let x := s.sliceAt home
  (x.sclk + 1, (s.setSliceAt home { x with sclk := x.sclk + 1 }).noteGlobal (x.sclk + 1))

/-- An engine writes n bytes that lie in one line, on a page of a KIND; the timestamp of the write. -/
def engineWrite {w : Nat} (s : State) (home kind loc n port : Nat) (x : BitVec w) : Nat × State :=
  let ln := loc / 128
  let r := if isDome loc then s.engineBank loc port else if isScratch loc then s.engineSlice loc
    else if s.engineKind kind ln = 2 then s.engineUncached home ln else s.slicedWrite home ln 0 (kind == 1)
  (r.1, r.2.pokeKept loc n x)

/-- A request of an engine outside the windows of its context's owner is not performed: it is recorded, and raises
MACHINE_CHECK in its partition (18_protection R334). -/
def engineOutside (s : State) (region loc : Nat) : State := (s.postFault 3 0 loc).machineCheck region false 0x334

/-! ## Handle checks -/

/-- The entry of a handle of a tenant: its storage address, or none where the slot is beyond the table, free, of another
generation, or holds a nonzero reserved bit (05_memory_isa R151, 17_prog_gatecall R328), or is poisoned (assumption log 61). -/
def handleEntry (s : State) (tenant : Nat) (h : BitVec 32) : Option Nat :=
  let slot := (h.extractLsb' 12 20).toNat
  let a := s.handleLoc tenant slot
  let w0 := s.peek 64 a 8
  let w1 := s.peek 64 (a + 8) 8
  if slot ≤ ((s.tenantRec tenant).extractLsb' (8 * 0x10 + 44) 20).toNat ∧ w0.getLsbD 63 = true ∧
      w0.extractLsb' 44 12 = h.extractLsb' 0 12 ∧ w0.extractLsb' 56 5 = 0 ∧ w1.extractLsb' 40 12 = 0 ∧ s.isPoisoned a = false then some a
  else none

/-- BASE, SIZE, RD and WR of an entry (R328). -/
def handleBase (s : State) (entry : Nat) : Nat := (s.peek 64 entry 8).toNat % 2 ^ 44
def handleSize (s : State) (entry : Nat) : Nat := (s.peek 64 (entry + 8) 8).toNat % 2 ^ 40
def handleReads (s : State) (entry : Nat) : Bool := (s.peek 64 entry 8).getLsbD 62
def handleWrites (s : State) (entry : Nat) : Bool := (s.peek 64 entry 8).getLsbD 61

/-- The access of a handle check, which the home slice performs as on an uncached page (R329, 18_protection R345,
21_memory_system R359). -/
def handleAccess (s : State) (entry : Nat) : State :=
  let t := s.stampUncached (entry / 128) (s.physHome entry)
  (if isHbm entry = true ∧ t.lineHeld (entry / 128) = false then t.demandBeat entry else t).count 61 1

/-- Increment PINS (R345). -/
def pin (s : State) (entry : Nat) : State := s.setPins entry (s.pinsOf entry + 1)

/-- A handle check: the entry, to be pinned once the instruction's other checks pass, and the state after its access. It waits
while PINS is at its largest value (R345). -/
def checkHandle (s : State) (tenant : Nat) (h : BitVec 32) (stale : Trap) : Chk (Nat × State) :=
  let t := s.handleAccess (s.handleLoc tenant (h.extractLsb' 12 20).toNat)
  match t.handleEntry tenant h with
  | none => .error (.trapIn stale (t.count 62 1))
  | some a => if t.pinsOf a = 4095 then .error (.wait (.pins a false)) else .ok (a, t)

/-- Drop pins. -/
def unpinAll (s : State) (pins : List Nat) : State := pins.foldl unpin s

end State

end Sys2Proof.Machine
end

