-- ==== Sys2Proof/Machine/Target.lean ====
section
/-!
DEFINITION. What is addressed to a logical core or a partition reaches it in its Spires or in its saved image
(16_traps R315-R318, 14_prog_sampling R286, R287).
-/

namespace Sys2Proof.Machine

open Sys2Proof

namespace State

/-! ## Where a region is -/

/-- The save record of a region that is switched out. -/
def savedOf (s : State) (r : Nat) : Option Saved := s.saved.find? fun (v : Saved) => v.region == r

/-- The physical core of a logical core of a placed region. -/
def logicalCore (s : State) (r : Nat) (lc : BitVec 32) : Option Nat :=
  (List.find? (fun (ck : Nat × Core) => decide (ck.1 < Config.domeCores) && ck.2.region == r && ck.2.lcore == lc &&
    ck.2.status != .notPlaced) s.cores).map (·.1)

/-- Change a save record. -/
def onSaved (s : State) (r : Nat) (f : Saved → Saved) : State :=
  { s with saved := s.saved.map fun (v : Saved) => if v.region == r then f v else v }

/-- Change the saved workspace memory of a logical core, by its place in its Spire record. -/
def onSavedWs (s : State) (r : Nat) (lc : BitVec 32) (m : Nat → List Host.Cell → List Host.Cell) : State :=
  let change (x : SavedSpire) : SavedSpire :=
    match x.cores.findIdx? fun k => k.lcore == lc && k.status != .notPlaced with
    | some i => { x with wsm := m i x.wsm }
    | none => x
  s.onSaved r fun v => { v with spires := v.spires.map change }

/-- Change the record of a logical core, wherever it is. -/
def onLogical (s : State) (r : Nat) (lc : BitVec 32) (f : Core → Core) : State :=
  match s.logicalCore r lc with
  | some c => s.setCoreAt c (f (s.coreAt c))
  | none => s.onSavedCores r (fun k => k.lcore == lc && k.status != .notPlaced) f

/-- The record of a logical core, wherever it is. -/
def logicalRec (s : State) (r : Nat) (lc : BitVec 32) : Option Core :=
  match s.logicalCore r lc with
  | some c => some (s.coreAt c)
  | none => match s.savedOf r with
    | some v => v.spires.findSome? fun (x : SavedSpire) => x.cores.find? fun k => k.lcore == lc && k.status != .notPlaced
    | none => none

/-- Write a word of the workspace memory of a logical core, wherever it is (R315). -/
def wsPoke {w : Nat} (s : State) (r : Nat) (lc : BitVec 32) (off n : Nat) (x : BitVec w) : State :=
  match s.logicalCore r lc with
  | some c => { s with mem := Mem.store s.mem (wsLoc c off) n x }
  | none => s.onSavedWs r lc fun i m => Mem.store m (i * 16384 + off) n x

/-- Read a word of the workspace memory of a logical core. -/
def wsPeek (s : State) (r : Nat) (lc : BitVec 32) (off : Nat) : Word :=
  match s.logicalCore r lc with
  | some c => Mem.load s.mem 64 (wsLoc c off) 8
  | none => match s.savedOf r with
    | some v => ((v.spires.findSome? fun (x : SavedSpire) =>
        (x.cores.findIdx? fun k => k.lcore == lc && k.status != .notPlaced).map fun i =>
          Mem.load x.wsm 64 (i * 16384 + off) 8)).getD 0
    | none => 0

/-- Change a copy context of a region's logical Spire (05_memory_isa R152). -/
def onCopyCtx (s : State) (r ls n : Nat) (f : Timeline → Timeline) : State :=
  match s.savedOf r with
  | some _ => s.onSaved r fun v => { v with spires := v.spires.modify ls fun x => { x with copyCtx := x.copyCtx.modify n f } }
  | none => match (s.regionSpires r)[ls]? with
    | some sp => s.onTimeline false sp n f
    | none => s

/-- Change a barrier object of a region, named by logical dome and number (R154). -/
def onBarrier (s : State) (r ld idx : Nat) (f : BObj → BObj) : State :=
  match s.savedOf r with
  | some _ => s.onSaved r fun v => { v with barriers := v.barriers.map fun (o : Nat × BObj) => if o.1 == idx then (o.1, f o.2) else o }
  | none =>
    let d := routeDome (Tab.get s.slotTable ((s.regionSpires r).headD 0) 0) ld
    s.setBarrier d idx (f (s.barrierAt d idx))

/-- ERR of an object takes the code of a failure if it is 0 (R150); the first code of the present core cycle is noted. -/
def failObject (s : State) (code : Nat) (o : BObj) : BObj :=
  if code = 0 then o
  else { o with err := if o.err = 0 then BitVec.ofNat 3 code else o.err
                errNow := if s.errorNow o = 0 then (s.cycle, BitVec.ofNat 3 code) else o.errNow }

/-- Subtract pending bytes of a copy, with its code when it failed, and evaluate (R150, R155). -/
def settleBytes (s : State) (r : Nat) (bar : Nat × Nat) (n code ts : Nat) : State :=
  let less (o : BObj) : BObj := s.failObject code { o with pending := o.pending - n, accTs := max o.accTs ts }
  match s.savedOf r with
  | some _ => s.onBarrier r bar.1 bar.2 fun o => flip (less o)
  | none => s.applyAt (routeDome (Tab.get s.slotTable ((s.regionSpires r).headD 0) 0) bar.1) bar.2 less

/-- The logical Spire of the current core (09_execution R240). -/
def logicalSpire (s : State) : Nat := ((bindWord s.bindEntry 0).extractLsb' 16 8).toNat

end State

end Sys2Proof.Machine
end

