-- ==== Sys2Proof/Machine/Arbiter.lean ====
section
/-!
DEFINITION. Shape registers and the elements they name, what the operations of a Graver read and write, the bursts they present,
and which operation may start next (06_matrix_isa R166-R176, R181, 11_matrix_engine R257-R259, 13_dome_memory R276).
-/

namespace Sys2Proof.Machine

open Sys2Proof

/-! ## Shape registers (R170-R172) -/

namespace Shape

/-- The fields in the order of MSHF's index: low bit and width (R170, R173). -/
def fields : List (Nat × Nat) :=
  [(0, 48), (48, 2), (80, 16), (96, 16), (112, 16), (64, 4), (68, 3), (128, 40), (192, 40), (256, 48), (320, 32),
   (384, 16), (400, 16), (416, 16), (448, 32)]

def field (x : BitVec 512) (k : Nat) : Nat :=
  let f := nth fields k (0, 0)
  (x >>> f.1).toNat % 2 ^ f.2

def setField (x : BitVec 512) (k v : Nat) : BitVec 512 :=
  let f := nth fields k (0, 0)
  let m : BitVec 512 := BitVec.ofNat 512 ((2 ^ f.2 - 1) * 2 ^ f.1)
  (x &&& ~~~m) ||| (BitVec.ofNat 512 (v * 2 ^ f.1) &&& m)

def base (x : BitVec 512) : Nat := field x 0
def mkind (x : BitVec 512) : Nat := field x 1
def rows (x : BitVec 512) : Nat := field x 2
def cols (x : BitVec 512) : Nat := field x 3
def depth (x : BitVec 512) : Nat := field x 4
def fmt (x : BitVec 512) : Nat := field x 5
def mxsub (x : BitVec 512) : Nat := field x 6
def ldim (x : BitVec 512) : Nat := field x 7
def dstride (x : BitVec 512) : Nat := field x 8
def sbase (x : BitVec 512) : Nat := field x 9
def sstride (x : BitVec 512) : Nat := field x 10
def row0 (x : BitVec 512) : Nat := field x 11
def col0 (x : BitVec 512) : Nat := field x 12
def layer (x : BitVec 512) : Nat := field x 13
def ghandle (x : BitVec 512) : BitVec 32 := BitVec.ofNat 32 (field x 14)

/-- The bits that belong to a field. -/
def used : BitVec 512 := fields.foldl (fun (m : BitVec 512) f => m ||| BitVec.ofNat 512 ((2 ^ f.2 - 1) * 2 ^ f.1)) 0

/-- The values of FMT that are assigned (R171). -/
def fmtAssigned (f : Nat) : Bool := [0, 9, 10, 11, 13, 14, 15].contains f

/-- No reserved bit is set and every enumerated value is assigned (R170, R171). -/
def legal (x : BitVec 512) : Bool :=
  x &&& ~~~used == 0 && decide (mkind x ≤ 1) && fmtAssigned (fmt x) && (if fmt x = 14 then decide (mxsub x ≤ 5) else mxsub x == 0)

/-- A value of an enumerated field that MSHF may write (R173): MXSUB is judged without FMT, and the two together when the shape
is used (assumption log 68). -/
def fieldAssigned (k v : Nat) : Bool :=
  if k = 1 then decide (v ≤ 1) else if k = 5 then fmtAssigned v else if k = 6 then decide (v ≤ 5) else true

/-- Bits of an element in memory; `raw` is the size of a raw element (R171). -/
def eltBits (x : BitVec 512) (raw : Nat) : Nat :=
  match fmt x with
  | 9 => 16
  | 10 => 16
  | 11 => 32
  | 13 => 32
  | 14 => (Mx.elt (mxsub x)).bits
  | _ => raw

/-- The contraction depth Kd of a format (R174). -/
def kd (f : Nat) : Nat := if f = 14 then 32 else 16

/-- Whether a tile of a format fills two slots (R174). -/
def wide (f : Nat) : Bool := f == 11 || f == 13

/-- Whether a format may be an operand (R171). -/
def operand (f : Nat) : Bool := [9, 10, 11, 13, 14].contains f

/-- The alignment of R172 for elements of so many bytes. -/
def alignedTo (x : BitVec 512) (n : Nat) : Bool := base x % n == 0 && ldim x % n == 0 && dstride x % n == 0

end Shape

/-- Where an element lies: its first byte, whether that is a physical address (MKIND 1), its bytes, and the place of its
code in their little-endian value (R172, R99). -/
structure MElem where
  addr : Nat
  phys : Bool
  bytes : Nat
  shift : Nat
  deriving DecidableEq, Repr

/-- ElemAddr (R172): `org` is the first byte of the object of GHANDLE, or 0 with MKIND 0. -/
def Shape.elem (x : BitVec 512) (org raw l i j : Nat) : MElem :=
  let w := eltBits x raw
  { addr := org + base x + l * dstride x + i * ldim x + w * j / 8, phys := decide (mkind x = 1), shift := w * j % 8,
    bytes := (w * j % 8 + w + 7) / 8 }

/-- A scale byte (R176): always at a plain address. -/
def Shape.scaleElem (x : BitVec 512) (e kb : Nat) : MElem :=
  { addr := sbase x + e * sstride x + kb, phys := false, bytes := 1, shift := 0 }

/-- The bytes of an element. -/
def MElem.all (e : MElem) : List (Nat × Bool) := (List.range e.bytes).map fun k => (e.addr + k, e.phys)

namespace State

/-! ## The current core's Graver -/

def graver (s : State) : Graver := (s.spireAt s.mySpire).graver

def setGraverAt (s : State) (sp : Nat) (g : Graver) : State :=
  let x := s.spireAt sp
  s.setSpireAt sp { x with graver := g }

def setGraver (s : State) (g : Graver) : State := s.setGraverAt s.mySpire g

def qctx (s : State) (q : Nat) : QCtx := nth s.graver.ctx q {}

def setQctx (s : State) (q : Nat) (c : QCtx) : State := s.setGraver { s.graver with ctx := s.graver.ctx.set q c }

/-- Shape register n of a context. -/
def shapeReg (s : State) (q n : Nat) : BitVec 512 := nth (s.qctx q).shapes n 0

def setShape (s : State) (q n : Nat) (x : BitVec 512) : State :=
  let c := s.qctx q
  s.setQctx q { c with shapes := c.shapes.set n x }

def slotAt (s : State) (n : Nat) : Slot := nth s.graver.slots n {}

/-- The Graver's clock without its waits on memory (11_matrix_engine R258). -/
def gclock (s : State) (sp : Nat) (g : Graver) : Nat :=
  let now := s.domeClock (sp / 32)
  now - g.stall - (match g.stallFrom with | some c => now - c | none => 0)

def graverAt (s : State) (sp : Nat) : Graver := (s.spireAt sp).graver


end State

/-! ## What an operation reads and writes (11_matrix_engine R257): slots by number, tiles by 128 + number -/

def slotKeys (f n : Nat) : List Nat := if Shape.wide f ∧ n % 2 = 0 then [n, n + 1] else [n]
def tileKeys (ns : List Nat) : List Nat := ns.map fun n => 128 + n
/-- The tiles a mask of eight selects. -/
def selected (sel : BitVec 8) : List Nat := (List.range 8).filter fun n => sel.getLsbD n

/-- The slots and tiles an operation reads. -/
def GOp.reads : GOp → List Nat
  | .mma _ t a b _ f => slotKeys f.toNat a ++ slotKeys f.toNat b ++ tileKeys (if f = 13 then [t, t + 1] else [t])
  | .mmov sh t _ => tileKeys [if sh then 8 + t else t]
  | .mst t sh _ _ cplx _ => tileKeys (if cplx ∨ Shape.fmt sh = 13 then [t, t + 1] else [t])
  | .mspec sel => tileKeys (selected sel)
  | .resolve _ sel => tileKeys ((selected sel).map (· + 8))
  | .tgemm sa _ _ t _ b _ => (List.range 8).map (b + ·) ++ tileKeys (if Shape.fmt sa = 13 then [t, t + 1] else [t])
  | .tfact t _ => tileKeys [t, t + 1]
  | .tsolve x f _ => tileKeys [x, x + 1, f, f + 1]
  | _ => []

/-- The slots and tiles an operation writes. -/
def GOp.writes : GOp → List Nat
  | .mld _ _ n sh => slotKeys (Shape.fmt sh) n
  | .mma _ t _ _ _ f => tileKeys (if f = 13 then [t, t + 1] else [t])
  | .mzero t => tileKeys [t]
  | .mmovr t _ _ => tileKeys [t]
  | .mspec sel => tileKeys ((selected sel).map (· + 8))
  | .resolve commit sel => if commit then tileKeys (selected sel) else []
  | .tgemm sa _ _ t _ b _ => (List.range 8).map (b + ·) ++ tileKeys (if Shape.fmt sa = 13 then [t, t + 1] else [t])
  | .tfact t _ => tileKeys [t, t + 1]
  | .tsolve x _ _ => tileKeys [x, x + 1]
  | _ => []

/-- The slots an operation names (R175). -/
def GOp.slots (op : GOp) : List Nat := (op.reads ++ op.writes).filter (· < 128)

/-- The accepted, uncompleted operations that write one of some slots or tiles, by context and number (R180). -/
def Graver.writers (g : Graver) (keys : List Nat) : List (Nat × Nat) :=
  g.ctx.zipIdx.flatMap fun cq => (cq.1.queue.filter fun e => e.op.writes.any keys.contains).map fun e => (cq.2, e.num)

/-- A RELEASING slot becomes unclaimed when no accepted, uncompleted operation names it (R175). -/
def Graver.sweep (g : Graver) : Graver :=
  let named := g.ctx.flatMap fun c => c.queue.flatMap fun e => e.op.slots
  { g with slots := g.slots.zipIdx.map fun sn =>
      if sn.1.releasing && !named.contains sn.2 then { sn.1 with releasing := false, claimed := false } else sn.1 }

/-! ## The elements of an operation (R176, R181, R183) -/

/-- The elements an MLD reads, by slot row and position, in ascending row and address (R176, R177). -/
def loadList (x : BitVec 512) (org : Nat) (tr : Bool) (l row0 col0 : Nat) : List (Nat × Nat × MElem) :=
  let n := Shape.kd (Shape.fmt x)
  let pos : List (Nat × Nat) :=
    if tr then (List.range n).flatMap fun k => (List.range 16).map fun r => (r, k)
    else (List.range 16).flatMap fun r => (List.range n).map fun k => (r, k)
  pos.filterMap fun (r, k) =>
    let i := if tr then row0 + k else row0 + r
    let j := if tr then col0 + r else col0 + k
    if i < Shape.rows x ∧ j < Shape.cols x then some (r, k, Shape.elem x org 64 l i j) else none

/-- The scale bytes an MLDX reads, by slot row (R176). -/
def scaleList (x : BitVec 512) (tr : Bool) (row0 col0 : Nat) : List (Nat × MElem) :=
  (List.range 16).filterMap fun r =>
    let e := if tr then col0 + r else row0 + r
    let kb := if tr then row0 / 32 else col0 / 32
    if e < (if tr then Shape.cols x else Shape.rows x) then some (r, Shape.scaleElem x e kb) else none

/-- The bytes of a slot that a load reads, in ascending row and address: a row's codes and then its scale byte; loaded transposed,
every row of the matrix and then the scale bytes (R176, R177; assumption log 87). -/
def loadBytes (x : BitVec 512) (org : Nat) (tr scaled : Bool) (l row0 col0 : Nat) : List (Nat × Bool) :=
  let es := (loadList x org tr l row0 col0).map fun e => (e.1, e.2.2)
  let ss := if scaled then scaleList x tr row0 col0 else []
  let all := if tr then es ++ ss else (List.range 16).flatMap fun r => es.filter (·.1 == r) ++ ss.filter (·.1 == r)
  all.flatMap fun e => e.2.all

/-- The elements an MST writes, by row and column, in the loop order (R181). -/
def storeList (x : BitVec 512) (org raw : Nat) (mask : BitVec 32) (l row0 col0 : Nat) : List (Nat × Nat × MElem) :=
  (List.range 16).flatMap fun r => (List.range 16).filterMap fun c =>
    if mask.getLsbD r && mask.getLsbD (16 + c) && decide (row0 + r < Shape.rows x) && decide (col0 + c < Shape.cols x) then
      some (r, c, Shape.elem x org raw l (row0 + r) (col0 + c)) else none

/-- Bits of a raw element (R171). -/
def rawBits (cplx : Bool) : Nat := if cplx then 128 else 64

/-- Every element of a matrix, over its layers. -/
def wholeList (x : BitVec 512) (org raw : Nat) : List MElem :=
  (List.range (Shape.depth x)).flatMap fun l => (List.range (Shape.rows x)).flatMap fun i =>
    (List.range (Shape.cols x)).map fun j => Shape.elem x org raw l i j

/-- The scale bytes of a whole operand; B is loaded transposed (R183, R176). -/
def wholeScales (x : BitVec 512) (tr : Bool) : List MElem :=
  let n := if tr then Shape.cols x else Shape.rows x
  let kn := ((if tr then Shape.rows x else Shape.cols x) + 31) / 32
  (List.range n).flatMap fun e => (List.range kn).map fun kb => Shape.scaleElem x e kb

/-! ## Storage and bursts (R177, 13_dome_memory R276) -/

/-- The storage address of a byte of an accepted operation, from the pages translated at acceptance (R177). -/
def resolveByte (d : Nat) (pages : List GPage) (a : Nat) (phys : Bool) : Nat :=
  if phys then a
  else if 0x1000000 ≤ a ∧ a < 0x1800000 then domeLoc d (a - 0x1000000)
  else if 0x1800000 ≤ a ∧ a < 0x2000000 then Config.domeBase + d * 2 ^ 23 + (a - 0x1800000)
  else if 0x10000000 ≤ a ∧ a < 0x18000000 then domeLoc ((a - 0x10000000) / 2 ^ 24) (a % 2 ^ 24)
  else if 0x20000000 ≤ a ∧ a < 0x30000000 then Config.scratchBase + (a - 0x20000000)
  else match pages.find? fun p => p.va == a / 65536 with
    | some p => p.loc + a % 65536
    | none => a

/-- Whether consecutive words of a bank have consecutive addresses where an address lies: in the Spire-sequential view, not in
the interleaved ones (13_dome_memory R276). -/
def inSequence (a : Nat) : Bool := decide (0x1800000 ≤ a) && decide (a < 0x2000000)

/-- One more access, at a storage address: the bursts so far, the latest first. A burst is a maximal run of consecutive words of one
bank in the Spire-sequential view, at most 8 beats, and a single beat elsewhere (R177, 13_dome_memory R276). -/
def addItem (bs : List Burst) (w : Nat × Bool) : List Burst :=
  let bank := (w.1 - Config.domeBase) / 2048
  let word := (w.1 - Config.domeBase) % 2048 / 8
  match bs with
  | b :: rest =>
    if isDome w.1 = false then { b with items := b.items + 1, out := true } :: rest
    else if b.out = false ∧ b.bank = bank ∧ b.word ≤ word ∧ word < b.word + b.beats then { b with items := b.items + 1 } :: rest
    else if b.out = false ∧ w.2 = true ∧ b.bank = bank ∧ word = b.word + b.beats ∧ b.beats < 8 then
      { b with beats := b.beats + 1, items := b.items + 1 } :: rest
    else { bank := bank, word := word, beats := 1, items := 1, out := false } :: bs
  | [] =>
    if isDome w.1 then [{ bank := bank, word := word, beats := 1, items := 1, out := false }]
    else [{ bank := 0, word := 0, beats := 0, items := 1, out := true }]

def burstsOf (items : List (Nat × Bool)) : List Burst := (items.foldl addItem []).reverse

/-- The words of memory that accesses touch. -/
def wordsOf (locs : List Nat) : List Nat := locs.map fun l => l / 8 * 8

/-- The object base of shape k of an operation. -/
def GEntry.org (e : GEntry) (k : Nat) : Nat := nth e.orgs k 0

/-- Bits of a raw element of an MST. -/
def storeRaw (x : BitVec 512) (pair : Bool) : Nat := rawBits (pair && Shape.fmt x != 13)

/-- The accesses of an MLD, byte by byte, and of an MST, by element or by half of a raw pair, in their order (R177, R181): the
storage address, and whether the place lies in the Spire-sequential view. -/
def GEntry.items (e : GEntry) (d : Nat) : List (Nat × Bool) :=
  let at_ (b : Nat × Bool) : Nat × Bool := (resolveByte d e.pages b.1 b.2, inSequence b.1)
  match e.op with
  | .mld scaled tr _ x => (loadBytes x (e.org 0) tr scaled (Shape.layer x) (Shape.row0 x) (Shape.col0 x)).map at_
  | .mst _ x mask _ pair _ =>
    (storeList x (e.org 0) (storeRaw x pair) mask (Shape.layer x) (Shape.row0 x) (Shape.col0 x)).flatMap fun v =>
      (if v.2.2.bytes = 16 then [0, 8] else [0]).map fun k => at_ (v.2.2.addr + k, v.2.2.phys)
  | _ => []

/-- The memory words that an operation may read or write. -/
def GEntry.touches (e : GEntry) (d : Nat) : List Nat :=
  match e.op with
  | .tgemm xa xb xc _ _ _ _ =>
    let ms := wholeList xa (e.org 0) 64 ++ wholeList xb (e.org 1) 64 ++
      wholeList xc (e.org 2) (rawBits (Shape.fmt xa == 13 && Shape.fmt xc != 13)) ++
      (if Shape.fmt xa = 14 then wholeScales xa false ++ wholeScales xb true else [])
    wordsOf ((ms.flatMap MElem.all).map fun b => resolveByte d e.pages b.1 b.2)
  | _ => wordsOf ((e.items d).map (·.1))

/-- Whether an operation stores. -/
def GOp.stores : GOp → Bool
  | .mst _ _ _ _ _ _ => true
  | .tgemm _ _ _ _ _ _ _ => true
  | _ => false

/-! ## Extents of a TGEMM (R183) -/

/-- ⌈n / d⌉. -/
def ceilDiv (n d : Nat) : Nat := (n + d - 1) / d

/-- The extents of a TGEMM in tiles and k-steps: TM, TN, TK, DEPTH (R183). -/
def tgemmSize (xa xc : BitVec 512) : Nat × Nat × Nat × Nat :=
  (ceilDiv (Shape.rows xc) 16, ceilDiv (Shape.cols xc) 16, ceilDiv (Shape.cols xa) (Shape.kd (Shape.fmt xa)), Shape.depth xa)

/-- Whether a TGEMM has tiles left (R183). -/
def GEntry.tilesLeft (e : GEntry) : Bool :=
  match e.op with
  | .tgemm xa _ xc _ _ _ _ =>
    let (tm, tn, _, dp) := tgemmSize xa xc
    e.code == 0 && tm != 0 && tn != 0 && decide (e.layer < dp)
  | _ => false

/-! ## Which operation starts next (R257-R259) -/

/-- Whether an operation has done all it does, so that it can complete. -/
def GEntry.finished (e : GEntry) : Bool := e.started && e.bursts.isEmpty && !e.tilesLeft

/-- The operation of a context that is eligible to start: every earlier one has started, and a TGEMM is eligible until
its last k-step (R257, R259). -/
def QCtx.head? (c : QCtx) : Option GEntry := c.queue.find? fun e => !e.started || e.tilesLeft

/-- The units an operation occupies: load port 1, array 2, store port 3; a k-step of a TGEMM takes the load port and then the
array (R257). -/
def GOp.units : GOp → List Nat
  | .mld _ _ _ _ => [1]
  | .mst _ _ _ _ _ _ => [3]
  | .mmov _ _ _ => []
  | .tgemm _ _ _ _ _ _ _ => [1, 2]
  | _ => [2]

namespace Graver

/-- The operations that occupy their unit: started, not completed, a TGEMM only within its step (R257, R259). -/
def running (g : Graver) : List GEntry := g.ctx.flatMap fun c => c.queue.filter fun e => e.started && !e.isGemm

/-- Whether a load or store of an operation may touch words that an earlier operation of its context has still to store, or
a store words that one has still to load: the operations of a context have the effect of one at a time (R167). -/
def behind (g : Graver) (d q : Nat) (e : GEntry) : Bool :=
  (nth g.ctx q {}).queue.any fun r =>
    r.started && decide (r.num < e.num) && !r.bursts.isEmpty && (r.op.stores || e.op.stores) &&
      (let ws := e.touches d
       (wordsOf (((r.items d).drop r.pos).map (·.1))).any ws.contains)

/-- Whether an eligible operation can start (R257): its unit is free, no running operation conflicts, the operations it waits
for have completed (R180, R181, R186), and none of its context is still to access words that it does (R167). -/
def canStart (g : Graver) (d q : Nat) (e : GEntry) : Bool :=
  let rd := e.op.reads
  let wr := e.op.writes
  (g.running.all fun r =>
    !(e.op.units.any r.op.units.contains) && !(r.op.writes.any fun k => rd.contains k || wr.contains k) &&
      !(r.op.reads.any wr.contains)) &&
  !(e.after.any fun qn => (nth g.ctx qn.1 {}).queue.any fun x => x.num == qn.2) && !g.behind d q e

/-- The effective priority of an eligible operation (R258, R259). -/
def effective (g : Graver) (clock q : Nat) (e : GEntry) : Nat :=
  let pri := if e.isGemm && e.began then e.pri else (nth g.ctx q {}).prio.toNat
  pri - (clock - e.since) / 1024

/-- The operation that starts next, with its context: lowest effective priority, then cyclic order (R258). -/
def choose (g : Graver) (d clock : Nat) : Option (Nat × GEntry) :=
  let cands := (List.range 4).filterMap fun k =>
    let q := (g.arbLast + 1 + k) % 4
    match (nth g.ctx q {}).head? with
    | some e => if g.canStart d q e then some (g.effective clock q e, q, e) else none
    | none => none
  match cands with
  | [] => none
  | c :: cs => some (cs.foldl (fun (b : Nat × Nat × GEntry) x => if x.1 < b.1 then x else b) c).2

/-- Note whether the Graver waits on memory from now on (R258): the cycles it has waited until now are counted; the next `busy`
cycles, and those of earlier steps not over yet, are not, for a unit makes progress in them. -/
def noteStall (g : Graver) (d cycle clock busy : Nat) : Graver :=
  let waits := !g.running.isEmpty && g.running.all (fun e => !e.bursts.isEmpty) && (g.choose d clock).isNone
  let until_ := max g.busyTo (cycle + busy)
  { g with
    busyTo := until_
    stall := g.stall + (match g.stallFrom with
      | some c => cycle - c
      | none => 0)
    stallFrom := if waits then some until_ else none }

end Graver

namespace State

/-- Note a Graver's waits on memory after a step of it. -/
def noteStallAt (s : State) (sp busy : Nat) : State :=
  let g := s.graverAt sp
  s.setGraverAt sp (g.noteStall (sp / 32) (s.domeClock (sp / 32)) (s.gclock sp g) busy)

end State

end Sys2Proof.Machine
end

