-- ==== Sys2Proof/Machine/Matrix.lean ====
section
/-!
DEFINITION. Shape instructions, operand slots, and the acceptance of matrix instructions with its checks (06_matrix_isa
R166-R188, 11_matrix_engine R256-R260).
-/

namespace Sys2Proof.Machine

open Sys2Proof

/-! ## Stops -/

/-- The SHAPE trap (R168). -/
def shapeStop (reason detail : Nat) : Stop :=
  .trap { code := Cause.shape, tval := BitVec.ofNat 64 (reason * 2 ^ 56 + detail % 2 ^ 16) }

/-- A rule of R168: go on when it holds. -/
def rule (ok : Bool) (e : Stop) : Chk Unit := if ok then .ok () else .error e

/-! ## The checks of R168 -/

namespace State

/-- MATRIX_SLOT: the lowest slot that does not exist, is unclaimed, or is RELEASING (R168, R190). -/
def checkSlots (s : State) (ns : List Nat) : Chk Unit :=
  match ns.filter fun n => decide (127 < n) || !(s.slotAt n).claimed || (s.slotAt n).releasing with
  | [] => .ok ()
  | b :: bs => trapWith Cause.matrixSlot (BitVec.ofNat 64 (bs.foldl min b))

/-- SOFT for the first corrupted slot an operation consumes (07_system_isa R222): unit 3 and the byte of operand memory;
the mark ends with the trap. -/
def checkSoft (s : State) (ns : List Nat) : Chk Unit :=
  match ns.find? fun n => (s.slotAt n).soft.isSome with
  | none => .ok ()
  | some n =>
    let g := s.graver
    let s' := s.setGraver { g with slots := g.slots.modify n fun sl => { sl with soft := none } }
    .error (.trapIn { code := Cause.soft, tval := BitVec.ofNat 64 (3 * 2 ^ 56 + 512 * n + (s.slotAt n).soft.getD 0) } s')

/-- SHAPE 0x08 for a write of a tile in an OPEN SEL of any context (R182, R190). -/
def checkProtected (s : State) (ts : List Nat) : Chk Unit :=
  match ts.filter fun t => s.graver.ctx.any fun c => c.isOpen && c.sel.getLsbD t with
  | [] => .ok ()
  | b :: bs => .error (shapeStop 8 (bs.foldl min b))

/-- POISON at acceptance: the lowest poisoned tile. -/
def checkPoison (s : State) (ts : List Nat) : Chk Unit :=
  match ts.filter fun t => (nth s.graver.tileStatus t 0).getLsbD 63 with
  | [] => .ok ()
  | b :: bs => trapWith Cause.poison (BitVec.ofNat 64 (bs.foldl min b))

/-- The check of the handle of a shape with MKIND 1 (R168 step 3): the base of its object (R172), its entry, and the state after
the check. -/
def captureShape (s : State) (x : BitVec 512) : Chk (Nat × Option Nat × State) :=
  if Shape.mkind x = 1 then
    match s.checkHandle s.core.tenant (Shape.ghandle x) { code := Cause.handleStale, tval := (Shape.ghandle x).setWidth 64 } with
    | .ok e => .ok (e.2.handleBase e.1, some e.1, e.2)
    | .error e => .error e
  else .ok (0, none, s)

/-- Whether one byte may be read or written by an operation, and the page it was translated through (R177). -/
def reach (s : State) (acc : Acc) (handle : Option Nat) (a : Nat) (phys : Bool) : Option (Option GPage × State) :=
  if phys then
    match handle with
    | none => none
    | some h =>
      let ok := if acc = .store then s.handleWrites h else s.handleReads h
      if ok && decide (s.handleBase h ≤ a) && decide (a < s.handleBase h + s.handleSize h) then some (none, s) else none
  else
    match s.outer s.mySpire s.myDome s.core.tenant s.ctx s.isBelfry acc a with
    | none => none
    | some (p, s') => some (if 0x100000000 ≤ a then
        some { va := a / 65536, loc := p.loc - a % 65536, leaf := p.leaf, size := p.size, ctx := s.ctx } else none, s')

/-- Add a page to a list of pages. -/
def addPage (ps : List GPage) (p : Option GPage) : List GPage :=
  match p with
  | some x => if ps.contains x then ps else x :: ps
  | none => ps

/-- What pre-translation has found: the pages, and the lowest address that failed with its fault. -/
structure Reached where
  pages : List GPage := []
  fail : Option (Nat × BitVec 8) := none
  st : State

/-- Pre-translate a list of bytes (R177). -/
def reachAll (acc : Acc) (handle : Option Nat) (bs : List (Nat × Bool)) (r : Reached) : Reached :=
  bs.foldl (fun (r : Reached) b =>
    match r.st.reach acc handle b.1 b.2 with
    | some (p, s) => { r with pages := addPage r.pages p, st := s }
    | none =>
      let better := match r.fail with
        | some (a, _) => decide (b.1 < a)
        | none => true
      if better then { r with fail := some (b.1, faultOf acc) } else r) r

/-- The outcome of pre-translation (R168 step 4). -/
def Reached.check (r : Reached) : Chk (List GPage × State) :=
  match r.fail with
  | none => .ok (r.pages, r.st)
  | some (a, c) => .error (.trapIn { code := c, tval := BitVec.ofNat 64 a } r.st)

/-! ## Acceptance (R167, 11_matrix_engine R256) -/

/-- An operation is accepted: it takes the next number of its context (05_memory_isa R152), and may end a wait on memory (R258). -/
def submit (s : State) (q : Nat) (op : GOp) (after : List (Nat × Nat)) (pages : List GPage) (handles : List (Option Nat))
    (orgs : List Nat := []) : Nat × State :=
  let c := s.qctx q
  let num := c.tl.sub + 1
  let hs := handles.filterMap id
  let s := hs.foldl pin s
  let e : GEntry := { num := num, core := s.cur, op := op, since := s.gclock s.mySpire s.graver, pages := pages, pins := hs, orgs := orgs
                      keep := s.ctxKeep s.core.tenant s.ctx, lt := s.ltNow, tenant := s.core.tenant, region := s.core.region, after := after }
  let s := s.setQctx q { c with tl := { c.tl with sub := num }, queue := c.queue ++ [e] }
  (num, (s.onCore fun k => { k with lastOp := k.lastOp.set q num }).noteStallAt s.mySpire 0)

/-- Slots are tagged with the format of a shape (R176). -/
def tagSlots (s : State) (ns : List Nat) (x : BitVec 512) : State :=
  let tag (sn : Slot × Nat) : Slot :=
    if ns.contains sn.2 then { sn.1 with fmt := BitVec.ofNat 4 (Shape.fmt x), mxsub := BitVec.ofNat 3 (Shape.mxsub x) } else sn.1
  s.setGraver { s.graver with slots := s.graver.slots.zipIdx.map tag }

/-- Write the number of an operation to w[D] and retire (R167). -/
def numbered (d : SReg) (r : Nat × State) : Res := .done (r.2.setReg d (BitVec.ofNat 64 r.1))

end State

/-- Run a matrix instruction: it waits until the port takes it, and acts at acceptance (R167, R256). Context 4 stands for
the instructions that name none. -/
def matrix (i : Instr) (g : Guard) (q : Nat) (body : State → Res) (s : State) : Out :=
  instr i g (fun s =>
    if s.portTurn s.mySpire q then
      body ((s.setGraver { s.graver with portLast := coreInSpire s.cur, acceptAt := some s.clock }).count 5 1)
    else .wait (s.presenting s.mySpire q) s) s

/-- An instruction whose body is a check that gives the next state. -/
def checked (c : Chk State) (s : State) : Res := c.run s .done

/-! ## Shape instructions (R173) -/

/-- The eight words of a shape in memory. -/
def shapeElems (a : Word) (x : BitVec 512) : List Elem :=
  (List.range 8).map fun k => { va := a + BitVec.ofNat 64 (8 * k), n := 8, x := x.extractLsb' (64 * k) 64 }

/-- MSHL (R173). -/
def execMshl (g : Guard) (d : BitVec 4) (a : SReg) (q : BitVec 2) (s : State) : Out :=
  matrix (.mshl g d a q) g 4 (fun s =>
    let va := s.reg a
    if va.toNat % 64 ≠ 0 then .trap { code := Cause.misalign, tval := va } s
    else (s.loadElems (shapeElems va 0)).run s fun (ws, s) =>
      let x : BitVec 512 := BitVec.ofNat 512 ((List.range 8).foldl (fun z k => z + (ws.getD k 0).toNat * 2 ^ (64 * k)) 0)
      if Shape.legal x then .done (s.setShape q.toNat d.toNat x) else (shapeStop 1 d.toNat).res s) s

/-- MSHF (R173). A value wider than its field raises 0x02 whatever else is wrong with it (assumption log 82). -/
def execMshf (g : Guard) (d : BitVec 4) (a : SReg) (field : BitVec 5) (q : BitVec 2) (s : State) : Out :=
  matrix (.mshf g d a field q) g 4 (fun s =>
    let k := field.toNat
    let v := (s.reg a).toNat
    if 2 ^ (nth Shape.fields k (0, 0)).2 ≤ v then (shapeStop 2 k).res s
    else if Shape.fieldAssigned k v = false then (shapeStop 1 d.toNat).res s
    else .done (s.setShape q.toNat d.toNat (Shape.setField (s.shapeReg q.toNat d.toNat) k v))) s

/-- MSHS (R173). -/
def execMshs (g : Guard) (a : SReg) (b : BitVec 4) (q : BitVec 2) (s : State) : Out :=
  matrix (.mshs g a b q) g 4 (fun s =>
    let va := s.reg a
    if va.toNat % 64 ≠ 0 then .trap { code := Cause.misalign, tval := va } s
    else s.storeElems (shapeElems va (s.shapeReg q.toNat b.toNat)) .done) s

/-! ## Slots (R175) -/

/-- The lowest run of c unclaimed slots that starts at a multiple of g (R175). -/
def freeSlots (slots : List Slot) (c g : Nat) : Option Nat :=
  (List.range 128).find? fun b => b % g == 0 && decide (b + c ≤ 128) && (List.range c).all fun k => !(nth slots (b + k) {}).claimed

/-- A slot as MCLAIM leaves it: no codes, scales 127. -/
def claimedSlot : Slot := { claimed := true, scales := BitVec.ofNat 128 ((2 ^ 128 - 1) / 255 * 127) }

/-- MCLAIM (R175). -/
def execMclaim (g : Guard) (d : SReg) (countM1 : BitVec 7) (log2a : BitVec 3) (s : State) : Out :=
  matrix (.mclaim g d countM1 log2a) g 4 (fun s =>
    let c := countM1.toNat + 1
    match freeSlots s.graver.slots c (2 ^ log2a.toNat) with
    | none => .done (s.setReg d 0x8000000000000000)
    | some b =>
      let slots := s.graver.slots.zipIdx.map fun sn => if b ≤ sn.2 ∧ sn.2 < b + c then claimedSlot else sn.1
      .done ((s.setGraver { s.graver with slots := slots }).setReg d (BitVec.ofNat 64 b))) s

/-- MREL (R175). -/
def execMrel (g : Guard) (a : SReg) (countM1 : BitVec 7) (s : State) : Out :=
  matrix (.mrel g a countM1) g 4 (fun s =>
    let b := (s.reg a).toNat
    let n := countM1.toNat + 1
    match (List.range n).find? fun k => decide (127 < b + k) || !(s.slotAt (b + k)).claimed with
    | some k => .trap { code := Cause.matrixSlot, tval := BitVec.ofNat 64 (b + k) } s
    | none =>
      let slots := s.graver.slots.zipIdx.map fun sn => if b ≤ sn.2 ∧ sn.2 < b + n then { sn.1 with releasing := true } else sn.1
      .done (s.setGraver (Graver.sweep { s.graver with slots := slots }))) s

/-! ## Loads (R176, R177) -/

/-- The checks of a shape at use (R168 0x01, R172). -/
def useShape (x : BitVec 512) (n : Nat) : Chk Unit :=
  rule (Shape.legal x && decide (Shape.layer x < Shape.depth x)) (shapeStop 1 n)

/-- The bytes per element that R172's alignment rule counts; 1 for the sub-byte formats. -/
def alignUnit (f : Nat) : Nat := match f with
  | 9 => 2
  | 10 => 2
  | 11 => 4
  | 13 => 4
  | 15 => 8
  | _ => 1

/-- Accept an MLD or MLDX (R176, R190): the slot's tags, for the checks of later instructions, take the order of acceptance. -/
def acceptLoad (s : State) (d : SReg) (n slot q : Nat) (tr scaled : Bool) : Chk Res := do
  let x := s.shapeReg q n
  let f := Shape.fmt x
  s.checkSlots (if Shape.wide f then [slot, slot + 1] else [slot])
  useShape x n
  rule (Shape.alignedTo x (alignUnit f) && (f != 14 || (if tr then Shape.row0 x else Shape.col0 x) % 32 == 0)) (shapeStop 3 n)
  rule (Shape.operand f && (!scaled || f == 14)) (shapeStop 5 n)
  rule (!(Shape.wide f && slot % 2 == 1)) (shapeStop 6 slot)
  let (org, h, s) ← s.captureShape x
  let r := State.reachAll .load h (loadBytes x org tr scaled (Shape.layer x) (Shape.row0 x) (Shape.col0 x)) { st := s }
  let (pages, s) ← r.check
  let sub := s.submit q (.mld scaled tr slot x) [] pages [h] [org]
  .ok (State.numbered d (sub.1, sub.2.tagSlots (slotKeys f slot) x))

/-- A body made of a check that answers an outcome. -/
def accepted (c : Chk Res) (s : State) : Res := c.run s id

/-- MLD (R176). -/
def execMld (g : Guard) (d : SReg) (a : BitVec 4) (slot : BitVec 7) (tr : BitVec 1) (q : BitVec 2) (s : State) : Out :=
  matrix (.mld g d a slot tr q) g q.toNat (fun s => accepted (acceptLoad s d a.toNat slot.toNat q.toNat (tr == 1) false) s) s

/-- MLDX (R176). -/
def execMldx (g : Guard) (d : SReg) (a : BitVec 4) (slot : BitVec 7) (tr : BitVec 1) (q : BitVec 2) (s : State) : Out :=
  matrix (.mldx g d a slot tr q) g q.toNat (fun s => accepted (acceptLoad s d a.toNat slot.toNat q.toNat (tr == 1) true) s) s

/-! ## Multiply-accumulate (R178, R179, R182) -/

/-- Accept an MMA or MMA.S (R178, R190). A pair of a 4-byte format has the format of its first slot, SOFT stands between SHAPE 0x07 and
SHAPE 0x08 (assumption log 67), and a 4-byte format on an odd slot names that slot alone (assumption log 81): these are the
model's choices. -/
def acceptMma (s : State) (spec : Bool) (d a b q : Nat) (c : SReg) : Chk Res := do
  let fa := (s.slotAt a).fmt.toNat
  let fb := (s.slotAt b).fmt.toNat
  let slots := slotKeys fa a ++ slotKeys fb b
  s.checkSlots slots
  let blank := slots.filter fun n => (s.slotAt n).fmt == 0
  let low (bad : Nat → Bool) : Nat := if bad a && bad b then min a b else if bad a then a else b
  rule blank.isEmpty (shapeStop 4 (blank.foldl min 127))
  rule (fa == fb) (shapeStop 5 (min a b))
  rule (!(Shape.wide fa && (a % 2 == 1 || b % 2 == 1))) (shapeStop 6 (low (· % 2 == 1)))
  let pair := fa == 13
  let tile (t : Nat) : Nat := if spec then 8 + t else t
  rule (!(pair && d % 2 == 1)) (shapeStop 6 (tile d))
  let m := s.reg c
  rule (fa == 14 || m >>> 48 == 0) (shapeStop 7 c.toNat)
  let ts := if pair then [d, d + 1] else [d]
  s.checkSoft slots
  if spec then
    rule (s.qctx q).isOpen (shapeStop 8 q)
    rule (ts.all fun t => (s.qctx q).sel.getLsbD t) (shapeStop 8 (tile (if (s.qctx q).sel.getLsbD d then d + 1 else d)))
  else s.checkProtected ts
  .ok (.done (s.submit q (.mma spec (tile d) a b m (s.slotAt a).fmt) [] [] []).2)

/-- MMA (R178). -/
def execMma (g : Guard) (d : BitVec 3) (c : SReg) (slotA slotB : BitVec 7) (q : BitVec 2) (s : State) : Out :=
  matrix (.mma g d c slotA slotB q) g q.toNat (fun s =>
    accepted (acceptMma s false d.toNat slotA.toNat slotB.toNat q.toNat c) s) s

/-- MMA.S (R178, R182). -/
def execMmaS (g : Guard) (d : BitVec 3) (c : SReg) (slotA slotB : BitVec 7) (q : BitVec 2) (s : State) : Out :=
  matrix (.mmaS g d c slotA slotB q) g q.toNat (fun s =>
    accepted (acceptMma s true d.toNat slotA.toNat slotB.toNat q.toNat c) s) s

/-! ## Moves and stores (R180, R181) -/

/-- MZERO (R180). -/
def execMzero (g : Guard) (d : BitVec 3) (q : BitVec 2) (s : State) : Out :=
  matrix (.mzero g d q) g q.toNat (fun s =>
    (s.checkProtected [d.toNat]).run s fun _ => .done (s.submit q.toNat (.mzero d.toNat) [] [] []).2) s

/-- The record of a core that waits for an operation's result, and of one that has it. -/
def awaiting (num : Nat) (k : Core) : Core := { k with gop := some num, gres := none }
def answered (k : Core) : Core := { k with gop := none, gres := none }

/-- TVAL of the PIVOT trap that the instruction at the current PC still has to take (16_traps R321). -/
def State.pivotHere (s : State) : Option Word :=
  match s.core.pivot with
  | some x => if x.1 = s.core.wp ∧ x.2.1 = s.core.pc then some x.2.2 else none
  | none => none

/-- An instruction that waits for its operation's result (R167): accepted once, finished when the result is there. -/
def awaited (i : Instr) (g : Guard) (q : BitVec 2) (accept : State → Chk (Nat × State)) (finish : GResult → State → Res)
    (s : State) : Out :=
  instr i g (fun s =>
    match s.core.gop with
    | some num => match s.core.gres with
      | some r => finish r (s.onCore answered)
      | none => .wait (.graverOp s.mySpire q.toNat num) s
    | none =>
      if s.portTurn s.mySpire q.toNat then
        let s := (s.setGraver { s.graver with portLast := coreInSpire s.cur, acceptAt := some s.clock }).count 5 1
        (accept s).run s fun r => .wait (.graverOp s.mySpire q.toNat r.1) (r.2.onCore (awaiting r.1))
      else .wait (s.presenting s.mySpire q.toNat) s) s

/-- Element c of a row as it arrives in a 64-bit lane (R180). -/
def rowLane (data : BitVec 1024) (intf : Bool) (c : Nat) : Word :=
  let x := data.extractLsb' (64 * c) 56
  if intf then x.signExtend 64 else x.setWidth 64

/-- MMOV (R180). -/
def execMmov (g : Guard) (d : VReg) (a : BitVec 3) (row : BitVec 4) (sh intf : BitVec 1) (q : BitVec 2) (s : State) : Out :=
  let tile := a.toNat + (if sh = 1 then 8 else 0)
  awaited (.mmov g d a row sh intf q) g q
    (fun s => do
      s.checkPoison [tile]
      .ok (s.submit q.toNat (.mmov (sh == 1) a.toNat row.toNat) (s.graver.writers (tileKeys [tile])) [] []))
    (fun r s =>
      match r with
      | .row data => .done (s.setGroup d ((List.range 4).map fun k =>
          BitVec.ofNat 256 ((List.range 4).foldl (fun z j => z + (rowLane data (intf == 1) (4 * k + j)).toNat * 2 ^ (64 * j)) 0)))
      | .poison t => .trap { code := Cause.poison, tval := BitVec.ofNat 64 t } s
      | _ => .done s) s

/-- MMOVR (R180). -/
def execMmovr (g : Guard) (d : BitVec 3) (a : VReg) (row : BitVec 4) (q : BitVec 2) (s : State) : Out :=
  matrix (.mmovr g d a row q) g q.toNat (fun s =>
    (s.checkProtected [d.toNat]).run s fun _ =>
      let data : BitVec 896 := BitVec.ofNat 896 ((List.range 16).foldl (fun z c =>
        z + lane 64 (s.vreg (a + BitVec.ofNat 5 (c / 4))) (c % 4) % 2 ^ 56 * 2 ^ (56 * c)) 0)
      .done (s.submit q.toNat (.mmovr d.toNat row.toNat data) [] [] []).2) s

/-- Accept an MST (R181, R190). -/
def acceptStore (s : State) (d : SReg) (n b q : Nat) (c : SReg) (sc : Nat) (cplx : Bool) : Chk Res := do
  let x := s.shapeReg q n
  let f := Shape.fmt x
  let m := s.reg c
  useShape x n
  rule (Shape.alignedTo x (alignUnit f)) (shapeStop 3 n)
  rule ([9, 10, 11, 13, 15].contains f && !(cplx && f != 13 && f != 15) && (sc == 0 || f == 13)) (shapeStop 5 n)
  let pair := cplx || f == 13
  rule (!(pair && b % 2 == 1)) (shapeStop 6 b)
  rule (m >>> 32 == 0) (shapeStop 7 c.toNat)
  let (org, h, s) ← s.captureShape x
  let raw := rawBits (cplx && f == 15)
  let es := storeList x org raw (m.setWidth 32) (Shape.layer x) (Shape.row0 x) (Shape.col0 x)
  let (pages, s) ← (State.reachAll .store h (es.flatMap fun e => e.2.2.all) { st := s }).check
  let ts := if pair then [b, b + 1] else [b]
  (s.checkPoison ts).after s
  .ok (State.numbered d (s.submit q (.mst b x (m.setWidth 32) sc pair s.rm) (s.graver.writers (tileKeys ts)) pages [h] [org]))

/-- MST (R181). -/
def execMst (g : Guard) (d : SReg) (a : BitVec 4) (b : BitVec 3) (c : SReg) (sc : BitVec 4) (cplx : BitVec 1) (q : BitVec 2)
    (s : State) : Out :=
  matrix (.mst g d a b c sc cplx q) g q.toNat (fun s =>
    accepted (acceptStore s d a.toNat b.toNat q.toNat c sc.toNat (cplx == 1)) s) s

/-! ## Speculation (R182): OPEN and SEL take the order of acceptance -/

/-- MSPEC (R182). -/
def execMspec (g : Guard) (mask : BitVec 8) (q : BitVec 2) (s : State) : Out :=
  matrix (.mspec g mask q) g q.toNat (fun s =>
    let c := s.qctx q.toNat
    let other := (selected mask).find? fun n => s.graver.ctx.any fun c => c.isOpen && c.sel.getLsbD n
    if c.isOpen then (shapeStop 8 q.toNat).res s
    else match other with
      | some n => (shapeStop 8 n).res s
      | none =>
        let s := (s.submit q.toNat (.mspec mask) [] [] []).2
        .done (s.setQctx q.toNat { s.qctx q.toNat with isOpen := true, sel := mask })) s

/-- MRESOLVE, MCOMMIT and MDISCARD (R182): the predicate is read at acceptance. -/
def resolve (i : Instr) (g : Guard) (q : BitVec 2) (commit : State → Bool) (s : State) : Out :=
  matrix i g q.toNat (fun s =>
    let c := s.qctx q.toNat
    if c.isOpen then
      let s := (s.submit q.toNat (.resolve (commit s) c.sel) [] [] []).2
      .done (s.setQctx q.toNat { s.qctx q.toNat with isOpen := false })
    else (shapeStop 8 q.toNat).res s) s

/-- MRESOLVE (R182). -/
def execMresolve (g : Guard) (c : PReg) (q : BitVec 2) (s : State) : Out :=
  resolve (.mresolve g c q) g q (fun s => (s.pred c).getLsbD 0) s

/-- MCOMMIT (R182). -/
def execMcommit (g : Guard) (q : BitVec 2) (s : State) : Out := resolve (.mcommit g q) g q (fun _ => true) s

/-- MDISCARD (R182). -/
def execMdiscard (g : Guard) (q : BitVec 2) (s : State) : Out := resolve (.mdiscard g q) g q (fun _ => false) s

/-! ## TGEMM (R183) -/

/-- The pages of the global window that some bytes lie in, as they translate; a page that does not has an address of no
storage. -/
def pagesOf (s : State) (bs : List (Nat × Bool)) : List GPage :=
  bs.foldl (fun (ps : List GPage) b =>
    let v := b.1 / 65536
    if b.2 = true ∨ b.1 < 0x100000000 ∨ (ps.any fun p => p.va == v) = true then ps
    else
      let at_ (acc : Acc) : Option Nat := (s.outer s.mySpire s.myDome s.core.tenant s.ctx s.isBelfry acc (v * 65536)).map fun x => x.1.loc
      { va := v, loc := ((at_ .load).or (at_ .store)).getD (2 ^ 60 + v * 65536) } :: ps) []

/-- The object base of a shape whose handle is good; nothing is known of the storage of one whose handle is not. -/
def placed (s : State) (x : BitVec 512) : Option Nat :=
  if Shape.mkind x = 1 then (s.handleEntry s.core.tenant (Shape.ghandle x)).map s.handleBase else some 0

/-- Whether some byte of storage lies in both of two lists of elements (R183). -/
def shareByte (s : State) (xs ys : List MElem) : Bool :=
  let bytes (es : List MElem) : List (Nat × Bool) := es.flatMap MElem.all
  let pages := pagesOf s (bytes xs ++ bytes ys)
  let locs (es : List MElem) : List Nat := (bytes es).map fun b => resolveByte s.myDome pages b.1 b.2
  let ks := locs ys
  (locs xs).any ks.contains

/-- Pins of one operation that several shapes take on one entry stay below the largest value (18_protection R345). -/
def pinsFit (s : State) (hs : List (Option Nat)) : Chk Unit :=
  match (hs.filterMap id).find? fun e => decide (4095 < s.pinsOf e + (hs.filterMap id).count e) with
  | some e => .error (.wait (.pins e false))
  | none => .ok ()

/-- Accept a TGEMM (R183). Its working slots are tagged as its loads will fill them; a byte of C that can be neither read nor written
raises STORE_FAULT (R177). -/
def acceptTgemm (s : State) (d : SReg) (na nb nc acc slot q : Nat) (add : Bool) : Chk Res := do
  let xa := s.shapeReg q na
  let xb := s.shapeReg q nb
  let xc := s.shapeReg q nc
  let fa := Shape.fmt xa
  let fb := Shape.fmt xb
  let fc := Shape.fmt xc
  s.checkSlots ((List.range 8).map (slot + ·))
  rule (Shape.legal xa && decide (Shape.depth xa ≠ 0)) (shapeStop 1 na)
  rule (Shape.legal xb && decide (Shape.depth xb ≠ 0)) (shapeStop 1 nb)
  rule (Shape.legal xc && decide (Shape.depth xc ≠ 0)) (shapeStop 1 nc)
  rule (Shape.alignedTo xa (alignUnit fa)) (shapeStop 3 na)
  rule (Shape.alignedTo xb (alignUnit fb)) (shapeStop 3 nb)
  rule (Shape.alignedTo xc (alignUnit fc)) (shapeStop 3 nc)
  rule (Shape.operand fa) (shapeStop 5 na)
  rule (Shape.operand fb) (shapeStop 5 nb)
  rule (fa == fb) (shapeStop 5 na)
  let pair := fa == 13
  rule (if pair then fc == 13 || fc == 15 else [9, 10, 11, 15].contains fc) (shapeStop 5 nc)
  rule (!(pair && acc % 2 == 1)) (shapeStop 6 acc)
  let ts := if pair then [acc, acc + 1] else [acc]
  s.checkProtected ts
  rule (Shape.rows xa == Shape.rows xc && Shape.rows xb == Shape.cols xa && Shape.cols xb == Shape.cols xc &&
    Shape.depth xa == Shape.depth xc && Shape.depth xb == Shape.depth xc) (shapeStop 9 nc)
  let raw := rawBits pair
  let scales (x : BitVec 512) (tr : Bool) : List MElem := if fa = 14 then wholeScales x tr else []
  let known (x : BitVec 512) (n : Nat) : List MElem := match placed s x with
    | some org => wholeList x org n
    | none => []
  rule (!shareByte s (known xc raw) (known xa 64 ++ known xb 64 ++ scales xa false ++ scales xb true)) (shapeStop 9 nc)
  let (oa, ha, s) ← s.captureShape xa
  let (ob, hb, s) ← s.captureShape xb
  let (oc, hc, s) ← s.captureShape xc
  pinsFit s [ha, hb, hc]
  let bytes (es : List MElem) : List (Nat × Bool) := es.flatMap MElem.all
  let r := State.reachAll .load ha (bytes (wholeList xa oa 64)) { st := s }
  let r := State.reachAll .load hb (bytes (wholeList xb ob 64)) r
  let r := State.reachAll .load none (bytes (scales xa false ++ scales xb true)) r
  let r := State.reachAll .store hc (bytes (wholeList xc oc raw)) r
  let (pages, s) ← (State.reachAll .load hc (bytes (wholeList xc oc raw)) r).check
  let sub := s.submit q (.tgemm xa xb xc acc add slot s.rm) [] pages [ha, hb, hc] [oa, ob, oc]
  .ok (State.numbered d (sub.1, sub.2.tagSlots ((List.range 8).map (slot + ·)) xa))

/-- TGEMM (R183). -/
def execTgemm (g : Guard) (d : SReg) (a b c : BitVec 4) (acc : BitVec 3) (addc : BitVec 1) (slot : BitVec 7) (q : BitVec 2)
    (s : State) : Out :=
  matrix (.tgemm g d a b c acc addc slot q) g q.toNat (fun s =>
    accepted (acceptTgemm s d a.toNat b.toNat c.toNat acc.toNat slot.toNat q.toNat (addc == 1)) s) s

/-! ## Factorisation and solve (R186, R187), and queue control (R188) -/

/-- TFACT (R186). One that completes after the agreed time of a gang switch takes its PIVOT trap at resumption (16_traps
R321). -/
def execTfact (g : Guard) (d : SReg) (a : BitVec 3) (srci ptrap : BitVec 1) (q : BitVec 2) (s : State) : Out :=
  let ts := [a.toNat, a.toNat + 1]
  match s.pivotHere with
  | some v => instr (.tfact g d a srci ptrap q) g (fun s => .trap { code := Cause.pivot, tval := v } (s.onCore fun k => { k with pivot := none })) s
  | none => awaited (.tfact g d a srci ptrap q) g q
    (fun s => do
      s.checkProtected ts
      s.checkPoison ts
      .ok (s.submit q.toNat (.tfact a.toNat (srci == 1)) (s.graver.writers (tileKeys ts)) [] []))
    (fun r s =>
      match r with
      | .fact status =>
        let s := s.setReg d (status.setWidth 64)
        if ptrap = 1 ∧ status ≠ 0 ∧ s.stopping = true then
          .asIs (s.onCore fun k => { k with status := .running, pivot := some (k.wp, k.pc, status.setWidth 64) })
        else if ptrap = 1 ∧ status ≠ 0 then .trap { code := Cause.pivot, tval := status.setWidth 64 } s else .done s
      | .poison t => .trap { code := Cause.poison, tval := BitVec.ofNat 64 t } s
      | _ => .done s) s

/-- TSOLVE (R187). -/
def execTsolve (g : Guard) (d a : BitVec 3) (b : SReg) (q : BitVec 2) (s : State) : Out :=
  matrix (.tsolve g d a b q) g q.toNat (fun s =>
    accepted (do
      rule (s.reg b >>> 16 == 0) (shapeStop 7 b.toNat)
      s.checkProtected [d.toNat, d.toNat + 1]
      .ok (.done (s.submit q.toNat (.tsolve d.toNat a.toNat ((s.reg b).setWidth 16)) [] [] []).2)) s) s

/-- MQPRI (R188). -/
def execMqpri (g : Guard) (cq pri : BitVec 2) (s : State) : Out :=
  matrix (.mqpri g cq pri) g 4 (fun s => .done (s.setQctx cq.toNat { s.qctx cq.toNat with prio := pri })) s

/-- MQSYNC (R188): it waits for the submissions counted at its issue. -/
def execMqsync (g : Guard) (d : SReg) (cq : BitVec 2) (s : State) : Out :=
  let finish (n : Nat) (s : State) : Res :=
    let t := s.timeline true s.mySpire cq.toNat
    if n ≤ t.comp then .done ((s.acquire (t.tsUpTo n)).setReg d t.err) else .wait (.timeline true s.mySpire cq.toNat n) s
  match s.core.status with
  | .waiting (.timeline _ _ _ n) => instr (.mqsync g d cq) g (finish n) s
  | _ => matrix (.mqsync g d cq) g 4 (fun s => finish (s.timeline true s.mySpire cq.toNat).sub s) s

end Sys2Proof.Machine
end

