-- ==== Sys2Proof/Machine/Graver.lean ====
section
/-!
DEFINITION. The Graver at work: what its operations do, which one starts next, the bursts they present to the banks,
and their completion (03_formats R104, R105, 06_matrix_isa R174-R188, 11_matrix_engine R257-R266, 13_dome_memory R274-R277).
-/

namespace Sys2Proof.Machine

open Sys2Proof

/-! ## Tiles and slots -/

/-- The 256 elements of a tile, and a tile from its elements. -/
def tileList (t : BitVec 14336) : List Nat := (List.range 256).map fun k => (t >>> (56 * k)).toNat % 2 ^ 56
def tileOf (xs : List Nat) : BitVec 14336 := BitVec.ofNat 14336 (xs.foldr (fun x a => a * 2 ^ 56 + x % 2 ^ 56) 0)

/-- Bits of a code in a slot (R174). -/
def codeBits (f sub : Nat) : Nat := if f = 14 then (Mx.elt sub).bits else if Shape.wide f then 32 else 16

/-- An operand tile: its format, its codes row by row, its row scales and its mark (R174). -/
structure Operand where
  fmt : Nat
  sub : Nat
  data : Nat
  scales : Nat
  poison : Bool
  deriving DecidableEq, Repr

/-- Code (r, k) of an operand tile (R174). -/
def Operand.code (x : Operand) (r k : Nat) : Nat :=
  let w := codeBits x.fmt x.sub
  x.data / 2 ^ ((Shape.kd x.fmt * r + k) * w) % 2 ^ w

/-- The value of a code with its row's scale (R98, R178). -/
def Operand.val (x : Operand) (r k : Nat) : FpVal :=
  let c := x.code r k
  match x.fmt with
  | 9 => Fmt.fp16.val c
  | 10 => Fmt.bf16.val c
  | 11 => Fmt.fp32.val c
  | _ => Mx.scaled x.sub (x.scales / 2 ^ (8 * r) % 256) c

/-- The parts of a CI16 code (R88). -/
def Operand.parts (x : Operand) (r k : Nat) : Int × Int :=
  let c := BitVec.ofNat 32 (x.code r k)
  ((c.extractLsb' 0 16).toInt, (c.extractLsb' 16 16).toInt)

/-- The operand tile a slot holds, by the tags of its codes (R167, R262). -/
def Graver.operand (g : Graver) (n : Nat) : Operand :=
  let x := nth g.slots n {}
  let y := nth g.slots (n + 1) {}
  let f := x.codes.1.toNat
  { fmt := f, sub := x.codes.2.toNat, data := x.bytes.toNat + (if Shape.wide f then y.bytes.toNat * 2 ^ 4096 else 0)
    scales := x.scales.toNat, poison := x.poison || (Shape.wide f && y.poison) }

/-- Put an operand tile into a slot, or the pair that starts there (R174, R176). -/
def Graver.fill (g : Graver) (n : Nat) (x : Operand) : Graver :=
  let put (sl : Slot) (data : Nat) : Slot :=
    { sl with codes := (BitVec.ofNat 4 x.fmt, BitVec.ofNat 3 x.sub), poison := x.poison, soft := none
              scales := BitVec.ofNat 128 x.scales, bytes := BitVec.ofNat 4096 data }
  let slots := g.slots.modify n fun sl => put sl x.data
  { g with slots := if Shape.wide x.fmt then slots.modify (n + 1) fun sl => put sl (x.data / 2 ^ 4096) else slots }

/-! ## The k-step (R104, R105, R178, R179) -/

/-- The exact sum of finite values that are not all zero, as an integer at a common exponent. -/
def sumFinite (xs : List FpVal) : Int × Int :=
  let e : Int := xs.foldl (fun (m : Int) v => match v with
    | .fin _ k e => if k = 0 then m else min m e
    | _ => m) 0
  (xs.foldl (fun (z : Int) v => match v with
    | .fin n m x => if m = 0 then z else z + atExp n m x e
    | _ => z) 0, e)

/-- KStep (R104). -/
def kStep (acc : Nat) (as bs : List FpVal) : Nat :=
  let F := Fmt.fa56
  let prods := List.zipWith mulVal as bs
  let ts := F.val acc :: prods.map fun p => p.getD (.nan false)
  if ts.any FpVal.isNan || (ts.any (· == .inf false) && ts.any (· == .inf true)) then F.canon
  else match ts.find? FpVal.isInf with
    | some v => (F.round 0 v).1
    | none =>
      let (z, e) := sumFinite ts
      if z = 0 then (if ts.all fun t => t.isNeg then F.signBit else 0)
      else (F.round 0 (.fin (decide (z < 0)) z.natAbs e)).1

/-- The mask of a k-step: rows, columns and depth positions (R178). -/
structure KMask where
  row : Nat → Bool
  col : Nat → Bool
  dep : Nat → Bool

/-- The mask m of an MMA. -/
def KMask.ofWord (m : Word) : KMask :=
  { row := fun i => m.getLsbD i, col := fun j => m.getLsbD (16 + j), dep := fun k => m.getLsbD (32 + k) }

/-- A k-step of floating-point or microscaled operands on a tile (R178). -/
def kTile (t : List Nat) (a b : Operand) (m : KMask) : List Nat :=
  let ks := List.range (Shape.kd a.fmt)
  t.zipIdx.map fun xn =>
    let i := xn.2 / 16
    let j := xn.2 % 16
    if m.row i && m.col j then
      kStep xn.1 (ks.map fun k => if m.dep k then a.val i k else .zero) (ks.map fun k => if m.dep k then b.val j k else .zero)
    else xn.1

/-- An I56 value (R92). -/
def i56 (x : Nat) : Int := (BitVec.ofNat 56 x).toInt
def wrap56 (x : Int) : Nat := (x % 2 ^ 56).toNat

/-- A CI16 k-step on a tile pair (R105, R179). -/
def kPair (re im : List Nat) (a b : Operand) (m : KMask) : List Nat × List Nat :=
  let ks := (List.range 16).filter m.dep
  let rs := (re.zip im).zipIdx.map fun xn =>
    let i := xn.2 / 16
    let j := xn.2 % 16
    if m.row i && m.col j then
      let r := ks.foldl (fun (z : Int × Int) k =>
        let x := a.parts i k
        let y := b.parts j k
        (z.1 + (x.1 * y.1 - x.2 * y.2), z.2 + (x.1 * y.2 + x.2 * y.1))) (i56 xn.1.1, i56 xn.1.2)
      (wrap56 r.1, wrap56 r.2)
    else xn.1
  (rs.map (·.1), rs.map (·.2))

namespace Graver

def tile (g : Graver) (t : Nat) : List Nat := tileList (nth g.tiles t 0)
def setTile (g : Graver) (t : Nat) (xs : List Nat) : Graver := { g with tiles := g.tiles.set t (tileOf xs) }
def tileStat (g : Graver) (t : Nat) : Word := nth g.tileStatus t 0
def setTileStat (g : Graver) (t : Nat) (x : Word) : Graver := { g with tileStatus := g.tileStatus.set t x }
def struck (g : Graver) (t : Nat) : Bool := (g.tileStat t).getLsbD 63

/-- Mark a tile poisoned with the k-steps its operation completed before, modulo 65,536 (assumption log 83); the mark of a first
strike stays (R188, 11_matrix_engine R265). -/
def strike (g : Graver) (steps : Nat) (t : Nat) : Graver :=
  if g.struck t then g
  else g.setTileStat t ((g.tileStat t &&& 0xFFFFFFFF) ||| 0x8000000000000000 ||| BitVec.ofNat 64 (steps % 65536 * 2 ^ 32))

/-- The tiles of an accumulator for a format: a pair for CI16 (R179). -/
def accTiles (f t : Nat) : List Nat := if f = 13 then [t, t + 1] else [t]

/-- Mark a tile poisoned whatever it held, with KSTEP 0 (R187). -/
def mark (g : Graver) (t : Nat) : Graver := g.setTileStat t ((g.tileStat t &&& 0xFFFFFFFF) ||| 0x8000000000000000)

/-- One k-step; the code is 3 when it strikes (R188, R265). -/
def kRun (g : Graver) (t : Nat) (a b : Operand) (m : KMask) (steps : Nat) : Graver × Nat :=
  let ts := accTiles a.fmt t
  if ts.any g.struck then (g, 3)
  else if a.poison || b.poison then (ts.foldl (fun (g : Graver) t => g.strike steps t) g, 3)
  else if a.fmt = 13 then
    let r := kPair (g.tile t) (g.tile (t + 1)) a b m
    ((g.setTile t r.1).setTile (t + 1) r.2, 0)
  else (g.setTile t (kTile (g.tile t) a b m), 0)

/-- The counter of a k-step's format (22_host_compat R381). -/
def kCounter (f : Nat) : Nat := match f with
  | 14 => 17
  | 11 => 18
  | 13 => 19
  | _ => 16

end Graver

/-! ## TFACT and TSOLVE (R186, R187), in FA56 with RNE -/

namespace Solve
def mul (x y : Nat) : Nat := (Fmt.fa56.mul 0 (Fmt.fa56.val x) (Fmt.fa56.val y)).1
def fma (x y z : Nat) : Nat := (Fmt.fa56.fma 0 (Fmt.fa56.val x) (Fmt.fa56.val y) (Fmt.fa56.val z)).1
def recip (x : Nat) : Nat := (Fmt.fa56.div 0 .one (Fmt.fa56.val x)).1
def neg (x : Nat) : Nat := Fmt.fa56.negate x

/-- A complex value. -/
abbrev Cx := Nat × Nat

/-- Row i, column j of a lower triangle kept by rows. -/
def at_ (l : List (List Cx)) (i j : Nat) : Cx := (l.getD i []).getD j (0, 0)

/-- The pivot of a column and its ZERO and TINY bits. -/
def pivot (d : Nat) : Nat × Bool × Bool :=
  let v := Fmt.fa56.val d
  if v.isZero then (2 ^ 44, true, false)
  else if (Fmt.fa56.val (recip d)).isInf then (2 ^ 44 + (if v.isNeg then Fmt.fa56.signBit else 0), false, true)
  else (d, false, false)

/-- What TFACT has formed so far: the rows of L, the pivots, their reciprocals, and the status bits. -/
structure Fact where
  l : List (List Cx) := List.replicate 16 []
  dd : List Nat := []
  rc : List Nat := []
  zero : Nat := 0
  tiny : Nat := 0

/-- The update of one element below the diagonal (R186). -/
def lower (f : Fact) (i j : Nat) (h : Cx) : Cx :=
  (List.range j).foldl (fun (s : Cx) k =>
    let a := at_ f.l i k
    let b := at_ f.l j k
    let ur := mul a.1 (f.dd.getD k 0)
    let ui := mul a.2 (f.dd.getD k 0)
    let re := fma (neg ui) b.2 (fma (neg ur) b.1 s.1)
    let im := fma ur b.2 (fma (neg ui) b.1 s.2)
    (re, im)) h

/-- Column j of TFACT. -/
def column (h : Nat → Nat → Cx) (f : Fact) (j : Nat) : Fact :=
  let d := (List.range j).foldl (fun d k =>
    let a := at_ f.l j k
    fma (neg (fma a.2 a.2 (mul a.1 a.1))) (f.dd.getD k 0) d) (h j j).1
  let (p, z, t) := pivot d
  let r := recip p
  let rows := f.l.zipIdx.map fun xi =>
    if j < xi.2 then
      let s := lower f xi.2 j (h xi.2 j)
      xi.1 ++ [(mul s.1 r, mul s.2 r)]
    else xi.1
  { l := rows, dd := f.dd ++ [p], rc := f.rc ++ [r], zero := f.zero + (if z then 2 ^ j else 0)
    tiny := f.tiny + (if t then 2 ^ j else 0) }

/-- TFACT on the elements of a tile pair: the new pair, ZERO and TINY. -/
def fact (re im : List Nat) (srci : Bool) : List Nat × List Nat × BitVec 32 :=
  let conv (x : Nat) : Nat := if srci then (Fmt.fa56.round 0 (FpVal.ofInt (i56 x))).1 else x
  let h (i j : Nat) : Cx := (conv (re.getD (16 * i + j) 0), conv (im.getD (16 * i + j) 0))
  let f := (List.range 16).foldl (column h) {}
  let out := (List.range 256).map fun n =>
    let i := n / 16
    let j := n % 16
    if i = j then (f.dd.getD j 0, f.rc.getD j 0) else if j < i then at_ f.l i j else (0, 0)
  (out.map (·.1), out.map (·.2), BitVec.ofNat 32 (f.tiny * 65536 + f.zero))

/-- One column of TSOLVE: the solution from the right-hand side (R187). -/
def column1 (l : Nat → Nat → Cx) (rc : Nat → Nat) (b : List Cx) : List Cx :=
  let y := (List.range 16).foldl (fun (y : List Cx) i =>
    y ++ [(List.range i).foldl (fun (v : Cx) k =>
      let a := l i k
      let w := y.getD k (0, 0)
      (fma a.2 w.2 (fma (neg a.1) w.1 v.1), fma (neg a.2) w.1 (fma (neg a.1) w.2 v.2))) (b.getD i (0, 0))]) []
  let x := y.zipIdx.map fun vi => (mul vi.1.1 (rc vi.2), mul vi.1.2 (rc vi.2))
  (List.range 16).foldl (fun (x : List Cx) t =>
    let i := 15 - t
    x.set i ((List.range t).foldl (fun (v : Cx) n =>
      let k := i + 1 + n
      let a := l k i
      let w := x.getD k (0, 0)
      (fma (neg a.2) w.2 (fma (neg a.1) w.1 v.1), fma a.2 w.1 (fma (neg a.1) w.2 v.2))) (x.getD i (0, 0)))) x

/-- TSOLVE on two tile pairs under a column mask. -/
def solve (fre fim bre bim : List Nat) (mask : BitVec 16) : List Nat × List Nat :=
  let l (i k : Nat) : Cx := (fre.getD (16 * i + k) 0, fim.getD (16 * i + k) 0)
  let rc (i : Nat) : Nat := fim.getD (17 * i) 0
  let cols := (List.range 16).map fun c =>
    let b := (List.range 16).map fun i => (bre.getD (16 * i + c) 0, bim.getD (16 * i + c) 0)
    if mask.getLsbD c then column1 l rc b else b
  let pick (f : Cx → Nat) : List Nat := (List.range 256).map fun n => f ((cols.getD (n % 16) []).getD (n / 16) (0, 0))
  (pick (·.1), pick (·.2))
end Solve

/-! ## Memory of an operation (R177, R181) -/

namespace State

/-- The page of an operation that a storage address lies in (R177). -/
def pageOf (e : GEntry) (loc : Nat) : Option GPage := e.pages.find? fun p => decide (p.loc ≤ loc) && decide (loc < p.loc + 65536)

/-- The place of a byte of an operation: homed as its page says (21_memory_system R360), or by physical address under a handle
(assumption log 60). -/
def opPlace (s : State) (e : GEntry) (loc : Nat) : Place :=
  match pageOf e loc with
  | some p => { loc := loc, kind := (p.leaf.extractLsb' 55 2).toNat, home := s.homeSlice p.leaf loc }
  | none => { loc := loc, home := s.physHome loc }

/-- Whether the memory refuses a request of an operation: it lies outside the windows of its context's owner (18_protection
R334). -/
def refusesOp (s : State) (e : GEntry) (loc : Nat) : Bool :=
  isHbm loc && (pageOf e loc).isSome && !s.ownerWindow e.tenant e.keep (loc / 65536 * 65536) (loc / 65536 * 65536 + 65536)

/-- Read one unit of memory for an operation through its Spire's cache, with its poison (R177, R188); what the memory refuses arrives
poisoned. -/
def fetchUnit (s : State) (sp : Nat) (e : GEntry) (u : Nat) : (BitVec 256 × Bool) × State :=
  if s.refusesOp e u then ((0, true), s.engineOutside e.region u)
  else
    let p := s.opPlace e u
    s.engineRead e.region (some (sp, e.lt)) p.home (s.kindAt p) 256 u (if isDome u then 8 else 32)

/-- Read bytes for an operation in their order: bytes that follow each other in one unit are one request. -/
def fetchItems (s : State) (sp : Nat) (e : GEntry) (locs : List Nat) : GEntry × State :=
  let r := locs.foldl (fun (r : GEntry × Option (Nat × BitVec 256 × Bool) × State) loc =>
    let u := poisonKey loc
    let x : (BitVec 256 × Bool) × State := match r.2.1 with
      | some (v, y) => if v = u then (y, r.2.2) else r.2.2.fetchUnit sp r.1 u
      | none => r.2.2.fetchUnit sp r.1 u
    ({ r.1 with got := Mem.write r.1.got loc (x.1.1.extractLsb' (8 * (loc - u)) 8)
                bad := if x.1.2 ∧ r.1.bad.contains u = false then u :: r.1.bad else r.1.bad }, some (u, x.1), x.2)) (e, none, s)
  (r.1, r.2.2)

end State

/-- The value of an element from the bytes an operation has read, and whether it met poison. -/
def GEntry.elem (e : GEntry) (d w : Nat) (x : MElem) : Nat × Bool :=
  let locs := x.all.map fun b => resolveByte d e.pages b.1 b.2
  let v := (locs.zipIdx).foldl (fun (z : Nat) li => z + (Mem.read e.got li.1).toNat * 2 ^ (8 * li.2)) 0
  (v / 2 ^ x.shift % 2 ^ w, locs.any fun l => e.bad.contains (poisonKey l))

/-- The operand tile an operation's loads give (R176, R188): +0 codes outside the extent and where poison was met. A scale byte in a
poisoned unit becomes 127 and sets the mark of the slot too (assumption log 84). -/
def GEntry.operand (e : GEntry) (d : Nat) (x : BitVec 512) (org : Nat) (tr scaled : Bool) (l row0 col0 : Nat) : Operand :=
  let f := Shape.fmt x
  let w := codeBits f (Shape.mxsub x)
  let es := (loadList x org tr l row0 col0).map fun (r, k, m) => (r, k, e.elem d w m)
  let data := es.foldl (fun (z : Nat) (r, k, v) => z + (if v.2 then 0 else v.1) * 2 ^ ((Shape.kd f * r + k) * w)) 0
  let ss := if scaled then (scaleList x tr row0 col0).map fun rm => (rm.1, e.elem d 8 rm.2) else []
  let scale (r : Nat) : Nat := match ss.find? fun s => s.1 == r with
    | some s => if s.2.2 then 127 else s.2.1
    | none => 127
  { fmt := f, sub := Shape.mxsub x, data := data
    scales := (List.range 16).foldl (fun z r => z + scale r * 2 ^ (8 * r)) 0
    poison := (es.any fun v => v.2.2.2) || ss.any fun s => s.2.2 }

/-- Conv (R181): the bytes of a stored element, as 8-byte halves. -/
def storeConv (g : Graver) (f t r c sc : Nat) (cplx : Bool) (rm : Nat) : List (Nat × BitVec 64) :=
  let re := (g.tile t).getD (16 * r + c) 0
  let im := (g.tile (t + 1)).getD (16 * r + c) 0
  let fp (F : Fmt) : Nat := (F.round rm (Fmt.fa56.val re)).1
  let cr (x : Int) : Int := (x + (if sc = 0 then 0 else 2 ^ (sc - 1))) / 2 ^ sc
  let sat (x : Int) : Nat := (max (-32768) (min 32767 x) % 65536).toNat
  match f with
  | 9 => [(2, BitVec.ofNat 64 (fp Fmt.fp16))]
  | 10 => [(2, BitVec.ofNat 64 (fp Fmt.bf16))]
  | 11 => [(4, BitVec.ofNat 64 (fp Fmt.fp32))]
  | 13 => [(4, BitVec.ofNat 64 (sat (cr (i56 re)) + sat (cr (i56 im)) * 65536))]
  | _ =>
    if cplx then [(8, (BitVec.ofNat 56 re).signExtend 64), (8, (BitVec.ofNat 56 im).signExtend 64)]
    else [(8, BitVec.ofNat 64 re)]

/-- The writes of one element, by storage address. -/
def elemWrites (d : Nat) (e : GEntry) (m : MElem) (xs : List (Nat × BitVec 64)) : List (Nat × Nat × BitVec 64) :=
  xs.zipIdx.map fun xi => (resolveByte d e.pages (m.addr + 8 * xi.2) m.phys, xi.1.1, xi.1.2)

namespace State

/-- The port of a Graver at the banks of a dome (13_dome_memory R274). -/
def graverPort (sp d : Nat) : Nat := if sp / 32 = d then 33 * (sp % 32) + 32 else 1057

/-- Make writes of an operation, each at the home and in the kind of its page (21_memory_system R359, R360); the entry keeps the largest
timestamp (R299), and a unit they cover whole loses its mark (R365). -/
def engineWrites (s : State) (sp : Nat) (e : GEntry) (ws : List (Nat × Nat × BitVec 64)) : GEntry × State :=
  let r := ws.foldl (fun (r : GEntry × State) w =>
    if r.2.refusesOp e w.1 then (r.1, r.2.engineOutside e.region w.1)
    else
      let p := r.2.opPlace e w.1
      let x := r.2.engineWrite p.home (r.2.kindAt p) w.1 w.2.1 (graverPort sp (locDome w.1)) w.2.2
      ({ r.1 with ts := max r.1.ts x.1 }, x.2)) (e, s)
  (r.1, r.2.cleanSpans ((ws.filter fun w => !s.refusesOp e w.1).map fun w => (w.1, w.2.1)))

/-- Replace the entry of an operation. -/
def setEntryAt (s : State) (sp q : Nat) (e : GEntry) : State :=
  let g := s.graverAt sp
  s.setGraverAt sp { g with ctx := g.ctx.modify q fun c => { c with queue := c.queue.map fun x => if x.num = e.num then e else x } }

/-- A k-step done by a region (09_execution R246). -/
def countStep (s : State) (e : GEntry) (f code : Nat) : State :=
  let s := s.countFor e.tenant (Graver.kCounter f) 1
  let s := if code = 3 then s.countFor e.tenant 23 1 else s
  s.onRegion e.region fun r => { r with ksteps := r.ksteps + 1, prog := r.prog + 1 }

/-! ## Loads and stores as operations -/

/-- The tile of an MLD, once its bytes are there (R176). -/
def fillSlot (s : State) (sp : Nat) (e : GEntry) : State :=
  match e.op with
  | .mld scaled tr n x =>
    let o := e.operand (sp / 32) x (e.org 0) tr scaled (Shape.layer x) (Shape.row0 x) (Shape.col0 x)
    (s.setGraverAt sp ((s.graverAt sp).fill n o)).countFor e.tenant 20 (16 * Shape.kd o.fmt * codeBits o.fmt o.sub / 256)
  | _ => s

/-- The writes of an MST, in the loop order (R181). -/
def storeWrites (g : Graver) (d : Nat) (e : GEntry) : List (Nat × Nat × BitVec 64) :=
  match e.op with
  | .mst t x mask sc pair rm =>
    (storeList x (e.org 0) (storeRaw x pair) mask (Shape.layer x) (Shape.row0 x) (Shape.col0 x)).flatMap fun (r, c, m) =>
      elemWrites d e m (storeConv g (Shape.fmt x) t r c sc (pair && Shape.fmt x != 13) rm)
  | _ => []

/-- The next n accesses of a load or a store, in its order (R177, R181). -/
def makeItems (s : State) (sp : Nat) (e : GEntry) (n : Nat) : GEntry × State :=
  let r : GEntry × State := match e.op with
    | .mld _ _ _ _ => s.fetchItems sp e ((((e.items (sp / 32)).map fun b => b.1).drop e.pos).take n)
    | _ => s.engineWrites sp e (((storeWrites (s.graverAt sp) (sp / 32) e).drop e.pos).take n)
  ({ r.1 with pos := e.pos + n }, r.2)

/-- Start a load or a store: what stands outside dome memory before its first burst is accessed now (R177, R181). -/
def startItems (s : State) (sp : Nat) (e : GEntry) : GEntry × State :=
  let bs := burstsOf (e.items (sp / 32))
  let first : Nat := match bs with
    | b :: _ => if b.beats = 0 then b.items else 0
    | [] => 0
  let r := s.makeItems sp { e with pos := 0 } first
  let e := { r.1 with bursts := bs.filter fun b => b.beats != 0 }
  (e, if e.bursts.isEmpty then r.2.fillSlot sp e else r.2)

/-- Start an MST: nothing is written when a tile was struck while it waited (R181). -/
def startStore (s : State) (sp : Nat) (e : GEntry) (tiles : List Nat) : GEntry × State :=
  let g := s.graverAt sp
  if tiles.any g.struck then ({ e with code := 3 }, s.countFor e.tenant 23 1)
  else
    let n := (storeWrites g (sp / 32) e).foldl (fun z w => z + w.2.1) 0
    (s.countFor e.tenant 21 ((n + 31) / 32)).startItems sp e

/-! ## TGEMM (R183, R184, R265) -/

end State

/-- The tile after the current one (R183). -/
def GEntry.nextTile (e : GEntry) (tm tn : Nat) : GEntry :=
  let e := { e with tk := 0, tcol := e.tcol + 1 }
  let e := if e.tcol = tn then { e with tcol := 0, trow := e.trow + 1 } else e
  if e.trow = tm then { e with trow := 0, layer := e.layer + 1 } else e

/-- The resume word of a tile (R184). -/
def resumeWord (e : GEntry) (active : Bool) : Word :=
  BitVec.ofNat 64 (e.layer % 65536 * 2 ^ 48 + e.trow % 65536 * 2 ^ 32 + e.tcol % 65536 * 2 ^ 16 + (if active then 1 else 0))

namespace State

def setResume (s : State) (sp q : Nat) (w : Word) : State :=
  let g := s.graverAt sp
  s.setGraverAt sp { g with ctx := g.ctx.modify q fun c => { c with resume := w } }

/-- The elements of a tile of C. -/
def cTile (xc : BitVec 512) (e : GEntry) (raw : Nat) : List (Nat × Nat × MElem) :=
  storeList xc (e.org 2) raw 0xFFFFFFFF e.layer (16 * e.trow) (16 * e.tcol)

/-- Load the current tile of C into the accumulator exactly (R183); poison strikes it (R265): the accumulator then holds the elements
loaded, with +0 where poison was met (assumption log 84). -/
def loadC (s : State) (sp : Nat) (e : GEntry) (xc : BitVec 512) (acc : Nat) (pair : Bool) : GEntry × State :=
  let d := sp / 32
  let f := Shape.fmt xc
  let raw := rawBits (pair && f != 13)
  let es := cTile xc e raw
  let r := s.fetchItems sp { e with got := [], bad := [] }
    ((es.flatMap fun v => v.2.2.all).map fun b => resolveByte d e.pages b.1 b.2)
  let e := r.1
  let s := r.2
  let vals := es.map fun (r, c, m) => (16 * r + c, e.elem d (8 * m.bytes) m)
  let widen (F : Fmt) (v : Nat) : Nat := (Fmt.fa56.round 0 (F.val v)).1
  let re (v : Nat) : Nat := match f with
    | 9 => widen Fmt.fp16 v
    | 10 => widen Fmt.bf16 v
    | 11 => widen Fmt.fp32 v
    | 13 => wrap56 (BitVec.ofNat 16 v).toInt
    | _ => v % 2 ^ 56
  let im (v : Nat) : Nat := if f = 13 then wrap56 (BitVec.ofNat 16 (v / 65536)).toInt else v / 2 ^ 64 % 2 ^ 56
  let tile (h : Nat → Nat) : List Nat := (List.range 256).map fun n => match vals.find? fun v => v.1 == n with
    | some v => if v.2.2 then 0 else h v.2.1
    | none => 0
  let g := (s.graverAt sp).setTile acc (tile re)
  let g := if pair then g.setTile (acc + 1) (tile im) else g
  if vals.any fun v => v.2.2 then
    let g := (if pair then [acc, acc + 1] else [acc]).foldl (fun (g : Graver) t => g.strike e.ksteps t) g
    ({ e with code := 3 }, (s.setGraverAt sp g).countFor e.tenant 23 1)
  else (e, s.setGraverAt sp g)

/-- The first step of a tile: C is loaded, or the accumulator cleared (R183). -/
def beginTile (s : State) (sp q : Nat) (e : GEntry) (xc : BitVec 512) (acc : Nat) (add pair : Bool) : GEntry × State :=
  let ts := if pair then [acc, acc + 1] else [acc]
  let s := s.setResume sp q ((nth (s.graverAt sp).ctx q {}).resume &&& ~~~1)
  if add then
    if ts.any (s.graverAt sp).struck then ({ e with code := 3 }, s.countFor e.tenant 23 1) else s.loadC sp e xc acc pair
  else
    (e, s.setGraverAt sp (ts.foldl (fun (g : Graver) t => (g.setTile t []).setTileStat t 0) (s.graverAt sp)))

/-- Fill the working slots from what a k-step loaded: which of the two tiles each holds is open (R183). -/
def fillWorking (s : State) (sp b : Nat) (x y : Operand) : State :=
  let (f, s) := s.free
  let at_ := if Shape.wide x.fmt then [0, 2, 4, 6] else List.range 8
  s.setGraverAt sp (at_.foldl (fun (g : Graver) k => g.fill (b + k) (if f.getLsbD k then x else y)) (s.graverAt sp))

/-- One k-step of a TGEMM with its loads, and before a tile's first one its beginning (R183). -/
def gemmStep (s : State) (sp : Nat) (e : GEntry) (xa xb xc : BitVec 512) (acc b : Nat) : GEntry × State :=
  let d := sp / 32
  let f := Shape.fmt xa
  let kd := Shape.kd f
  let scaled := f == 14
  let loads (x : BitVec 512) (k : Nat) (tr : Bool) (row0 col0 : Nat) (r : GEntry × State) : Operand × GEntry × State :=
    let z := r.2.fetchItems sp { r.1 with got := [], bad := [] }
      ((loadBytes x (e.org k) tr scaled r.1.layer row0 col0).map fun b => resolveByte d e.pages b.1 b.2)
    (z.1.operand d x (e.org k) tr scaled r.1.layer row0 col0, z.1, z.2)
  let (x, e, s) := loads xa 0 false (16 * e.trow) (kd * e.tk) (e, s)
  let (y, e, s) := loads xb 1 true (kd * e.tk) (16 * e.tcol) (e, s)
  let s := s.fillWorking sp b x y
  let m : KMask := { row := fun i => decide (16 * e.trow + i < Shape.rows xc), col := fun j => decide (16 * e.tcol + j < Shape.cols xc)
                     dep := fun k => decide (kd * e.tk + k < Shape.cols xa) }
  let r := (s.graverAt sp).kRun acc x y m e.ksteps
  let s := (s.setGraverAt sp r.1).countStep e f r.2
  ({ e with code := r.2, tk := e.tk + 1, ksteps := if r.2 = 0 then e.ksteps + 1 else e.ksteps }, s)

/-- Store the current tile of C (R183). -/
def storeC (s : State) (sp : Nat) (e : GEntry) (xc : BitVec 512) (acc rm : Nat) (pair : Bool) : GEntry × State :=
  let f := Shape.fmt xc
  let cplx := pair && f != 13
  s.engineWrites sp e ((cTile xc e (rawBits cplx)).flatMap fun (r, c, m) =>
    elemWrites (sp / 32) e m (storeConv (s.graverAt sp) f acc r c 0 cplx rm))

/-- The next step of a TGEMM (R183, R259). -/
def startGemm (s : State) (sp q : Nat) (e : GEntry) : GEntry × State :=
  match e.op with
  | .tgemm xa xb xc acc add b rm =>
    let (tm, tn, tk, _) := tgemmSize xa xc
    let pair := Shape.fmt xa == 13
    if e.tilesLeft = false then (e, s)
    else
      let r := if e.tk = 0 then s.beginTile sp q e xc acc add pair else (e, s)
      let r := if r.1.code = 0 ∧ r.1.tk < tk then r.2.gemmStep sp r.1 xa xb xc acc b else r
      if r.1.code ≠ 0 then (r.1, r.2.setResume sp q (resumeWord r.1 false))
      else if r.1.tk = tk then
        let r := r.2.storeC sp r.1 xc acc rm pair
        (r.1.nextTile tm tn, r.2)
      else r
  | _ => (e, s)

/-! ## Starting an operation (R257-R259) -/

/-- What an operation does when it starts: its entry and the state. -/
def startOp (s : State) (sp q : Nat) (e : GEntry) : GEntry × State :=
  let g := s.graverAt sp
  match e.op with
  | .mld _ _ _ _ => s.startItems sp e
  | .mma _ t a b mask _ =>
    let x := g.operand a
    let r := g.kRun t x (g.operand b) (KMask.ofWord mask) 0
    ({ e with code := r.2 }, (s.setGraverAt sp r.1).countStep e x.fmt r.2)
  | .mzero t => (e, s.setGraverAt sp ((g.setTile t []).setTileStat t 0))
  | .mmov sh t row =>
    let n := if sh then 8 + t else t
    let data : BitVec 1024 := BitVec.ofNat 1024 ((List.range 16).foldl (fun z c => z + (g.tile n).getD (16 * row + c) 0 * 2 ^ (64 * c)) 0)
    ({ e with res := some (if g.struck n then .poison n else .row data) }, s)
  | .mmovr t row data =>
    let xs := (g.tile t).zipIdx.map fun xn =>
      if xn.2 / 16 = row then (data >>> (56 * (xn.2 % 16))).toNat % 2 ^ 56 else xn.1
    (e, s.setGraverAt sp (g.setTile t xs))
  | .mst t x _ _ pair _ => s.startStore sp e (if pair ∨ Shape.fmt x = 13 then [t, t + 1] else [t])
  | .mspec sel => (e, s.setGraverAt sp ((selected sel).foldl (fun (g : Graver) n =>
      (g.setTile (8 + n) (g.tile n)).setTileStat (8 + n) (g.tileStat n)) g))
  | .resolve commit sel => (e, if commit then s.setGraverAt sp ((selected sel).foldl (fun (g : Graver) n =>
      (g.setTile n (g.tile (8 + n))).setTileStat n (g.tileStat (8 + n))) g) else s)
  | .tgemm _ _ _ _ _ _ _ => s.startGemm sp q e
  | .tfact t srci =>
    match [t, t + 1].find? g.struck with
    | some n => ({ e with res := some (.poison n) }, s)
    | none =>
      let r := Solve.fact (g.tile t) (g.tile (t + 1)) srci
      let st := (g.tileStat t &&& 0xFFFFFFFF00000000) ||| r.2.2.setWidth 64
      ({ e with res := some (.fact r.2.2) }, s.setGraverAt sp (((g.setTile t r.1).setTile (t + 1) r.2.1).setTileStat t st))
  | .tsolve x f mask =>
    if [x, x + 1, f, f + 1].any g.struck then
      ({ e with code := 3 }, (s.setGraverAt sp ([x, x + 1].foldl (fun (g : Graver) t => g.mark t) g)).countFor e.tenant 23 1)
    else
      let r := Solve.solve (g.tile f) (g.tile (f + 1)) (g.tile x) (g.tile (x + 1)) mask
      (e, s.setGraverAt sp ((g.setTile x r.1).setTile (x + 1) r.2))

end State

namespace State

/-- A context's next eligible operation ages from now (R257, R258). -/
def ageHead (s : State) (sp q : Nat) : State :=
  let g := s.graverAt sp
  match (nth g.ctx q {}).head? with
  | some e => s.setEntryAt sp q { e with since := s.gclock sp g }
  | none => s

/-- Whether the partition of a Spire has reached the agreed time of its gang switch (16_traps R316): no operation and no
k-step starts any more (06_matrix_isa R189, 11_matrix_engine R264). -/
def spireStopping (s : State) (sp : Nat) : Bool :=
  match (s.spireAt sp).part with
  | some p => match Tab.find? s.armed p with
    | some t => decide (t ≤ s.time)
    | none => false
  | none => false

/-- Start the next operation, or k-step, of a Graver: at most one in a core cycle (R257-R259). -/
def graverStart (s : State) (sp : Nat) : State :=
  let g := s.graverAt sp
  match (if s.spireStopping sp || (s.domeAt (sp / 32)).stopAt.isSome || g.startAt == some (s.domeClock (sp / 32)) then none
    else g.choose (sp / 32) (s.gclock sp g)) with
  | none => s
  | some (q, e) =>
    let passes := g.ctx.any fun c => c.queue.any fun x => x.isGemm && x.started && x.tilesLeft && !(x.num == e.num && e.isGemm)
    let s := if passes then s.countFor e.tenant 22 1 else s
    let s := s.setGraverAt sp { g with arbLast := q, startAt := some (s.domeClock (sp / 32)) }
    let pri := if e.began then e.pri else (nth g.ctx q {}).prio.toNat
    let r := s.actingFor e.tenant fun s => s.startOp sp q { e with started := true, began := true, pri := pri }
    ((r.2.setEntryAt sp q r.1).ageHead sp q).noteStallAt sp 1

/-! ## Bank grants (13_dome_memory R274-R277) -/

/-- A burst of an operation is granted: its words are read or written, and what stands after them outside dome memory. -/
def grantBurst (s : State) (sp q : Nat) (e : GEntry) (b : Burst) : State :=
  let d := b.bank / 4096
  let s := s.countFor e.tenant 11 b.beats
  let port := graverPort sp d
  let r := s.actingFor e.tenant fun s => s.makeItems sp e b.items
  let e := { r.1 with bursts := e.bursts.drop 1 }
  let s := if e.bursts.isEmpty then r.2.fillSlot sp e else r.2
  let x := s.domeAt d
  let s := s.setDomeAt d { x with ptr := Tab.put x.ptr (b.bank % 4096) port, barred := Tab.put x.barred (b.bank % 4096) (port, s.domeClock d + b.beats) }
  (s.setEntryAt sp q e).noteStallAt sp b.beats

/-- The burst a Graver presents: one at a time, a load's before a store's (R274). -/
def outstanding (g : Graver) : Option (Nat × GEntry × Burst) :=
  let all := g.ctx.zipIdx.flatMap fun cq => cq.1.queue.filterMap fun e => match e.bursts with
    | b :: _ => if e.started then some (cq.2, e, b) else none
    | [] => none
  match all.find? fun x => x.2.1.op.units == [1] with
  | some x => some x
  | none => all.head?

/-- The requests presented to a bank by Gravers and by released ordered operations (R274, R277): port, and the Spire's
burst or the held operation. -/
inductive Request where
  | burst (sp q : Nat) (e : GEntry) (b : Burst)
  | held (h : HeldOp)

def requests (s : State) (d bank : Nat) : List (Nat × Request) :=
  let bursts := s.spires.filterMap fun px => match outstanding px.2.graver with
    | some (q, e, b) => if b.bank = d * 4096 + bank then some (graverPort px.1 d, Request.burst px.1 q e b) else none
    | none => none
  let held := (Tab.get (s.domeAt d).holds bank []).filterMap fun h => if h.ready then some (h.port, Request.held h) else none
  held ++ bursts

/-- The round-robin choice of a bank (R275). -/
def chooseGrant (s : State) (d bank : Nat) : Option Request :=
  let x := s.domeAt d
  let ptr := Tab.get x.ptr bank 1057
  let free (p : Nat) : Bool := match Tab.find? x.barred bank with
    | some (b, c) => p != b || decide (c < s.domeClock d)
    | none => true
  let rank (p : Nat) : Nat := (p + 1058 - (ptr + 1)) % 1058
  match (s.requests d bank).filter fun r => free r.1 with
  | [] => none
  | r :: rs => some (rs.foldl (fun (b : Nat × Request) y => if rank y.1 < rank b.1 then y else b) r).2

/-- The tenant whose core issued a held operation. -/
def holder (s : State) (h : HeldOp) : Nat := (s.coreAt (match h.pkt with | some p => p.src | none => h.core)).tenant

/-- A released ordered operation applies at its grant (05_memory_isa R146, R277): a packet is acknowledged; the core of an AMO
gets the old value, and its timestamp is that of any AMO (15_consistency R293). An AMO that finds its word poisoned is not
applied and gets the poison (R138 step 3). -/
def applyHeld (s : State) (h : HeldOp) : State :=
  let s := s.setHolds h.loc ((s.holdsOf h.loc).filter fun x => !(x.loc == h.loc && x.q == h.q))
  let poisoned := h.pkt.isNone && s.isPoisoned h.loc
  let r := s.atomApply h.loc (redOp h.op) h.ty h.data 0
  let s := if poisoned then s else r.2.advance h
  let d := s.domeAt (locDome h.loc)
  let lt := match h.pkt with
    | some _ => 0
    | none => max (s.coreAt h.core).lt (4 * s.time)
  let ts := max lt (Tab.get d.bclk (locBank h.loc) 0 + 1)
  let s := s.setDomeAt (locDome h.loc) { d with bclk := Tab.put d.bclk (locBank h.loc) ts, ptr := Tab.put d.ptr (locBank h.loc) h.port }
  let s := s.countFor (s.holder h) 8 1
  match h.pkt with
  | some p =>
    let s := (s.onLogical p.region p.lcore fun k => { k with grantTs := max k.grantTs ts }).countFor (s.coreAt p.src).tenant 12 1
    { s with acks := s.acks ++ [{ region := p.region, lcore := p.lcore, entry := p.entry, refused := false }] }
  | none =>
    let k := s.coreAt h.core
    let k : Core := if poisoned then { k with amoBad := true, lt := ts } else { k with amo := some r.1, lt := ts }
    (s.setCoreAt h.core k).countFor k.tenant 10 1

/-- A bank grants one presented request (R275), while the clock of its dome runs (22_host_compat R386). -/
def bankGrant (s : State) (d bank : Nat) : State :=
  if (s.domeAt d).stopAt.isSome then s
  else match s.chooseGrant d bank with
    | none => s
    | some (.burst sp q e b) => s.grantBurst sp q e b
    | some (.held h) => s.applyHeld h

/-! ## Cycles counted (22_host_compat R381) -/

/-- The tenants whose requests wait at the banks of domes with a running clock: bursts that Gravers present, and released ordered
operations. -/
def bankWaits (s : State) : List Nat :=
  let runs (d : Nat) : Bool := (s.domeAt d).stopAt.isNone
  (s.spires.filterMap fun (px : Nat × Spire) => match outstanding px.2.graver with
    | some (_, e, b) => if b.beats ≠ 0 ∧ runs (b.bank / 4096) = true then some e.tenant else none
    | none => none) ++
  s.domes.flatMap fun (dd : Nat × Dome) => if runs dd.1 then dd.2.holds.flatMap fun bh => (bh.2.filter (·.ready)).map s.holder else []

/-- The counters of cycles that a core's cycle adds to: core cycles, those in which the scoreboard holds it, and waiting ones
(09_execution R243). -/
def cycleCounters (k : Core) : List Nat :=
  match k.status with
  | .running => [1]
  | .waiting w => 1 :: (match w with | .token _ _ => [2] | _ => []) ++ if listed w then [3] else []
  | _ => []

/-- Count core cycles that pass: those of every core whose clock runs, and those in which requests wait at banks. -/
def countCycles (s : State) (dt : Nat) : State :=
  if dt = 0 then s
  else
    let who (c : Nat) (k : Core) : Nat := if Config.domeCores ≤ c then deviceTenant else k.tenant
    let s := s.cores.foldl (fun (t : State) (ck : Nat × Core) =>
      if Config.domeCores ≤ ck.1 ∨ (s.domeAt (spireOf ck.1 / 32)).stopAt.isNone = true then
        (cycleCounters ck.2).foldl (fun (t : State) i => t.countFor (who ck.1 ck.2) i dt) t
      else t) s
    s.bankWaits.foldl (fun (t : State) w => t.countFor w 9 dt) s

/-! ## Completion (R261) -/

/-- The core that waits for an operation gets its result (R167). -/
def deliver (s : State) (sp q : Nat) (e : GEntry) : State :=
  match e.res with
  | none => s
  | some r =>
    let k := s.coreAt e.core
    match k.status with
    | .waiting (.graverOp sp' q' n) =>
      if sp' = sp ∧ q' = q ∧ n = e.num ∧ k.gop = some e.num then s.setCoreAt e.core { k with gres := some r } else s
    | _ => s

/-- Complete an operation: it leaves its context, its number counts as completed (05_memory_isa R152), its pins end
(18_protection R345), and its slots may be released (R175). -/
def completeOp (s : State) (sp q : Nat) (e : GEntry) : State :=
  let s := s.unpinAll e.pins
  let g := s.graverAt sp
  let g := { g with ctx := g.ctx.modify q fun c =>
    { c with queue := c.queue.filter fun x => x.num != e.num, tl := c.tl.complete e.num e.code e.ts } }
  ((s.setGraverAt sp g.sweep).deliver sp q e).noteStallAt sp 0

/-- The first operation of a context that is over completes (R261). -/
def graverComplete (s : State) (sp q : Nat) : State :=
  match (nth (s.graverAt sp).ctx q {}).queue.find? GEntry.finished with
  | some e => s.completeOp sp q e
  | none => s

/-! ## The coprocessor port as a step of its own (R256) -/

/-- The core whose waiting matrix instruction the port takes next. -/
def portPick (s : State) (sp : Nat) : Option Nat := (s.portOrder sp).find? s.presents

end State

/-- The meaning of a matrix instruction; other instructions do nothing here. -/
def matrixExec (i : Instr) (s : State) : Out :=
  match i with
  | .mshl g d a q => execMshl g d a q s
  | .mshf g d a f q => execMshf g d a f q s
  | .mshs g a b q => execMshs g a b q s
  | .mclaim g d c l => execMclaim g d c l s
  | .mrel g a c => execMrel g a c s
  | .mld g d a n t q => execMld g d a n t q s
  | .mldx g d a n t q => execMldx g d a n t q s
  | .mma g d c x y q => execMma g d c x y q s
  | .mmaS g d c x y q => execMmaS g d c x y q s
  | .mzero g d q => execMzero g d q s
  | .mmov g d a r h n q => execMmov g d a r h n q s
  | .mmovr g d a r q => execMmovr g d a r q s
  | .mst g d a b c n x q => execMst g d a b c n x q s
  | .mspec g m q => execMspec g m q s
  | .mresolve g c q => execMresolve g c q s
  | .mcommit g q => execMcommit g q s
  | .mdiscard g q => execMdiscard g q s
  | .tgemm g d a b c t x n q => execTgemm g d a b c t x n q s
  | .tfact g d a x p q => execTfact g d a x p q s
  | .tsolve g d a b q => execTsolve g d a b q s
  | .mqpri g c p => execMqpri g c p s
  | .mqsync g d c => execMqsync g d c s
  | _ => powered s (.next s)

/-! ## Meanings of the Graver's steps -/

/-- COPROCESSOR_PORT_ACCEPT (R256): the port takes the presented instruction of the next core in its order. -/
def execCoprocessorPortAccept (spire : Nat) (s : State) : Out :=
  match s.portPick spire with
  | none => powered s (.next s)
  | some c =>
    let s : State := { s with cur := c }
    match (if s.mayIssue && !s.asyncNow && !s.killedNow then some s.fetchNext else none) with
    | some (.instr at_ i s) => matrixExec i (s.setPc at_)
    | _ => powered s (.next s)

/-- GRAVER_OP_START (R257). -/
def execGraverOpStart (spire : Nat) (s : State) : Out := event (fun s => s.graverStart spire) s

/-- GRAVER_OP_COMPLETE (R261). -/
def execGraverOpComplete (spire ctx : Nat) (s : State) : Out := event (fun s => s.graverComplete spire ctx) s

/-- BANK_GRANT (R275). -/
def execBankGrant (dome bank : Nat) (s : State) : Out := event (fun s => s.bankGrant dome bank) s

end Sys2Proof.Machine
end

