-- ==== Sys2Proof/Machine/Copy.lean ====
section
/-!
DEFINITION. COPY, COPYH and the streamers that carry them out (05_memory_isa R149-R151, 16_traps R315, R325,
18_protection R345, R347, 21_memory_system R363).
-/

namespace Sys2Proof.Machine

open Sys2Proof

/-! ## Windows of a range (R135, R150) -/

/-- The end of the window an address of a bulk copy lies in; none in the workspace window or in no window. -/
def windowEnd (va : Nat) : Option Nat :=
  if 0x1000000 ≤ va ∧ va < 0x1800000 then some 0x1800000
  else if 0x1800000 ≤ va ∧ va < 0x2000000 then some 0x2000000
  else if 0x10000000 ≤ va ∧ va < 0x18000000 ∧ va % 2 ^ 24 < 0x800000 then some (va / 2 ^ 24 * 2 ^ 24 + 0x800000)
  else if 0x20000000 ≤ va ∧ va < 0x30000000 then some 0x30000000
  else if 0x100000000 ≤ va ∧ va < 0x1000000000000 then some 0x1000000000000
  else none

/-- The lowest address of a range that is not in the window of its first byte. -/
def rangeFault (va len : Nat) : Option Nat :=
  if len = 0 then none
  else match windowEnd va with
    | none => some va
    | some e => if va + len ≤ e then none else some e

/-- The dome, the view (interleaved or not) and the offset of an address in a dome-memory window. -/
def domeView (d va : Nat) : Option (Nat × Bool × Nat) :=
  if 0x1000000 ≤ va ∧ va < 0x1800000 then some (d, true, va - 0x1000000)
  else if 0x1800000 ≤ va ∧ va < 0x2000000 then some (d, false, va - 0x1800000)
  else if 0x10000000 ≤ va ∧ va < 0x18000000 then some ((va - 0x10000000) / 2 ^ 24, true, va % 2 ^ 24)
  else none

/-- The storage address of a byte of a view. -/
def viewLoc (v : Nat × Bool × Nat) (k : Nat) : Nat :=
  if v.2.1 then domeLoc v.1 (v.2.2 + k) else Config.domeBase + v.1 * 2 ^ 23 + v.2.2 + k

/-- The offset in a view of a word's storage address. -/
def viewOff (v : Nat × Bool × Nat) (loc : Nat) : Nat :=
  let o := (loc - Config.domeBase) % 2 ^ 23
  if v.2.1 then 8 * (o % 2048 / 8 * 4096 + o / 2048) else o

/-- The words a range of a view touches. -/
def viewWords (v : Nat × Bool × Nat) (len : Nat) : List Nat :=
  if len = 0 then [] else (List.range ((v.2.2 % 8 + len + 7) / 8)).map fun k => viewLoc (v.1, v.2.1, v.2.2 / 8 * 8) (8 * k)

/-- Whether two ranges of n bytes share a number. -/
def meets (a b n : Nat) : Bool := decide (a < b + n) && decide (b < a + n) && n != 0

namespace State

/-! ## The checks at the streamer (R150) -/

/-- Whether the two ranges of a copy name common storage (R150). -/
def copyOverlaps (op : CopyOp) : Bool :=
  if op.srcObj.isSome || op.dstObj.isSome then
    match op.srcObj, op.dstObj with
    | some a, some b => meets a b op.len
    | _, _ => false
  else
    let d := domeOf op.core
    match domeView d op.src.toNat, domeView d op.dst.toNat with
    | some v, some w => v.1 == w.1 && (viewWords v op.len).any fun loc =>
        let o := viewOff w loc
        decide (o < w.2.2 + op.len) && decide (w.2.2 < o + 8)
    | none, none => meets op.src.toNat op.dst.toNat op.len
    | _, _ => false

/-- Whether n bytes of a range of a copy in dome memory, from an offset on, touch a bank of another tenant or of none (R150,
R136, 16_traps R317). R150 names a source bank reached through a remote window only; that one of the issuing core's own dome
counts as well is the model's choice (assumption log 78). -/
def foreignBank (s : State) (op : CopyOp) (va : Word) (obj : Option Nat) (k n : Nat) : Bool :=
  if obj.isSome then false
  else match domeView (domeOf op.core) (va.toNat + k) with
    | some v => (viewWords v n).any fun loc => s.bankTenant (locDome loc) (locBank loc) != some op.tenant
    | none => false

/-- The place of a byte of a copy: no TLB entry is installed by the streamer (R150). -/
def copyPlace (s : State) (op : CopyOp) (acc : Acc) (va : Word) (obj : Option Nat) (k : Nat) : Option Place :=
  match obj with
  | some b => some { loc := b + k, home := s.physHome (b + k) }
  | none => (s.outer noSpire (domeOf op.core) op.tenant op.ctx false acc (va.toNat + k)).map (·.1)

/-! ## Moving bytes (R363) -/

/-- The size of the unit a byte of a range lies in: a word of dome memory, a sector elsewhere. -/
def unitBytes (loc : Nat) : Nat := if isDome loc then 8 else 32

/-- What source bytes give that the copy has itself overwritten through another mapping: each its original value or the one
written, which the spec leaves open (R150; assumption log 6). -/
def openBytes (was : List Host.Cell) : Nat → List Byte → State → List Byte × State
  | _, [], s => ([], s)
  | loc, b :: bs, s =>
    let r : Byte × State := match List.find? (fun (c : Host.Cell) => c.1 == loc) was with
      | some c => let (x, s) := s.free; (if x.getLsbD 0 then c.2 else b, s)
      | none => (b, s)
    let y := openBytes was (loc + 1) bs r.2
    (r.1 :: y.1, y.2)

/-- Bytes of a copy's source from offset k on, unit by unit, until n are read, a page fails (code 2) or a poisoned unit is met
(code 3). -/
def copyRead (op : CopyOp) : Nat → Nat → Nat → State → List Byte × Nat × State
  | 0, _, _, s => ([], 0, s)
  | fuel + 1, k, n, s =>
    if n = 0 then ([], 0, s)
    else match s.copyPlace op .load op.src op.srcObj k with
    | none => ([], 2, s)
    | some p =>
      let m := min n (unitBytes p.loc - p.loc % unitBytes p.loc)
      if p.outside then ([], 3, s.engineOutside op.region p.loc)
      else
        let r : (BitVec 256 × Bool) × State := s.engineRead op.region none p.home p.kind 256 p.loc m
        if r.1.2 then ([], 3, r.2)
        else
          let y := if op.was.isEmpty then (toBytes m r.1.1, r.2) else openBytes op.was p.loc (toBytes m r.1.1) r.2
          let x := copyRead op fuel (k + m) (n - m) y.2
          (y.1 ++ x.1, x.2)

/-- Whether a byte of HBM4E lies in a page that the source of a copy is mapped to. -/
def inSource (s : State) (op : CopyOp) (loc : Nat) : Bool :=
  isHbm loc && (List.range (op.len / 65536 + 2)).any fun j =>
    let k := if j = 0 then 0 else j * 65536 - op.src.toNat % 65536
    match op.srcObj with
    | some b => decide (b ≤ loc) && decide (loc < b + op.len)
    | none => decide (k < op.len) && (match s.copyPlace op .load op.src none k with
      | some p => p.loc / 65536 == loc / 65536
      | none => false)

/-- A copy that overwrites bytes of its own source, through another mapping, keeps what they held. -/
def noteWas (s : State) (op : CopyOp) (loc m : Nat) : CopyOp :=
  if s.inSource op loc then
    { op with was := (List.range m).foldl (fun (t : List Host.Cell) i =>
        if t.any fun c => c.1 == loc + i then t else (loc + i, s.peek 8 (loc + i) 1) :: t) op.was }
  else op

/-- Move bytes of a copy until `n` are moved, it fails, or its port has to give way to a released ordered operation
(13_dome_memory R277): chunk by chunk of whole destination units. -/
def copyMove (s : State) (unit : Nat) : Nat → Nat → CopyOp → CopyOp × State
  | 0, _, op => (op, s)
  | fuel + 1, n, op =>
    if n = 0 ∨ op.code ≠ 0 then (op, s)
    else match s.copyPlace op .store op.dst op.dstObj op.moved with
      | none => ({ op with code := 2 }, s)
      | some p =>
        let loc := p.loc
        let u := unitBytes loc
        let near := isDome loc && locDome loc == unit
        if isDome loc && !near && s.meshHeld loc then (op, s)
        else
          let r := copyRead op 64 op.moved (min n (u - loc % u)) s
          let bs := r.1
          let m := bs.length
          let w := if p.outside then (0, r.2.2.engineOutside op.region loc)
            else r.2.2.engineWrite p.home p.kind loc m (if near then 1056 else 1057) (ofBytes 256 bs)
          let op' := if m = 0 then op else { r.2.2.noteWas op loc m with moved := op.moved + m, ts := max op.ts w.1 }
          copyMove (if m = 0 then r.2.2 else w.2) unit fuel (n - m) { op' with code := r.2.1 }

/-! ## Streamers (R363) -/

/-- A streamer by unit: 0 to 7 are the domes', 8 to 71 the slices'. -/
def streamerAt (s : State) (u : Nat) : Streamer := if u < 8 then (s.domeAt u).streamer else (s.sliceAt (u - 8)).streamer

def setStreamer (s : State) (u : Nat) (x : Streamer) : State :=
  if u < 8 then s.setDomeAt u { s.domeAt u with streamer := x } else s.setSliceAt (u - 8) { s.sliceAt (u - 8) with streamer := x }

/-- A copy message reaches its streamer: it becomes active, is queued, or is refused with a retry hint (R363, R325). -/
def offerCopy (s : State) (u tries : Nat) (op : CopyOp) : State :=
  let x := s.streamerAt u
  if x.active.length < 16 then s.setStreamer u { x with active := x.active ++ [op] }
  else if x.queue.length < 64 ∨ 8 ≤ tries then s.setStreamer u { x with queue := x.queue ++ [op] }
  else
    let (h, s) := s.free
    let sp := spireOf op.core
    let y := s.spireAt sp
    let wait := ((h.toNat % 255 + 1) * 23 + 17) / 18
    (s.setSpireAt sp { y with retries := y.retries ++ [{ unit := u, op := op, tries := tries + 1, dueCycle := s.cycle + wait }] }).countFor
      op.tenant 34 1

/-- The streamer beside the source (R150), and the code the copy comes to it with: for a global source the translation of its
first byte decides, and a copy whose translation fails goes to the issuing core's dome, which fails it with code 2. -/
def copyUnit (s : State) (op : CopyOp) : Nat × Nat × State :=
  match op.srcObj with
  | some b => (8 + s.physHome b, 0, s)
  | none =>
    let va := op.src.toNat
    match domeView (domeOf op.core) va with
    | some v => (v.1, 0, s)
    | none =>
      if 0x20000000 ≤ va ∧ va < 0x30000000 then (8 + (va - 0x20000000) / 2 ^ 22, 0, s)
      else match s.translate (spireOf op.core) op.tenant op.ctx .load va with
        | some (p, s') => (8 + p.home, 0, s')
        | none => (domeOf op.core, 2, s)

/-- A copy ends (R150): on a failure the bytes it did not move leave the pending count at once; its pin ends, and its
status goes to its logical core. -/
def endCopy (s : State) (op : CopyOp) : State :=
  let s := match op.bar with
    | some b => if op.code ≠ 0 then s.settleBytes op.region b (op.len - op.moved) op.code op.ts else s
    | none => s
  let s := match op.pin with
    | some e => s.unpin e
    | none => s
  let s := s.countFor op.tenant (if op.code = 0 then 37 else 38) 1
  { s with landings := s.landings ++ [{ region := op.region, lcore := op.lcore, addr := op.token
                                        status := BitVec.ofNat 64 (op.code * 2 ^ 40 + op.moved), tl := op.tl, ts := op.ts }] }

/-- One piece of an active copy of a streamer (R363): the streamer judges overlap before the first byte, the banks of
the whole ranges then, and those of a piece before it moves, since a bank may be released meanwhile (16_traps R317). -/
def movePiece (s : State) (u : Nat) (op : CopyOp) : CopyOp × State :=
  let n := min 512 (op.len - op.moved)
  let part := if op.moved = 0 then op.len else n
  let refused := (op.moved = 0 ∧ copyOverlaps op = true) ∨ s.foreignBank op op.dst op.dstObj op.moved part = true ∨
    s.foreignBank op op.src op.srcObj op.moved part = true
  if op.code ≠ 0 then (op, s) else if refused then ({ op with code := 4 }, s) else s.copyMove u (n + 1) n op

/-- One piece of the next active copy of a streamer (R363), counted for its tenant, its region and its barrier object; the copy
ends, or comes last among the active ones. -/
def streamerPiece (s : State) (u : Nat) : State :=
  match (s.streamerAt u).active with
  | [] => s
  | op :: rest =>
    let r := s.actingFor op.tenant fun s => s.movePiece u op
    let op' := r.1
    let m := op'.moved - op.moved
    let s := r.2.countFor op.tenant 36 ((m + 31) / 32)
    let s := s.onRegion op.region fun g => { g with progBytes := g.progBytes + m }
    let s := match op'.bar with
      | some b => if m = 0 then s else s.settleBytes op.region b m 0 op'.ts
      | none => s
    let x := s.streamerAt u
    if op'.code ≠ 0 ∨ op'.moved = op'.len then (s.setStreamer u (fillActive { x with active := rest })).endCopy op'
    else s.setStreamer u { x with active := rest ++ [op'] }

/-! ## Issue (R149, R150) -/

/-- The barrier object a copy counts in, by logical dome and number, checked as R154 states. -/
def copyBarrier (s : State) (bar : BitVec 1) (slot : BitVec 8) : Chk (Option (Nat × Nat)) :=
  if bar = 0 then .ok none
  else match s.barrierSlot slot with
    | .ok (_, o) => .ok (some (((s.word Ws.bwin).extractLsb' 13 3).toNat, o))
    | .error e => .error e

/-- The copy context a copy is submitted to (R150 step 3). -/
def copyTimeline (s : State) (tls : BitVec 1) (tlk : BitVec 3) : Chk (Option Nat) :=
  if tls = 0 then .ok none
  else match s.binding tlk with
    | some (false, n) => .ok (some n)
    | _ => trapWith Cause.illegal (tlk.setWidth 64)

/-- The checks of R150 on length and windows; a handle side has none. -/
def copyRanges (op : CopyOp) (len : Word) : Chk Unit :=
  if 2 ^ 40 ≤ len.toNat then trapWith Cause.storeFault (if op.dstObj.isSome then op.src else op.dst)
  else match (if op.srcObj.isSome then none else rangeFault op.src.toNat len.toNat) with
    | some a => trapWith Cause.loadFault (BitVec.ofNat 64 a)
    | none => match (if op.dstObj.isSome then none else rangeFault op.dst.toNat len.toNat) with
      | some a => trapWith Cause.storeFault (BitVec.ofNat 64 a)
      | none => .ok ()

/-- Complete a copy at issue with a code and nothing moved (R150, 18_protection R347). -/
def endAtIssue (s : State) (d : SReg) (bar : Option (Nat × Nat)) (tl : Option Nat) (code : Nat) (evaluate : Bool) : State :=
  let s := match bar with
    | none => s
    | some (ld, o) => if evaluate then s.settleBytes s.core.region (ld, o) 0 code 0
        else s.onBarrier s.core.region ld o (s.failObject code)
  let s := s.count (if code = 0 then 37 else 38) 1
  match tl with
  | some n =>
    let num := (s.timeline false s.mySpire n).sub + 1
    (s.onTimeline false s.mySpire n fun t => { t with sub := num }.complete num code 0).setReg d (BitVec.ofNat 64 num)
  | none => s.setReg d (BitVec.ofNat 64 (code * 2 ^ 40))

/-- Issue a copy whose checks have passed: pending bytes, timeline number or token, and the message to the streamer. A copy
of no bytes completes at issue with status 0. -/
def issueCopy (s : State) (d : SReg) (op : CopyOp) (bar : Option (Nat × Nat)) (tl : Option Nat) : Chk State :=
  let tokened := d ≠ 0 ∧ tl.isNone = true
  let pending := match bar with
    | some (ld, o) => (s.barrierAt (routeDome s.bindEntry ld) o).pending
    | none => 0
  let unpinned := match op.pin with
    | some e => s.unpin e
    | none => s
  if op.len = 0 then .ok (unpinned.endAtIssue d bar tl 0 false)
  else if bar.isSome = true ∧ 2 ^ 40 ≤ pending + op.len then .ok (unpinned.endAtIssue d bar tl 4 false)
  else
    let slot := s.core.tokens.findIdx? (·.isNone)
    if tokened ∧ slot.isNone = true then .error (.wait .tokenTable)
    else
      let s := match bar with
        | some (ld, o) => s.onBarrier s.core.region ld o fun b => { b with pending := b.pending + op.len }
        | none => s
      let op := { op with bar := bar }
      let (op, s) := match tl with
        | some n =>
          let num := (s.timeline false s.mySpire n).sub + 1
          ({ op with tl := some (s.logicalSpire, n, num) },
            (s.onTimeline false s.mySpire n fun t => { t with sub := num }).setReg d (BitVec.ofNat 64 num))
        | none =>
          if tokened then
            let a := s.core.wp.toNat + 8 * d.toNat
            ({ op with token := some a },
              (s.setReg d 0x0000FF0000000000).onCore fun k => { k with tokens := k.tokens.set (slot.getD 0) (some a) })
          else (op, s)
      let s := s.onCore fun k => { k with copies := k.copies + 1 }
      let (u, code, s) := s.copyUnit op
      .ok (s.offerCopy u 0 { op with code := code })

/-- The handle side of a COPYH (R151): the entry, or the code a Keep is answered with instead of a trap (R347), and the
state after the check, which is an access whatever comes of it (17_prog_gatecall R329). -/
def copyHandle (s : State) (b : Word) (len : Word) (src : Bool) : Chk (Except Nat Nat × State) :=
  let stale : Trap := { code := Cause.handleStale, tval := b &&& 0xFFFFFFFF }
  match s.checkHandle s.core.tenant (b.setWidth 32) stale with
  | .ok (e, t) =>
    let ok := if src then t.handleReads e else t.handleWrites e
    if ok && decide ((b >>> 32).toNat + len.toNat ≤ t.handleSize e) then .ok (.ok e, t)
    else if s.core.priv = 1 then .ok (.error 2, t)
    else .error (.trapIn { code := if src then Cause.loadFault else Cause.storeFault, tval := b } t)
  | .error (.trapIn x t) => if s.core.priv = 1 then .ok (.error 1, t) else .error (.trapIn x t)
  | .error x => .error x

/-- A copy of the current core. -/
def newCopy (s : State) (src dst : Word) (len : Nat) : CopyOp :=
  { core := s.cur, region := s.core.region, lcore := s.core.lcore, tenant := s.core.tenant, ctx := s.ctx, src := src, dst := dst, len := len }

/-- A copy status lands (16_traps R315): the token register is written and its entry freed; the timeline completes; the
issuing core's fence may end, wherever the core is. -/
def landCopy (s : State) (l : Landing) : State :=
  let s := match l.addr with
    | some a => s.wsPoke l.region l.lcore a 8 l.status
    | none => s
  let s := match l.tl with
    | some (ls, n, num) => s.onCopyCtx l.region ls n fun t => t.complete num (l.status.toNat / 2 ^ 40) l.ts
    | none => s
  s.onLogical l.region l.lcore fun k =>
    { k with
      tokens := match l.addr with
        | some a => k.tokens.map fun t => if t = some a then none else t
        | none => k.tokens
      landed := match l.addr with
        | some a => (a, l.ts) :: k.landed.filter fun x => x.1 != a
        | none => k.landed
      copies := k.copies - 1, copyTs := max k.copyTs l.ts }

end State

/-! ## Meanings -/

/-- COPY (R149, R150). The traps of its barrier slot (R154) come after the checks of R150 (assumption log 58). -/
def execCopy (g : Guard) (d a b c : SReg) (bslot : BitVec 8) (bar : BitVec 1) (tlk : BitVec 3) (tls : BitVec 1) (s : State) : Out :=
  instr (.copy g d a b c bslot bar tlk tls) g (fun s =>
    let len := s.reg c
    let op := s.newCopy (s.reg b) (s.reg a) len.toNat
    Chk.run (do
      State.copyRanges op len
      let tl ← s.copyTimeline tls tlk
      let bo ← s.copyBarrier bar bslot
      s.issueCopy d op bo tl) s .done) s

/-- COPYH (R151, 17_prog_gatecall R329, 18_protection R345, R347). -/
def execCopyh (g : Guard) (d a b c : SReg) (bslot : BitVec 8) (bar : BitVec 1) (tlk : BitVec 3) (tls hfrom : BitVec 1)
    (s : State) : Out :=
  instr (.copyh g d a b c bslot bar tlk tls hfrom) g (fun s =>
    let len := s.reg c
    let h := s.reg b
    let plain := s.reg a
    let isSrc := hfrom == 1
    Chk.run (do
      let (r, s) ← s.copyHandle h len isSrc
      let e := match r with
        | .ok e => e
        | .error _ => 0
      let obj := s.handleBase e + (h >>> 32).toNat
      let op := s.newCopy plain plain len.toNat
      let op : CopyOp := if isSrc then { op with srcObj := some obj, pin := some e } else { op with dstObj := some obj, pin := some e }
      (State.copyRanges op len).after s
      let tl ← (s.copyTimeline tls tlk).after s
      let bo ← (s.copyBarrier bar bslot).after s
      match r with
      | .error code => .ok (s.endAtIssue d bo tl code true)
      | .ok e => (s.pin e).issueCopy d op bo tl) s .done) s

/-- STREAMER_PIECE (R363). -/
def execStreamerPiece (unit : Nat) (s : State) : Out := event (fun s => s.streamerPiece unit) s

/-- COPY_STATUS_LANDING (R315): landing k of those on their way. -/
def execCopyStatusLanding (k : Nat) (s : State) : Out :=
  event (fun s => match s.landings[k]? with
    | some l => ({ s with landings := s.landings.eraseIdx k } : State).landCopy l
    | none => s) s

/-- SLICE_RETRY_HINT (16_traps R325): the first refused request whose hint has expired is presented again. -/
def execSliceRetryHint (spire : Nat) (s : State) : Out :=
  event (fun s =>
    let x := s.spireAt spire
    match x.retries.findIdx? (fun r => decide (r.dueCycle ≤ s.cycle)) with
    | some k => match x.retries[k]? with
      | some r => (s.setSpireAt spire { x with retries := x.retries.eraseIdx k }).offerCopy r.unit r.tries r.op
      | none => s
    | none => s) s

end Sys2Proof.Machine
end

