-- ==== Sys2Proof/Machine/Channel.lean ====
section
/-!
DEFINITION. Channels: CHINIT, SEND, RECV and their tries again (05_memory_isa R160-R163, 13_dome_memory R279, R280,
15_consistency R301, R302).
-/

namespace Sys2Proof.Machine

open Sys2Proof

/-! ## Layout (R160) -/

namespace Chan
def cap : Word := 0
def head : Word := 8
def tail : Word := 16
def notify : Word := 24
def sent : Word := 32
def taken : Word := 40

/-- A legal CAP: a power of two from 64 to 1,048,576. -/
def capOk (c : Word) : Bool := decide (64 ≤ c.toNat) && decide (c.toNat ≤ 2 ^ 20) && c &&& (c - 1) == 0

/-- The address of byte t of the stream. -/
def byte (h c t : Word) : Word := h + 64 + t % c

/-- A message's header word. -/
def message (len : Word) (damaged : Bool) : Word :=
  0x8000000000000000 ||| (if damaged then 0x4000000000000000 else 0) ||| (len &&& 0xFFFFFFFF)

/-- The words of n bytes of the stream from byte t on. -/
def words (h c t : Word) (n : Nat) : List Elem :=
  (List.range ((n + 7) / 8)).map fun k => { va := byte h c (t + BitVec.ofNat 64 (8 * k)), n := 8 }

/-- A contiguous range as whole words and a rest of bytes. -/
def range (va : Word) (n : Nat) : List Elem :=
  ((List.range (n / 8)).map fun k => ({ va := va + BitVec.ofNat 64 (8 * k), n := 8 } : Elem)) ++
    (List.range (n % 8)).map fun k => { va := va + BitVec.ofNat 64 (n / 8 * 8 + k), n := 1 }
end Chan

namespace State

/-! ## Accesses of SEND and RECV: engine traffic, through the core's own port (15_consistency R290, R301, R279) -/

/-- Read a word; whether it was read poisoned (R162, R163). -/
def quietLoad (s : State) (va : Word) (n : Nat) : Word × Bool × State :=
  match s.place .load va with
  | none => (0, true, s)
  | some (p, s') =>
    if isWs p.loc then (s'.peek 64 p.loc n, false, s')
    else if p.outside then (0, true, (s'.postFault 3 0 p.loc).machineCheck s'.core.region false 0x334)
    else if isDome p.loc then
      let t := (s'.engineBank p.loc (s'.corePort p)).2
      (t.peek 64 p.loc n, t.isPoisoned p.loc, t)
    else
      let r : (Word × Bool) × State := s'.engineRead s'.core.region none p.home p.kind 64 p.loc n
      (r.1.1, r.1.2, r.2)

/-- What a word holds that the checks before a header operation look at: no access (13_dome_memory R279). -/
def glance (s : State) (va : Word) : Word × Bool :=
  match s.place .load va with
  | none => (0, true)
  | some (p, _) => s.newest 64 p.loc 8

/-- Write n bytes where the checks have passed. SEND and RECV are no posted stores (assumption log 10). -/
def quietStore (s : State) (va : Word) (n : Nat) (x : Word) : State :=
  match s.place .store va with
  | none => s
  | some (p, s') =>
    if isWs p.loc then s'.storeAt p n x
    else if p.outside then (s'.postFault 3 0 p.loc).machineCheck s'.core.region false 0x334
    else
      let r := s'.engineWrite p.home p.kind p.loc n (s'.corePort p) x
      r.2.onCore fun k => { k with chanTs := max k.chanTs r.1 }

/-- Check loads of elements: permission, then the core's own posted stores in flight (R138, R139). -/
def mayLoad (s : State) (es : List Elem) : Chk State :=
  match s.places .load (es.map (·.va)) with
  | .error e => .error e
  | .ok (ps, s') => match s'.checkLoads (es.zip ps) with
    | .error e => .error e
    | .ok _ => .ok s'

/-- Check stores of elements: permission, then pinned handle entries (R138, 18_protection R346). -/
def mayStore (s : State) (es : List Elem) : Chk State :=
  match s.places .store (es.map (·.va)) with
  | .error e => .error e
  | .ok (ps, s') => match s'.guardStores (es.zip ps) with
    | .error e => .error e
    | .ok _ => .ok s'

/-! ## Header operations (13_dome_memory R279, R280) -/

/-- A grant at the header's bank that takes or releases the lock of the channel at H (13_dome_memory R277). -/
def lockGrant (s : State) (h : Word) : State :=
  match s.place .load h with
  | some (p, _) => s.grantOnly p.loc (s.corePort p)
  | none => s

/-- The lock of a channel is released: cores that wait on it try again. -/
def releaseLock (s : State) (h : Word) (head : Nat) : State :=
  let wakes (c : Nat) (k : Core) : Bool := match k.status with
    | .waiting (.channel h _) => h == head && c != s.cur
    | _ => false
  let s := s.lockGrant h
  { s with cores := s.cores.map fun ck =>
      if wakes ck.1 ck.2 then (ck.1, { ck.2 with status := .waiting (.channel head 0) }) else ck }

/-- The loads of HEAD and TAIL under the lock: TAIL, whether it was read poisoned, and the state after them. -/
def headerLoads (s : State) (h : Word) : Word × Bool × State :=
  ((s.lockGrant h).quietLoad (h + Chan.head) 8).2.2.quietLoad (h + Chan.tail) 8

/-- A header operation that finds no space or no message: the core waits for a release or 1,024 core cycles. -/
def waitChannel (s : State) (h : Word) (head : Nat) : Res := .wait (.channel head (s.clock + 1024)) (s.releaseLock h head)

/-- Open a channel (R160): H is aligned and in a dome-memory window of the tenant, CAP is legal, the buffer is in the same
window. The answer is CAP and the storage address of H. The traps of an H in no dome-memory window, LOAD_FAULT at H, and of a
buffer that leaves the window are the model's choice (assumption log 55); so is the alignment of H by 8, since R160 gives
none (assumption log 79). -/
def openChannel (s : State) (h : Word) (acc : Acc) (poisonTraps : Bool) : Chk (Word × Nat × State) := do
  State.aligned h 8
  let e := windowEnd h.toNat
  if isDomeWindow h = false ∨ e.getD 0 < h.toNat + 64 then trapWith Cause.loadFault h
  else
    let s ← s.mayLoad ((List.range 6).map fun k => { va := h + BitVec.ofNat 64 (8 * k), n := 8 })
    let x := s.quietLoad h 8
    if x.2.1 = true ∧ poisonTraps = true then .error (.trapIn { code := Cause.poison, tval := h } x.2.2)
    else if Chan.capOk x.1 = false then trapWith Cause.channelSize x.1
    else if e.getD 0 < h.toNat + 64 + x.1.toNat then trapWith (faultOf acc) (BitVec.ofNat 64 (e.getD 0))
    else match s.place .load h with
      | some (p, _) => .ok (x.1, p.loc, x.2.2)
      | none => trapWith Cause.loadFault h

/-! ## SEND (R162) -/

/-- The notify wake of a channel (R160, R302): posted, in a journal entry that the publication has waited for. -/
def notifyWake (s : State) (n : Word) : State :=
  if n.getLsbD 63 then s.postWake (n.toNat % 2 ^ 32) ((1 : Word) <<< (n.extractLsb' 32 6).toNat) true else s

/-- Whether a SEND has to wait for a journal entry for its notify wake (R160, R139). -/
def notifyWaits (s : State) (h : Word) : Bool := (s.glance (h + Chan.notify)).1.getLsbD 63 && s.freeEntries == 0

/-- What SEND checks before it takes the lock, so that its header operations raise no trap (R162, 13_dome_memory R279): CAP,
the storage address of H, HEAD, TAIL and the state after the checks. That a TAIL which is no multiple of 8 raises MISALIGN is the
model's choice (assumption log 79). -/
def sendChecks (s : State) (h src len : Word) : Chk (Word × Nat × Word × Word × State) := do
  State.aligned src 8
  State.aligned len 8
  let (c, head, s) ← s.openChannel h .store true
  if c.toNat < 8 + len.toNat then trapWith Cause.channelSize len
  else
    let s ← s.mayLoad (Chan.range src len.toNat)
    let hd := s.glance (h + Chan.head)
    let tl := s.glance (h + Chan.tail)
    if s.notifyWaits h then .error (.wait (.journal 1))
    else if hd.2 then .error (.trapIn { code := Cause.poison, tval := h + Chan.head } s)
    else if tl.2 then .error (.trapIn { code := Cause.poison, tval := h + Chan.tail } s)
    else if c.toNat < (tl.1 - hd.1).toNat + 8 + len.toNat then .ok (c, head, hd.1, tl.1, s)
    else
      State.aligned (Chan.byte h c tl.1) 8
      let s ← s.mayStore (Chan.words h c tl.1 (8 + len.toNat))
      .ok (c, head, hd.1, tl.1, s)

/-- The reservation: under the lock, HEAD and TAIL are loaded, and TAIL is stored if there is space. -/
def reserve (s : State) (nb : Bool) (d : SReg) (h src len : Word) : Res :=
  Chk.run (s.sendChecks h src len) s fun (c, head, hd, t, s) =>
    let s := (s.headerLoads h).2.2
    if c.toNat < (t - hd).toNat + 8 + len.toNat then
      if nb then .done ((s.releaseLock h head).setReg d 1) else s.waitChannel h head
    else
      .asIs (((s.quietStore (h + Chan.tail) 8 (t + 8 + len)).releaseLock h head).onCore fun k =>
        { k with resv := some { head := head, cap := c, at_ := t }, status := .running })

/-- One payload word of a SEND: a word read poisoned is written as zero (R162). -/
def sendWord (s : State) (r : Resv) (h src : Word) : State :=
  let off := BitVec.ofNat 64 (8 * r.sent)
  let x := s.quietLoad (src + off) 8
  (x.2.2.quietStore (Chan.byte h r.cap (r.at_ + 8 + off)) 8 (if x.2.1 then 0 else x.1)).onCore fun c =>
    { c with resv := some { r with sent := r.sent + 1, damaged := r.damaged || x.2.1 } }

/-- The publication of a message, under the lock: its header word with READY, and SENT; then the notify wake. What taking the
message acquires is noted (15_consistency R301). -/
def publishMessage (s : State) (r : Resv) (h len : Word) : State :=
  let va := Chan.byte h r.cap r.at_
  let s := (s.lockGrant h).quietStore va 8 (Chan.message len r.damaged)
  let n := s.quietLoad (h + Chan.sent) 8
  let s := n.2.2.quietStore (h + Chan.sent) 8 (n.1 + 1)
  let s := match s.place .load va with
    | some (p, _) =>
      let x := s.domeAt (locDome p.loc)
      s.setDomeAt (locDome p.loc) { x with chan := Tab.put x.chan p.loc (max (max s.ltNow s.core.grantTs) s.core.chanTs) }
    | none => s
  let w := (s.releaseLock h r.head).quietLoad (h + Chan.notify) 8
  ((w.2.2.notifyWake w.1).onCore fun k => { k with resv := none }).count 55 1

/-- After the reservation: one payload word a turn, then the publication, which waits for a journal entry if the channel is to
notify (assumption log 26). -/
def sendOn (s : State) (r : Resv) (d : SReg) (h src len : Word) : Res :=
  if r.sent < len.toNat / 8 then .asIs (s.sendWord r h src)
  else if s.notifyWaits h then .wait (.journal 1) s
  else .done ((s.publishMessage r h len).setReg d (if r.damaged then 2 else 0))

/-- SEND and SEND.NB. -/
def sendMessage (s : State) (nb : Bool) (d : SReg) (h src len : Word) : Res :=
  match s.core.resv with
  | some r => s.sendOn r d h src len
  | none => s.reserve nb d h src len

/-! ## RECV (R163) -/

/-- Copy a message to its destination, a poisoned word as zero; whether one was read poisoned. -/
def takeWords (h c : Word) : State → Word → List Elem → Bool × State
  | s, _, [] => (false, s)
  | s, t, e :: es =>
    let x := s.quietLoad (Chan.byte h c t) e.n
    let r := takeWords h c (x.2.2.quietStore e.va e.n (if x.2.1 then 0 else x.1)) (t + BitVec.ofNat 64 e.n) es
    (x.2.1 || r.1, r.2)

/-- The take of the message at HEAD, under the lock. It acquires what its sender released and its own writes of the message
(15_consistency R301). -/
def take (s : State) (d : SReg) (h dst c hd w : Word) (bad : Bool) (head : Nat) : Res :=
  let len := w &&& 0xFFFFFFFF
  let before := s.core.chanTs
  let r := takeWords h c (s.onCore fun k => { k with chanTs := 0 }) (hd + 8) (Chan.range dst len.toNat)
  let ts := r.2.core.chanTs
  let s := r.2.onCore fun k => { k with chanTs := max before k.chanTs }
  let va := Chan.byte h c hd
  let s := match s.place .load va with
    | some (p, _) =>
      let x := s.domeAt (locDome p.loc)
      (s.setDomeAt (locDome p.loc) { x with chan := Tab.del x.chan p.loc }).acquire (max ts (Tab.get x.chan p.loc 0))
    | none => s
  let s := (s.quietStore va 8 0).quietStore (h + Chan.head) 8 (hd + 8 + len)
  let n := s.quietLoad (h + Chan.taken) 8
  let s := (n.2.2.quietStore (h + Chan.taken) 8 (n.1 + 1)).releaseLock h head
  let flag : Word := if bad || r.1 || w.getLsbD 62 then 0x4000000000000000 else 0
  .done (s.setReg d (len ||| flag))

/-- The destination a RECV checks before its header operation (13_dome_memory R279): the bytes of the message it will take,
or the first word when there is none (assumption log 56). -/
def recvPages (dst w : Word) : List Elem := if w.getLsbD 63 then Chan.range dst (w &&& 0xFFFFFFFF).toNat else [{ va := dst, n := 8 }]

/-- What RECV checks before it takes the lock, by what the channel holds then, so that its header operation raises no fault
(R163, 13_dome_memory R279): CAP, the storage address of H, HEAD, the header word of the message there, or 0, and the state after
the checks. That a HEAD which is no multiple of 8 raises MISALIGN is the model's choice (assumption log 79). -/
def recvChecks (s : State) (h dst : Word) : Chk (Word × Nat × Word × Word × State) := do
  State.aligned dst 8
  let (c, head, s) ← s.openChannel h .load false
  let hd := (s.glance (h + Chan.head)).1
  if hd = (s.glance (h + Chan.tail)).1 then
    let s ← s.mayStore (recvPages dst 0)
    .ok (c, head, hd, (0 : Word), s)
  else
    State.aligned (Chan.byte h c hd) 8
    let s ← s.mayLoad [{ va := Chan.byte h c hd, n := 8 }]
    let w := (s.glance (Chan.byte h c hd)).1
    let s ← s.mayStore (recvPages dst w)
    if w.getLsbD 63 then
      let s ← s.mayLoad (Chan.words h c (hd + 8) (w &&& 0xFFFFFFFF).toNat)
      .ok (c, head, hd, w, s)
    else .ok (c, head, hd, w, s)

/-- The loads under the lock when no message is ready: the header word at HEAD is read unless HEAD is TAIL. -/
def loadsNothing (s : State) (h c hd : Word) : State :=
  let tl := s.headerLoads h
  if hd = tl.1 then tl.2.2 else (tl.2.2.quietLoad (Chan.byte h c hd) 8).2.2

/-- RECV and RECV.NB: under the lock, HEAD, TAIL and the header word at HEAD are loaded, and a message that is ready is taken. -/
def recvMessage (s : State) (nb : Bool) (d : SReg) (h dst : Word) : Res :=
  Chk.run (s.recvChecks h dst) s fun (c, head, hd, w, s) =>
    if w.getLsbD 63 then
      let x := (s.headerLoads h).2.2.quietLoad (Chan.byte h c hd) 8
      x.2.2.take d h dst c hd w x.2.1 head
    else
      let s := s.loadsNothing h c hd
      if nb then .done ((s.releaseLock h head).setReg d 0x8000000000000000) else s.waitChannel h head

end State

/-! ## Meanings -/

/-- CHINIT (R161). An illegal CAP is found before a buffer that leaves the window (assumption log 55). -/
def execChinit (g : Guard) (a b c : SReg) (s : State) : Out :=
  instr (.chinit g a b c) g (fun s =>
    let h := s.reg a
    let cap := s.reg b
    let e := (windowEnd h.toNat).getD 0
    if h.toNat % 64 ≠ 0 then .trap { code := Cause.misalign, tval := h } s
    else if State.isDomeWindow h = false ∨ e < h.toNat + 64 then .trap { code := Cause.storeFault, tval := h } s
    else if Chan.capOk cap = false then .trap { code := Cause.channelSize, tval := cap } s
    else if e < h.toNat + 64 + cap.toNat then .trap { code := Cause.storeFault, tval := BitVec.ofNat 64 e } s
    else
      let xs : List Word := [cap, 0, 0, s.reg c, 0, 0, 0, 0]
      s.storeElems (xs.zipIdx.map fun x => { va := h + BitVec.ofNat 64 (8 * x.2), n := 8, x := x.1 }) .done) s

/-- SEND (R162). -/
def execSend (g : Guard) (d a b c : SReg) (s : State) : Out :=
  instr (.send g d a b c) g (fun s => s.sendMessage false d (s.reg a) (s.reg b) (s.reg c)) s

/-- SEND.NB (R162). -/
def execSendNb (g : Guard) (d a b c : SReg) (s : State) : Out :=
  instr (.sendNb g d a b c) g (fun s => s.sendMessage true d (s.reg a) (s.reg b) (s.reg c)) s

/-- RECV (R163). -/
def execRecv (g : Guard) (d a b : SReg) (s : State) : Out :=
  instr (.recv g d a b) g (fun s => s.recvMessage false d (s.reg a) (s.reg b)) s

/-- RECV.NB (R163). -/
def execRecvNb (g : Guard) (d a b : SReg) (s : State) : Out :=
  instr (.recvNb g d a b) g (fun s => s.recvMessage true d (s.reg a) (s.reg b)) s

/-- CHANNEL_RETRY (13_dome_memory R280): a core whose wait on a channel is due tries its header operation again. -/
def execChannelRetry (core : Nat) (s : State) : Out :=
  let s : State := { s with cur := core }
  match s.core.status with
  | .waiting (.channel _ _) =>
    if s.mayIssue = true ∧ s.asyncNow = false ∧ s.killedNow = false then
      match s.fetchNext with
      | .instr at_ (.send g d a b c) s => execSend g d a b c (s.setPc at_)
      | .instr at_ (.recv g d a b) s => execRecv g d a b (s.setPc at_)
      | _ => powered s (.next s)
    else powered s (.next s)
  | _ => powered s (.next s)

end Sys2Proof.Machine
end

