-- ==== Sys2Proof/Machine/Mesh.lean ====
section
/-!
DEFINITION. The mesh: the Spire ports, posted operations and wakes on their way, their acknowledgements and refusals, the
die-to-die ports, and a waiting core resuming (05_memory_isa R139, R146, R147, R158, R159, 09_execution R248, R251,
14_prog_sampling R284-R286, 15_consistency R296, R302, 16_traps R313, R314, R322, 07_system_isa R222 SOFT).
-/

namespace Sys2Proof.Machine

open Sys2Proof

namespace State

/-! ## The Spire port (R248) -/

/-- The weight of a core of a Spire: PORTW of its slot-table entry (R240). -/
def portWeight (s : State) (sp c : Nat) : Nat :=
  let e := Tab.get s.slotTable sp 0
  ((bindWord e (5 + c / 16)).extractLsb' (4 * (c % 16)) 4).toNat

/-- Send the requests of a core from its head while the deficit covers them: those sent, those kept, the deficit left. -/
def sendWhile (c : Nat) : Nat → List PortReq → List PortReq × List PortReq × Nat
  | n, [] => ([], [], n)
  | n, r :: rs =>
    if r.core = c ∧ r.flits ≤ n then
      let x := sendWhile c (n - r.flits) rs
      (r :: x.1, x.2)
    else if r.core = c then ([], r :: rs, n)
    else
      let x := sendWhile c n rs
      (x.1, r :: x.2.1, x.2.2)

/-- Requests leave a port for the mesh. -/
def launchPackets (s : State) (rs : List PortReq) : State :=
  rs.foldl (fun (s : State) r =>
    let s : State := { s with packets := s.packets ++ [r.pkt] }
    s.countFor (s.coreAt r.pkt.src).tenant 48 r.flits) s

/-- The next core in cyclic order from a core number that a test picks. -/
def cyclic (start : Nat) (ok : Nat → Bool) : Option Nat := ((List.range 32).map fun k => (start + k) % 32).find? ok

/-- One visit of the port: deficit round-robin among cores of weight 1 or more, else one request of a core of weight 0. -/
def portSend (s : State) (sp : Nat) : State :=
  let x := s.spireAt sp
  let holds (c : Nat) : Bool := x.port.any fun r => r.core == c
  match cyclic x.visit fun c => holds c && decide (1 ≤ s.portWeight sp c) with
  | some c =>
    let r := sendWhile c (nth x.deficit c 0 + 5 * s.portWeight sp c) x.port
    let left := if r.2.1.any fun q => q.core == c then r.2.2 else 0
    (s.setSpireAt sp { x with port := r.2.1, deficit := x.deficit.set c left, visit := (c + 1) % 32 }).launchPackets r.1
  | none =>
    match cyclic x.visit0 holds with
    | some c => match x.port.findIdx? fun r => r.core == c with
      | some i => match x.port[i]? with
        | some r => (s.setSpireAt sp { x with port := x.port.eraseIdx i, visit0 := (c + 1) % 32 }).launchPackets [r]
        | none => s
      | none => s
    | none => s

/-! ## Arrivals (R139, R146, R147) -/

/-- The tenant a packet acts for: its region's. -/
def pktTenant (s : State) (p : Packet) : Nat :=
  match s.region? p.region with
  | some r => r.tenant
  | none => (s.coreAt p.src).tenant

/-- The bank refuses a packet: it belongs to another tenant or to none, or its dome is contained (R136, R139). -/
def bankRefuses (s : State) (p : Packet) (loc : Nat) : Bool :=
  (s.domeAt (locDome loc)).contained || s.bankTenant (locDome loc) (locBank loc) != some (s.pktTenant p)

/-- The destination answers a packet. -/
def answer (s : State) (p : Packet) (refused : Bool) : State :=
  let s := if refused then s.countFor (s.pktTenant p) 52 1 else s
  { s with acks := s.acks ++ [{ region := p.region, lcore := p.lcore, entry := p.entry, refused := refused }] }

/-- A posted operation is granted at a bank (15_consistency R296). -/
def grantPosted (s : State) (p : Packet) (loc ts : Nat) : State :=
  let d := s.domeAt (locDome loc)
  let b := locBank loc
  let t := max ts (Tab.get d.bclk b 0 + 1)
  (((s.setDomeAt (locDome loc) { d with bclk := Tab.put d.bclk b t, ptr := Tab.put d.ptr b 1057 }).onLogical p.region p.lcore fun k =>
    { k with grantTs := max k.grantTs t }).countFor (s.pktTenant p) 8 1)

/-- Where a packet goes, for its order among packets of one sender: its bank, or its target core. -/
def PktKind.place (dest : Nat) : PktKind → Bool × Nat
  | .store loc _ _ _ => (true, loc / 2048)
  | .red loc _ _ _ _ _ => (true, loc / 2048)
  | .wake _ _ _ => (false, dest)

/-- The word of a bank a packet goes to. -/
def packetWord : PktKind → Option Nat
  | .store loc _ _ _ => some loc
  | .red loc _ _ _ _ _ => some loc
  | .wake _ _ _ => none

/-- Whether the bank a packet goes to takes none now: the mesh port presents a released held operation there first (13_dome_memory
R277), or the clock of its dome is stopped (22_host_compat R386). -/
def heldAhead (s : State) (p : Packet) : Bool :=
  match packetWord p.kind with
  | some loc => s.meshHeld loc || (s.domeAt (locDome loc)).stopAt.isSome
  | none => false

/-- Whether a packet stays in the mesh for a gang switch: its partition has reached the agreed time, and it goes to none of the
partition's own banks (16_traps R318). One of a SEND that has reserved its space still arrives, for the SEND completes first
(13_dome_memory R279; assumption log 85). -/
def drainedNow (s : State) (p : Packet) : Bool :=
  match s.region? p.region with
  | some r => (match Tab.find? s.armed r.part with
      | some t => decide (t ≤ s.time) && r.status == .running
      | none => false) && !toBanks r.spires p && (match s.logicalRec p.region p.lcore with
      | some k => k.resv.isNone
      | none => true)
  | none => false

/-- Whether packet k may arrive now: packets of one sender to one destination arrive in issue order (16_traps R318), and a
wake follows the grant or refusal of the sender's earlier posted stores (15_consistency R302). -/
def mayArrive (s : State) (k : Nat) (p : Packet) : Bool :=
  !s.heldAhead p && !s.drainedNow p && (s.packets.take k).all fun q =>
    !(q.region == p.region && q.lcore == p.lcore &&
      (PktKind.place q.dest q.kind == PktKind.place p.dest p.kind ||
        (match q.kind, p.kind with
          | .store _ _ _ _, .wake _ _ _ => true
          | _, _ => false)))

/-- Packet k, when it may arrive, with the state without it. -/
def takePacket (s : State) (k : Nat) : Option (Packet × State) :=
  match s.packets[k]? with
  | some p => if s.mayArrive k p then some (p, { s with packets := s.packets.eraseIdx k }) else none
  | none => none

/-- A posted store reaches its bank. -/
def storeArrives (s : State) (p : Packet) (loc n : Nat) (data ts : Word) : State :=
  if s.bankRefuses p loc then s.answer p true
  else ((s.grantPosted p loc ts.toNat).poke loc n (data.setWidth (8 * n))).answer p false

/-- A reduce packet reaches its bank: in arrival mode it applies; in ordered mode it applies, is held or is refused. No packet traps
on poison (assumption log 11). -/
def redArrives (s : State) (p : Packet) (loc n : Nat) (op : BitVec 6) (ty : Ty) (data : Word) (ord : Option (BitVec 32 × Bool)) :
    State :=
  if s.bankRefuses p loc then s.answer p true
  else match ord with
    | none => (((s.grantPosted p loc 0).atomApply loc (redOp op) ty data 0).2.countFor (s.pktTenant p) 12 1).answer p false
    | some (q, last) =>
      let h : HeldOp := { loc := loc, q := q, last := last, port := 1057, pkt := some p, op := op, ty := ty, n := n, data := data }
      match s.orderedArrive h with
      | .applied _ s => ((s.grantPosted p loc 0).countFor (s.pktTenant p) 12 1).answer p false
      | .held s => (s.grantOnly loc 1057).countFor (s.pktTenant p) 13 1
      | .refused => ((s.grantOnly loc 1057).countFor (s.pktTenant p) 14 1).answer p true
      | .poisoned => s

/-! ## Wakes (R158, R159) -/

/-- An undeliverable wake of a region. -/
def undeliverable (s : State) (r : Nat) : State :=
  match s.region? r with
  | some x => (s.onRegion r fun g => { g with undeliv := min 0xFFFFFFFF (g.undeliv + 1) }).countFor x.tenant 54 1
  | none => s

/-- UWTRAP of a region (09_execution R229). -/
def wakesTrap (s : State) (r : Nat) : Bool :=
  match s.region? r with
  | some x => x.rcb.getLsbD 39
  | none => false

/-- Where the hardware finds a byte of a tenant's context that can be read and written, with the reads of its walk (09_execution R233,
R159). -/
def ctxPlace (s : State) (tenant : Nat) (ctx : BitVec 16) (va : Nat) : Option (Place × State) :=
  if va < 0x100000000 ∨ 0x1000000000000 ≤ va ∨ (s.objectAt tenant ctx va).isSome = true then none
  else match s.walk tenant ctx va with
    | (none, _) => none
    | (some (leaf, level), t) => match t.leafPlace tenant ctx .store va level leaf with
      | some p => if p.outside || !leaf.getLsbD 59 then none else some (p, t)
      | none => none

/-- The hardware reads n bytes from a byte of such a place on, at the home and in the kind of its page (21_memory_system R359,
R360): every beat is fetched unless a cache holds its line. -/
def ctxFetch (s : State) (p : Place) (off n : Nat) : State :=
  (List.range ((n + 31) / 32)).foldl (fun (s : State) k =>
    let a := p.loc + off + 32 * k
    let s := s.activate p.home (a / 128)
    if s.lineHeld (a / 128) then s
    else if s.kindAt p = 2 then s.demandBeat (a / 32 * 32)
    else (s.sliceLine p.home (a / 128) (p.kind == 1)).2) s

/-- The hardware writes a word of such a place at its home, after recalling any owner (15_consistency R293). -/
def ctxWrite (s : State) (p : Place) (off : Nat) (x : Word) : State := (s.engineWrite p.home (s.kindAt p) (p.loc + off) 8 0 x).2

/-- The mailbox word of a logical core of a region, when it can be read and written (R159). -/
def mailbox (s : State) (r : Region) (lc : Nat) : Option (Place × State) :=
  let mbox := (r.rcb.extractLsb' (8 * 0x68) 48).toNat
  if mbox = 0 then none else s.ctxPlace r.tenant r.ctx (mbox + 8 * lc)

/-- OR a mask into the WAKE word of a logical core (R159, R50): that of its live workspace, or during a gate call that of
the workspace frame 0 names (07_system_isa R199). -/
def orWake (s : State) (r : Nat) (lc : BitVec 32) (k : Core) (mask : Word) (ts : Nat) : State :=
  let wp := if k.gdepth = 0 then k.wp else fixWp ((s.wsPeek r lc (k.kres.toNat % 2 ^ 16)).setWidth 14)
  let a := wp.toNat + Ws.wake
  (s.wsPoke r lc a 8 (s.wsPeek r lc a ||| mask)).onLogical r lc fun c =>
    { c with wakeTs := c.wakeTs ++ [(mask, ts)]
             wakeNow := (s.cycle, wp, if c.wakeNow.1 = s.cycle ∧ c.wakeNow.2.1 = wp then c.wakeNow.2.2 ||| mask else mask) }

/-- What a wake to a core of a region does (R159): whether it was refused, and the state. `posted` for the wake of a core,
which holds a journal entry; the wake of R244 step 5 holds none. A number at or beyond the region's core count, as the NOTIFY
word of a channel may name, stands for a core that has exited (assumption log 80). -/
def deliverWake (s : State) (r target : Nat) (mask : Word) (ts : Nat) (posted : Bool) : Bool × State :=
  let lc := BitVec.ofNat 32 target
  let gone (s : State) : Bool × State := if posted && s.wakesTrap r then (true, s) else (false, s.undeliverable r)
  match s.logicalRec r lc with
  | some k =>
    if k.status = .exited then gone s
    else (false, (s.orWake r lc k mask ts).countFor k.tenant 53 1)
  | none => match s.region? r with
    | some x =>
      if x.status = .waiting ∨ x.status = .placed then
        match s.mailbox x target with
        | some (p, t) => (false, (((t.ctxFetch p 0 8).ctxWrite p 0 ((t.ctxFetch p 0 8).peek 64 p.loc 8 ||| mask)).countFor x.tenant 53 1).onRegion r fun g =>
            { g with mailTs := Tab.put g.mailTs target (max ts (Tab.get g.mailTs target 0)) })
        | none => (false, s.undeliverable r)
      else gone s
    | none => (false, s)

/-- What a WAIT on the bits of a wake acquires: what precedes the wake at its sender, its granted posted stores included
(15_consistency R302). -/
def sentTs (s : State) (p : Packet) (ts : Nat) : Nat :=
  match s.logicalRec p.region p.lcore with
  | some k => max ts k.grantTs
  | none => ts

/-- A wake reaches its target. -/
def wakeArrives (s : State) (p : Packet) (target : Nat) (mask : Word) (ts : Nat) : State :=
  let r := s.actingFor (s.pktTenant p) fun s => s.deliverWake p.region target mask (s.sentTs p ts) true
  r.2.answer p r.1

/-! ## Acknowledgements and refusals (R139, 14_prog_sampling R286) -/

/-- Change a journal entry and its mate. -/
def entryPair (e : Nat) (f : JEntry → JEntry) (k : Core) : Core :=
  let j := k.journal.modify e f
  { k with journal := match (nth k.journal e {}).mate with
    | some m => j.modify m f
    | none => j }

/-- Answer k of those on their way, when it is of a kind. -/
def takeAck (s : State) (k : Nat) (refused : Bool) (f : JEntry → JEntry) : State :=
  match s.acks[k]? with
  | some a =>
    if a.refused = refused then ({ s with acks := s.acks.eraseIdx k } : State).onLogical a.region a.lcore (entryPair a.entry f) else s
  | none => s

/-! ## Resuming (R251) -/

/-- Whether a wait's own status is needed to complete the instruction. -/
def keepsStatus : WaitCond → Bool
  | .timeline _ _ _ _ | .rechain _ _ _ | .queue _ _ _ | .graverOp _ _ _ | .yield | .translation _ _ _ _ => true
  | .fence _ publish => publish
  | _ => false

/-- A waiting core whose condition holds resumes: its instruction executes again. -/
def resume (s : State) (c : Nat) : State :=
  let s' : State := { s with cur := c }
  match s'.core.status with
  | .waiting w => if s'.condHolds w && !keepsStatus w then s'.onCore fun k => { k with status := .running } else s'
  | _ => s'

/-! ## Soft errors (07_system_isa R222, 13_dome_memory R272) -/

/-- What an error of one symbol makes of a beat (21_memory_system R365): a second symbol is beyond correction, and the poison mark
stays. -/
def struckSymbol : Option BeatErr → BeatErr
  | none => .correctable
  | some .correctable => .uncorrectable
  | some .stuck => .stuckBad
  | some e => e

/-- What an error that the code detects and cannot correct makes of a beat. -/
def struckBeyond : Option BeatErr → BeatErr
  | some .stuck => .stuckBad
  | some .stuckBad => .stuckBad
  | some .stuckMark => .stuckMark
  | some .mark => .mark
  | _ => .uncorrectable

/-- What a cell that sticks makes of a beat: another one of a beat with a stuck cell lies in the same symbol (assumption log 16). -/
def struckCell : Option BeatErr → BeatErr
  | none => .stuck
  | some .correctable => .stuckBad
  | some .uncorrectable => .stuckBad
  | some .mark => .stuckMark
  | some e => e

/-- An error strikes a beat of HBM4E. -/
def strikeBeat (s : State) (k : Nat) (f : Option BeatErr → BeatErr) : State :=
  { s with hbm := { s.hbm with errs := Tab.put s.hbm.errs k (f (Tab.find? s.hbm.errs k)) } }

/-- A soft error strikes: unit 0 a word of dome memory by storage address, 1 workspace memory by core times 16384 plus
offset, 2 the repetition buffer of a core, 3 operand memory by Spire times 65536 plus byte, 4, 5 and 6 a correctable error,
an uncorrectable error and a stuck cell of an HBM4E beat by storage address, 7 an error that passes undetected in the beat of a
physical address (21_memory_system R365). A struck word that can be read takes a value the spec does not give (assumption log
6). A row that is not live holds no data to strike (R371). -/
def strikeSoft (s : State) (unit at_ : Nat) : State :=
  let (x, s) := s.free
  match unit with
  | 0 =>
    if isDome at_ then
      let a := at_ / 8 * 8
      { s with mem := Mem.store s.mem a 8 x, poison := Tab.put s.poison a () }
    else s
  | 1 =>
    let c := at_ / 16384
    let off := at_ % 16384 / 8 * 8
    ({ s with mem := Mem.store s.mem (wsLoc c off) 8 x } : State).setCoreAt c { s.coreAt c with soft := (s.coreAt c).soft ++ [(1, off)] }
  | 2 => s.setCoreAt at_ { s.coreAt at_ with soft := (s.coreAt at_).soft ++ [(2, (s.coreAt at_).wp.toNat + Ws.repState)] }
  | 4 => if (Tab.find? s.hbm.live (at_ / 1024)).isSome then s.strikeBeat (at_ / 32) struckSymbol else s
  | 5 => if (Tab.find? s.hbm.live (at_ / 1024)).isSome then s.strikeBeat (at_ / 32) struckBeyond else s
  | 6 => s.strikeBeat (at_ / 32) struckCell
  | 7 =>
    if isHbm at_ ∧ (Tab.find? s.hbm.live (s.hbmLoc at_ / 1024)).isSome then
      let sh := 8 * (at_ % 128 / 8 * 8)
      let y := s.hbmLine (at_ / 128)
      s.setHbmLine (at_ / 128) ((y &&& ~~~((0xFFFFFFFFFFFFFFFF : BitVec 1024) <<< sh)) ||| ((x.setWidth 1024) <<< sh))
    else s
  | _ =>
    let sp := at_ / 65536
    let n := at_ % 65536 / 512
    let y := s.spireAt sp
    let g := y.graver
    let b := at_ % 512
    s.setSpireAt sp { y with graver := { g with slots := g.slots.modify n fun sl =>
      { sl with soft := some b, bytes := (sl.bytes &&& ~~~((0xFF : BitVec 4096) <<< (8 * b))) ||| (((x.setWidth 8).setWidth 4096) <<< (8 * b)) } } }

/-! ## Die-to-die ports (16_traps R322) -/

/-- A port retrains: its unacknowledged packets are sent again and no endpoint sees a difference; three failures in
succession raise MACHINE_CHECK in every partition with messages held in it. -/
def retrain (s : State) (link failures : Nat) (held : List Nat) : State :=
  let s := (s.countFor State.deviceTenant 49 1).countFor State.deviceTenant 50 1
  if failures < 3 then s
  else (s.regions.filter fun r => held.contains r.part && r.status == .running).foldl
    (fun (s : State) r => s.machineCheck r.id false (BitVec.ofNat 64 (0x322 * 2 ^ 32 + link))) s

end State

/-! ## Meanings -/

/-- SPIRE_PORT_SEND (R248). -/
def execSpirePortSend (spire : Nat) (s : State) : Out := event (fun s => s.portSend spire) s

/-- POSTED_STORE_ARRIVAL (R139). -/
def execPostedStoreArrival (k : Nat) (s : State) : Out :=
  event (fun s => match s.takePacket k with
    | some (p, s') => match p.kind with
      | .store loc n data ts => s'.storeArrives p loc n data ts
      | _ => s
    | none => s) s

/-- RED_PACKET_ARRIVAL (R146, R147). -/
def execRedPacketArrival (k : Nat) (s : State) : Out :=
  event (fun s => match s.takePacket k with
    | some (p, s') => match p.kind with
      | .red loc n op ty data ord => s'.redArrives p loc n op ty data ord
      | _ => s
    | none => s) s

/-- WAKE_DELIVERY (R158, R159). -/
def execWakeDelivery (k : Nat) (s : State) : Out :=
  event (fun s => match s.takePacket k with
    | some (p, s') => match p.kind with
      | .wake target mask ts => s'.wakeArrives p target mask ts
      | _ => s
    | none => s) s

/-- POSTED_ACKNOWLEDGE (R139): the journal entries are free. -/
def execPostedAcknowledge (k : Nat) (s : State) : Out := event (fun s => s.takeAck k false fun _ => {}) s

/-- POSTED_REFUSAL (R139, R314): STATE 2, until JRNL clears it; REMOTE_REFUSED is due. -/
def execPostedRefusal (k : Nat) (s : State) : Out := event (fun s => s.takeAck k true fun e => { e with st := 2 }) s

/-- LINK_RETRAIN (R322). -/
def execLinkRetrain (link failures : Nat) (held : List Nat) (s : State) : Out := event (fun s => s.retrain link failures held) s

/-- WAIT_CONDITION_MET (R251, R243). -/
def execWaitConditionMet (core : Nat) (s : State) : Out := event (fun s => s.resume core) s

/-- ASYNC_TRAP_TAKEN (R313): not by a core that its gang switch has stopped (R321). -/
def execAsyncTrapTaken (core : Nat) (s : State) : Out :=
  event (fun s =>
    let s' : State := { s with cur := core }
    if s'.asyncNow && !s'.killedNow then (s'.dropBstats fun c => c == core).takeAsync else s') s

/-- SOFT_ERROR (R222, R272). -/
def execSoftError (unit at_ : Nat) (s : State) : Out := event (fun s => s.strikeSoft unit at_) s

end Sys2Proof.Machine
end

