-- ==== Sys2Proof/Machine/Region.lean ====
section
/-!
DEFINITION. Regions: the RCB and its inheritance, the launch FIFOs, completion, MSI-X vectors, virtual time, budgets and
fitting (09_execution R227-R239, R244, 22_host_compat R373).
-/

namespace Sys2Proof.Machine

open Sys2Proof

/-! ## The RCB (R229, R230) -/

namespace Rcb
def field (r : BitVec 2048) (off lo n : Nat) : Nat := (r.extractLsb' (8 * off + lo) n).toNat
def inherit (r : BitVec 2048) : Nat := field r 0 48 16
def prio (r : BitVec 2048) : Nat := field r 0 44 4
def preempt (r : BitVec 2048) : Bool := r.getLsbD 41
def irq (r : BitVec 2048) : Bool := r.getLsbD 40
def vec (r : BitVec 2048) : Nat := field r 0 32 6
def chainw (r : BitVec 2048) : Nat := field r 8 48 4
def cps (r : BitVec 2048) : Nat := field r 8 32 6
def spd (r : BitVec 2048) : Nat := field r 8 16 6
def ldomes (r : BitVec 2048) : Nat := field r 8 0 4
def gsteps (r : BitVec 2048) : Nat := field r 0x10 48 16
def spires (r : BitVec 2048) : Nat := field r 0x10 0 9
def dmem (r : BitVec 2048) : Nat := field r 0x18 0 24
def maxrun (r : BitVec 2048) : Nat := field r 0x20 0 64
def code (r : BitVec 2048) : Nat := field r 0x28 0 48
def entry (r : BitVec 2048) : Nat := field r 0x30 0 32
def portw (r : BitVec 2048) : Nat := field r 0x38 16 4
def bcount (r : BitVec 2048) : Nat := field r 0x38 0 9
def arg (r : BitVec 2048) (k : Nat) : Word := r.extractLsb' (8 * (0x40 + 8 * k)) 64
def next (r : BitVec 2048) : Nat := field r 0x60 0 48
def mbox (r : BitVec 2048) : Nat := field r 0x68 0 48

/-- Spires a region needs (R234). -/
def need (r : BitVec 2048) : Nat := ldomes r * spd r

/-- The bits of inheritance group g, as places and widths (R230). -/
def group : Nat → List (Nat × Nat)
  | 0 => [(44, 4)]
  | 1 => [(41, 3)]
  | 2 => [(32, 6), (39, 2)]
  | 3 => [(64, 4), (80, 6), (96, 6), (112, 4)]
  | 4 => [(128, 9)]
  | 5 => [(192, 24)]
  | 6 => [(176, 16)]
  | 7 => [(256, 64)]
  | 8 => [(320, 48)]
  | 9 => [(384, 32)]
  | 10 => [(464, 4), (448, 9)]
  | 11 => [(512, 256)]
  | 12 => [(832, 48)]
  | _ => []

/-- Ones at a place. -/
def ones (lo n : Nat) : BitVec 2048 := BitVec.ofNat 2048 ((2 ^ n - 1) * 2 ^ lo)

/-- Take the groups that INHERIT names from the parent's effective RCB (R230). -/
def effective (child parent : BitVec 2048) : BitVec 2048 :=
  (List.range 13).foldl (fun (r : BitVec 2048) g =>
    if (inherit child).testBit g then
      (group g).foldl (fun (r : BitVec 2048) f => (r &&& ~~~(ones f.1 f.2)) ||| (parent &&& ones f.1 f.2)) r
    else r) child

/-- Replace PRIO. -/
def withPrio (r : BitVec 2048) (n : Nat) : BitVec 2048 := (r &&& ~~~(ones 44 4)) ||| BitVec.ofNat 2048 (n * 2 ^ 44)

/-- The reserved bits of words 0x00-0x7F and 0xA0-0xFF are zero (R229, R233). -/
def reservedOk (r : BitVec 2048) : Bool :=
  let z (off lo n : Nat) : Bool := field r off lo n == 0
  z 0 38 1 && z 0 0 32 && z 8 52 12 && z 8 38 10 && z 8 22 10 && z 8 4 12 && z 0x10 9 39 && z 0x18 24 40 && z 0x28 48 16 &&
    z 0x30 32 32 && z 0x38 20 44 && z 0x38 9 7 && z 0x60 48 16 && z 0x68 48 16 && z 0x70 0 128 && z 0xA0 0 768

/-- The geometry of R227. -/
def geometryOk (r : BitVec 2048) : Bool :=
  let w := chainw r
  decide (1 ≤ ldomes r) && decide (ldomes r ≤ 8) && decide (1 ≤ spd r) && decide (spd r ≤ 32) && (w == 1 || w == 2 || w == 4 || w == 8) &&
    decide (1 ≤ cps r) && decide (cps r ≤ 32) && decide (cps r % w = 0)
end Rcb

namespace State

/-- The RCB at an address, when the device can read it whole, without poison, and write its words 0x80-0x9F in the context
(R233): its place and its bytes, read at their home slice. An RCB is 256-byte aligned. -/
def readRcb (s : State) (tenant : Nat) (ctx : BitVec 16) (va : Nat) : Option (Place × BitVec 2048 × State) :=
  if va % 256 ≠ 0 then none
  else match s.ctxPlace tenant ctx va with
    | none => none
    | some (p, s) =>
      let t := s.ctxFetch p 0 256
      if (List.range 8).any fun k => t.isPoisoned (p.loc + 32 * k) then none else some (p, t.peek 2048 p.loc 256, t)

/-! ## MSI-X (22_host_compat R373) -/

def msixAt (s : State) (t : Nat) : Msix := Tab.get s.msix t {}

/-- Whether a vector is masked: bit 0 of its Vector Control dword, 1 at reset (assumption log 74). -/
def vectorMasked (m : Msix) (v : Nat) : Bool := (Tab.get m.table (2 * v + 1) 0x100000000).getLsbD 32

/-- Raise a vector of a tenant: a masked one sets its pending bit. -/
def raiseVector (s : State) (t v : Nat) : State :=
  let m := s.msixAt t
  let m' : Msix := if vectorMasked m v then { m with pend := m.pend ||| ((1 : BitVec 64) <<< v) } else { m with sent := m.sent ++ [v] }
  { s with msix := Tab.put s.msix t m' }

/-! ## Completion (R244) -/

/-- Write the words 0x80-0x9F of a region's RCB (R229). -/
def writeStatus (s : State) (r : Region) (done : Bool) (code nextst : Nat) : Word × State :=
  let w : Word := if done then BitVec.ofNat 64 (2 ^ 63 + code * 2 ^ 56 + nextst * 2 ^ 48 + s.time % 2 ^ 48) else 0
  match s.ctxPlace r.tenant r.ctx r.rcbAddr with
  | none => (w, s)
  | some (p, s) =>
    let s := (s.ctxWrite p 0x80 w).ctxWrite p 0x88 (BitVec.ofNat 64 r.undeliv)
    let s := s.ctxWrite p 0x90 (BitVec.ofNat 64 (r.start % 2 ^ 48))
    (w, s.ctxWrite p 0x98 (BitVec.ofNat 64 ((if r.root then 2 ^ 63 else 0) + r.id % 65536)))

/-- The timestamp of the completion word of a region. -/
def statusTs (s : State) (r : Region) : Nat :=
  match s.ctxPlace r.tenant r.ctx r.rcbAddr with
  | some (p, _) => if s.kindAt p = 2 then (s.sliceAt p.home).sclk else (Tab.get s.lines ((p.loc + 0x80) / 128) {}).wts
  | none => 0

/-- Step 5 of R244: the wake bit of the core that launched the region. A WAIT that completes on it acquires the completion
word, since the woken core that reads it finds DONE = 1. -/
def wakeParent (s : State) (r : Region) : State :=
  match r.wake with
  | some (p, lc, bit) => (s.deliverWake p lc.toNat ((1 : Word) <<< bit.toNat) (s.statusTs r) false).2
  | none => s

/-- Step 6 of R244. -/
def interruptHost (s : State) (r : Region) : State :=
  if Rcb.irq r.rcb then s.raiseVector r.tenant (Rcb.vec r.rcb) else s

/-- Mark a region as over. -/
def close (s : State) (r : Region) : State := s.onRegion r.id fun x => { x with status := .retired }

/-- Steps 3, 5 and 6 of R244 for a region, with its trace record (7 refused, 6 retired). -/
def complete (s : State) (r : Region) (code nextst ty : Nat) : State :=
  let x := s.writeStatus r true code nextst
  ((x.2.wakeParent r).interruptHost r).traceRec ty r.tenant r.level r.id 0xFFFFFFFF x.1

/-! ## Launch FIFOs (R231) -/

/-- The key of FIFO n of a tenant. -/
def fifoKey (tenant n : Nat) : Nat := tenant * 12 + n

def fifoOf (s : State) (tenant n : Nat) : List Launch := Tab.get s.fifos (fifoKey tenant n) []

/-- LSTAT of a tenant: set bits (R231). -/
def setLstat (s : State) (tenant bit : Nat) : State :=
  { s with lstat := Tab.put s.lstat tenant (Tab.get s.lstat tenant 0 ||| ((1 : Word) <<< bit)) }

/-- A region whose RCB cannot be read and written is refused without a completion word (R233). -/
def refuseUnread (s : State) (tenant n : Nat) (l : Launch) (level : Nat) : State :=
  let s := ((s.setLstat tenant (28 + n)).countFor tenant 67 1).traceRec 7 tenant level 0 0xFFFFFFFF (BitVec.ofNat 64 l.rcb &&& 0x7FFFFFFFFFFFFFFF)
  match l.wake with
  | some (p, lc, bit) => (s.deliverWake p lc.toNat ((1 : Word) <<< bit.toNat) 0 false).2
  | none => s

/-! ## Spires and budgets (R234, R235) -/

/-- Whether no partition holds a Spire: its slot-table entry is not VALID, or is RELEASED (R240). -/
def spireFree (s : State) (sp : Nat) : Bool :=
  let e := Tab.get s.slotTable sp 0
  !e.getLsbD 63 || e.getLsbD 62

/-- Whether a region holds its Spires now. -/
def holdsSpires (r : Region) : Bool := r.status == .placed || r.status == .running || r.status == .killed

def ownSpires (r : Region) : Nat := if holdsSpires r then r.spires.length else 0

/-- The Spires held by a region and its descendants (R234). -/
def heldBy (s : State) (x : Nat) : Nat :=
  s.regions.foldl (fun n r => if (s.ancestors s.regions.length r.id).contains x then n + ownSpires r else n) 0

/-- Budgets (R234): whether a need fits region r and its ancestors now, and whether it ever can. -/
def budgetOk (s : State) (r need : Nat) : Bool :=
  (s.ancestors s.regions.length r).all fun x => match s.region? x with
    | some g => decide (s.heldBy x + need ≤ Rcb.spires g.rcb)
    | none => true

def budgetEver (s : State) (r need : Nat) : Bool :=
  (s.ancestors s.regions.length r).all fun x => match s.region? x with
    | some g => if x = r then decide (need ≤ Rcb.spires g.rcb) else decide (need + ownSpires g ≤ Rcb.spires g.rcb)
    | none => true

/-- The logical Spires of a switched-out region that must keep their index: its partition's Spires by logical number
(14_prog_sampling R287). -/
def pinnedIndex (r : Region) : Bool := r.status == .switched && (Rcb.dmem r.rcb != 0 || Rcb.bcount r.rcb != 0)

/-- The Spires of a dome for a logical dome of a region, chosen from free ones in an order of preference. -/
def domeChoice (r : Region) (free : List Nat) (d ldome : Nat) : Option (List Nat) :=
  let n := Rcb.spd r.rcb
  if pinnedIndex r then
    let want := ((r.spires.drop (ldome * n)).take n).map fun sp => d * 32 + sp % 32
    if want.all fun sp => free.contains sp then some want else none
  else
    let have_ := free.filter fun sp => sp / 32 == d
    if n ≤ have_.length then some (have_.take n) else none

/-- Choose physical Spires for the logical domes of a region: distinct domes, in an order of preference (R228, R235). -/
def chooseSpires (r : Region) (free doms : List Nat) : Nat → Option (List Nat)
  | 0 => some []
  | n + 1 =>
    let ld := Rcb.ldomes r.rcb - (n + 1)
    doms.findSome? fun d => match domeChoice r free d ld with
      | none => none
      | some sps => (chooseSpires r free (doms.filter (· != d)) n).map fun rest => sps ++ rest

/-- The order of the domes of a list of Spires. -/
def domesOf (free : List Nat) : List Nat := (free.map (· / 32)).eraseDups

/-- The Spires a region gets from free ones, in an order of preference; a successor gets those of its predecessor where
it can (R245). -/
def fitting (s : State) (r : Region) (free : List Nat) : Option (List Nat) :=
  let exact := match r.successorOf with
    | some p => match s.region? p with
      | some g =>
        if g.spires.length = Rcb.need r.rcb ∧ (g.spires.all fun sp => free.contains sp) = true then
          (chooseSpires r g.spires (domesOf g.spires) (Rcb.ldomes r.rcb)) else none
      | none => none
    | none => none
  match exact with
  | some x => if x.length = Rcb.need r.rcb then some x else none
  | none => chooseSpires r free (domesOf free) (Rcb.ldomes r.rcb)

/-! ## Virtual time (R237) -/

/-- V is kept in units of 1 over the least common multiple of 1 to 255, so that its growth is exact. -/
def shareScale : Nat := (List.range 255).foldl (fun m k => Nat.lcm m (k + 1)) 1

def shareOf (s : State) (t : Nat) : Nat := max 1 ((s.tenantRec t).extractLsb' 48 8).toNat

/-- Spires held by a tenant. -/
def tenantSpires (s : State) (t : Nat) : Nat := s.regions.foldl (fun n r => if r.tenant = t then n + ownSpires r else n) 0

/-- V of a tenant at this tick, and the tick it was brought up to. -/
def vtimeNow (s : State) (t : Nat) : Nat :=
  let v := Tab.get s.vtime t (0, 0)
  v.1 + s.tenantSpires t * (s.time - v.2) * (shareScale / s.shareOf t)

/-- Bring V of every tenant up to this tick; done before the Spires it holds or its SHARE change. -/
def settleVtime (s : State) : State :=
  { s with vtime := (List.range 16).map fun t => (t, (s.vtimeNow t, s.time)) }

/-- Whether a tenant has a waiting or running region, an accepted launch among them. -/
def tenantActive (s : State) (t : Nat) : Bool :=
  (s.regions.any fun r => r.tenant == t && r.status != .retired) || (List.range 12).any fun n => !(s.fifoOf t n).isEmpty

/-- A tenant without a region acquires one: V rises to the least V of the active tenants. -/
def joinVtime (s : State) (t : Nat) : State :=
  let s := s.settleVtime
  if s.tenantActive t then s
  else match (List.range 16).filter s.tenantActive with
    | [] => s
    | a :: as =>
      let least := as.foldl (fun m x => min m (s.vtimeNow x)) (s.vtimeNow a)
      { s with vtime := Tab.put s.vtime t (max (s.vtimeNow t) least, s.time) }

/-- Place an entry in a FIFO (R231). -/
def pushLaunch (s : State) (tenant n : Nat) (l : Launch) : State :=
  let s := s.joinVtime tenant
  let l := { l with accepted := s.time, seq := s.seqNext }
  let s : State := { s with fifos := Tab.put s.fifos (fifoKey tenant n) (s.fifoOf tenant n ++ [l]), seqNext := s.seqNext + 1 }
  (s.countFor tenant 64 1).traceRec 1 tenant n 0 0xFFFFFFFF (BitVec.ofNat 64 l.rcb)

end State

end Sys2Proof.Machine
end

