-- ==== Sys2Proof/Machine/System.lean ====
section
/-!
DEFINITION. Launching and leaving, gate calls, TRAP, ERET, system registers, JRNL and MSAVE (07_system_isa R195-R206,
R218, R219, 17_prog_gatecall R330, 18_protection R336-R342).
-/

namespace Sys2Proof.Machine

open Sys2Proof

namespace State

/-! ## What a chain does once, by its leader (R194) -/

/-- Whether the current core follows a leader that has yet to complete the instruction. -/
def mustFollow (s : State) : Bool := s.core.follower && !(s.coreAt s.leaderIdx).done

/-! ## Gate records (18_protection R338, R339) -/

/-- GATE of a reason and a gate index (R222). -/
def gateTrap (reason g : Nat) : Trap := { code := Cause.gate, tval := BitVec.ofNat 64 (reason * 2 ^ 56 + g) }

/-- A workspace block that lies within 0x3100-0x3FFF (18_protection R337, R339). -/
def inGateArea (wp : Nat) : Bool := decide (0x3100 ≤ wp) && decide (wp + 1536 ≤ 0x4000)

/-- Whether two workspaces overlap. -/
def blocksMeet (a b : Nat) : Bool := decide (a < b + 1536) && decide (b < a + 1536)

def hwpOf (e : BitVec 512) : Nat := (e.extractLsb' (64 + 48) 14).toNat

/-- A valid gate entry (R339). -/
def gateValid (s : State) (g : Nat) : Bool :=
  let w0 := s.gateWord g 0
  let w1 := s.gateWord g 1
  let w2 := s.gateWord g 2
  let ws := (w1.extractLsb' 0 14).toNat
  match s.keepEntry (w1.extractLsb' 32 16).toNat with
  | none => false
  | some e =>
    w0.getLsbD 63 && w0.extractLsb' 48 15 == 0 && w1.extractLsb' 14 18 == 0 && decide (ws % 256 = 0) && w2.extractLsb' 2 54 == 0 &&
      decide ((w2.extractLsb' 60 4).toNat ≤ 8) && decide ((w2.extractLsb' 56 4).toNat ≤ 8) && s.gateWord g 3 == e.extractLsb' 64 64 &&
      s.gateWord g 4 == 0 && s.gateWord g 5 == 0 && s.gateWord g 6 == 0 && s.gateWord g 7 == 0 &&
      inGateArea ws && inGateArea (hwpOf e) && !blocksMeet ws (hwpOf e)

/-- The WP saved in gate frame n. -/
def frameWp (s : State) (n : Nat) : BitVec 14 := fixWp ((s.frame n 0).setWidth 14)

/-- GCALL re-enters a Keep or a workspace in use, or is made by a handler (R199, R339). -/
def reenters (s : State) (g : Nat) : Bool :=
  let w1 := s.gateWord g 1
  let keep := (w1.extractLsb' 32 16).toNat
  let ws := (w1.extractLsb' 0 14).toNat
  let depth := List.range s.core.gdepth.toNat
  decide (keep = s.currentKeep) || (depth.any fun n => decide (((s.frame n 7).extractLsb' 16 16).toNat = keep)) ||
    blocksMeet ws s.core.wp.toNat || (depth.any fun n => blocksMeet ws (s.frameWp n).toNat) ||
    (match s.keepEntry s.currentKeep with
      | some e => decide (hwpOf e = s.core.wp.toNat)
      | none => false)

/-- The checks of GCALL in their order (R199). -/
def gateCheck (s : State) (g : Nat) : Option Trap :=
  if 4 ≤ s.core.gdepth.toNat then some { code := Cause.gateDepth, tval := BitVec.ofNat 64 g }
  else if s.isBelfry = true ∨ (s.core.gatetab.extractLsb' 52 12).toNat < g then some (gateTrap 1 g)
  else if s.gateValid g = false then some (gateTrap 2 g)
  else if (s.gateWord g 2).getLsbD s.core.priv.toNat = false then some (gateTrap 3 g)
  else if s.reenters g then some (gateTrap 4 g)
  else none

/-! ## Entering and leaving a Keep (R199-R201) -/

/-- The values of w1 to wn. -/
def argRegs (s : State) (n : Nat) : List Word := (List.range n).map fun i => s.reg (BitVec.ofNat 5 (i + 1))

/-- Write w1, w2, … -/
def setArgs (s : State) (xs : List Word) : State :=
  xs.zipIdx.foldl (fun (s : State) x => s.setReg (BitVec.ofNat 5 (x.2 + 1)) x.1) s

/-- The word of p1 to p7 as a frame keeps them: 28 bytes and four of zero. -/
def predWords (s : State) : BitVec 256 :=
  (List.range 7).foldl (fun (x : BitVec 256) i => x ||| ((s.pred (BitVec.ofNat 3 (i + 1))).setWidth 256 <<< (32 * i))) 0

/-- Write gate frame n (R200). -/
def writeFrame (s : State) (n : Nat) (ret : Word) (w2 w1 : Word) (g : Nat) : State :=
  let a := s.frameLoc n
  let last : Word := BitVec.ofNat 64 (g * 2 ^ 32 + (w1.extractLsb' 32 16).toNat * 2 ^ 16 + (w2.extractLsb' 56 4).toNat * 2 ^ 8 +
    (w2.extractLsb' 60 4).toNat * 2 ^ 4 + s.core.priv.toNat)
  let m := Mem.store s.mem a 8 (s.core.wp.setWidth 64)
  let m := Mem.store m (a + 8) 8 ret
  let m := Mem.store m (a + 16) 8 (s.word Ws.ctx)
  let m := Mem.store m (a + 24) 32 s.predWords
  ({ s with mem := Mem.store m (a + 56) 8 last } : State).wipeRange (s.core.kres.toNat % 2 ^ 16 + 64 * n) 64

/-- The scrub of GCALL: w1-w31, v0-v31, p1-p7, JCTL, JFLAGS and FCSR of the live workspace (R199). -/
def scrubAll (s : State) : State :=
  let wp := s.core.wp.toNat
  let s : State := { s with mem := Mem.clear (Mem.clear (Mem.clear s.mem (s.live 8) 0x4F8) (s.live 0x504) 0x1C) (s.live Ws.jctl) 0x18 }
  ((s.wipeRange (wp + 8) 0x4F8).wipeRange (wp + 0x508) 0x18).wipeRange (wp + Ws.jctl) 0x18

/-- The core enters a workspace, a level, a depth; its next instruction issues 52 core cycles later (R42). -/
def enter (s : State) (wp : BitVec 14) (priv : BitVec 2) (depth : BitVec 3) : State :=
  s.onCore fun k => { k with wp := wp, priv := priv, gdepth := depth, holdUntil := s.clock + 52 }

/-- Words 0 to 2 of the gate entry a GCALL enters by. In an attached chain they are read once, by the leader (R194): a
follower finds in its leader, which has entered, the entry point, the workspace, the context, and in the new frame the
counts and the Keep. -/
def gateWords (s : State) (g : Nat) : Word × Word × Word :=
  if s.core.follower then
    let lead : State := { s with cur := s.leaderIdx }
    let last := lead.frame (lead.core.gdepth.toNat - 1) 7
    (lead.core.pc, BitVec.ofNat 64 (lead.ctx.toNat * 2 ^ 48 + (last.extractLsb' 16 16).toNat * 2 ^ 32 + lead.core.wp.toNat),
      BitVec.ofNat 64 ((last.extractLsb' 4 4).toNat * 2 ^ 60 + (last.extractLsb' 8 4).toNat * 2 ^ 56))
  else (s.gateWord g 0, s.gateWord g 1, s.gateWord g 2)

/-- GCALL once its checks have passed, by words 1 and 2 of the gate entry. -/
def gateEnter (s : State) (g : Nat) (w1 w2 : Word) : State :=
  let xs := s.argRegs (w2.extractLsb' 60 4).toNat
  let s := s.writeFrame s.core.gdepth.toNat (s.core.pc + 8) w2 w1 g
  let s := (s.enter (fixWp (w1.extractLsb' 0 14)) 1 (s.core.gdepth + 1)).scrubAll.setArgs xs
  ((s.setWord Ws.ctx ((w1.extractLsb' 48 16).setWidth 64)).wipeRange (s.core.wp.toNat + Ws.ctx) 8).count 74 1

/-- Zero w1 to wn of a workspace of the current core (R201). -/
def scrubArgs (s : State) (wp n : Nat) : State :=
  ({ s with mem := Mem.clear s.mem (wsLoc s.cur (wp + 8)) (8 * n) } : State).wipeRange (wp + 8) (8 * n)

/-- Whether the live workspace is the handler workspace of the current Keep (18_protection R342). -/
def inKeepHandler (s : State) : Bool :=
  match s.keepEntry s.currentKeep with
  | some e => decide (hwpOf e = s.core.wp.toNat)
  | none => false

/-- Return from the call of the top frame (R201): the counts are the leader's; `xs` are the results, or the abort code.
The answer is the return address. -/
def gateLeave (s : State) (counts : Nat × Nat) (abort : Bool) (xs : List Word) (scrub : Nat) : Word × State :=
  let n := s.core.gdepth.toNat - 1
  let f (k : Nat) : Word := s.frame n k
  let ret := f 1
  let wp := s.frameWp n
  let cctx := f 2
  let cpriv := s.fixPriv ((f 7).extractLsb' 0 2)
  let cp : BitVec 256 := Mem.load s.mem 256 (s.frameLoc n + 24) 32
  let s := (s.scrubArgs scrub (max counts.1 counts.2)).enter wp cpriv (s.core.gdepth - 1)
  let s := ((s.setArgs xs).wipeRange (wp.toNat + 8) (8 * xs.length)).wipeRange (wp.toNat + Ws.ctx) 8
  let s := (List.range 6).foldl (fun (s : State) i => s.setPred (BitVec.ofNat 3 (i + 1)) (cp.extractLsb' (32 * i) 32)) s
  let s := (s.setPred 7 (if abort then 0xFFFFFFFF else 0)).setWord Ws.ctx (cctx &&& 0xFFFF)
  (ret, if abort then s.count 75 1 else s)

/-- The followers a leader's trap stopped take part in a return its handler makes (R342, 17_prog_gatecall R330): an abort
hands each the code; a return without one hands each its own results (assumption log 35). -/
def followersReturn (s : State) (counts : Nat × Nat) (abort : Bool) (code : Word) (ret : Word) : State :=
  let me := s.cur
  let s := ((s.attached me).filter (· != me)).foldl (fun (s : State) c =>
    let s : State := { s with cur := c }
    if s.core.gdepth = 0 then s
    else
      let r := s.gateLeave counts abort (if abort then [code] else s.argRegs counts.2) s.core.wp.toNat
      r.2.onCore fun k => { k with pc := ret, status := .running, done := false }) s
  { s with cur := me }

/-- A leader is back in the stream (16_traps R312, R330). At the instruction where it left, the followers that have completed
it wait for it; everywhere else they go on where it goes on. -/
def rejoin (s : State) : State :=
  if s.core.chained && s.core.pos == 0 && s.core.away == 0 then
    let same := s.core.pc == s.core.leftAt
    ((s.attached s.cur).filter (· != s.cur)).foldl (fun (t : State) c =>
      if same && (t.coreAt c).done then t else t.setCoreAt c { t.coreAt c with pc := s.core.pc, done := false }) s
  else s

/-! ## EXIT and YIELD (R196, R197) -/

/-- The trap of EXIT, YIELD and LAUNCH inside a call (R196). -/
def inCall (s : State) : Option Trap :=
  if s.core.gdepth = 0 then none
  else some (gateTrap 6 ((s.frame (s.core.gdepth.toNat - 1) 7).extractLsb' 32 12).toNat)

/-- The lowest refused journal entry. -/
def lowestRefused (s : State) : Option Nat := s.core.journal.findIdx? fun e => e.st == 2

/-- Free a journal entry (R314): no other entry has it as its second any longer. -/
def freeEntryAt (s : State) (k : Nat) : State :=
  (s.setEntry k {}).onCore fun c => { c with journal := c.journal.map fun e => if e.mate = some k then { e with mate := none } else e }

/-- The region of the current core. -/
def myRegion (s : State) : Option Region := s.region? s.core.region

/-- Whether a waiting region needs the Spires of a region: it is admissible, does not fit in the free Spires, and would
with those Spires (R197). -/
def wanted (s : State) (r : Region) : Bool :=
  let free := (List.range 256).filter s.spireFree
  s.regions.any fun x => (x.status == .waiting || x.status == .switched) && s.budgetOk x.id (Rcb.need x.rcb) &&
    (s.fitting x free).isNone && (s.fitting x (free ++ r.spires)).isSome

/-- Whether the partition of a region is armed for a gang switch (R221). -/
def armedAt (s : State) (r : Region) : Option Nat := Tab.find? s.armed r.part

/-- Complete YIELD. -/
def endYield (s : State) (d : SReg) (x : Word) : Res :=
  .done ((s.setReg d x).onCore fun k => { k with yieldAt := none, yielded := false })

/-! ## MSAVE (R219) -/

/-- The words of an MSAVE record at a place, as stores. -/
def msaveElems (s : State) (a : Word) : List Elem :=
  let g := (s.spireAt s.mySpire).graver
  let at_ (o : Nat) (x : Word) : Elem := { va := a + BitVec.ofNat 64 o, n := 8, x := x }
  ((List.range 16).flatMap fun t => (List.range 256).map fun i => at_ (t * 0x800 + i * 8) (((nth g.tiles t 0).extractLsb' (56 * i) 56).setWidth 64)) ++
    ((List.range 16).map fun t => at_ (0x8000 + 8 * t) (nth g.tileStatus t 0)) ++
    ((List.range 4).map fun q => at_ (0x8080 + 8 * q) (nth g.ctx q {}).resume) ++
    ((List.range 4).map fun q => at_ (0x80A0 + 8 * q) (nth g.ctx q {}).tl.err)

/-- The mask of poisoned tiles. -/
def poisonedTiles (s : State) : Word :=
  let g := (s.spireAt s.mySpire).graver
  BitVec.ofNat 64 ((List.range 16).foldl (fun n t => if (nth g.tileStatus t 0).getLsbD 63 then n + 2 ^ t else n) 0)

end State

/-! ## Meanings -/

/-- LAUNCH (R195): submitted by the leader; every member of an attached chain receives its status. The RCB is checked
before the FENCE and read after it. -/
def execLaunch (d a : SReg) (pwake : BitVec 6) (pwen : BitVec 1) (s : State) : Out :=
  if s.mustFollow then powered s (.next s)
  else instrAll (.launch d a pwake pwen) (fun s =>
    if s.core.follower then .done (s.setReg d (({ s with cur := s.leaderIdx } : State).reg d))
    else match s.inCall with
    | some t => .trap t s
    | none =>
      let va := s.reg a
      if va &&& 0xFF ≠ 0 then .trap { code := Cause.misalign, tval := va } s
      else
        let es : List Elem := (List.range 32).map fun k => { va := va + BitVec.ofNat 64 (8 * k), n := 8 }
        (s.places .load (es.map (·.va))).run s fun (_, s) =>
        if s.fenced 0x1F = false then .wait (.fence 0x1F false) s
        else ((s.acquire (s.fenceTs 0x1F)).loadElems es).run s fun (ws, s) =>
          let own : BitVec 2048 := BitVec.ofNat 2048 (ws.zipIdx.foldl (fun n x => n + x.1.toNat * 2 ^ (64 * x.2)) 0)
          let prio := Rcb.prio (Rcb.effective own (match s.myRegion with | some r => r.rcb | none => 0))
          let n := min prio 11
          if 64 ≤ (s.fifoOf s.core.tenant n).length then .done (s.setReg d 1)
          else
            let l : Launch := { rcb := va.toNat % 2 ^ 48, ctx := s.ctx, parent := some s.core.region
                                wake := if pwen = 1 then some (s.core.region, s.core.lcore, pwake) else none }
            .done ((s.pushLaunch s.core.tenant n l).setReg d 0)) s

/-- EXIT (R196). -/
def execExit (s : State) : Out :=
  instrAll .exit (fun s =>
    match s.inCall with
    | some t => .trap t s
    | none =>
      if s.drained = false then .wait .drain s
      else match s.lowestRefused with
      | some e =>
        if s.refusedEntry.isSome = true ∧ s.core.priv = 0 then .asIs s.takeAsync
        else .trap { code := Cause.remoteRefused, tval := (nth s.core.journal e {}).vaddr.setWidth 64, tjrnl := BitVec.ofNat 64 e } s
      | none => .asIs ((s.retire (Instr.size .exit)).onCore fun k => { k with status := .exited, done := false })) s

/-- YIELD (R197). -/
def execYield (d : SReg) (s : State) : Out :=
  instrAll (.yield d) (fun s =>
    match s.inCall with
    | some t => .trap t s
    | none => match s.myRegion with
      | none => s.endYield d 0
      | some r =>
        if s.core.yielded then s.endYield d 1
        else match s.core.yieldAt with
          | some t => if t + 64000 ≤ s.time ∧ (s.armedAt r).isNone = true then s.endYield d 0 else .wait .yield s
          | none =>
            if Rcb.preempt r.rcb = false ∨ s.wanted r = false then s.endYield d 0
            else .wait .yield (s.onCore fun k => { k with yieldAt := some s.time })) s

/-- HALT (R198): it clears neither WAKE nor the interrupt line. -/
def execHalt (s : State) : Out :=
  instrAll .halt (fun s => if s.condHolds .halt then .done s else .wait .halt s) s

/-- GCALL (R199): the gate entry is read and checked once, by the leader of an attached chain (R194). -/
def execGcall (gate : BitVec 12) (s : State) : Out :=
  if s.mustFollow then powered s (.next s)
  else instrAll (.gcall gate) (fun s =>
    let g := gate.toNat
    match (if s.core.follower then none else s.gateCheck g) with
    | some t => .trap t s
    | none =>
      let w := s.gateWords g
      .goto (w.1.setWidth 48 |>.setWidth 64) (s.gateEnter g w.2.1 w.2.2)) s

/-- GRET (R201, 18_protection R342): the frame counts are read once, from the leader. -/
def execGret (a : SReg) (abort : BitVec 1) (s : State) : Out :=
  if s.mustFollow then powered s (.next s)
  else instrAll (.gret a abort) (fun s =>
    if s.core.gdepth = 0 then .trap (State.gateTrap 5 0) s
    else
      let ab := abort == 1
      let lead : State := { s with cur := s.leaderIdx }
      let counts := State.frameCounts (if s.core.follower then lead.frame lead.core.gdepth.toNat 7 else s.frame (s.core.gdepth.toNat - 1) 7)
      let xs := if ab then [s.reg a] else s.argRegs counts.2
      if s.inKeepHandler then
        let r := s.gateLeave counts ab xs (State.fixWp ((s.word Ws.tcause).extractLsb' 16 14)).toNat
        let s := r.2.onCore fun k => { k with away := k.away - 1 }
        let s := if s.core.chained && s.core.pos == 0 && s.core.away == 0 then
            s.followersReturn counts ab (xs.headD 0) r.1
          else s
        .asIs ((s.retireAt r.1).onCore fun k => { k with done := false })
      else
        let r := s.gateLeave counts ab xs s.core.wp.toNat
        .goto r.1 r.2) s

/-- TRAP (R203): TPC is the address of the instruction after it. -/
def execTrap (code : BitVec 16) (s : State) : Out :=
  instrAll (.trap code) (fun s => .asIs (s.takeTrap false (s.core.pc + 8) { code := Cause.trap, tval := code.setWidth 64 })) s

/-- ERET (R204): the level, WP and PC come from the live workspace's TCAUSE and TPC. -/
def execEret (s : State) : Out :=
  instrAll .eret (fun s => .asIs (((s.count 0 1).onCore fun k => State.retiredCore k k.pc).returnFromTrap.rejoin)) s

/-- SYSR (R205, R206). -/
def execSysr (g : Guard) (d : SReg) (idx : BitVec 12) (s : State) : Out :=
  instr (.sysr g d idx) g (fun s =>
    let b := s.isBelfry
    let x : Word := match idx.toNat with
      | 0 => s.sysctl
      | 1 => if b then 0 else s.core.kres
      | 2 => if b then 0 else s.kperm.setWidth 64
      | 3 => BitVec.ofNat 64 (s.core.tenant + if b then 256 else 0)
      | 4 => if b then 0 else s.core.gatetab
      | _ => s.core.tvec
    .done (s.setReg d x)) s

/-- SYSW (R205, R206): SYSCTL alone is writable; its bits 63:1 are reserved. -/
def execSysw (g : Guard) (a : SReg) (idx : BitVec 12) (s : State) : Out :=
  instr (.sysw g a idx) g (fun s => .done { s with sysctl := s.reg a &&& 1 }) s

/-- JRNL (R218). -/
def execJrnl (g : Guard) (d a : SReg) (word : BitVec 2) (clear : BitVec 1) (s : State) : Out :=
  instr (.jrnl g d a word clear) g (fun s =>
    let x := s.reg a
    if 16 ≤ x.toNat then .trap { code := Cause.loadFault, tval := x } s
    else
      let e := nth s.core.journal x.toNat {}
      let w0 : Word := e.op ++ e.ty ++ e.st ++ e.kind ++ e.size ++ e.vaddr
      let y := match word.toNat with
        | 0 => w0
        | 1 => e.data
        | _ => e.ts
      let s := if clear = 1 ∧ e.st = 2 then s.freeEntryAt x.toNat else s
      .done (s.setReg d y)) s

/-- MSAVE (R219): the writes are ordinary core stores. -/
def execMsave (g : Guard) (d a : SReg) (s : State) : Out :=
  instr (.msave g d a) g (fun s =>
    let x := s.reg a
    if x &&& 0xFF ≠ 0 then .trap { code := Cause.misalign, tval := x } s
    else if s.graverIdle s.mySpire = false then .wait (.graverIdle s.mySpire) s
    else s.storeElems (s.msaveElems x) fun s => .done (s.setReg d s.poisonedTiles)) s

/-- YIELD_TIMEOUT (R197): the YIELD of a core that has waited 64,000 ticks completes with 0. -/
def execYieldTimeout (core : Nat) (s : State) : Out :=
  let s : State := { s with cur := core }
  match s.core.status with
  | .waiting .yield =>
    if s.mayIssue = true ∧ s.asyncNow = false ∧ s.killedNow = false then
      match s.fetchNext with
      | .instr at_ (.yield d) s => execYield d (s.setPc at_)
      | _ => powered s (.next s)
    else powered s (.next s)
  | _ => powered s (.next s)

end Sys2Proof.Machine
end

