-- ==== Sys2Proof/Machine/Publish.lean ====
section
/-!
DEFINITION. PUBLISH: the checks of a staged image, its relocation and its measurement (07_system_isa R207-R209), with
SHA-256 as FIPS 180-4 gives it.
-/

namespace Sys2Proof.Machine

open Sys2Proof

/-! ## SHA-256 -/

namespace Sha

/-- The first n primes. -/
def primes : Nat → List Nat
  | 0 => []
  | n + 1 =>
    let ps := primes n
    let next := (List.range 320).find? fun p => decide (2 ≤ p) && ps.all fun q => decide (q < p) && p % q != 0
    ps ++ [next.getD 0]

/-- The largest r with r to the power e at most x, by bisection on 40 bits. -/
def root (e x : Nat) : Nat :=
  (List.range 40).foldl (fun r k => let t := r + 2 ^ (39 - k); if t ^ e ≤ x then t else r) 0

/-- The first 32 bits of the fractional part of the e-th root of a prime. -/
def frac (e p : Nat) : BitVec 32 := BitVec.ofNat 32 (root e (p * 2 ^ (32 * e)))

def initial : List (BitVec 32) := (primes 8).map (frac 2)
def rounds : List (BitVec 32) := (primes 64).map (frac 3)

def rotr (x : BitVec 32) (n : Nat) : BitVec 32 := x.rotateRight n

/-- The message schedule: the words of a block, newest first, extended to 64. -/
def schedule : Nat → List (BitVec 32) → List (BitVec 32)
  | 0, w => w
  | n + 1, w =>
    let g (k : Nat) : BitVec 32 := w.getD (k - 1) 0
    let s0 := rotr (g 15) 7 ^^^ rotr (g 15) 18 ^^^ (g 15 >>> 3)
    let s1 := rotr (g 2) 17 ^^^ rotr (g 2) 19 ^^^ (g 2 >>> 10)
    schedule n ((g 16 + s0 + g 7 + s1) :: w)

/-- One round on the eight working words. -/
def round (h : List (BitVec 32)) (kw : BitVec 32) : List (BitVec 32) :=
  match h with
  | [a, b, c, d, e, f, g, hh] =>
    let s1 := rotr e 6 ^^^ rotr e 11 ^^^ rotr e 25
    let ch := (e &&& f) ^^^ (~~~e &&& g)
    let t1 := hh + s1 + ch + kw
    let s0 := rotr a 2 ^^^ rotr a 13 ^^^ rotr a 22
    let maj := (a &&& b) ^^^ (a &&& c) ^^^ (b &&& c)
    [t1 + s0 + maj, a, b, c, d + t1, e, f, g]
  | x => x

/-- A big-endian word of four bytes. -/
def beWord (bs : List Byte) : BitVec 32 := bs.foldl (fun (x : BitVec 32) b => (x <<< 8) ||| b.setWidth 32) 0

/-- The words of a block of 64 bytes, newest first. -/
def blockWords (bs : List Byte) : List (BitVec 32) := ((List.range 16).map fun i => beWord ((bs.drop (4 * i)).take 4)).reverse

/-- Compress one block. -/
def compress (h : List (BitVec 32)) (bs : List Byte) : List (BitVec 32) :=
  let w := (schedule 48 (blockWords bs)).reverse
  let out := (rounds.zip w).foldl (fun h kw => round h (kw.1 + kw.2)) h
  (h.zip out).map fun x => x.1 + x.2

/-- Padding: one bit, zeros, and the length in bits. -/
def pad (bs : List Byte) : List Byte :=
  let n := bs.length
  bs ++ [0x80] ++ List.replicate ((119 - n % 64) % 64) 0 ++ ((toBytes 8 (BitVec.ofNat 64 (8 * n))).reverse)

/-- Compress the blocks of a padded message. -/
def blocks : Nat → List (BitVec 32) → List Byte → List (BitVec 32)
  | 0, h, _ => h
  | n + 1, h, bs => blocks n (compress h bs) (bs.drop 64)

/-- The 32 bytes of the digest of a message. -/
def digest (bs : List Byte) : List Byte :=
  let p := pad bs
  (blocks (p.length / 64) initial p).flatMap fun w => (toBytes 4 w).reverse

end Sha

/-! ## The staged image (R207) -/

/-- A staged image: the five words of its descriptor, the reserved ones, and its bytes. -/
structure Image where
  codelen : Nat
  tablen : Nat
  entry : Nat
  owner : Nat
  rellen : Nat
  reserved : Bool
  words : List Word
  code : List Byte
  tables : List Byte
  rels : List Byte

/-- A 64-bit word of a list of bytes. -/
def wordAt (bs : List Byte) (k : Nat) : Nat := (ofBytes 64 ((bs.drop (8 * k)).take 8)).toNat

/-- The image a descriptor and the bytes after it make. -/
def Image.of (ws : List Word) (body : List Byte) : Image :=
  let w (k : Nat) : Nat := (ws.getD k 0).toNat
  { codelen := w 0, tablen := w 1, entry := w 2, owner := w 3 % 256, rellen := w 4
    reserved := decide (w 3 < 256) && w 5 == 0 && w 6 == 0 && w 7 == 0
    words := ws.take 5
    code := body.take (w 0), tables := (body.drop (w 0)).take (w 1), rels := (body.drop (w 0 + w 1)).take (w 4) }

/-- The sizes of check 0x01 (R208). -/
def sizesOk (ws : List Word) : Bool :=
  let w (k : Nat) : Nat := (ws.getD k 0).toNat
  decide (0 < w 0) && decide (w 0 ≤ 2 ^ 24) && w 0 % 32 == 0 && decide (w 1 ≤ 2 ^ 20) && w 1 % 8 == 0 && decide (w 4 ≤ 2 ^ 16) && w 4 % 8 == 0

/-- One step of the scan from offset 0: an instruction start, its length, and what decodes there (R208). -/
structure Start where
  off : Nat
  len : Nat
  instr : Except Reject Instr

/-- The starts of a code image, and the offset of a sequence that crosses a fetch block or ends past the code. -/
def scan : Nat → Nat → List Byte → List Start × Option Nat
  | 0, _, _ => ([], none)
  | fuel + 1, off, bs =>
    match bs with
    | [] => ([], none)
    | b :: _ =>
      let n := lenBytes (b.setWidth 2)
      if 32 < off % 32 + n ∨ bs.length < n then ([], some off)
      else
        let w : BitVec 128 := ofBytes 128 (bs.take n)
        let i : Except Reject Instr :=
          if w = 3 then .ok .fill else if w.extractLsb' 0 2 = 3 then .error .badFill else (Raw.unpack w).decode
        let r := scan fuel (off + n) (bs.drop n)
        ({ off := off, len := n, instr := i } :: r.1, r.2)

/-- Whether the body of a REP fails R80: its instructions must follow in the code and be allowed in a body. -/
def repFails : Nat → List Start → Bool
  | 0, _ => false
  | _ + 1, [] => true
  | n + 1, x :: xs =>
    match x.instr with
    | .ok .fill => repFails (n + 1) xs
    | .ok i => bodyExcluded i || repFails n xs
    | .error _ => true

/-- Check 0x03: the first start whose encoding or REP body fails. -/
def illegalStart : List Start → Option Nat
  | [] => none
  | x :: xs =>
    match x.instr with
    | .error _ => some x.off
    | .ok (.rep _ n _ _) => if repFails (n.toNat + 1) xs then some x.off else illegalStart xs
    | .ok _ => illegalStart xs

/-- Check 0x04: the first privileged operation (R31). -/
def privilegedStart (xs : List Start) : Option Nat :=
  (xs.find? fun x => match x.instr with
    | .ok i => i.need != .none
    | .error _ => false).map (·.off)

/-- The target of a branch as an offset, for check 0x05. -/
def branchTarget (off : Nat) : Instr → Option Word
  | .br _ o => some (BitVec.ofNat 64 off + o.bytes)
  | .call _ _ o => some (BitVec.ofNat 64 off + o.bytes)
  | .loop _ _ o => some (BitVec.ofNat 64 off + (o.signExtend 64 <<< 2))
  | _ => none

/-- Whether an offset is an instruction start. -/
def isStart (xs : List Start) (n : Nat) : Bool := xs.any fun x => x.off == n

/-- Check 0x05: the first branch whose target is no instruction start. -/
def badBranch (xs : List Start) : Option Nat :=
  (xs.find? fun x => match x.instr with
    | .ok i => match branchTarget x.off i with
      | some t => !isStart xs t.toNat
      | none => false
    | .error _ => false).map (·.off)

/-- Whether an offset is the start of a 128-bit MOVI. -/
def isLongMovi (xs : List Start) (n : Nat) : Bool :=
  xs.any fun x => x.off == n && (match x.instr with
    | .ok (.movi _ _ (.imm64 _)) => true
    | _ => false)

/-- Check 0x09: the first bad relocation entry, by its number. -/
def badRelocation (im : Image) (xs : List Start) : Option Nat :=
  (List.range (im.rellen / 8)).find? fun k =>
    let e := wordAt im.rels k
    decide (2 ^ 32 ≤ e) || !isLongMovi xs e || decide (im.codelen + im.tablen ≤ wordAt (im.code.drop e) 1)

/-- The checks 0x02 to 0x09 of R208 in their order: the code and VALUE of the first that fails. -/
def Image.check (im : Image) : Option (Nat × Nat) :=
  let sc := scan (im.codelen / 4 + 1) 0 im.code
  let xs := sc.1
  match sc.2, illegalStart xs, (if im.owner = 0 then privilegedStart xs else none), badBranch xs with
  | some o, _, _, _ => some (2, o)
  | none, some o, _, _ => some (3, o)
  | none, none, some o, _ => some (4, o)
  | none, none, none, some o => some (5, o)
  | none, none, none, none =>
    match (List.range (im.tablen / 8)).find? fun k => !isStart xs (wordAt im.tables k) with
    | some k => some (6, im.codelen + 8 * k)
    | none =>
      if !isStart xs im.entry then some (7, im.entry)
      else (badRelocation im xs).map fun k => (9, im.codelen + im.tablen + 8 * k)

/-- Replace a 64-bit word in a list of bytes. -/
def putWord (bs : List Byte) (off : Nat) (x : Word) : List Byte := bs.take off ++ toBytes 8 x ++ bs.drop (off + 8)

/-- The object's bytes at a base (R209): table entries become absolute, the named MOVIs take the base. -/
def Image.relocate (im : Image) (base : Word) : List Byte :=
  let code := ((List.range (im.rellen / 8)).map (wordAt im.rels)).eraseDups.foldl (fun bs e =>
    putWord bs (e + 8) (BitVec.ofNat 64 (wordAt (im.code.drop e) 1) + base)) im.code
  code ++ (List.range (im.tablen / 8)).flatMap fun k => toBytes 8 (BitVec.ofNat 64 (wordAt im.tables k) + base)

/-- The measurement (R209). -/
def Image.measure (im : Image) : List Byte := Sha.digest (im.words.flatMap (toBytes 8) ++ im.code ++ im.tables ++ im.rels)

namespace State

/-- The address system software gives the n-th object. -/
def baseOf (n : Nat) : Nat := 0x100000000 + 32 * (Config.objectBase n).val

/-- Where the next object would be mapped and kept, when it leaves the others alone (R208 check 0x08, R209). -/
def objectRoom (s : State) (len : Nat) : Option (Nat × Nat) :=
  let n := s.objects.length
  let base := baseOf n
  if (s.objects.all fun o => decide (base + len ≤ o.base) || decide (o.base + o.len ≤ base)) = true then some (base, n * 2 ^ 25)
  else none

/-- What a PUBLISH of an image answers: its rejection, or the object (R208, R209). -/
def publishImage (s : State) (tenant : Nat) (mayOwn : Bool) (im : Image) : Except (Nat × Nat) (CodeObj × List Byte) :=
  if mayOwn = false ∨ im.reserved = false then .error (1, 0)
  else match im.check with
    | some e => .error e
    | none => match s.objectRoom (im.codelen + im.tablen) with
      | none => .error (8, 0)
      | some (base, store) =>
        .ok ({ base := base, store := store, len := im.codelen + im.tablen, tenant := tenant, keep := im.owner
               hash := ofBytes 256 im.measure }, im.relocate (BitVec.ofNat 64 base))

/-- Map an object. -/
def addObject (s : State) (o : CodeObj) (bytes : List Byte) : State :=
  { s with mem := Mem.writeBytes s.mem (Config.objectStore + o.store) bytes, objects := s.objects ++ [o] }

/-- Who may publish for an owner (R207): the issuing level. -/
def mayOwn (s : State) (owner : Nat) : Bool :=
  match s.core.priv.toNat with
  | 0 => owner == 0
  | 1 => owner == 0 || owner == s.currentKeep
  | _ => true

/-- The 8-byte words of a staging buffer. -/
def stagingElems (a : Word) (off n : Nat) : List Elem :=
  (List.range (n / 8)).map fun k => { va := a + BitVec.ofNat 64 (off + 8 * k), n := 8 }

/-- The status of a rejected image (R209). -/
def rejection (c v : Nat) : Word := BitVec.ofNat 64 (c * 2 ^ 56 + v % 2 ^ 48)

/-- PUBLISH once the implied FENCE is over. -/
def publish (s : State) (d : SReg) (a c : Word) (store : Bool) : Res :=
  (s.loadElems (stagingElems a 0 64)).run s fun (ws, s) =>
    if sizesOk ws = false then .done ((s.count 78 1).setReg d (rejection 1 0))
    else
      let total := ((ws.getD 0 0).toNat + (ws.getD 1 0).toNat + (ws.getD 4 0).toNat)
      (s.loadElems (stagingElems a 64 total)).run s fun (bs, s) =>
        let im := Image.of ws (bs.flatMap (toBytes 8))
        match s.publishImage s.core.tenant (s.mayOwn im.owner) im with
        | .error (e, v) => .done ((s.count 78 1).setReg d (rejection e v))
        | .ok (o, bytes) =>
          let finish (s : State) : Res := .done (((s.addObject o bytes).count 79 1).setReg d (BitVec.ofNat 64 o.base))
          if store then
            (State.aligned c 8).run s fun _ =>
              s.storeElems ((List.range 4).map fun k =>
                { va := c + BitVec.ofNat 64 (8 * k), n := 8, x := o.hash.extractLsb' (64 * k) 64 }) finish
          else finish s

end State

/-- PUBLISH (R207-R209). -/
def execPublish (d a c : SReg) (s : State) : Out :=
  instrAll (.publish d a c) (fun s =>
    let x := s.reg a
    if x &&& 0x3F ≠ 0 then .trap { code := Cause.misalign, tval := x } s
    else if s.fenced 0x1F = false then .wait (.fence 0x1F true) s
    else (s.acquire (s.fenceTs 0x1F)).publish d x (s.reg c) (c != 0)) s

end Sys2Proof.Machine
end

