-- ==== Sys2Proof/Machine/Hbm.lean ====
section
/-!
DEFINITION. Translation and cache maintenance, L2 ways, and the memory controllers (07_system_isa R210-R217,
21_memory_system R362-R371, 20_prog_scrub R356).
-/

namespace Sys2Proof.Machine

open Sys2Proof

/-! ## Row locators (R213, 21_memory_system R364) -/

/-- The physical address of a locator's row; none where a reserved bit is nonzero. -/
def locatorPa (w : Word) : Option Nat :=
  if w.extractLsb' 54 2 ≠ 0 ∨ w.getLsbD 49 ∨ w.extractLsb' 0 32 ≠ 0 then none
  else some ((w.extractLsb' 32 17).toNat * 2 ^ 22 + (w.extractLsb' 52 2).toNat * 2 ^ 20 + (w.extractLsb' 50 2).toNat * 2 ^ 18 +
    (w.extractLsb' 61 3).toNat * 2 ^ 15 + (w.extractLsb' 56 5).toNat * 2 ^ 10)

namespace State

/-- Go on with a locator's row, or LOAD_FAULT (R213). -/
def located (s : State) (w : Word) (f : Nat → Res) : Res :=
  match locatorPa w with
  | some pa => f pa
  | none => .trap { code := Cause.loadFault, tval := w } s

/-- Make what HBM4E holds of a row zero, without marks or errors; caches keep their lines (R217, R371). -/
def blankRow (s : State) (pa : Nat) : State :=
  (List.range 8).foldl (fun (s : State) k =>
    let ln := (pa + 128 * k) / 128
    let s := s.setHbmLine ln 0
    let s := if s.lineHeld ln then s else s.dropMarks ln
    { s with hbm := { s.hbm with errs := (sectors ln).foldl (fun (t : Tab BeatErr) a => clearErr t (s.hbmLoc a / 32)) s.hbm.errs } }) s

/-- Free the tracker entry of a row. -/
def untrack (s : State) (pa : Nat) : State :=
  match s.tracked pa with
  | some (e, _) => { s with hbm := { s.hbm with track := Tab.put s.hbm.track (chanOf pa) (Tab.del (Tab.get s.hbm.track (chanOf pa) []) e) } }
  | none => s

def rowLive (s : State) (pa : Nat) : Bool := (Tab.find? s.hbm.live (s.hbmLoc pa / 1024)).isSome

/-! ## MSCRUB (R214) -/

/-- Scrub one beat of HBM4E: whether it was corrected, whether it was uncorrectable; the poison mark is written into that one
(R214, 21_memory_system R365). -/
def scrubBeat (s : State) (pa : Nat) : Bool × Bool × State :=
  let k := s.hbmLoc pa / 32
  match Tab.find? s.hbm.errs k with
  | some .correctable | some .stuck =>
    let s := s.countCorrected 1 pa
    (true, false, { s with hbm := { s.hbm with errs := clearErr s.hbm.errs k } })
  | some .uncorrectable | some .stuckBad =>
    let s := (s.countBy 43 1).postFault 2 1 pa
    (false, true, { s with hbm := { s.hbm with errs := markErr s.hbm.errs k } })
  | some .mark | some .stuckMark | none => (false, false, s)

/-- Scrub one row: corrected and uncorrectable beats. A not-live row is counted and not read (21_memory_system R371). -/
def scrubRow (s : State) (pa : Nat) : Nat × Nat × State :=
  let s := s.countBy 45 1
  if s.rowLive pa then
    (List.range 32).foldl (fun (x : Nat × Nat × State) i =>
      let r := x.2.2.scrubBeat (pa + 32 * i)
      (x.1 + r.1.toNat, x.2.1 + r.2.1.toNat, r.2.2)) (0, 0, s)
  else (0, 0, s)

/-- The status word of MSCRUB. -/
def scrubStatus (thresh part : Bool) (rows corr uncorr : Nat) : Word :=
  BitVec.ofNat 64 (thresh.toNat * 2 ^ 63 + part.toNat * 2 ^ 62 + min uncorr 65535 * 2 ^ 32 + min corr 65535 * 2 ^ 16 + rows)

/-- One row of MSCRUB a turn, from the locator's row and the rows already done. It ends at a row boundary where a trap is due, held at
this level or not, or a gang switch (R214). -/
def scrubOn (s : State) (d : SReg) (pa n : Nat) : Res :=
  let x := s.core.scrub.getD (0, 0, 0)
  let finish (t p : Bool) (x : Nat × Nat × Nat) (s : State) : Res :=
    .done ((s.onCore fun k => { k with scrub := none }).setReg d (scrubStatus t p x.1 x.2.1 x.2.2))
  let row := pa + x.1 * 2 ^ 22
  if x.1 = n ∨ Config.hbmSize ≤ row then finish false false x s
  else if x.1 ≠ 0 ∧ (s.stopping = true ∨ s.trapDue = true) then finish false true x s
  else
    let before := s.counterOf row
    let r := s.scrubRow row
    let y := (x.1 + 1, x.2.1 + r.1, x.2.2 + r.2.1)
    if before < 8 ∧ 8 ≤ r.2.2.counterOf row then finish true false y r.2.2
    else .asIs (r.2.2.onCore fun k => { k with scrub := some y, status := .running })

/-! ## Remapping (R215, R216, R368) -/

/-- The physical address of the row a remap entry of a channel names (R216). -/
def remapRow (ch : Nat) (w : Word) : Nat :=
  (w.extractLsb' 32 17).toNat * 2 ^ 22 + (w.extractLsb' 52 2).toNat * 2 ^ 20 + (w.extractLsb' 50 2).toNat * 2 ^ 18 + ch / 32 * 2 ^ 15 + ch % 32 * 2 ^ 10

/-- Before the storage of some lines moves: every leased copy keeps its bytes, and storage holds what HBM4E holds. The newest
bytes of the lines are the answer. -/
def lowerLines (s : State) (lns : List Nat) : List (Nat × BitVec 1024) × State :=
  lns.foldl (fun (x : List (Nat × BitVec 1024) × State) ln =>
    let s := x.2.keepLeases ln
    let now : BitVec 1024 := s.peek 1024 (ln * 128) 128
    (x.1 ++ [(ln, now)], { s with mem := Mem.store s.mem (s.storeLoc (ln * 128)) 128 (s.hbmLine ln) })) ([], s)

/-- After it has moved: a line that a cache holds keeps its bytes, over what HBM4E holds at its new place; the marks of another stay at
the old place. -/
def raiseLine (s : State) (x : Nat × BitVec 1024) : State :=
  if s.lineHeld x.1 then
    let under : BitVec 1024 := s.peek 1024 (x.1 * 128) 128
    let t : State := { s with mem := Mem.store s.mem (s.storeLoc (x.1 * 128)) 128 x.2 }
    let l := Tab.get t.lines x.1 {}
    if l.held then t.setSliceLine x.1 { l with under := some under }
    else match t.ownerOfLine x.1 with
      | some (p, c) =>
        let y := t.spireAt p
        t.setSpireAt p { y with lines := Tab.put y.lines x.1 { c with home := some (under, 0) } }
      | none => t
  else s.dropMarks x.1

/-- Set a remap entry, and the spare-use map as R216 states; no data is copied, and lines that caches hold keep their bytes. -/
def setRemap (s : State) (ch e : Nat) (x : Word) : State :=
  let key := ch * 64 + e
  let old := Tab.get s.hbm.remap key 0
  let bg (w : Word) : Nat := ch * 4 + (w.extractLsb' 52 2).toNat
  let bit (w : Word) : BitVec 32 := (1 : BitVec 32) <<< (w.extractLsb' 0 5).toNat
  let use := if old.getLsbD 63 then Tab.put s.hbm.spareUse (bg old) (Tab.get s.hbm.spareUse (bg old) 0 &&& ~~~(bit old)) else s.hbm.spareUse
  let use := if x.getLsbD 63 then Tab.put use (bg x) (Tab.get use (bg x) 0 ||| bit x) else use
  let rows := ((if old.getLsbD 63 then [remapRow ch old] else []) ++ (if x.getLsbD 63 then [remapRow ch x] else [])).eraseDups
  let r := s.lowerLines (rows.flatMap fun r => (List.range 8).map fun k => (r + 128 * k) / 128)
  let s := r.2
  let s : State := { s with hbm := { s.hbm with remap := if x = 0 then Tab.del s.hbm.remap key else Tab.put s.hbm.remap key x, spareUse := use } }
  r.1.foldl raiseLine s

/-- The spare and the entry an MSPARE in progress on a channel reserves (R215). -/
def reserved (s : State) (ch : Nat) : Option SpareCopy := Tab.find? s.hbm.copies ch

/-- Whether MRMAP op 1 may write an entry (R368). -/
def remapAllowed (s : State) (ch e : Nat) (x : Word) : Bool :=
  let others := List.filter (fun (ke : Nat × Word) => ke.1 / 64 == ch && ke.1 % 64 != e && ke.2.getLsbD 63) s.hbm.remap
  let sameRow (y : Word) : Bool := y.extractLsb' 32 22 == x.extractLsb' 32 22
  let sameSpare (y : Word) : Bool := y.extractLsb' 52 2 == x.extractLsb' 52 2 && y.extractLsb' 0 5 == x.extractLsb' 0 5
  let clash := x.getLsbD 63 && others.any fun (ke : Nat × Word) => sameRow ke.2 || sameSpare ke.2
  let held := match s.reserved ch with
    | some c => c.entry == e || (x.getLsbD 63 && (x.extractLsb' 52 2).toNat == c.row / 2 ^ 10 % 4 && (x.extractLsb' 0 5).toNat == c.spare)
    | none => false
  !clash && !held

/-- The refusal of an MSPARE (R215): 5, 3, 1, 2 in this order; else the entry it takes. -/
def spareCheck (s : State) (pa sp : Nat) : Except Nat Nat :=
  let ch := chanOf pa
  let bg := ch * 4 + pa / 2 ^ 20 % 4
  if (s.reserved ch).isSome then .error 5
  else if (s.remapOf pa).isSome then .error 3
  else if (Tab.get s.hbm.spareUse bg 0).getLsbD sp then .error 1
  else match (List.range 64).find? fun e => !(Tab.get s.hbm.remap (ch * 64 + e) 0).getLsbD 63 with
    | some e => .ok e
    | none => .error 2

/-- The remap entry that sends a row to a spare (R216). -/
def remapWord (pa sp : Nat) : Word :=
  BitVec.ofNat 64 (2 ^ 63 + pa / 2 ^ 20 % 4 * 2 ^ 52 + pa / 2 ^ 18 % 4 * 2 ^ 50 + pa / 2 ^ 22 * 2 ^ 32 + sp)

/-- The status word of MSPARE. -/
def spareStatus (code entry : Nat) : Word := BitVec.ofNat 64 (code * 2 ^ 56 + entry)

/-- The storage address of a spare row. -/
def spareLoc (pa sp : Nat) : Nat := Config.spareBase + ((chanOf pa * 4 + pa / 2 ^ 20 % 4) * 32 + sp) * 1024

/-- The spare of a not-live row is marked not-live, so that it reads zeros; the entry is installed, nothing is copied, and the
row's counter is 0 (21_memory_system R371, 20_prog_scrub R356). -/
def spareNotLive (s : State) (pa sp e : Nat) : State :=
  let a := spareLoc pa sp
  let s : State := { s.untrack pa with
    mem := Mem.clear s.mem a 1024
    hbm := { (s.untrack pa).hbm with
      errs := (List.range 32).foldl (fun (t : Tab BeatErr) i => clearErr t (a / 32 + i)) s.hbm.errs
      live := Tab.del s.hbm.live (a / 1024) } }
  s.setRemap (chanOf pa) e (remapWord pa sp)

/-- The copy of a row's beats to its spare: a corrected one is held out of the tracker (R356), an uncorrectable or poisoned one
is copied as poison. The answer is the beats that were. -/
def spareBeats (s : State) (pa : Nat) : List Nat × State :=
  (List.range 32).foldl (fun (x : List Nat × State) i =>
    let b := pa + 32 * i
    let s := x.2
    match Tab.find? s.hbm.errs (b / 32) with
    | some .uncorrectable | some .stuckBad => (i :: x.1, (s.countBy 43 1).postFault 2 2 b)
    | some .correctable | some .stuck => (x.1, s.countBy 42 1)
    | some .mark | some .stuckMark => (i :: x.1, s)
    | none => (x.1, s)) ([], s)

/-- The errors of a spare row at a storage address after a copy in which the given beats were uncorrectable or poisoned. -/
def spareErrs (t : Tab BeatErr) (a : Nat) (bad : List Nat) : Tab BeatErr :=
  (List.range 32).foldl (fun (t : Tab BeatErr) i => if bad.contains i then markErr t (a / 32 + i)
    else clearErr t (a / 32 + i)) t

/-- The spare of a copy on a channel takes its row: the entry comes into force, and the row's counter is 0 (R215). -/
def spareTakes (s : State) (ch : Nat) (c : SpareCopy) : State :=
  let pa := c.row * 1024
  let r := s.spareBeats pa
  let v := r.2.untrack pa
  let a := spareLoc pa c.spare
  let w : State := { v with
    mem := (List.range 8).foldl (fun m k => Mem.store m (a + 128 * k) 128 (v.hbmLine (pa / 128 + k))) v.mem
    hbm := { v.hbm with
      copies := Tab.del v.hbm.copies ch, errs := spareErrs v.hbm.errs a r.1, live := Tab.put v.hbm.live (a / 1024) () } }
  (w.setRemap ch c.entry (remapWord pa c.spare)).countBy 46 1

/-- The copy on a channel ends (R215), and the waiting core gets its status. -/
def spareEnd (s : State) (ch : Nat) : State :=
  match s.reserved ch with
  | none => s
  | some c =>
    let code := if (s.spareBeats (c.row * 1024)).1.isEmpty then 0 else 4
    let w := s.actFor (s.coreAt c.core).tenant fun s => s.spareTakes ch c
    let k := w.coreAt c.core
    match k.spare with
    | some (ch', none) => if ch' = ch then w.setCoreAt c.core { k with spare := some (ch, some (spareStatus code c.entry)) } else w
    | _ => w

/-- MSPARE (R215): refuse, finish at once for a row that is not live, or start the copy and wait for its end. -/
def spareRow (s : State) (d : SReg) (pa sp : Nat) : Res :=
  let ch := chanOf pa
  match s.core.spare with
  | some (_, some w) => .done ((s.onCore fun k => { k with spare := none }).setReg d w)
  | some (c, none) => .wait (.spare c) s
  | none =>
    match s.spareCheck pa sp with
    | .error c => .done (s.setReg d (spareStatus c 0))
    | .ok e =>
      if s.rowLive pa = false then .done ((s.spareNotLive pa sp e).setReg d (spareStatus 0 e))
      else
        let bg := ch * 4 + pa / 2 ^ 20 % 4
        let c : SpareCopy := { row := pa / 1024, spare := sp, entry := e, endTick := s.time + 2000, core := s.cur }
        let s : State := { s with hbm := { s.hbm with
          copies := Tab.put s.hbm.copies ch c
          spareUse := Tab.put s.hbm.spareUse bg (Tab.get s.hbm.spareUse bg 0 ||| ((1 : BitVec 32) <<< sp)) } }
        .wait (.spare ch) (s.onCore fun k => { k with spare := some (ch, none) })

/-! ## MLIVE (R217) -/

/-- The rows of a locator's bank that an MLIVE names. -/
def liveRows (pa n : Nat) : List Nat := (List.range (min n (131072 - pa / 2 ^ 22))).map fun i => pa + i * 2 ^ 22

/-- Mark one row. -/
def markRow (s : State) (pa : Nat) (on : Bool) : State :=
  let s := s.blankRow pa
  let k := s.hbmLoc pa / 1024
  if on then { s with hbm := { s.hbm with live := Tab.put s.hbm.live k () } }
  else ({ s with hbm := { s.hbm with live := Tab.del s.hbm.live k } } : State).untrack pa

/-- MLIVE: a row whose copy is in progress is marked after the copy ends (21_memory_system R371). -/
def markRows (s : State) (d : SReg) (pa n : Nat) (on : Bool) : Res :=
  let rows := liveRows pa n
  let busy := match s.reserved (chanOf pa) with
    | some c => rows.contains (c.row * 1024)
    | none => false
  if busy then .wait (.spare (chanOf pa)) s
  else .done ((rows.foldl (fun (s : State) r => s.markRow r on) s).setReg d (BitVec.ofNat 64 rows.length))

/-- A whole write of one beat reaches the controllers (21_memory_system R365, R371). -/
def writeBeat (s : State) (b : Nat) (x : BitVec 256) : State :=
  let sh := 8 * (b % 128)
  let s := s.touchRow b
  let y := s.hbmLine (b / 128)
  let s := s.setHbmLine (b / 128) ((y &&& ~~~((BitVec.ofNat 1024 (2 ^ 256 - 1)) <<< sh)) ||| ((x.setWidth 1024) <<< sh))
  let s : State := { s with hbm := { s.hbm with errs := clearErr s.hbm.errs (s.hbmLoc b / 32) } }
  if s.lineHeld (b / 128) then s else { s with poison := Tab.del s.poison b }

/-! ## LFLUSH (R211) -/

/-- Where a page lies that the core's own Spire translates for some access, with its TLB filled. -/
def flushPlace (s : State) (base : Nat) : Option (Nat × State) :=
  let at_ (acc : Acc) : Option (Place × State) := s.translate s.mySpire s.core.tenant s.ctx acc base
  (((at_ .load).or (at_ .store)).or (at_ .fetch)).map fun p => (p.1.loc, p.2)

/-- The pages of 64 KiB of HBM4E that a range of virtual addresses maps, whatever they permit: where each lies, and the part of
it that the range covers. -/
def flushPages (s : State) (va len : Nat) : List (Nat × Nat × Nat) × State :=
  let lo := max va 0x100000000
  let hi := min (va + len) 0x1000000000000
  if hi ≤ lo then ([], s)
  else (List.range ((hi + 65535) / 65536 - lo / 65536)).foldl (fun (x : List (Nat × Nat × Nat) × State) i =>
    let base := (lo / 65536 + i) * 65536
    match x.2.flushPlace base with
    | some (loc, t) => (if isHbm loc then x.1 ++ [(loc, loc + (max lo base - base), loc + (min hi (base + 65536) - base))] else x.1, t)
    | none => x) ([], s)

/-- Write a line of a Spire cache back to the L2, and with INV drop it. -/
def flushLine (s : State) (sp ln : Nat) (inv : Bool) : State :=
  let dirty := match Tab.find? (s.spireAt sp).lines ln with
    | some l => l.owned && l.home.isSome
    | none => false
  let s := if dirty then (s.writeToSlice sp ln).count 31 1 else s
  if inv then s.returnLine sp ln else s

/-- The lines of the Spires in reach that hold a byte of a range of len bytes, which may be none. With INV the slices pass the
range's lines on to HBM4E, as 21_memory_system R371 needs (assumption log 70). -/
def flushRange (s : State) (va len : Nat) (inv : Bool) (reach : Nat) : State :=
  let r := s.flushPages va len
  let hit (ln : Nat) : Bool := r.1.any fun p => decide (p.2.1 < 128 * ln + 128) && decide (128 * ln < p.2.2) && p.1 / 65536 == 128 * ln / 65536
  let t := r.2.spires.foldl (fun (t : State) (px : Nat × Spire) =>
    if s.reaches reach px.1 then px.2.lines.foldl (fun (t : State) (l : Nat × CLine) => if hit l.1 then t.flushLine px.1 l.1 inv else t) t
    else t) r.2
  let leave (t : State) (n ln : Nat) : State := if hit ln then (t.evictAt n ln).leaveSet n ln else t
  if inv then
    let t := t.lines.foldl (fun (t : State) (l : Nat × SLine) => if l.2.held then leave t l.2.home l.1 else t) t
    t.split.foldl (fun (t : State) x => leave t (x.1 / 2 ^ 32) (x.1 % 2 ^ 32)) t
  else t

/-! ## TLBINV (R210) -/

/-- Drop TLB entries of the current core's tenant in reach: of one page, of a context, or all. -/
def dropTlb (s : State) (ctx : Option (BitVec 16)) (va : Option Nat) (reach : Nat) : State :=
  let gone (e : TlbEntry) : Bool := e.tenant == s.core.tenant && (match ctx with | some c => e.ctx == c | none => true) &&
    (match va with | some a => e.vpage == a / pageSize e.level | none => true)
  { s with spires := s.spires.map fun px => if s.reaches reach px.1 then (px.1, { px.2 with tlb := px.2.tlb.filter fun e => !gone e }) else px }

/-! ## L2CFG (R212) -/

/-- Zero a way, without poison. -/
def zeroWay (s : State) (sl w : Nat) : State :=
  let a := Config.scratchBase + sl * 2 ^ 22 + w * 2 ^ 18
  { s with mem := Mem.clear s.mem a (2 ^ 18), poison := s.poison.filter fun p => !(decide (a ≤ p.1) && decide (p.1 < a + 2 ^ 18)) }

/-- A way of the cache is written back and invalidated (R212). -/
def emptyWay (s : State) (sl w : Nat) : State :=
  (s.sliceAt sl).sets.foldl (fun (s : State) (x : Nat × CacheSet) =>
    match Tab.find? x.2.ways w with
    | some ln => (s.evictAt sl ln).leaveSet sl ln
    | none => s) s

/-- Convert the selected ways of a slice. -/
def convertWays (s : State) (sl tenant : Nat) (mask : BitVec 16) (toScratch : Bool) : Word × State :=
  let x := s.sliceAt sl
  let sel := (List.range 16).filter mask.getLsbD
  if sel.any fun w => match Tab.find? x.ways w with
    | some t => t != tenant
    | none => false
  then (1, s)
  else if toScratch then
    let ways := sel.foldl (fun (t : Tab Nat) w => if (Tab.find? t w).isNone then Tab.put t w tenant else t) x.ways
    if 16 ≤ ways.length then (2, s)
    else
      let s := (sel.filter fun w => (Tab.find? x.ways w).isNone).foldl (fun (s : State) w => s.emptyWay sl w) s
      (0, s.setSliceAt sl { s.sliceAt sl with ways := ways })
  else
    let mine := sel.filter fun w => (Tab.find? x.ways w).isSome
    (0, (mine.foldl (fun (s : State) w => s.zeroWay sl w) s).setSliceAt sl { x with ways := mine.foldl (fun (t : Tab Nat) w => Tab.del t w) x.ways })

end State

/-! ## Meanings -/

/-- TLBINV (R210). -/
def execTlbinv (g : Guard) (a b : SReg) (kind reach : BitVec 2) (s : State) : Out :=
  instr (.tlbinv g a b kind reach) g (fun s =>
    let ctx : Option (BitVec 16) := if kind = 2 then none else some ((s.reg a).setWidth 16)
    let va : Option Nat := if kind = 0 then some (s.reg b).toNat else none
    match s.core.status with
    | .waiting (.translation _ _ _ _) => .done (s.count 60 1)
    | _ =>
      let s := s.dropTlb ctx va reach.toNat
      if s.usesTranslation reach.toNat s.core.tenant ctx va then .wait (.translation reach.toNat s.core.tenant ctx va) s
      else .done (s.count 60 1)) s

/-- LFLUSH (R211). -/
def execLflush (g : Guard) (a b : SReg) (inv : BitVec 1) (reach : BitVec 2) (s : State) : Out :=
  instr (.lflush g a b inv reach) g (fun s => .done (s.flushRange (s.reg a).toNat (s.reg b).toNat (inv == 1) reach.toNat)) s

/-- L2CFG (R212). -/
def execL2cfg (g : Guard) (d a b : SReg) (dir : BitVec 1) (s : State) : Out :=
  instr (.l2cfg g d a b dir) g (fun s =>
    let x := s.reg a
    let r := s.convertWays (x.extractLsb' 0 6).toNat (x.extractLsb' 8 4).toNat ((s.reg b).setWidth 16) (dir == 1)
    .done (r.2.setReg d r.1)) s

/-- MSCRUB (R214). -/
def execMscrub (g : Guard) (d a b : SReg) (s : State) : Out :=
  instr (.mscrub g d a b) g (fun s => s.located (s.reg a) fun pa => s.scrubOn d pa ((s.reg b).toNat % 65536)) s

/-- MSPARE (R215). -/
def execMspare (g : Guard) (d a b : SReg) (s : State) : Out :=
  instr (.mspare g d a b) g (fun s => s.located (s.reg a) fun pa => s.spareRow d pa ((s.reg b).toNat % 32)) s

/-- MRMAP op 0 (R216). -/
def execMrmapRead (g : Guard) (d a b c : SReg) (s : State) : Out :=
  instr (.mrmapRead g d a b c) g (fun s => s.located (s.reg a) fun pa =>
    .done (s.setReg d (Tab.get s.hbm.remap (chanOf pa * 64 + (s.reg b).toNat % 64) 0))) s

/-- MRMAP op 1 (R216, 21_memory_system R368). -/
def execMrmapWrite (g : Guard) (d a b c : SReg) (s : State) : Out :=
  instr (.mrmapWrite g d a b c) g (fun s => s.located (s.reg a) fun pa =>
    let x := s.reg c
    let ch := chanOf pa
    let e := (s.reg b).toNat % 64
    if x.extractLsb' 54 9 ≠ 0 ∨ x.getLsbD 49 ∨ x.extractLsb' 5 27 ≠ 0 then .trap { code := Cause.storeFault, tval := x } s
    else
      let old := Tab.get s.hbm.remap (ch * 64 + e) 0
      .done ((if s.remapAllowed ch e x then s.setRemap ch e x else s).setReg d old)) s

/-- MRMAP op 2 (R216). -/
def execMrmapInvalidate (g : Guard) (d a b c : SReg) (s : State) : Out :=
  instr (.mrmapInvalidate g d a b c) g (fun s => s.located (s.reg a) fun pa =>
    let ch := chanOf pa
    let e := (s.reg b).toNat % 64
    let old := Tab.get s.hbm.remap (ch * 64 + e) 0
    .done ((s.setRemap ch e (old &&& 0x7FFFFFFFFFFFFFFF)).setReg d old)) s

/-- MRMAP op 3 (R216). -/
def execMrmapSpareBitmap (g : Guard) (d a b c : SReg) (s : State) : Out :=
  instr (.mrmapSpareBitmap g d a b c) g (fun s => s.located (s.reg a) fun pa =>
    .done (s.setReg d ((Tab.get s.hbm.spareUse (chanOf pa * 4 + pa / 2 ^ 20 % 4) 0).setWidth 64))) s

/-- MLIVE op 0 (R217). -/
def execMliveNotLive (g : Guard) (d a b : SReg) (s : State) : Out :=
  instr (.mliveNotLive g d a b) g (fun s => s.located (s.reg a) fun pa => s.markRows d pa ((s.reg b).toNat % 65536) false) s

/-- MLIVE op 1 (R217). -/
def execMliveLive (g : Guard) (d a b : SReg) (s : State) : Out :=
  instr (.mliveLive g d a b) g (fun s => s.located (s.reg a) fun pa => s.markRows d pa ((s.reg b).toNat % 65536) true) s

/-- TLB_WALK_COMPLETE (16_traps R324): a walk ends and installs its entry; a failed walk installs nothing. -/
def execTlbWalkComplete (spire tenant : Nat) (ctx : BitVec 16) (va : Word) (s : State) : Out :=
  event (fun s =>
    match s.tlbHit spire tenant ctx va.toNat, s.walk tenant ctx va.toNat with
    | none, (some (leaf, level), s) =>
      (s.fillTlb spire { tenant := tenant, ctx := ctx, vpage := va.toNat / State.pageSize level, leaf := leaf, level := level }).countFor tenant 57 1
    | none, (none, s) => (s.countFor tenant 57 1).countFor tenant 59 1
    | some _, _ => s) s

/-- HBM_DEMAND_ACCESS (21_memory_system R365): a read or a whole write of one beat. -/
def execHbmDemandAccess (pa : Nat) (data : Option (BitVec 256)) (s : State) : Out :=
  event (fun s =>
    let b := pa % Config.hbmSize / 32 * 32
    match data with
    | none => s.demandBeat b
    | some x => (s.writeBeat b x).countBy 41 1) s

/-- TRACKER_LEAK (21_memory_system R367): at each multiple of 16,800,000 ticks, once. -/
def execTrackerLeak (s : State) : Out :=
  event (fun s =>
    if s.hbm.leaks < s.time / 16800000 then
      let held (ch row : Nat) : Bool := match Tab.find? s.hbm.copies ch with
        | some c => c.row == row
        | none => false
      let leak (ch : Nat) (t : Tab (Nat × Nat)) : Tab (Nat × Nat) := List.filterMap (fun (x : Nat × (Nat × Nat)) =>
        if held ch x.2.1 then some x else if x.2.2 ≤ 1 then none else some (x.1, x.2.1, x.2.2 - 1)) t
      { s with hbm := { s.hbm with leaks := s.hbm.leaks + 1, track := s.hbm.track.map fun ct => (ct.1, leak ct.1 ct.2) } }
    else s) s

/-- MSPARE_COPY_END (R215). -/
def execMspareCopyEnd (channel : Nat) (s : State) : Out := event (fun s => s.spareEnd channel) s

end Sys2Proof.Machine
end

