-- ==== Sys2Proof/Machine/Switch.lean ====
section
/-!
DEFINITION. The slot table, dispatch, and the gang switch: BIND, GSWITCH, a fresh start, stopping and saving a partition,
and its resumption (07_system_isa R220, R221, 09_execution R240, R241, 14_prog_sampling R285-R287, 15_consistency R303,
16_traps R316-R321, 18_protection R337, 06_matrix_isa R189, 11_matrix_engine R264).
-/

namespace Sys2Proof.Machine

open Sys2Proof

/-! ## Bind records (R240) -/

namespace Bind
def valid (e : BitVec 512) : Bool := e.getLsbD 63
def released (e : BitVec 512) : Bool := e.getLsbD 62
/-- Whether the entry holds a binding that is not yet released. -/
def holds (e : BitVec 512) : Bool := valid e && !released e
def field (e : BitVec 512) (off lo n : Nat) : Nat := (e.extractLsb' (8 * off + lo) n).toNat
def part (e : BitVec 512) : Nat := field e 0 48 8
def tenant (e : BitVec 512) : Nat := field e 0 44 4
def lspire (e : BitVec 512) : Nat := field e 0 16 8
def regid (e : BitVec 512) : Nat := field e 0 0 16
def ctx (e : BitVec 512) : BitVec 16 := e.extractLsb' (64 + 48) 16
def rcb (e : BitVec 512) : Nat := field e 8 0 48
def pc0 (e : BitVec 512) : Word := (e.extractLsb' 128 48).setWidth 64
def chain (e : BitVec 512) : Nat := 2 ^ field e 0x18 40 2
def cps (e : BitVec 512) : Nat := min 32 (field e 0x18 32 6)
/-- Spires of the partition. -/
def need (e : BitVec 512) : Nat := (field e 0x18 24 3 + 1) * (field e 0x18 48 5 + 1)
def bcount (e : BitVec 512) : Nat := field e 0x20 16 9
def bwin (e : BitVec 512) : BitVec 16 := e.extractLsb' 256 16
def resume (e : BitVec 512) : Bool := e.getLsbD (448 + 63)
def save (e : BitVec 512) : Nat := field e 0x38 0 48

/-- A reserved bit of a record is set (R220, R240). -/
def reserved (e : BitVec 512) : Bool :=
  let z (off lo n : Nat) : Bool := field e off lo n == 0
  !(z 0 56 6 && z 0 24 20 && z 0x10 48 16 && z 0x18 53 11 && z 0x18 42 6 && z 0x18 38 2 && z 0x18 27 5 && z 0x20 25 39 && z 0x38 48 15)

/-- The record without RELEASED, which the hardware sets. -/
def written (e : BitVec 512) : BitVec 512 := e &&& ~~~((1 : BitVec 512) <<< 62)
end Bind

namespace State

def slotEntry (s : State) (sp : Nat) : BitVec 512 := Tab.get s.slotTable sp 0

/-- Mark slot-table entries RELEASED (R240). -/
def releaseSlots (s : State) (sps : List Nat) : State :=
  { s with slotTable := sps.foldl (fun t sp => Tab.put t sp (Tab.get t sp 0 ||| ((1 : BitVec 512) <<< 62))) s.slotTable }

/-- The Spires bound to a partition with a RESUME bit, by logical Spire, once all of them are bound (R241). -/
def boundSpires (s : State) (part : Nat) (resume : Bool) : Option (List Nat) :=
  let mine := (List.range 256).filter fun sp =>
    let e := s.slotEntry sp
    Bind.holds e && Bind.part e == part && Bind.resume e == resume
  match mine with
  | [] => none
  | sp :: _ =>
    let xs := (List.range (Bind.need (s.slotEntry sp))).filterMap fun ls => mine.find? fun x => Bind.lspire (s.slotEntry x) == ls
    if xs.length = Bind.need (s.slotEntry sp) then some xs else none

/-- The region that has a partition. -/
def partRegion (s : State) (part : Nat) (st : RStatus) : Option Region := s.regions.find? fun r => r.part == part && r.status == st

/-! ## Banks of a Spire -/

/-- Whether a bank of a dome belongs to a Spire. -/
def bankOf (sp : Nat) (b : Nat) : Bool := b / 128 == sp % 32

/-- Close the ordered-stream entries of a Spire's banks and empty their hold buffers (R285). -/
def closeStreams (s : State) (sp : Nat) : State :=
  let d := s.domeAt (sp / 32)
  s.setDomeAt (sp / 32) { d with streams := d.streams.filter fun x => !bankOf sp x.1, holds := d.holds.filter fun x => !bankOf sp x.1 }

/-! ## A fresh start (R241) -/

/-- The nonzero bytes of a range of HBM4E, by offset: row by row, where each is kept (21_memory_system R368). -/
def imageCells (s : State) (pa n : Nat) : List Host.Cell :=
  (List.range ((pa + n + 1023) / 1024 - pa / 1024)).flatMap fun k =>
    let lo := max pa ((pa / 1024 + k) * 1024)
    let hi := min (pa + n) ((pa / 1024 + k + 1) * 1024)
    let at_ := s.storeLoc lo
    (s.mem.filter fun c => decide (at_ ≤ c.1) && decide (c.1 < at_ + (hi - lo))).map fun c => (c.1 - at_ + (lo - pa), c.2)

/-- The nonzero bytes of a range of storage, by offset. -/
def cellsOf (s : State) (loc n : Nat) : List Host.Cell :=
  (s.mem.filter fun c => decide (loc ≤ c.1) && decide (c.1 < loc + n)).map fun c => (c.1 - loc, c.2)

/-- Write bytes by offset over a cleared range. -/
def putCells (s : State) (loc n : Nat) (cs : List Host.Cell) : State :=
  { s with mem := cs.foldl (fun m c => Mem.write m (loc + c.1) c.2) (Mem.clear s.mem loc n) }

/-- The workspace of a core at a fresh start: cleared, its arguments, w5, the spill stack, SCOPE, BWIN and CTX; the KRES
image of the tenant (R241, 18_protection R337). -/
def freshWorkspace (s : State) (c : Nat) (e : BitVec 512) (rcb : BitVec 2048) (image : List Host.Cell) (wake : Word) : State :=
  let a := wsLoc c 0
  let m := Mem.clear s.mem a 1536
  let m := (List.range 4).foldl (fun m k => Mem.store m (a + 8 * (k + 1)) 8 (Rcb.arg rcb k)) m
  let m := Mem.store m (a + 40) 8 (BitVec.ofNat 64 (Bind.rcb e))
  let m := Mem.store m (a + Ws.ssl) 8 (0x600 : Word)
  let m := Mem.store m (a + Ws.ssp) 8 (0x3000 : Word)
  let m := Mem.store m (a + Ws.bwin) 8 ((Bind.bwin e).setWidth 64)
  let m := Mem.store m (a + Ws.scope) 8 (0x003F007F00000000 : Word)
  let m := Mem.store m (a + Ws.ctx) 8 ((Bind.ctx e).setWidth 64)
  let m := Mem.store m (a + Ws.wake) 8 wake
  ({ s with mem := m } : State).putCells (wsLoc c 0x3000) 4096 image

/-- The record of a core at a fresh start (R227, R241); a core that takes no part counts as exited. -/
def freshCore (s : State) (c : Nat) (e : BitVec 512) (id ls : Nat) : Core :=
  let old := s.coreAt c
  let n := coreInSpire c
  let w := Bind.chain e
  let rec_ := s.tenantRec (Bind.tenant e)
  if n < Bind.cps e then
    { pc := Bind.pc0 e, status := .running, lcore := BitVec.ofNat 32 (Bind.cps e * ls + n), leader := BitVec.ofNat 5 (n - n % w)
      pos := BitVec.ofNat 3 (n % w), widthM1 := BitVec.ofNat 3 (w - 1), instret := old.instret, lastTime := old.lastTime
      region := id, tenant := Bind.tenant e, kres := 0x40003000, gatetab := rec_.extractLsb' 64 64
      tvec := rec_.extractLsb' (8 * 0x20) 64 }
  else { leader := BitVec.ofNat 5 n, status := .exited, lcore := 0xFFFFFFFF, instret := old.instret, lastTime := old.lastTime, region := id, tenant := Bind.tenant e }

/-- Take the mailbox word of a logical core, with what a WAIT on its bits acquires: it is cleared; 0 when there is none (R241,
15_consistency R302). -/
def takeMailbox (s : State) (r : Region) (lc : Nat) : Word × List (Word × Nat) × State :=
  match s.mailbox r lc with
  | some (p, t) =>
    let t := t.ctxFetch p 0 8
    let w : Word := t.peek 64 p.loc 8
    (w, if w = 0 then [] else [(w, Tab.get r.mailTs lc 0)], (t.ctxWrite p 0 0).onRegion r.id fun g => { g with mailTs := Tab.del g.mailTs lc })
  | none => (0, [], s)

/-- Start one core. -/
def startCore (s : State) (r : Region) (e : BitVec 512) (image : List Host.Cell) (ls c : Nat) : State :=
  let k := s.freshCore c e r.id ls
  if k.status = .running then
    let w := s.takeMailbox r k.lcore.toNat
    (w.2.2.freshWorkspace c e r.rcb image w.1).setCoreAt c { k with wakeTs := w.2.1, mcDue := r.mcDue }
  else s.setCoreAt c k

/-- Start one Spire: its Graver and copy contexts are cleared, its streams closed, its cores set up. -/
def startSpire (s : State) (r : Region) (image : List Host.Cell) (ls sp : Nat) : State :=
  let e := s.slotEntry sp
  let x := s.spireAt sp
  let s := (s.setSpireAt sp { x with graver := {}, copyCtx := List.replicate 16 {}, port := [], deficit := List.replicate 32 0, visit := 0, visit0 := 0
                                     part := some (Bind.part e) }).closeStreams sp
  let s := s.dropBstats fun c => spireOf c == sp
  (List.range 32).foldl (fun (s : State) n => s.startCore r e image ls (sp * 32 + n)) s

/-- The barrier objects granted to the partition of a Spire: their dome, the first, and whether an object is one of them. -/
def grantedObjects (s : State) (sp0 : Nat) : Nat × Nat × (Nat × Nat → Bool) :=
  let e := s.slotEntry sp0
  let d := routeDome e ((Bind.bwin e).extractLsb' 13 3).toNat
  let base := ((Bind.bwin e).extractLsb' 0 13).toNat
  (d, base, fun x => x.1 == d && decide (base ≤ x.2) && decide (x.2 < base + Bind.bcount e))

/-- Give the barrier objects granted to a partition a state (08_prog_discovery R224): nothing that reached them before is evaluated
any more. -/
def setBarriers (s : State) (sp0 : Nat) (f : Nat → BObj) : State :=
  let g := s.grantedObjects sp0
  let s : State := { s with evals := s.evals.filter fun x => !g.2.2 x }
  (List.range (Bind.bcount (s.slotEntry sp0))).foldl (fun (s : State) k => s.setBarrier g.1 (g.2.1 + k) (f (g.2.1 + k))) s

/-- The region of a partition bound without an admission of the model: its entry gives what the record says, and memory
its RCB. -/
def adopt (s : State) (e : BitVec 512) (sps : List Nat) : Option (Region × State) :=
  if s.regions.any fun r => r.part == Bind.part e && holdsSpires r then none
  else (s.readRcb (Bind.tenant e) (Bind.ctx e) (Bind.rcb e)).map fun (_, own, s) =>
    let r : Region := { id := Bind.regid e, tenant := Bind.tenant e, prio := min 11 (Rcb.prio own), fifo := min 11 (Rcb.prio own)
                        rcbAddr := Bind.rcb e, ctx := Bind.ctx e, rcb := own, status := .placed, root := true, part := Bind.part e
                        spires := sps, level := Rcb.prio own, levelBefore := Rcb.prio own, placedSeq := s.seqNext }
    (r, { s.settleVtime with regions := s.regions.filter (fun x => x.id != r.id) ++ [r], seqNext := s.seqNext + 1 })

/-- A region in the Belfry's queue that an entry names: a BIND by a program of a Belfry core binds it (R220). -/
def queuedRegion (s : State) (e : BitVec 512) (st : RStatus) : Option Region :=
  s.regions.find? fun r => r.status == st && r.tenant == Bind.tenant e && r.id % 65536 == Bind.regid e

/-! ## Owed flushes (R245) -/

/-- Write back the dirty lines that a region wrote in a Spire. -/
def flushRegion (s : State) (sp r : Nat) : State :=
  let dirty := (s.spireAt sp).lines.filter fun (l : Nat × CLine) => l.2.owned && l.2.home.isSome && l.2.writers.contains r
  dirty.foldl (fun (s : State) l => s.writeToSlice sp l.1) s

/-- Write back the dirty lines that a region wrote, in every Spire its partition has had. -/
def flushEverywhere (s : State) (r : Nat) : State := (s.spires.map (·.1)).foldl (fun (s : State) sp => s.flushRegion sp r) s

/-- Perform the owed flushes of retired regions. -/
def flushOwed (s : State) (rs : List Nat) : State :=
  let s := rs.foldl flushEverywhere s
  { s with spires := s.spires.map fun px => (px.1, { px.2 with owed := px.2.owed.filter fun r => !rs.contains r }) }

/-- The retired regions that owe a flush on the given Spires. -/
def owedOn (s : State) (sps : List Nat) : List Nat := (sps.flatMap fun sp => (s.spireAt sp).owed).eraseDups

/-- The regions of a successor chain from one back to its first (R245). -/
def chainBack (s : State) : Nat → Option Nat → List Nat
  | n + 1, some r => r :: chainBack s n ((s.region? r).bind (·.successorOf))
  | _, _ => []

/-- What the chain of a region still owes is flushed: the chain ends with a successor that is refused, or killed before it ran. -/
def flushChain (s : State) (before : Option Nat) : State :=
  let owed := s.owedOn (s.spires.map (·.1))
  match (s.chainBack s.regions.length before).filter owed.contains with
  | [] => s
  | due => s.flushOwed due

/-! ## Flushes at placement (R245) -/

/-- Whether two lists hold the same numbers. -/
def sameSet (xs ys : List Nat) : Bool := xs.all ys.contains && ys.all xs.contains

/-- Before a region is bound to Spires: a successor on exactly the Spires of its predecessor inherits their owed flush;
otherwise the flushes owed there, and those of its chain wherever they are owed, are performed (R245). -/
def settleFlush (s : State) (r : Region) (sps : List Nat) : State :=
  let pre := match r.successorOf with
    | some p => s.regionSpires p
    | none => []
  if r.status = .waiting ∧ r.successorOf.isSome = true ∧ sameSet pre sps = true then s.countFor r.tenant 30 1
  else
    let own := if r.status = .waiting then
        (s.chainBack s.regions.length r.successorOf).filter (s.owedOn (s.spires.map (·.1))).contains
      else []
    let due := (s.owedOn (sps ++ (if r.status = .waiting then pre else [])) ++ own).eraseDups
    if due.isEmpty then s else (s.flushOwed due).countFor r.tenant 29 due.length

/-- A BIND of a Spire performs the flush owed there (R245), but for one of a successor on a Spire of its predecessor, which shows at its
dispatch. -/
def bindFlush (s : State) (e : BitVec 512) (sp : Nat) : State :=
  let kept := match (s.queuedRegion e .waiting).bind (·.successorOf) with
    | some p => (s.regionSpires p).contains sp
    | none => false
  match s.owedOn [sp] with
  | [] => s
  | due => if kept then s else (s.flushOwed due).countFor (Bind.tenant e) 29 due.length

/-- The region of a partition that is bound and not started; of one that a Belfry program has bound, the flushes owed are performed
before its dispatch (R245). -/
def placedRegion (s : State) (part : Nat) (sps : List Nat) : Option (Region × State) :=
  let e := s.slotEntry (sps.headD 0)
  match s.partRegion part .placed with
  | some r => some (r, s.settleVtime)
  | none => match s.queuedRegion e .waiting with
    | some r => some (r, (s.settleFlush r sps).settleVtime)
    | none => (s.adopt e sps).map fun x => (x.1, x.2.settleFlush x.1 sps)

/-- The word 0x90 of an RCB: the tick at which the first core issued (R229). -/
def writeStart (s : State) (r : Region) : State :=
  match s.ctxPlace r.tenant r.ctx r.rcbAddr with
  | some (p, s) => s.ctxWrite p 0x90 (BitVec.ofNat 64 (s.time % 2 ^ 48))
  | none => s

/-- Instructions retired by the cores of a region's Spires. -/
def instsOf (s : State) (r : Region) : Nat :=
  r.spires.foldl (fun n sp => (List.range 32).foldl (fun n k => n + (s.coreAt (sp * 32 + k)).instret.toNat) n) 0

/-- The progress counter of a region's watchdog (R247): COUNTER of its queue's configuration. -/
def wdcfg (s : State) (tenant n : Nat) : Word := (s.tenantRec tenant).extractLsb' (8 * (0x30 + 8 * n)) 64
def progress (s : State) (r : Region) : Nat :=
  match ((s.wdcfg r.tenant r.fifo).extractLsb' 56 2).toNat with
  | 0 => s.instsOf r
  | 1 => r.prog
  | _ => r.progBytes

/-- A region runs from now on: its watchdog's counter restarts (R247). -/
def nowRunning (s : State) (id : Nat) : State :=
  s.onRegion id fun r => { r with status := .running, runFrom := s.time, progBase := s.progress r, progFrom := r.runTicks }

/-- Dispatch carries out a fresh start (R241). -/
def freshStart (s : State) (part : Nat) : State :=
  match s.boundSpires part false with
  | none => s
  | some sps =>
    match s.placedRegion part sps with
    | none => s
    | some (r, s) =>
      let img := ((s.tenantRec r.tenant).extractLsb' (8 * 0x28) 44).toNat
      let image := s.imageCells img 4096
      let s := s.setBarriers (sps.headD 0) fun _ => {}
      let s := sps.zipIdx.foldl (fun (s : State) x => s.startSpire r image x.2 x.1) s
      let s := (s.onRegion r.id fun g => { g with start := s.time, begun := true, spires := sps, part := part }).nowRunning r.id
      (s.writeStart r).traceRec 3 r.tenant r.level r.id 0xFFFFFFFF (BitVec.ofNat 64 (sps.headD 0))

/-! ## Arming (R221) -/

/-- Arm a gang switch of a partition at the agreed time max(T, TIME + 2,000); none when it is armed already. -/
def armSwitch (s : State) (part t : Nat) : Option (Nat × State) :=
  match Tab.find? s.armed part with
  | some _ => none
  | none =>
    let at_ := max t (s.time + 2000)
    some (at_, { s with armed := Tab.put s.armed part at_ })

/-- Arm the switch of a running region at the earliest agreed time. -/
def armRegion (s : State) (r : Region) : State :=
  match s.armSwitch r.part s.time with
  | some (_, s) => s
  | none => s

/-! ## YIELD (07_system_isa R197) -/

/-- Whether a core is in YIELD. -/
def inYield (s : State) (c : Nat) : Bool := (s.coreAt c).status == .waiting .yield

/-- Whether the partition of a region has offered an early switch: every core that has not exited is WAITING (R243), one in
YIELD. -/
def offersSwitch (s : State) (r : Region) : Bool :=
  let cs := r.spires.flatMap fun sp => (List.range 32).map fun n => sp * 32 + n
  (cs.all fun c => match (s.coreAt c).status with
    | .exited | .notPlaced => true
    | .waiting w => listed w
    | _ => false) && cs.any s.inYield

/-- Gang-switch the partitions that a YIELD offers: a waiting region needed them when the YIELD began to wait, and they are not looked
at again. -/
def armYields (s : State) : State :=
  (s.regions.filter fun r => r.status == .running && Rcb.preempt r.rcb && (s.armedAt r).isNone && s.offersSwitch r).foldl
    (fun (s : State) r => s.armRegion r) s

/-! ## Stopping and saving (R316-R319) -/

/-- A core in MMOV or TFACT whose operation has not started: the operation is withdrawn and its number counts as completed
(06_matrix_isa R189). -/
def withdrawOps (s : State) (sp : Nat) : State :=
  (List.range 4).foldl (fun (s : State) q =>
    (nth (s.graverAt sp).ctx q {}).queue.foldl (fun (s : State) e =>
      let k := s.coreAt e.core
      match k.status with
      | .waiting (.graverOp sp' q' n) =>
        if !e.started && sp' == sp && q' == q && n == e.num && k.gop == some n then
          (s.completeOp sp q e).setCoreAt e.core { k with gop := none, gres := none }
        else s
      | _ => s) s) s

/-- Whether a core has stopped: it has exited, or it is inside no instruction (R316). -/
def coreStopped (s : State) (c : Nat) : Bool :=
  match (s.coreAt c).status with
  | .exited | .notPlaced => true
  | _ => ({ s with cur := c } : State).outside

/-- Whether a Graver has stopped: what has started is a TGEMM between two k-steps (06_matrix_isa R189). -/
def graverStopped (s : State) (sp : Nat) : Bool :=
  (s.graverAt sp).ctx.all fun c => c.queue.all fun e => !e.started || (e.isGemm && e.tilesLeft)

/-- Whether a copy has a side in the banks (R317). -/
def copyTouches (sps : List Nat) (op : CopyOp) : Bool :=
  let side (va : Word) (obj : Option Nat) : Bool :=
    if obj.isSome then false
    else match domeView (domeOf op.core) va.toNat with
      | some v => (viewWords v op.len).any (inBanks sps)
      | none => false
  side op.src op.srcObj || side op.dst op.dstObj

/-- Every copy of the device that has not completed. -/
def allCopies (s : State) : List CopyOp :=
  (s.domes.flatMap fun (dd : Nat × Dome) => dd.2.streamer.active ++ dd.2.streamer.queue) ++
    (s.slices.flatMap fun (dd : Nat × Slice) => dd.2.streamer.active ++ dd.2.streamer.queue) ++
    s.spires.flatMap fun (px : Nat × Spire) => px.2.retries.map (·.op)

/-- Whether no released ordered operation waits for a grant in the banks of a Spire (R286). -/
def holdsSettled (s : State) (sp : Nat) : Bool :=
  (s.domeAt (sp / 32)).holds.all fun bh => !bankOf sp bh.1 || bh.2.all fun h => !h.ready

/-- Whether every core and engine of a partition has stopped (R316). -/
def allStopped (s : State) (r : Region) : Bool :=
  r.spires.all fun sp => (List.range 32).all (fun n => s.coreStopped (sp * 32 + n)) && s.graverStopped sp

/-- Whether everything that must end before the save has ended (R316, R317, R286). -/
def switchReady (s : State) (r : Region) : Bool :=
  s.allStopped r && (r.spires.all fun sp => s.holdsSettled sp && (s.spireAt sp).port.all fun q => !(q.pkt.region == r.id && toBanks r.spires q.pkt)) &&
    (s.packets.all fun p => !(p.region == r.id && toBanks r.spires p)) &&
    s.allCopies.all fun op => !(op.region == r.id && copyTouches r.spires op)

/-- A TGEMM stopped between two k-steps: it is queued again, to restart its tile (06_matrix_isa R184, 11_matrix_engine
R264). -/
def stopGemm (e : GEntry) : GEntry := if e.started && e.isGemm then { e with started := false, ksteps := e.ksteps - e.tk, tk := 0, got := [], bad := [] } else e

/-- The resume word of a context after the switch. -/
def stopCtx (c : QCtx) : QCtx :=
  { c with
    resume := match c.queue.find? fun e => e.started && e.isGemm with
      | some e => resumeWord e true
      | none => c.resume
    queue := c.queue.map stopGemm }

/-- Whether a wait that a gang switch ends is that of an instruction abandoned in it (09_execution R243, 05_memory_isa R164): an EXIT
that waited for its journal (R321), an MMOV or a TFACT that was withdrawn (06_matrix_isa R189) and one that the switch itself
holds up (assumption log 85) are such; a matrix instruction the port has not accepted has not issued (06_matrix_isa R167). -/
def abandoned : WaitCond → Bool
  | .queue _ _ _ => false
  | _ => true

/-- STATE of a core record (R319). -/
def recordState (k : Core) : Nat :=
  match k.status with
  | .exited => 2
  | .notPlaced => 3
  | .waiting w => if abandoned w then 1 else 0
  | _ => 0

/-- The phase that the BSYNC or RECHAIN a core waits in returned with its arrival (05_memory_isa R164); a BWAIT has none. -/
def abandonedPhase (k : Core) : Option Bool :=
  let own : Option Bool := (k.bsync.find? fun a => a.wp == k.wp && a.pc == k.pc).map (·.phase)
  match k.status with
  | .waiting (.barrier _ _ _) => own
  | .waiting (.rechain _ _ _) => own
  | _ => none

/-- The WATCHDOG trap due at the resumption of a region (09_execution R247): queue and COUNTER. -/
def watchdogValue (s : State) (r : Region) : Option Word :=
  if r.wdTrap then some (BitVec.ofNat 64 (r.fifo + ((s.wdcfg r.tenant r.fifo).extractLsb' 56 2).toNat * 256)) else none

/-- A core record, 128 words (R319): logical time is never below that of the tick (15_consistency R291), and the WATCHDOG of a forced
switch is due to logical core 0 (09_execution R247). -/
def coreRecord (s : State) (wd : Option Word) (k : Core) : List Word :=
  [BitVec.ofNat 64 (max k.lt (4 * s.time)), BitVec.ofNat 64 (recordState k * 2 ^ 62),
    match abandonedPhase k with
    | some ph => BitVec.ofNat 64 (2 ^ 63 + ph.toNat)
    | none => 0,
    dueWord (if k.lcore = 0 then { k with wdDue := k.wdDue.or wd } else k)] ++ List.replicate 4 0 ++ journalRecord k ++ List.replicate 8 0 ++ tokenRecord k ++ List.replicate 32 0

/-- A core as the switch saves it: it has left its instruction; a YIELD is answered (07_system_isa R197). -/
def switchedCore (k : Core) : Core :=
  match k.status with
  | .exited | .notPlaced => k
  | .waiting .yield => { k with status := .switchedOut, yielded := true, holdUntil := 0 }
  | _ => { k with status := .switchedOut, holdUntil := 0 }

/-- Write SAVED_PC of the live workspace of a core that has not exited (R316): in a repetition the next body instruction
(02_scalar R79). -/
def writeSavedPc (s : State) (c : Nat) : State :=
  let k := s.coreAt c
  match k.status with
  | .exited | .notPlaced => s
  | _ => { s with mem := Mem.store s.mem (wsLoc c (k.wp.toNat + Ws.savedPc)) 8 ({ s with cur := c } : State).boundaryPc }

/-- The messages of a core that leave the mesh (R318), and those of its Spire port behind them. -/
def drainedOf (s : State) (r : Nat) (sp : Nat) : List Packet :=
  (s.packets.filter fun p => p.region == r && spireOf p.src == sp) ++ ((s.spireAt sp).port.map (·.pkt)).filter fun p => p.region == r

/-- The entries of a table that belong to the banks of a Spire, by bank within the Spire. -/
def bankTab {α : Type} (sp : Nat) (t : Tab α) : List (Nat × α) := (t.filter fun x => bankOf sp x.1).map fun x => (x.1 % 128, x.2)

/-- The saved image of a Spire (R319); the banks only when the region has dome memory or barrier objects (R287). -/
def imageOf (s : State) (r : Region) (sp : Nat) (banks : Bool) : SavedSpire :=
  let x := s.spireAt sp
  let d := s.domeAt (sp / 32)
  let b := bankBase sp
  let own (loc : Nat) : Bool := inBanks [sp] loc
  { cores := (List.range 32).map fun n => switchedCore (s.coreAt (sp * 32 + n))
    graver := { x.graver with ctx := x.graver.ctx.map stopCtx }
    copyCtx := x.copyCtx, deficit := x.deficit, visit := x.visit, visit0 := x.visit0
    wsm := s.cellsOf (wsLoc (sp * 32) 0) (32 * 16384)
    banks := if banks then s.cellsOf b (2 ^ 18) else []
    bclk := bankTab sp d.bclk
    streams := if banks then (bankTab sp d.streams).map fun x => (x.1, x.2.map fun e => (e.1 - b, e.2)) else []
    holds := if banks then (bankTab sp d.holds).map fun x => (x.1, x.2.map fun h => { h with loc := h.loc - b }) else []
    chan := if banks then (d.chan.filter fun x => own x.1).map fun x => (x.1 - b, x.2) else []
    poison := if banks then (s.poison.filter fun (x : Nat × Unit) => own x.1).map fun (x : Nat × Unit) => x.1 - b else []
    drained := s.drainedOf r.id sp }

/-- Whether a partition's bank words and barrier objects are saved (R287). -/
def keepsBanks (r : Region) : Bool := Rcb.dmem r.rcb != 0 || Rcb.bcount r.rcb != 0

/-- A physical core that its partition has left. -/
def leftCore (s : State) (c : Nat) : Core :=
  let k := s.coreAt c
  { Core.init c with instret := k.instret, lastTime := k.lastTime }

/-- A Spire that its partition has left: copies its port presents again go on (R317). -/
def leftSpire (x : Spire) : Spire :=
  { x with graver := {}, copyCtx := List.replicate 16 {}, port := [], deficit := List.replicate 32 0, visit := 0, visit0 := 0, part := none }

/-- The barrier objects of a partition, by number. -/
def savedBarriers (s : State) (sp0 : Nat) : List (Nat × BObj) :=
  let g := s.grantedObjects sp0
  (List.range (Bind.bcount (s.slotEntry sp0))).map fun k => (g.2.1 + k, s.barrierAt g.1 (g.2.1 + k))

/-- Write the header and the core records of a save area (R319). -/
def writeSaveArea (s : State) (r : Region) (agreed : Nat) : State :=
  let a := Bind.save (s.slotEntry (r.spires.headD 0))
  let s := s.putWords a ([BitVec.ofNat 64 agreed, BitVec.ofNat 64 (r.stoppedAt.getD s.time)] ++ List.replicate 6 0)
  r.spires.zipIdx.foldl (fun (s : State) x =>
    (List.range 32).foldl (fun (s : State) n =>
      s.putWords (recordAt a x.2 n) (s.coreRecord (s.watchdogValue r) (s.coreAt (x.1 * 32 + n)))) s) s

/-- Save a stopped partition and release its Spires (R316-R319, R240, R236). What the present core cycle has brought to its barrier
objects is evaluated first (13_dome_memory R281). -/
def saveOut (s : State) (r : Region) (agreed : Nat) : State :=
  let keep := keepsBanks r
  let s := s.settleObjects (s.grantedObjects (r.spires.headD 0)).2.2
  let s := r.spires.foldl (fun (s : State) sp => (List.range 32).foldl (fun (s : State) n => (s.writeSavedPc (sp * 32 + n)).withdraw (sp * 32 + n)) s) s
  let images := r.spires.map fun sp => s.imageOf r sp keep
  let v : Saved := { part := r.part, region := r.id, tick := s.time, save := Bind.save (s.slotEntry (r.spires.headD 0)), spires := images
                     barriers := if keep then s.savedBarriers (r.spires.headD 0) else [] }
  let n := (images.map fun x => x.drained.length).sum
  let s := (s.writeSaveArea r agreed).countFor r.tenant 51 n
  let s : State := { s with packets := s.packets.filter fun p => p.region != r.id }
  let s := r.spires.foldl (fun (s : State) sp =>
    let s := s.setSpireAt sp (leftSpire (s.spireAt sp))
    let s := if keep then s.closeStreams sp else s
    (List.range 32).foldl (fun (s : State) n => s.setCoreAt (sp * 32 + n) (s.leftCore (sp * 32 + n))) s) s
  let s := (s.settleVtime.releaseSlots r.spires).onRegion r.id fun g =>
    { g with status := .switched, level := g.levelBefore, waitFrom := s.time, runTicks := g.runTicks + (s.time - g.runFrom), wdForced := false
             stoppedAt := none }
  let s : State := { s with saved := s.saved ++ [v], armed := Tab.del s.armed r.part }
  (s.countFor r.tenant 68 1).traceRec 4 r.tenant r.level r.id 0xFFFFFFFF 0

/-- As a turn ends, partitions whose cores offer an early switch are armed (07_system_isa R197), and the tick at which the last core
and engine of a partition stopped is noted (R319). -/
def noteStops (s : State) : State :=
  let s := s.armYields
  if s.armed.all fun x => decide (s.time < x.2) then s
  else { s with regions := s.regions.map fun r =>
    match Tab.find? s.armed r.part with
    | some t =>
      if r.status = .running ∧ t ≤ s.time ∧ r.stoppedAt.isNone = true ∧
          (r.spires.foldl (fun (s : State) sp => s.withdrawOps sp) s).allStopped r = true then { r with stoppedAt := some s.time } else r
    | none => r }

/-- The gang switch of a partition, once its agreed time has come and all has stopped (R316). -/
def switchOut (s : State) (part : Nat) : State :=
  match s.partRegion part .running, Tab.find? s.armed part with
  | some r, some t =>
    if t ≤ s.time then
      let s' := r.spires.foldl (fun (s : State) sp => s.withdrawOps sp) s
      if s'.switchReady r then s'.saveOut r t else s
    else s
  | _, _ => s

/-! ## Resumption (R320, R287, R303) -/

/-- The timestamps of an engine restored to another place: its operations age from now. -/
def restoredGraver (s : State) (sp : Nat) (g : Graver) : Graver :=
  { g with
    stall := 0, stallFrom := none, busyTo := 0, acceptAt := none, startAt := none
    ctx := g.ctx.map fun c => { c with queue := c.queue.map fun e => { e with core := sp * 32 + e.core % 32, since := s.domeClock (sp / 32) } } }

/-- The record of a core that is resumed (R303, R320). -/
def resumedCore (s : State) (c : Nat) (k : Core) (wd : Option Word) : Core :=
  let old := s.coreAt c
  match k.status with
  | .exited | .notPlaced => { k with instret := old.instret, lastTime := old.lastTime }
  | _ => { k with status := .running, pc := Mem.load s.mem 64 (wsLoc c (k.wp.toNat + Ws.savedPc)) 8, lt := max k.lt (4 * s.time)
                  instret := old.instret, lastTime := max k.lastTime old.lastTime, holdUntil := 0
                  wdDue := if k.lcore = 0 then wd.or k.wdDue else k.wdDue }

/-- Restore one Spire of a partition. -/
def restoreSpire (s : State) (keep : Bool) (wd : Option Word) (sp : Nat) (v : SavedSpire) : State :=
  let b := bankBase sp
  let s := s.putCells (wsLoc (sp * 32) 0) (32 * 16384) v.wsm
  let x := s.spireAt sp
  let e := s.slotEntry sp
  let s := (s.setSpireAt sp { x with graver := s.restoredGraver sp v.graver, copyCtx := v.copyCtx, deficit := v.deficit, visit := v.visit, visit0 := v.visit0
                                     port := [], part := some (Bind.part e) }).closeStreams sp
  let s := v.cores.zipIdx.foldl (fun (s : State) k => s.setCoreAt (sp * 32 + k.2) (s.resumedCore (sp * 32 + k.2) k.1 wd)) s
  let s : State := { s with packets := s.packets ++ v.drained.map fun p => { p with src := sp * 32 + p.src % 32 } }
  if keep then
    let s := s.putCells b (2 ^ 18) v.banks
    let d := s.domeAt (sp / 32)
    let bank (n : Nat) : Nat := sp % 32 * 128 + n
    let d := { d with
      bclk := v.bclk.foldl (fun t x => Tab.put t (bank x.1) (max x.2 (Tab.get t (bank x.1) 0))) d.bclk
      streams := v.streams.foldl (fun t x => Tab.put t (bank x.1) (x.2.map fun e => (e.1 + b, e.2))) d.streams
      holds := v.holds.foldl (fun t x => Tab.put t (bank x.1) (x.2.map fun h => { h with loc := h.loc + b })) d.holds
      chan := v.chan.foldl (fun t x => Tab.put t (x.1 + b) x.2) (d.chan.filter fun x => !inBanks [sp] x.1) }
    { s.setDomeAt (sp / 32) d with
      poison := v.poison.foldl (fun t a => Tab.put t (a + b) ()) (s.poison.filter fun (x : Nat × Unit) => !inBanks [sp] x.1) }
  else s

/-- Dispatch resumes a partition (R320). -/
def resumePart (s : State) (part : Nat) : State :=
  match s.boundSpires part true with
  | none => s
  | some sps => match (s.partRegion part .placed).or (s.queuedRegion (s.slotEntry (sps.headD 0)) .switched) with
  | none => s
  | some r => match s.savedOf r.id with
    | none => s
    | some v =>
      let s := s.settleVtime
      let keep := keepsBanks r
      let wd := s.watchdogValue r
      let s := (sps.zip v.spires).foldl (fun (s : State) x => s.restoreSpire keep wd x.1 x.2) s
      let s := if keep then s.setBarriers (sps.headD 0) fun n => ((v.barriers.find? fun (x : Nat × BObj) => x.1 == n).map (·.2)).getD {} else s
      let s : State := { s with saved := s.saved.filter fun (x : Saved) => x.region != r.id }
      let s := (s.onRegion r.id fun g => { g with spires := sps, part := part, wdTrap := false }).nowRunning r.id
      s.traceRec 5 r.tenant r.level r.id 0xFFFFFFFF (BitVec.ofNat 64 (sps.headD 0))

end State

/-! ## Meanings -/

/-- BIND (R220): the record is read at w[B]; the first answer that applies is given. -/
def execBind (g : Guard) (d a b : SReg) (s : State) : Out :=
  instr (.bind g d a b) g (fun s =>
    let va := s.reg b
    let n := (s.reg a).toNat % 256
    (State.aligned va 8).run s fun _ =>
      (s.loadElems ((List.range 8).map fun k => { va := va + BitVec.ofNat 64 (8 * k), n := 8 })).run s fun (ws, s) =>
        let e : BitVec 512 := BitVec.ofNat 512 (ws.zipIdx.foldl (fun n x => n + x.1.toNat * 2 ^ (64 * x.2)) 0)
        if Bind.holds (s.slotEntry n) then .done (s.setReg d 1)
        else if Bind.reserved e then .done (s.setReg d 2)
        else
          let s := s.bindFlush e n
          .done (({ s with slotTable := Tab.put s.slotTable n (Bind.written e) } : State).setReg d 0)) s

/-- GSWITCH with op 0 (R221): the cancel reaches every core at once; it is too late from the agreed time on. -/
def execGswitchCancel (g : Guard) (d a b : SReg) (s : State) : Out :=
  instr (.gswitchCancel g d a b) g (fun s =>
    let p := (s.reg a).toNat % 256
    match Tab.find? s.armed p with
    | some t =>
      if s.time < t then .done (({ s with armed := Tab.del s.armed p } : State).setReg d 0)
      else .done (s.setReg d 0xFFFFFFFFFFFFFFFF)
    | none => .done (s.setReg d 0)) s

/-- GSWITCH with op 1 (R221). -/
def execGswitchArm (g : Guard) (d a b : SReg) (s : State) : Out :=
  instr (.gswitchArm g d a b) g (fun s =>
    match s.armSwitch ((s.reg a).toNat % 256) (s.reg b).toNat with
    | some (t, s) => .done (s.setReg d (BitVec.ofNat 64 t))
    | none => .done (s.setReg d 0xFFFFFFFFFFFFFFFF)) s

/-- DISPATCH_FRESH_START (R241). -/
def execDispatchFreshStart (part : Nat) (s : State) : Out := event (fun s => s.freshStart part) s

/-- PARTITION_RESUME (R320). -/
def execPartitionResume (part : Nat) (s : State) : Out := event (fun s => s.resumePart part) s

/-- GANG_SWITCH (R316). -/
def execGangSwitch (part : Nat) (s : State) : Out := event (fun s => s.switchOut part) s

end Sys2Proof.Machine
end

