-- ==== Sys2Proof/Machine/Management.lean ====
section
/-!
DEFINITION. The management block: semaphores, the Belfry mailbox with SETSHARE, SETWDCFG, the trace commands and ATTEST
(22_host_compat R375-R377, R382, R385).
-/

namespace Sys2Proof.Machine

open Sys2Proof

/-! ## Semaphores (R375, R376) -/

namespace Sem
def held (w : Word) : Bool := w.getLsbD 63
def owner (w : Word) : Bool := w.getLsbD 62
/-- The word after a successful test-and-set by a port. -/
def taken (w : Word) (port : Bool) : Word := BitVec.ofBool true ++ BitVec.ofBool port ++ (0 : BitVec 30) ++ (w.setWidth 32 + 1)
/-- The word after a release. -/
def free (w : Word) : Word := (w.setWidth 32).setWidth 64
end Sem

namespace State

/-- BAR0 is open: after bring-up, or after a configuration block was not accepted (R379, R380). -/
def barOpen (s : State) : Bool := s.boot == .up || s.boot == .degraded

/-- Return bytes to a host port. -/
def reply (s : State) (port : Bool) (bs : List Byte) : State := { s with replies := s.replies ++ [(port, bs)] }

/-- One read of TAKE by a port. -/
def take1 (s : State) (port : Bool) (n : Nat) : State :=
  let w := Tab.get s.semaphores n 0
  let s := s.reply port (toBytes 8 (if Sem.held w then w else Sem.free w))
  if Sem.held w then s else { s with semaphores := Tab.put s.semaphores n (Sem.taken w port) }

/-- A write to TAKE: a release by the owner; any other write counts in counter 77. -/
def semWrite (s : State) (port : Bool) (n : Nat) (v : Word) : State :=
  if s.barOpen = false ∨ 64 ≤ n then s
  else
    let w := Tab.get s.semaphores n 0
    if v.getLsbD 63 = false ∧ Sem.held w = true ∧ Sem.owner w = port then { s with semaphores := Tab.put s.semaphores n (Sem.free w) }
    else s.countFor (portTenant port) 77 1

/-- One access of a port to a semaphore (R375). -/
def semAccess (s : State) (port : Bool) (n : Nat) (a : SemAccess) : State :=
  match a with
  | .take => s.take1 port n
  | .peek =>
    let w := Tab.get s.semaphores n 0
    s.reply port (toBytes 8 (if Sem.held w then w else Sem.free w))
  | .write v => s.semWrite port n v

/-- Accesses of ports A and B that reach a semaphore in one mesh cycle: the port that lost the last such tie goes first (R376). -/
def semTie (s : State) (n : Nat) (a b : SemAccess) : State :=
  if s.barOpen = false ∨ 64 ≤ n then s
  else
    let first := !s.lastTie
    let of (port : Bool) : SemAccess := if port then b else a
    { (s.semAccess first n (of first)).semAccess (!first) n (of (!first)) with lastTie := first }

/-- A read of TAKE; with a tie both ports read in one mesh cycle. -/
def semTake (s : State) (port : Bool) (n : Nat) (tie : Bool) : State :=
  if s.barOpen = false ∨ 64 ≤ n then s else if tie then s.semTie n .take .take else s.take1 port n

/-- A Function Level Reset of a port (R372, R375). -/
def portReset (s : State) (port : Bool) : State :=
  { s with semaphores := s.semaphores.map fun nw => if Sem.held nw.2 && Sem.owner nw.2 == port then (nw.1, Sem.free nw.2) else nw }

/-! ## The Belfry mailbox (R377) -/

/-- Whether a port holds semaphore 0. -/
def holdsZero (s : State) (port : Bool) : Bool :=
  let w := Tab.get s.semaphores 0 0
  s.barOpen && Sem.held w && Sem.owner w == port

/-- The Belfry accepts a command of the holder of semaphore 0, and carries it out at its next admission decision. -/
def command (s : State) (port : Bool) (c : Command) : State := if s.holdsZero port then { s with commands := s.commands ++ [c] } else s

/-- Put a field of a tenant record. -/
def setRecord (s : State) (t lo n : Nat) (x : Nat) : State :=
  { s with tenants := Tab.put s.tenants t ((s.tenantRec t &&& ~~~(Rcb.ones lo n)) ||| BitVec.ofNat 2048 (x % 2 ^ n * 2 ^ lo)) }

/-- SETSHARE (R237): SHARE is 1 to 255. -/
def putShare (s : State) (t : Nat) (share : BitVec 8) : State :=
  if 16 ≤ t ∨ share = 0 then s else s.settleVtime.setRecord t 48 8 share.toNat

/-- SETWDCFG (R247): reserved bits stay 0. -/
def putWdcfg (s : State) (t n : Nat) (v : Word) : State :=
  if 16 ≤ t ∨ 11 < n then s else s.setRecord t (8 * (0x30 + 8 * n)) 64 (v &&& 0x83FFFFFFFFFFFFFF).toNat

/-- The trace commands (R382): a buffer of 2^log2 records in system memory, whose header starts with its counts zero (assumption log
45); one that does not lie there is not enabled. -/
def traceControl (s : State) (enable : Bool) (base log2 : Nat) : State :=
  if enable then
    if 10 ≤ log2 ∧ log2 ≤ 20 ∧ State.traceFits base log2 = true then
      (({ s with trace := { on := true, base := base, log2 := log2 } } : State).poke (base + 8) 8 (0 : Word)).traceHeader
    else s
  else { s with trace := { s.trace with on := false } }

/-- The state of the bad-page list in a report: valid or discarded, and its count. -/
def badListReport (s : State) : List Byte := (if s.badListOk then 1 else 0) :: toBytes 8 (BitVec.ofNat 64 s.badPages.length)

/-- Whether an object's measurement is in the report of a port: one of its tenants', or a Keep's (R385). -/
def reported (s : State) (port : Bool) (o : CodeObj) : Bool := o.keep != 0 || (s.tenantRec o.tenant).getLsbD 62 == port

/-- The attestation report (R385), with what R379 and R380 add to it: a configuration block not accepted, and the Keep
images that PUBLISH rejected. -/
def attestReport (s : State) (port : Bool) (nonce : BitVec 256) : List Byte :=
  let c := s.config
  let body := toBytes 32 nonce ++ Config.bootMeasurements ++ toBytes 32 (Config.blockMeasurement c.signed c.signature) ++
    Sha.digest c.ownerKey ++ s.badListReport ++ ((s.objects.filter (s.reported port)).flatMap fun o => toBytes 32 o.hash) ++
    [if s.boot = .degraded then 1 else 0] ++
    s.rejected.flatMap fun x => toBytes 8 (BitVec.ofNat 64 x.1) ++ toBytes 8 (BitVec.ofNat 64 (x.2.1 * 2 ^ 56 + x.2.2))
  body ++ toBytes 16224 (Config.attestSignature body)

/-- Carry out a command. -/
def carryOut (s : State) (c : Command) : State :=
  match c with
  | .share t share => s.putShare t share
  | .watchdog t n v => s.putWdcfg t n v
  | .trace en base log2 => s.traceControl en base log2
  | .attest port nonce => s.reply port (s.attestReport port nonce)

/-- Carry out the accepted commands in their order. -/
def applyCommands (s : State) : State := s.commands.foldl carryOut { s with commands := [] }

end State

/-! ## Meanings -/

/-- SEMAPHORE_TAKE (R375, R376). -/
def execSemaphoreTake (port : Bool) (n : Nat) (tie : Bool) (s : State) : Out := event (fun s => s.semTake port n tie) s

/-- SEMAPHORE_RELEASE (R375). -/
def execSemaphoreRelease (port : Bool) (n : Nat) (value : Word) (s : State) : Out := event (fun s => s.semWrite port n value) s

/-- SETSHARE (R377). -/
def execSetshare (port : Bool) (tenant : Nat) (share : BitVec 8) (s : State) : Out :=
  event (fun s => s.command port (.share tenant share)) s

/-- SETWDCFG (R377). -/
def execSetwdcfg (port : Bool) (tenant n : Nat) (value : Word) (s : State) : Out :=
  event (fun s => s.command port (.watchdog tenant n value)) s

/-- The trace commands (R382). -/
def execTraceCommand (port : Bool) (enable : Bool) (base log2 : Nat) (s : State) : Out :=
  event (fun s => s.command port (.trace enable base log2)) s

/-- ATTEST (R385). -/
def execAttest (port : Bool) (nonce : BitVec 256) (s : State) : Out := event (fun s => s.command port (.attest port nonce)) s

/-- FUNCTION_LEVEL_RESET (R372). -/
def execFunctionLevelReset (port : Bool) (s : State) : Out := event (fun s => s.portReset port) s

end Sys2Proof.Machine
end

