-- ==== Sys2Proof/Machine/Belfry.lean ====
section
/-!
DEFINITION. The Belfry: launch registers, admission, ranking, pre-emption, ageing, retirement, kills and watchdogs
(09_execution R231-R247, 07_system_isa R197).
-/

namespace Sys2Proof.Machine

open Sys2Proof

namespace State

/-! ## The launch block (R231, 22_host_compat R373) -/

/-- Whether a tenant's page is live on a port: PORT of its record (R373). -/
def pageLive (s : State) (port : Bool) (tenant : Nat) : Bool := s.boot == .up && decide (tenant < 16) && (s.tenantRec tenant).getLsbD 62 == port

/-- A write to LAUNCHn: accepted, or discarded with BAD or OVF set. An address with bits above 47 is in no window, so its RCB
cannot be read (R233). -/
def launchWrite (s : State) (port : Bool) (tenant n : Nat) (v : Word) : State :=
  if s.pageLive port tenant = false ∨ 11 < n then s
  else if v &&& 0xFF ≠ 0 then s.setLstat tenant (16 + n)
  else if 64 ≤ (s.fifoOf tenant n).length then (s.setLstat tenant n).countFor tenant 65 1
  else s.pushLaunch tenant n { rcb := v.toNat, ctx := 0, root := true }

/-- A write to LSTAT clears the written bits. -/
def lstatWrite (s : State) (port : Bool) (tenant : Nat) (v : Word) : State :=
  if s.pageLive port tenant then { s with lstat := Tab.put s.lstat tenant (Tab.get s.lstat tenant 0 &&& ~~~v) } else s

/-! ## Taking an entry (R230, R231, R233) -/

/-- The effective RCB of a launch, from its own RCB and its parent's (R230). -/
def effectiveRcb (s : State) (parent : Option Nat) (own : BitVec 2048) : BitVec 2048 :=
  match parent with
  | some p => match s.region? p with
    | some r => Rcb.effective own r.rcb
    | none => own
  | none => own

/-- The object that CODE names (R233). -/
def codeOf (s : State) (tenant : Nat) (e : BitVec 2048) : Option CodeObj :=
  s.objects.find? fun o => o.base == Rcb.code e && o.tenant == tenant && o.keep == 0

/-- Whether a PUBLISH in progress of a tenant may be creating the object that CODE names (R233, R235): those of other tenants in
progress may complete before it and take the objects before. -/
def publishing (s : State) (tenant : Nat) (e : BitVec 2048) : Bool :=
  let inPublish (k : Core) : Bool := match k.status with
    | .waiting (.fence _ p) => p
    | _ => false
  (s.cores.any fun ck => ck.2.tenant == tenant && inPublish ck.2) &&
    (List.range (s.cores.filter fun ck => inPublish ck.2).length).any fun n => baseOf (s.objects.length + n) == Rcb.code e

/-- The checks of R233 for code 5: `own` is the RCB as written, `e` the effective one. -/
def rcbValid (s : State) (r : Region) (own e : BitVec 2048) : Bool :=
  Rcb.reservedOk own && Rcb.reservedOk e && Rcb.geometryOk e && decide (Rcb.inherit own / 2 ^ 13 = 0) && !(r.root && Rcb.inherit own != 0) &&
    decide (Rcb.prio e ≤ 11) && !(Rcb.prio e == 0 && !(s.tenantRec r.tenant).getLsbD 61) && decide (Rcb.entry e % 4 = 0) &&
    (match s.codeOf r.tenant e with
      | some o => decide (Rcb.entry e < o.len)
      | none => true) &&
    decide (Rcb.dmem e ≤ Rcb.spd e * 262144) && decide (Rcb.need e ≤ 256) && decide (Rcb.bcount e ≤ 256)

/-- The completion code of a refusal; none when the region may wait (R233). -/
def refusalCode (s : State) (r : Region) (own : BitVec 2048) : Option Nat :=
  if s.rcbValid r own r.rcb = false then some 5
  else
    let t : State := { s with regions := s.regions ++ [r] }
    if t.budgetEver r.id (Rcb.need r.rcb) = false then some 6
    else if (s.codeOf r.tenant r.rcb).isNone = true ∧ s.publishing r.tenant r.rcb = false then some 7 else none

/-- The region of a launch whose RCB has been read. The priority of a host launch is its register's index (R231). -/
def regionOf (s : State) (tenant n : Nat) (l : Launch) (own : BitVec 2048) : Region :=
  let e := s.effectiveRcb l.parent own
  let e := if l.root && l.successorOf.isNone then Rcb.withPrio e n else e
  { id := s.regNext, tenant := tenant, prio := Rcb.prio e, fifo := n, rcbAddr := l.rcb, ctx := l.ctx, rcb := e, parent := l.parent, wake := l.wake
    root := l.root, level := Rcb.prio e, levelBefore := Rcb.prio e, acceptSeq := l.seq, waitFrom := l.accepted, successorOf := l.successorOf }

/-- The FIFO whose UNREAD bit reports an RCB that cannot be read and written: the one the entry was taken from, or for a
successor the effective PRIO of its predecessor (R233). -/
def unreadBit (s : State) (n : Nat) (before : Option Nat) : Nat :=
  match before.bind s.region? with
  | some p => min 11 p.prio
  | none => n

/-- The Belfry takes one entry: its region is refused or waits. -/
def takeLaunch (s : State) (tenant n : Nat) (l : Launch) : State :=
  match s.readRcb tenant l.ctx l.rcb with
  | none => ((s.countFor tenant (80 + n) (s.time - l.accepted)).flushChain l.successorOf).refuseUnread tenant (s.unreadBit n l.successorOf) l n
  | some (_, own, s) =>
    let r := s.regionOf tenant n l own
    match s.refusalCode r own with
    | some c => (((s.countFor tenant (80 + n) (s.time - l.accepted)).flushChain l.successorOf).complete { r with id := 0 } c 0 7).countFor tenant 67 1
    | none => { s with regions := s.regions ++ [r], regNext := s.regNext + 1 }

/-- The code of a region that waited for a PUBLISH and is refused after all (R233, R235): 5 when ENTRY lies outside the object it
created, 7 when it has ended without creating the object. -/
def lateRefusal (s : State) (r : Region) : Option Nat :=
  if r.status = .waiting then
    match s.codeOf r.tenant r.rcb with
    | some o => if o.len ≤ Rcb.entry r.rcb then some 5 else none
    | none => if s.publishing r.tenant r.rcb then none else some 7
  else none

/-- Regions that waited for a PUBLISH are refused where its outcome shows them at fault (R233, R235). -/
def refuseCodeless (s : State) : State :=
  s.regions.foldl (fun (s : State) r => match s.lateRefusal r with
    | some c => (((((s.countWaits [r.id]).flushChain r.successorOf).complete r c 0 7).countFor r.tenant 67 1).close r)
    | none => s) s

/-- The Belfry takes every entry of every FIFO, each FIFO in order of acceptance (R231). -/
def takeAll (s : State) : State :=
  (List.range 192).foldl (fun (s : State) k =>
    let ls := Tab.get s.fifos k []
    if ls.isEmpty then s
    else ls.foldl (fun (s : State) l => s.takeLaunch (k / 12) (k % 12) l) { s with fifos := Tab.del s.fifos k }) s

/-! ## Ranking (R236, R237) -/

/-- A region that waits in the Belfry's queue. -/
def inQueue (r : Region) : Bool := r.status == .waiting || r.status == .switched

/-- Whether region a ranks before region b (R237). -/
def ranksBefore (s : State) (a b : Region) : Bool :=
  let va := s.vtimeNow a.tenant
  let vb := s.vtimeNow b.tenant
  if a.level ≠ b.level then decide (a.level < b.level)
  else if va ≠ vb then decide (va < vb)
  else if a.tenant ≠ b.tenant then decide (a.tenant < b.tenant)
  else decide (a.acceptSeq < b.acceptSeq)

def insertRanked (s : State) (r : Region) : List Region → List Region
  | [] => [r]
  | x :: xs => if s.ranksBefore r x then r :: x :: xs else x :: insertRanked s r xs

/-- The waiting regions in rank order. -/
def ranked (s : State) : List Region := (s.regions.filter inQueue).foldl (fun xs r => s.insertRanked r xs) []

/-! ## Placement (R228, R235, R240) -/

/-- The lowest partition number that no region in the Belfry's hands has. -/
def freePart (s : State) : Option Nat :=
  (List.range 256).find? fun p => !(s.regions.any fun r => r.part == p && (holdsSpires r || r.status == .switched)) &&
    !((List.range 256).any fun sp => Bind.holds (s.slotEntry sp) && Bind.part (s.slotEntry sp) == p)

/-- The route table of a placement: the physical dome of each logical dome (R240). -/
def routeTable (spd : Nat) (sps : List Nat) : Nat :=
  (List.range 8).foldl (fun n l => match sps[l * spd]? with
    | some sp => n + sp / 32 * 2 ^ (3 * l)
    | none => n) 0

/-- The 4-bit weights of 16 cores from core c0 on. -/
def weights (cps w c0 : Nat) : Nat := (List.range 16).foldl (fun n k => if c0 + k < cps then n + w * 2 ^ (4 * k) else n) 0

/-- log2 of a chain width. -/
def chainLog (w : Nat) : Nat := if w = 8 then 3 else if w = 4 then 2 else if w = 2 then 1 else 0

/-- The bind record of logical Spire ls of a region (R240). -/
def bindRecord (r : Region) (sps : List Nat) (part ls : Nat) (resume : Bool) : BitVec 512 :=
  let e := r.rcb
  let w (k n : Nat) : BitVec 512 := BitVec.ofNat 512 (n * 2 ^ (64 * k))
  w 0 (2 ^ 63 + part * 2 ^ 48 + r.tenant % 16 * 2 ^ 44 + ls * 2 ^ 16 + r.id % 65536) ||| w 1 (r.ctx.toNat * 2 ^ 48 + r.rcbAddr) |||
    w 2 ((Rcb.code e + Rcb.entry e) % 2 ^ 48) |||
    w 3 ((Rcb.spd e - 1) * 2 ^ 48 + chainLog (Rcb.chainw e) * 2 ^ 40 + Rcb.cps e * 2 ^ 32 + (Rcb.ldomes e - 1) * 2 ^ 24 + routeTable (Rcb.spd e) sps) |||
    w 4 (Rcb.bcount e * 2 ^ 16 + 256 * (sps.headD 0 % 32)) ||| w 5 (weights (Rcb.cps e) (Rcb.portw e) 0) ||| w 6 (weights (Rcb.cps e) (Rcb.portw e) 16) |||
    w 7 ((if resume then 2 ^ 63 else 0) + (Config.saveArea part).val * 2 ^ 20)

/-- Place a region on Spires: the status words of a region placed for the first time, its flushes, its bind records
(R229, R236, R238, R245). -/
def bindRegion (s : State) (r : Region) (sps : List Nat) : State :=
  match (if r.status = .switched then some r.part else s.freePart) with
  | none => s
  | some part =>
    let again := r.status == .switched
    let s := (s.settleFlush r sps).settleVtime
    let s := if again then s else ((s.writeStatus r false 0 0).2.countFor r.tenant 66 1).traceRec 2 r.tenant r.level r.id 0xFFFFFFFF 0
    let s := s.countFor r.tenant (80 + r.prio) (s.time - r.waitFrom)
    let s : State := { s with
      slotTable := sps.zipIdx.foldl (fun t x => Tab.put t x.1 (bindRecord r sps part x.2 again)) s.slotTable
      seqNext := s.seqNext + 1 }
    s.onRegion r.id fun g => { g with status := .placed, part := part, spires := sps, levelBefore := g.level, level := g.prio, placedSeq := s.seqNext }

/-! ## Admission (R238) -/

/-- The free Spires, in an order of preference. -/
def freeSpires (s : State) (order : List Nat) : List Nat :=
  ((order.filter fun sp => decide (sp < 256)).eraseDups ++ (List.range 256).filter fun sp => !order.contains sp).filter s.spireFree

/-- Take the regions in rank order: place those that may be, and find the blocked head (R238); a region whose code object is not
resident waits and blocks none (R235). -/
def admitRanked (order : List Nat) : List Region → Option Region → State → Option Region × State
  | [], head, s => (head, s)
  | r :: rs, head, s =>
    let free := s.freeSpires order
    if s.budgetOk r.id (Rcb.need r.rcb) = false ∨ (s.freePart.isNone = true ∧ r.status ≠ .switched) ∨
        (r.status = .waiting ∧ (s.codeOf r.tenant r.rcb).isNone = true) then admitRanked order rs head s
    else match s.fitting r free with
      | none => admitRanked order rs (head.or (some r)) s
      | some sps =>
        let ok := match head with
          | none => true
          | some h => (s.fitting h (free.filter fun sp => !sps.contains sp)).isSome
        admitRanked order rs head (if ok then s.bindRegion r sps else s)

/-! ## Pre-emption (R239) -/

/-- Whether a victim comes before another: highest PRIO first, then latest placement. -/
def victimBefore (a b : Region) : Bool := if a.prio ≠ b.prio then decide (b.prio < a.prio) else decide (b.placedSeq < a.placedSeq)

def insertVictim (r : Region) : List Region → List Region
  | [] => [r]
  | x :: xs => if victimBefore r x then r :: x :: xs else x :: insertVictim r xs

/-- The regions a blocked head may displace, in order. -/
def victims (s : State) (h : Region) : List Region :=
  (s.regions.filter fun r => r.status == .running && Rcb.preempt r.rcb && decide (h.level < r.prio) && (s.armedAt r).isNone).foldl
    (fun xs r => insertVictim r xs) []

/-- The first victims whose Spires make room. -/
def enough (s : State) (h : Region) (free : List Nat) : List Region → List Region → Option (List Region)
  | got, [] => if (s.fitting h (free ++ got.flatMap (·.spires))).isSome then some got else none
  | got, v :: vs => if (s.fitting h (free ++ got.flatMap (·.spires))).isSome then some got else enough s h free (got ++ [v]) vs

/-- The victims the head needs: those it fits without are let go, the last chosen first. -/
def needed (s : State) (h : Region) (free : List Nat) (vs : List Region) : List Region :=
  vs.reverse.foldl (fun kept v =>
    let less := kept.filter fun x => x.id != v.id
    if (s.fitting h (free ++ less.flatMap (·.spires))).isSome then less else kept) vs

/-- Spires of partitions already armed: they will be free. -/
def armedSpires (s : State) : List Nat := (s.regions.filter fun r => r.status == .running && (s.armedAt r).isSome).flatMap (·.spires)

def preemptFor (s : State) (h : Region) (order : List Nat) : State :=
  let free := s.freeSpires order ++ s.armedSpires
  match s.enough h free [] (s.victims h) with
  | none => s
  | some vs => (s.needed h free vs).foldl (fun (s : State) v => (s.armRegion v).countFor v.tenant 69 1) s

/-- An admission decision of the Belfry (R238, R239), and before it the management commands (22_host_compat R377). -/
def admission (s : State) (order : List Nat) : State :=
  let s := (s.applyCommands.takeAll.refuseCodeless).countFor State.deviceTenant 93 1
  let x := admitRanked order s.ranked none s
  let s := match x.1 with
    | some h => x.2.preemptFor h order
    | none => x.2
  s.armYields

/-! ## Ageing (R236) -/

/-- One step of ageing of a waiting region, when it is due: a level above 1 decreases by 1. -/
def ageRegion (s : State) (id : Nat) : State :=
  match s.region? id with
  | none => s
  | some r =>
    if inQueue r = true ∧ r.waitFrom + 64000 ≤ s.time then
      let s := s.countFor r.tenant (80 + r.prio) 64000
      let s := if 1 < r.level then s.countFor r.tenant 92 1 else s
      s.onRegion id fun g => { g with waitFrom := g.waitFrom + 64000, level := if 1 < g.level then g.level - 1 else g.level }
    else s

/-! ## Retirement (R244, R245) -/

/-- Whether every operation a region issued has retired; those a kill abandons are gone already. -/
def operationsOver (s : State) (r : Region) : Bool :=
  (s.packets.all fun p => p.region != r.id) && (s.acks.all fun a => a.region != r.id) && (s.landings.all fun l => l.region != r.id) &&
    (s.allCopies.all fun op => op.region != r.id) &&
    r.spires.all fun sp => ((s.spireAt sp).port.all fun q => q.pkt.region != r.id) && s.graverIdle sp

/-- Whether every core of a region has exited; a region killed before its start has none. -/
def allExited (s : State) (r : Region) : Bool :=
  r.spires.all fun sp => (List.range 32).all fun n =>
    (s.coreAt (sp * 32 + n)).status == .exited || (s.coreAt (sp * 32 + n)).region != r.id

/-- NEXT as the device reads it at retirement (R245), at its home slice; 0 where the RCB cannot be read any more. -/
def nextOf (s : State) (r : Region) : Nat × State :=
  match s.ctxPlace r.tenant r.ctx r.rcbAddr with
  | some (p, t) =>
    let t := t.ctxFetch p 0x60 8
    ((t.peek 64 (p.loc + 0x60) 8).toNat % 2 ^ 48, t)
  | none => (0, s)

/-- Prepare the successor's launch (R245): NEXTST, the FIFO and entry reserved, and the state. -/
def successor (s : State) (r : Region) : Nat × Option (Nat × Launch) × State :=
  let (n, s) := s.nextOf r
  let l : Launch := { rcb := n, ctx := r.ctx, parent := r.parent, root := r.root, successorOf := some r.id }
  if n = 0 then (0, none, s)
  else if n % 256 ≠ 0 then (1, none, s)
  else match s.readRcb r.tenant r.ctx n with
    | none => (3, none, s.refuseUnread r.tenant (min 11 r.prio) l r.level)
    | some (_, own, s) =>
      let f := min 11 (Rcb.prio (s.effectiveRcb r.parent own))
      if 64 ≤ (s.fifoOf r.tenant f).length then (2, none, s) else (0, some (f, l), s)

/-- A Spire whose region retires: no slot stays claimed and no partition holds it; what its engines hold stays until a fresh
start or a resumption sets it (R244 step 1, 10_prog_ragged R255). -/
def retiredSpire (x : Spire) : Spire :=
  { x with graver := { x.graver with slots := x.graver.slots.map fun sl => { sl with claimed := false, releasing := false } }, part := none }

/-- Release the engines of a region's Spires (R244 step 1); nothing of it is pinned. -/
def releaseEngines (s : State) (r : Region) : State :=
  let s := r.spires.foldl (fun (s : State) sp => s.setSpireAt sp (retiredSpire (s.spireAt sp))) s
  s.unpinAll r.pins

/-- The Spires that hold dirty lines a region wrote, those its partition had before a switch among them (R245). -/
def dirtySpires (s : State) (r : Nat) : List Nat :=
  (s.spires.filter fun (px : Nat × Spire) => px.2.lines.any fun l => l.2.owned && l.2.home.isSome && l.2.writers.contains r).map (·.1)

/-- Step 2 of R244: perform the release flush with those that the chain and its Spires owe, or leave it owed to the successor. -/
def releaseFlush (s : State) (r : Region) (defer : Bool) : State :=
  if defer then
    (r.spires ++ (s.dirtySpires r.id).filter fun sp => !r.spires.contains sp).foldl (fun (s : State) sp =>
      let x := s.spireAt sp
      s.setSpireAt sp { x with owed := x.owed ++ [r.id] }) s
  else
    let owed := s.owedOn (s.spires.map (·.1))
    let due := s.owedOn r.spires ++ (s.chainBack s.regions.length r.successorOf).filter owed.contains
    (s.flushOwed (r.id :: due)).countFor r.tenant 29 1

/-- The steps of R244 for a region that has run. -/
def retireSteps (s : State) (r : Region) : State :=
  let s := s.releaseEngines r
  let nx := s.successor r
  let s := nx.2.2.releaseFlush r nx.2.1.isSome
  let w := s.writeStatus r true r.kill nx.1
  let s := match nx.2.1 with
    | some (f, l) => w.2.pushLaunch r.tenant f l
    | none => w.2
  let s := ((s.wakeParent r).interruptHost r).traceRec 6 r.tenant r.level r.id 0xFFFFFFFF w.1
  let s := (s.settleVtime.releaseSlots r.spires).close r
  { s with armed := Tab.del s.armed r.part }

/-- A region killed before it was placed (R246): its RCB is read, and it takes steps 3 to 6; one that cannot be read and written
is reported as R233 states. -/
def retireUnplaced (s : State) (r : Region) : State :=
  let s := s.flushChain r.successorOf
  match s.readRcb r.tenant r.ctx r.rcbAddr with
  | none => (s.refuseUnread r.tenant (s.unreadBit r.fifo r.successorOf) { rcb := r.rcbAddr, ctx := r.ctx, wake := r.wake } r.level).close r
  | some (_, own, s) =>
    let e := if r.unread then s.effectiveRcb r.parent own else r.rcb
    (s.complete { r with rcb := e } r.kill 0 6).close r

/-- REGION_RETIRE: a region whose cores have exited and whose operations are over, or a killed one, retires. -/
def retireRegion (s : State) (id : Nat) : State :=
  match s.region? id with
  | none => s
  | some r =>
    if r.status = .killed ∧ r.begun = false ∧ r.spires.isEmpty = true then s.retireUnplaced r
    else if (r.status = .running ∨ r.status = .killed) ∧ s.allExited r = true ∧ s.operationsOver r = true then s.retireSteps r
    else s

/-! ## Budgets and watchdogs (R246, R247) -/

/-- The running time of a region. -/
def runningTime (s : State) (r : Region) : Nat := r.runTicks + (s.time - r.runFrom)

/-- A running region has exceeded MAXRUN. -/
def overMaxrun (s : State) (r : Region) : Bool := r.status == .running && Rcb.maxrun r.rcb != 0 && decide (Rcb.maxrun r.rcb < s.runningTime r)

/-- A running region has exceeded its k-step budget. -/
def overGsteps (r : Region) : Bool := r.status == .running && Rcb.gsteps r.rcb != 0 && decide (Rcb.gsteps r.rcb * 65536 < r.ksteps)

/-- Kill a region's fault domain when a test of the region holds. -/
def killIf (s : State) (id code : Nat) (test : Region → Bool) : State :=
  match s.region? id with
  | some r => if test r then s.kill id code else s
  | none => s

/-- PERIOD of a region's watchdog in ticks, when it is on; COUNTER 3 disables it. -/
def watchdogPeriod (s : State) (r : Region) : Option Nat :=
  let w := s.wdcfg r.tenant r.fifo
  if w.getLsbD 63 = true ∧ (w.extractLsb' 56 2).toNat ≠ 3 ∧ (w.extractLsb' 0 32).toNat ≠ 0 then some (1000 * (w.extractLsb' 0 32).toNat) else none

/-- Whether a watchdog period of a region is over. -/
def periodOver (s : State) (r : Region) : Bool :=
  r.status == .running && (match s.watchdogPeriod r with
    | some p => decide (r.progFrom + p ≤ s.runningTime r)
    | none => false)

/-- The end of a watchdog period: with too little progress the partition is switched out whatever PREEMPT says. -/
def watchdog (s : State) (id : Nat) : State :=
  match s.region? id with
  | none => s
  | some r =>
    if s.periodOver r then
      let w := s.wdcfg r.tenant r.fifo
      let now := s.progress r
      let late := decide (now - r.progBase < (w.extractLsb' 32 24).toNat)
      let s := s.onRegion id fun g =>
        { g with progBase := now, progFrom := r.progFrom + (s.watchdogPeriod r).getD 0, wdForced := g.wdForced || late, wdTrap := g.wdTrap || late }
      if late then (s.armRegion r).countFor r.tenant 70 1 else s
    else s

/-- Whether a forced switch has not finished within 100,000 ticks of its agreed time. -/
def switchLate (s : State) (r : Region) : Bool :=
  r.wdForced && r.status == .running && (match s.armedAt r with
    | some t => decide (t + 100000 < s.time)
    | none => false)

end State

/-! ## Meanings -/

/-- LAUNCH_REGISTER_WRITE (R231). -/
def execLaunchRegisterWrite (port : Bool) (tenant n : Nat) (value : Word) (s : State) : Out :=
  event (fun s => s.launchWrite port tenant n value) s

/-- LSTAT_WRITE (R231). -/
def execLstatWrite (port : Bool) (tenant : Nat) (value : Word) (s : State) : Out := event (fun s => s.lstatWrite port tenant value) s

/-- BELFRY_ADMISSION (R238). -/
def execBelfryAdmission (order : List Nat) (s : State) : Out := event (fun s => s.admission order) s

/-- AGEING_STEP (R236). -/
def execAgeingStep (region : Nat) (s : State) : Out := event (fun s => s.ageRegion region) s

/-- REGION_RETIRE (R244). -/
def execRegionRetire (region : Nat) (s : State) : Out := event (fun s => s.retireRegion region) s

/-- MAXRUN_EXPIRY (R246). -/
def execMaxrunExpiry (region : Nat) (s : State) : Out := event (fun s => s.killIf region 3 s.overMaxrun) s

/-- GSTEPS_EXPIRY (R246). -/
def execGstepsExpiry (region : Nat) (s : State) : Out := event (fun s => s.killIf region 4 State.overGsteps) s

/-- WATCHDOG_TIMEOUT (R247). -/
def execWatchdogTimeout (region : Nat) (s : State) : Out := event (fun s => s.watchdog region) s

/-- WATCHDOG_SWITCH_TIMEOUT (R247). -/
def execWatchdogSwitchTimeout (region : Nat) (s : State) : Out := event (fun s => s.killIf region 2 s.switchLate) s

end Sys2Proof.Machine
end

