-- ==== Sys2Proof/Machine/HostPort.lean ====
section
/-!
DEFINITION. The host's other accesses, the Thatur loader, bring-up, power and temperature (22_host_compat R372-R374,
R379, R380, R383, R386).
-/

namespace Sys2Proof.Machine

open Sys2Proof

namespace State

/-! ## MSI-X (R373) -/

/-- Clear the mask of a vector: its pending bit sends one message. -/
def unmaskVector (s : State) (t v : Nat) : State :=
  if 16 ≤ t ∨ 64 ≤ v then s
  else
    let m := s.msixAt t
    let m : Msix := { m with table := Tab.put m.table (2 * v + 1) (Tab.get m.table (2 * v + 1) 0x100000000 &&& 0xFFFFFFFEFFFFFFFF) }
    let m : Msix := if m.pend.getLsbD v then { m with pend := m.pend &&& ~~~((1 : BitVec 64) <<< v), sent := m.sent ++ [v] } else m
    { s with msix := Tab.put s.msix t m }

/-- A write to a word of a tenant's MSI-X table; a write that clears a mask unmasks the vector. -/
def writeMsix (s : State) (t k : Nat) (v : Word) : State :=
  let v := if k % 2 = 0 then v &&& 0xFFFFFFFFFFFFFFFC else v &&& 0x1FFFFFFFF
  let m := s.msixAt t
  let s : State := { s with msix := Tab.put s.msix t { m with table := Tab.put m.table k v } }
  if k % 2 = 1 ∧ v.getLsbD 32 = false then s.unmaskVector t (k / 2) else s

/-! ## Registers (R372, R373, 00_scope R9) -/

/-- A write to a tenant page, by offset. -/
def writePage (s : State) (port : Bool) (t off : Nat) (v : Word) : State :=
  if s.pageLive port t = false then s
  else if off < 0x60 then s.launchWrite port t (off / 8) v
  else if off = 0x60 then s.lstatWrite port t v
  else if 0x1000 ≤ off ∧ off < 0x1400 then s.writeMsix t ((off - 0x1000) / 8) v
  else s

/-- A write of a 64-bit register: read-only and reserved places ignore it; a write to PEEK counts as one ignored (R375). -/
def writeRegister (s : State) (port : Bool) (bar off : Nat) (v : Word) : State :=
  if bar = 2 then s.writePage port (off / 0x10000) (off % 0x10000 / 8 * 8) v
  else if bar = 0 ∧ off < 0x400 ∧ off % 16 = 0 then s.semWrite port (off / 16) v
  else if bar = 0 ∧ off < 0x400 ∧ off % 16 = 8 ∧ s.barOpen = true then s.countFor (portTenant port) 77 1
  else s

/-- A counter of one tenant, with the share of its host port, or of the whole device, as it reads (R381; assumption log 37); counter
95 is the time base. -/
def readCounter (s : State) (tenant : Option Nat) (i : Nat) : Word :=
  let share (t : Nat) : Word := Tab.get s.counters (t * 96 + i) 0
  if i = 95 then BitVec.ofNat 64 s.time
  else match tenant with
    | some t => share t + share (portTenant ((s.tenantRec t).getLsbD 62))
    | none => (List.range 19).foldl (fun (x : Word) t => x + share t) 0

/-- A read of a tenant page, by offset (R231, R373): zero on the port that does not own it, in LAUNCHn, which is write-only, and in
reserved places. -/
def readPage (s : State) (port : Bool) (t off : Nat) : Word :=
  if s.pageLive port t = false then 0
  else if off = 0x60 then Tab.get s.lstat t 0
  else if 0x80 ≤ off ∧ off < 0xE0 then BitVec.ofNat 64 (s.fifoOf t ((off - 0x80) / 8)).length
  else if 0x1000 ≤ off ∧ off < 0x1400 then
    let k := (off - 0x1000) / 8
    Tab.get (s.msixAt t).table k (if k % 2 = 1 then 0x100000000 else 0)
  else if off = 0x1400 then (s.msixAt t).pend
  else if 0x2000 ≤ off ∧ off < 0x2300 then s.readCounter (some t) ((off - 0x2000) / 8)
  else 0

/-- A read of a 64-bit register of BAR0 or BAR2 (R372, R373, R375, R381): the port gets its word. In BAR0 the places the spec
gives no register read as zero. A BAR that is not open answers nothing (R379, R380). -/
def readRegister (s : State) (port : Bool) (bar off : Nat) : State :=
  let off := off / 8 * 8
  if bar = 2 then
    if s.boot ≠ .up then s else s.reply port (toBytes 8 (s.readPage port (off / 0x10000) (off % 0x10000)))
  else if bar = 0 ∧ s.barOpen = true then
    if off < 0x400 then s.semAccess port (off / 16) (if off % 16 = 0 then .take else .peek)
    else if 0x10000 ≤ off ∧ off < 0x10300 then
      s.reply port (toBytes 8 (s.readCounter none ((off - 0x10000) / 8)))
    else s.reply port (toBytes 8 (0 : Word))
  else s

/-- System software appends an entry to the bad-page list in flash, which holds 1,024 (21_memory_system R370). -/
def appendBadPage (s : State) (e : BadPage) : State :=
  if s.badPages.length < 1024 then { s with badPages := s.badPages ++ [e] } else s

/-- An access from outside; a request that a port does not support completes without data, as an Unsupported Request (R372). -/
def outsideAccess (s : State) (a : Access) : State :=
  match a with
  | .read port bar off => s.readRegister port bar off
  | .tie n x y => s.semTie n x y
  | .unsupported port => s.reply port []
  | .badPage e => s.appendBadPage e

/-! ## BAR4 (R374) -/

/-- Whether a physical range lies in a window of a tenant that a port owns. -/
def hostWindow (s : State) (port : Bool) (pa len : Nat) : Bool :=
  (List.range 16).any fun t =>
    let e := s.tenantRec t
    e.getLsbD 63 && e.getLsbD 62 == port && s.ownerWindow t 0 pa (pa + len)

/-- Write bytes at their home slice, line by line. -/
def hostWrite : List Byte → Nat → State → State
  | [], _, s => s
  | b :: bs, pa, s =>
    let s := if pa % 128 = 0 then (s.slicedWrite (s.hwHome pa) (pa / 128) 0 false).2 else s
    hostWrite bs (pa + 1) (s.poke pa 1 b)

/-- Read bytes as their home slice holds them. -/
def hostRead (n pa : Nat) (s : State) : List Byte × State :=
  (List.range n).foldl (fun (r : List Byte × State) k =>
    let x := r.2.engineRead 0 none (s.hwHome (pa + k)) 0 8 (pa + k) 1
    (r.1 ++ [x.1.1], x.2)) ([], s)

/-- A host access to HBM4E, whose events its port causes (R381). -/
def hostAccess (s : State) (port : Bool) (pa len : Nat) (data : Option (List Byte)) : State :=
  if s.boot ≠ .up then s
  else
    let inside := decide (pa + len ≤ Config.hbmSize) && s.hostWindow port pa len
    s.actFor (portTenant port) fun s => match data with
    | some bs =>
      if inside then
        (hostWrite (bs.take len) pa (if pa % 128 = 0 then s else (s.slicedWrite (s.hwHome pa) (pa / 128) 0 false).2)).cleanRange pa (bs.take len).length
      else s.countBy 76 1
    | none =>
      if inside then
        let x := hostRead len pa s
        x.2.reply port x.1
      else (s.countBy 76 1).reply port (List.replicate len 0xFF)

/-! ## The Thatur loader (R383) -/

/-- Bytes of a tenant's context, where all can be read. -/
def readVirtual (s : State) (t : Nat) (ctx : BitVec 16) (va n : Nat) : Option (List Byte) :=
  (List.range n).foldr (fun k (r : Option (List Byte)) =>
    match r, s.translate noSpire t ctx .load (va + k) with
    | some bs, some (p, _) => some (s.peek 8 p.loc 1 :: bs)
    | _, _ => none) (some [])

/-- A word of a tenant's context. -/
def virtualWord (s : State) (t : Nat) (ctx : BitVec 16) (va : Nat) : Option Word := (s.readVirtual t ctx va 8).map (ofBytes 64)

/-- The native image a container holds, where the loader accepts the container: MAGIC, GEN and TCLASS. -/
def containerImage (s : State) (t : Nat) (ctx : BitVec 16) (va : Nat) : Option (List Word × List Byte) :=
  match s.virtualWord t ctx va, s.virtualWord t ctx (va + 8), s.virtualWord t ctx (va + 16) with
  | some w0, some w1, some w2 =>
    if w0.toNat % 2 ^ 32 ≠ 0x31464854 ∨ 1 < w0.toNat / 2 ^ 32 ∨ 2 < w1.toNat % 256 then none
    else
      let a := va + w2.toNat
      match s.readVirtual t ctx a 64 with
      | none => none
      | some d =>
        let ws := (List.range 8).map fun k => BitVec.ofNat 64 (wordAt d k)
        if sizesOk ws = false then some (ws, [])
        else (s.readVirtual t ctx (a + 64) ((ws.getD 0 0).toNat + (ws.getD 1 0).toNat + (ws.getD 4 0).toNat)).map fun bs => (ws, bs)
  | _, _, _ => none

/-- The loader passes an accepted container's image through PUBLISH for the tenant, whose port gets the status. -/
def loadThatur (s : State) (t : Nat) (ctx : BitVec 16) (va : Nat) : State :=
  let port := (s.tenantRec t).getLsbD 62
  match s.containerImage t ctx va with
  | none => s
  | some (ws, bs) =>
    let answer : Word × State :=
      if sizesOk ws = false then (rejection 1 0, s.countFor t 78 1)
      else
        let im := Image.of ws bs
        match s.publishImage t (im.owner == 0) im with
        | .error (e, v) => (rejection e v, s.countFor t 78 1)
        | .ok (o, code) => (BitVec.ofNat 64 o.base, (s.addObject o code).countFor t 79 1)
    answer.2.reply port (toBytes 8 answer.1)

/-! ## Bring-up (R379, R380) -/

/-- The words of a Keep's image in the staging layout. -/
def keepImage (bs : List Byte) : List Word × List Byte := ((List.range 8).map fun k => BitVec.ofNat 64 (wordAt bs k), bs.drop 64)

/-- Keep image n passes through PUBLISH at SYSTEM level; a rejection leaves the Keep's entry with VALID = 0. -/
def publishKeep (s : State) (n : Nat) (bs : List Byte) : State :=
  let x := keepImage bs
  let owner := (x.1.getD 3 0).toNat % 256
  let clear (s : State) : State := match s.keepTable with
    | some b => if owner = 0 then s else s.poke (b + 64 * owner) 8 (s.peek 64 (b + 64 * owner) 8 &&& 0x7FFFFFFFFFFFFFFF)
    | none => s
  let reject (s : State) (e v : Nat) : State := { (clear s).countFor deviceTenant 78 1 with rejected := s.rejected ++ [(n, e, v)] }
  if sizesOk x.1 = false then reject s 1 0
  else match s.publishImage 0 true (Image.of x.1 x.2) with
    | .error (e, v) => reject s e v
    | .ok (o, code) => (s.addObject o code).countFor deviceTenant 79 1

/-- Reinstall the remap entry of a spared row, as MRMAP op 1 may: the lowest free spare of its bank group and the lowest free
entry of its channel (21_memory_system R368). -/
def reinstall (s : State) (w : Word) : State :=
  match locatorPa (w &&& 0xFFFFFFFF00000000) with
  | none => s
  | some pa =>
    let ch := chanOf pa
    let bg := ch * 4 + pa / 2 ^ 20 % 4
    match (List.range 64).find? (fun e => !(Tab.get s.hbm.remap (ch * 64 + e) 0).getLsbD 63),
      (List.range 32).find? (fun sp => !(Tab.get s.hbm.spareUse bg 0).getLsbD sp) with
    | some e, some sp => if s.remapAllowed ch e (remapWord pa sp) then s.setRemap ch e (remapWord pa sp) else s
    | _, _ => s

/-- Step 5: a bad-page list that fails verification is discarded; otherwise its spared rows are reinstalled (21_memory_system R370). -/
def applyBadList (s : State) : State :=
  if Config.badListVerifies s.badPages then
    let s : State := { s with badListOk := true, excluded := s.badPages.map fun e => (e.1.extractLsb' 16 28).toNat }
    (s.badPages.filter fun e => e.2.getLsbD 0).foldl (fun (s : State) e => s.reinstall e.2) s
  else { s with badListOk := false, badPages := [] }

/-- The owner of a configuration block is the stored one, or none is stored (R379). -/
def ownerAccepted (s : State) : Bool := s.ownerHash == 0 || ofBytes 256 (Sha.digest s.config.ownerKey) == s.ownerHash

/-- The Belfry accepts the configuration block (R379): its signature verifies under the key it carries, its version is at least the
stored version, and its owner is the stored one. -/
def configAccepted (s : State) : Bool :=
  Config.configVerifies s.config.ownerKey s.config.signature s.config.signed && decide (s.flashVersion ≤ s.config.version) && s.ownerAccepted

/-- Step 6: the tenant records, Keep table, context tables and slice masks of the configuration block with their grants, SYSCTL,
whose reserved bits read zero (00_scope R9), and the fault-address queue; then the Keep images. -/
def configure (s : State) : State :=
  let c := s.config
  let s : State := { s with
    tenants := c.tenants, keepTable := some c.keepBase, masks := c.masks, maskGrants := c.maskGrants, sysctl := c.sysctl &&& 1
    faultQueue := c.faultQueue }
  let s := c.keeps.foldl (fun (s : State) x => s.poke (c.keepBase + 64 * x.1) 64 x.2) s
  let s := c.contexts.foldl (fun (s : State) x => s.poke x.1 1 x.2) s
  c.keepImages.zipIdx.foldl (fun (s : State) x => s.publishKeep x.2 x.1) s

/-- DEVICE_RESET: every state the spec resets takes its reset value, what flash keeps stays, and bring-up runs. -/
def bringUp (s : State) : State :=
  let t : State := { State.reset with
    config := s.config, flashVersion := s.flashVersion, ownerHash := s.ownerHash, badPages := s.badPages.take 1024, sched := s.sched
    freeCtr := s.freeCtr }
  if Config.firmwareVerifies = false then { t with boot := .halted }
  else if t.configAccepted = false then { t with boot := .degraded }
  else { t.applyBadList.configure with boot := .up }

/-! ## Power and temperature (R386) -/

/-- The power cap stops or starts the clock of a dome; counter 94 counts the cycles it stood. -/
def capDome (s : State) (d : Nat) (stop : Bool) : State :=
  if 8 ≤ d then s
  else
    let x := s.domeAt d
    match x.stopAt, stop with
    | none, true => s.setDomeAt d { x with stopAt := some s.cycle }
    | some c, false => (s.setDomeAt d { x with stopAt := none, stopFor := x.stopFor + (s.cycle - c) }).countFor deviceTenant 94 (s.cycle - c)
    | _, _ => s

/-- MACHINE_CHECK in every partition: those that run, those placed to start or to resume, and those switched out. -/
def alarm (s : State) : State :=
  (s.regions.filter fun r => r.status == .running || r.status == .placed || r.status == .switched).foldl (fun (s : State) r => s.machineCheck r.id false (BitVec.ofNat 64 (0x386 * 2 ^ 32))) s

end State

/-! ## Meanings -/

/-- MSIX_VECTOR_UNMASK (R373). -/
def execMsixVectorUnmask (tenant vector : Nat) (s : State) : Out := event (fun s => s.unmaskVector tenant vector) s

/-- HOST_BAR4_ACCESS (R374). -/
def execHostBar4Access (port : Bool) (pa len : Nat) (data : Option (List Byte)) (s : State) : Out :=
  event (fun s => s.hostAccess port pa len data) s

/-- REGISTER_WRITE (00_scope R9). -/
def execRegisterWrite (port : Bool) (bar offset : Nat) (value : Word) (s : State) : Out :=
  event (fun s => s.writeRegister port bar offset value) s

/-- THATUR_LOAD (R383). -/
def execThaturLoad (tenant : Nat) (ctx : BitVec 16) (container : Word) (s : State) : Out :=
  event (fun s => s.loadThatur tenant ctx container.toNat) s

/-- DEVICE_RESET (R380). A module without power, or that the boot ROM halted, can be reset too. -/
def execDeviceReset (s : State) : Out := .next s.bringUp

/-- POWER_CAP (R386). -/
def execPowerCap (dome : Nat) (stop : Bool) (s : State) : Out := event (fun s => s.capDome dome stop) s

/-- THERMAL_ALARM (R386). -/
def execThermalAlarm (s : State) : Out := event (fun s => s.alarm) s

/-- THERMAL_SHUTDOWN (R386): power is removed. -/
def execThermalShutdown (s : State) : Out := event (fun s => { s with power := false }) s

end Sys2Proof.Machine
end

