-- ==== Sys2Proof/Machine/Trans.lean ====
section
/-!
DEFINITION. The correctly rounded special functions (04_vector R118): an approximation with a proved-in-form error
bound at growing precision, until both ends of its interval round alike; the values are irrational, so some precision
settles them (assumption log 7).
-/

namespace Sys2Proof.Machine

open Sys2Proof

namespace Trans

/-- An approximation scaled by 2^M, and a bound on its distance from the true value. -/
structure Approx where
  mid : Int
  err : Nat

/-- m 2^e at M fraction bits, rounded down. -/
def fixed (M m : Nat) (e : Int) : Nat :=
  if 0 ≤ e + M then m * 2 ^ (e + M).toNat else m / 2 ^ (-(e + M)).toNat

/-- The sum of the terms t, t x / k!, … of the exponential series, with the number of terms. -/
def expTerms (M y : Nat) : Nat → Nat → Nat → Nat → Nat × Nat
  | 0, k, t, acc => (acc + t, k)
  | fuel + 1, k, t, acc => if t = 0 then (acc, k) else expTerms M y fuel (k + 1) (t * y / 2 ^ M / (k + 1)) (acc + t)

/-- e^v for v = |x| < 2^10, by the series at v / 2^20 and twenty squarings: bounds scaled by 2^M. -/
def expBounds (M m : Nat) (e : Int) : Nat × Nat :=
  let y := fixed M m (e - 20)
  let s := expTerms M y M 0 (2 ^ M) 0
  let sq (p : Nat × Nat) : Nat × Nat := (p.1 * p.1 / 2 ^ M, p.2 * p.2 / 2 ^ M + 1)
  (List.range 20).foldl (fun p _ => sq p) (s.1 - 2, s.1 + 2 * s.2 + 16)

/-- 2 atanh(p / q) at M bits, and its terms. -/
def atanhTerms (p2 q2 : Nat) : Nat → Nat → Nat → Nat → Nat × Nat
  | 0, k, _, acc => (acc, k)
  | fuel + 1, k, t, acc =>
    if t = 0 then (acc, k) else atanhTerms p2 q2 fuel (k + 1) (t * p2 / q2) (acc + t / (2 * k + 1))

def atanh2 (M p q : Nat) : Approx :=
  let s := atanhTerms (p * p) (q * q) M 0 (2 ^ (M + 1) * p / q) 0
  { mid := s.1, err := 4 * s.2 + 8 }

/-- ln of m 2^e, m ≠ 0 (scaled by 2^M). -/
def logApprox (M m : Nat) (e : Int) : Approx :=
  let k := Nat.log2 m
  let ln2 := atanh2 M 1 3
  let f := atanh2 M (m - 2 ^ k) (m + 2 ^ k)
  let n : Int := e + k
  { mid := f.mid + n * ln2.mid, err := f.err + n.natAbs * ln2.err }

/-- arctan(1/q) at M bits. -/
def atanTerms (q2 : Nat) : Nat → Nat → Nat → Int → Int × Nat
  | 0, k, _, acc => (acc, k)
  | fuel + 1, k, t, acc =>
    if t = 0 then (acc, k)
    else atanTerms q2 fuel (k + 1) (t / q2) (if k % 2 = 0 then acc + (t / (2 * k + 1) : Nat) else acc - (t / (2 * k + 1) : Nat))

/-- π/2 at M bits, by Machin's formula. -/
def halfPi (M : Nat) : Approx :=
  let a := atanTerms 25 M 0 (2 ^ M / 5) 0
  let b := atanTerms 57121 M 0 (2 ^ M / 239) 0
  { mid := 8 * a.1 - 2 * b.1, err := 20 * (a.2 + b.2) + 40 }

/-- The alternating series of sine (from t = r, k = 1) and cosine (from t = 1, k = 0). -/
def trigTerms (M r2 : Nat) : Nat → Nat → Nat → Bool → Int → Nat → Int × Nat
  | 0, _, _, _, acc, n => (acc, n)
  | fuel + 1, k, t, neg, acc, n =>
    if t = 0 then (acc, n)
    else trigTerms M r2 fuel (k + 2) (t * r2 / 2 ^ M / ((k + 1) * (k + 2))) (!neg) (if neg then acc - t else acc + t) (n + 1)

/-- Sine and cosine of m 2^e: the argument less a whole number of π/2, then the series. -/
def trig (M m : Nat) (e : Int) (cosine : Bool) : Approx :=
  let top := (e + Nat.log2 m).toNat
  let W := M + top + 8
  let x := fixed W m e
  let hp := halfPi W
  let q : Int := ((x : Int) * 2 + hp.mid) / (2 * hp.mid)
  let r : Int := (x : Int) - q * hp.mid
  let rErr := (q.natAbs * hp.err + 2) / 2 ^ (W - M) + 2
  let rM := r.natAbs / 2 ^ (W - M)
  let r2 := rM * rM / 2 ^ M
  let quad := ((if cosine then q + 1 else q) % 4).toNat
  let useCos := quad % 2 = 1
  let s := if useCos then trigTerms M r2 M 0 (2 ^ M) false 0 0 else trigTerms M r2 M 1 rM false 0 0
  let v : Int := if useCos then s.1 else if r < 0 then -s.1 else s.1
  { mid := if quad ≥ 2 then -v else v, err := 4 * s.2 + 8 + rErr }

/-- The result both ends of an interval round to: magnitudes just above `lo` and just below `hi`, times 2^e. -/
def agree (F : Fmt) (mode : Nat) (neg : Bool) (lo hi : Nat) (e : Int) : Option (Nat × Flags) :=
  if lo = 0 ∨ hi ≤ lo then none
  else
    let a := F.roundFin mode neg (2 * lo + 1) (e - 1)
    let b := F.roundFin mode neg (2 * hi - 1) (e - 1)
    if a = b then some a else none

/-- The interval of an approximation. -/
def ofApprox (F : Fmt) (mode M : Nat) (a : Approx) : Option (Nat × Flags) :=
  agree F mode (decide (a.mid < 0)) (a.mid.natAbs - a.err - 1) (a.mid.natAbs + a.err + 1) (-M)

/-- The first precision that settles a result. -/
def search (f : Nat → Option (Nat × Flags)) : List Nat → Option (Nat × Flags)
  | [] => none
  | M :: Ms => match f M with
    | some r => some r
    | none => search f Ms

/-- The precisions tried. -/
def precisions : List Nat := [96, 256, 640, 1280]

/-- A positive value below every rounding boundary of a format, and one just below 1. -/
def tiny (F : Fmt) (mode : Nat) : Nat × Flags := F.roundFin mode false 1 (-5000)
def belowOne (F : Fmt) (mode : Nat) (neg : Bool) : Nat × Flags := F.roundFin mode neg (2 ^ 400 - 1) (-400)

/-- exp(x) of a nonzero finite x. -/
def exp (F : Fmt) (mode : Nat) (n : Bool) (m : Nat) (e : Int) : Option (Nat × Flags) :=
  if 10 ≤ e + Nat.log2 m then some (if n then tiny F mode else F.roundFin mode false 1 5000)
  else search (fun M =>
    let p := expBounds (M + 80) m e
    if n then agree F mode false (2 ^ (2 * (M + 80) + 1600) / p.2) (2 ^ (2 * (M + 80) + 1600) / p.1 + 1) (-(M + 80 + 1600 : Nat))
    else agree F mode false p.1 p.2 (-(M + 80 : Nat))) precisions

/-- tanh(x) of a nonzero finite x. -/
def tanh (F : Fmt) (mode : Nat) (n : Bool) (m : Nat) (e : Int) : Option (Nat × Flags) :=
  if 7 ≤ e + Nat.log2 m then some (belowOne F mode n)
  else search (fun M =>
    let W := M + 80
    let p := expBounds W m (e + 1)
    let one := 2 ^ W
    agree F mode n ((p.1 - one) * one / (p.1 + one)) ((p.2 - one) * one / (p.2 + one) + 1) (-W)) precisions

/-- σ(x) of a nonzero finite x. -/
def sigm (F : Fmt) (mode : Nat) (n : Bool) (m : Nat) (e : Int) : Option (Nat × Flags) :=
  if 10 ≤ e + Nat.log2 m then some (if n then tiny F mode else belowOne F mode false)
  else search (fun M =>
    let W := M + 80
    let p := expBounds W m e
    let one := 2 ^ W
    if n then agree F mode false (2 ^ (2 * W + 1600) / (one + p.2)) (2 ^ (2 * W + 1600) / (one + p.1) + 1) (-(W + 1600 : Nat))
    else agree F mode false (p.1 * 2 ^ W / (one + p.1)) (p.2 * 2 ^ W / (one + p.2) + 1) (-W)) precisions

end Trans

/-- The special functions of R118. -/
inductive Special where
  | exp | log | sin | cos | tanh | sigm
  deriving DecidableEq, Repr

namespace Special

def tag : Special → Nat
  | .exp => 0 | .log => 1 | .sin => 2 | .cos => 3 | .tanh => 4 | .sigm => 5

/-- The value of a function at a nonzero finite argument, other than log(1) and log of a negative number. -/
def settled (f : Special) (F : Fmt) (mode : Nat) (n : Bool) (m : Nat) (e : Int) : Option (Nat × Flags) :=
  match f with
  | .exp => Trans.exp F mode n m e
  | .log => Trans.search (fun M => Trans.ofApprox F mode M (Trans.logApprox M m e)) Trans.precisions
  | .sin => Trans.search (fun M =>
      let a := Trans.trig M m e false
      Trans.ofApprox F mode M { a with mid := if n then -a.mid else a.mid }) Trans.precisions
  | .cos => Trans.search (fun M => Trans.ofApprox F mode M (Trans.trig M m e true)) Trans.precisions
  | .tanh => Trans.tanh F mode n m e
  | .sigm => Trans.sigm F mode n m e

/-- A special function at a nonzero finite argument; a result that the search does not settle is free (assumption log
7). -/
def finite (f : Special) (F : Fmt) (mode : Nat) (n : Bool) (m : Nat) (e : Int) : Nat × Flags :=
  match f.settled F mode n m e with
  | some r => r
  | none => ((Config.specialFree f.tag mode (BitVec.ofInt 64 (e * 2 ^ 32 + m))).toNat % 2 ^ F.width, Flags.nx)

/-- A special function with its special values (R118). -/
def eval (f : Special) (F : Fmt) (mode : Nat) (v : FpVal) : Nat × Flags :=
  match v with
  | .nan sg => F.nanOf sg
  | .inf n =>
    match f with
    | .exp => if n then (0, 0) else (F.inf, 0)
    | .log => if n then (F.canon, Flags.nv) else (F.inf, 0)
    | .sin | .cos => (F.canon, Flags.nv)
    | .tanh => F.round mode (.fin n 1 0)
    | .sigm => if n then (0, 0) else F.round mode .one
  | .fin n m e =>
    if m = 0 then
      match f with
      | .exp | .cos => F.round mode .one
      | .log => (F.signBit + F.inf, Flags.dz)
      | .sin | .tanh => F.round mode v
      | .sigm => F.round mode (.fin false 1 (-1))
    else
      match f with
      | .log => if n then (F.canon, Flags.nv) else if FpVal.eq v .one then (0, 0) else f.finite F mode n m e
      | _ => f.finite F mode n m e

end Special

/-- 1 / √x of a nonzero magnitude to at least `p` bits. -/
def rsqrtMag (p m : Nat) (e : Int) : Nat × Int :=
  let m' := if e % 2 = 0 then m else 2 * m
  let e' := if e % 2 = 0 then e else e - 1
  let P := p + 3 + Nat.log2 m'
  let q := isqrt (2 ^ (2 * P) / m')
  sticky q (q * q * m' != 2 ^ (2 * P)) (-(P : Int) - e' / 2)

/-- The correctly rounded reciprocal square root (04_vector R117). -/
def Fmt.rsqrt (F : Fmt) (mode : Nat) (a : FpVal) : Nat × Flags :=
  match a with
  | .nan sg => F.nanOf sg
  | .inf n => if n then (F.canon, Flags.nv) else (0, 0)
  | .fin n m e =>
    if m = 0 then ((if n then F.signBit else 0) + F.inf, Flags.dz)
    else if n then (F.canon, Flags.nv)
    else
      let q := rsqrtMag F.prec m e
      F.round mode (.fin false q.1 q.2)

end Sys2Proof.Machine
end

