-- ==== Sys2Proof/Machine/VectorFp.lean ====
section
/-!
DEFINITION. The floating-point vector instructions: jets, recurrences, special functions, compares, conversions,
microscaled blocks and reductions (04_vector R113-R125, 00_scope R16, 03_formats R103).
-/

namespace Sys2Proof.Machine

open Sys2Proof

/-- The format of a vector floating-point type; the default is .f32 (R113). -/
def vecFmt (t : Ty) : Fmt :=
  match t with
  | .f16 => .fp16
  | .bf16 => .bf16
  | _ => .fp32

namespace JetFp

/-- Coefficient k of a jet of values. -/
def at_ (a : List FpVal) (k : Nat) : FpVal := a.getD k .zero

/-- An operation on the running sum, with its flags. -/
def chain (F : Fmt) (f : FpVal → Nat × Flags) (s : Nat × Flags) : Nat × Flags :=
  let r := f (F.val s.1)
  (r.1, s.2 ||| r.2)

/-- FMA(x(i), y(i), s) for i from lo to hi in ascending order. -/
def fmaFrom (F : Fmt) (mode : Nat) (x y : Nat → FpVal) (lo hi : Nat) (s : Nat × Flags) : Nat × Flags :=
  (List.range' lo (hi + 1 - lo)).foldl (fun s i => chain F (fun v => F.fma mode (x i) (y i) v) s) s

/-- Cauchy (00_scope R16). -/
def cauchy (F : Fmt) (mode : Nat) (a b : List FpVal) (k : Nat) (s0 : Option FpVal) : Nat × Flags :=
  let s := match s0 with
    | none => F.mul mode (at_ a 0) (at_ b k)
    | some c => F.fma mode (at_ a 0) (at_ b k) c
  fmaFrom F mode (fun i => at_ a i) (fun i => at_ b (k - i)) 1 k s

/-- WDot (R115). -/
def wdot (F : Fmt) (mode : Nat) (x y : List FpVal) (k m : Nat) : Nat × Flags :=
  (List.range' 2 (m - 1)).foldl (fun s (i : Nat) =>
    let p := F.mul mode (.ofInt (i : Nat)) (at_ x i)
    let r := F.fma mode (F.val p.1) (at_ y (k - i)) (F.val s.1)
    (r.1, s.2 ||| p.2 ||| r.2)) (F.mul mode (at_ x 1) (at_ y (k - 1)))

/-- Quot of a running value and a divisor (R115). -/
def quot (F : Fmt) (mode : Nat) (d : FpVal) (s : Nat × Flags) : Nat × Flags := chain F (fun v => F.div mode v d) s
def quotNeg (F : Fmt) (mode : Nat) (d : FpVal) (s : Nat × Flags) : Nat × Flags := chain F (fun v => F.div mode v.neg d) s

/-- The values formed so far. -/
def vals (F : Fmt) (rs : List (Nat × Flags)) : List FpVal := rs.map fun r => F.val r.1

/-- A running sum that starts at an operand: its encoding, without rounding. A signalling NaN there raises NV in the
FMA or Quot that takes it (00_scope R15, 02_scalar R67); its quiet encoding no longer would, so the flag stands here. -/
def enc (F : Fmt) (v : FpVal) : Nat × Flags := ((F.round 0 v).1, if v.isSig then Flags.nv else 0)

/-- VDIV (R116). -/
def div (F : Fmt) (mode J : Nat) (a b : List FpVal) : List (Nat × Flags) :=
  recurrence J fun rs k =>
    let q := vals F rs
    if k = 0 then F.div mode (at_ a 0) (at_ b 0)
    else quot F mode (at_ b 0) (fmaFrom F mode (fun i => (at_ b i).neg) (fun i => at_ q (k - i)) 1 k (enc F (at_ a k)))

/-- VRCP (R116). -/
def rcp (F : Fmt) (mode J : Nat) (a : List FpVal) : List (Nat × Flags) :=
  recurrence J fun rs k =>
    let r := vals F rs
    if k = 0 then F.div mode .one (at_ a 0)
    else quotNeg F mode (at_ a 0)
      (fmaFrom F mode (fun i => at_ a i) (fun i => at_ r (k - i)) 2 k (F.mul mode (at_ a 1) (at_ r (k - 1))))

/-- VSQRT (R117): the flags of 2 b[0] go into the plane that uses it first. -/
def sqrt (F : Fmt) (mode J : Nat) (a : List FpVal) : List (Nat × Flags) :=
  recurrence J fun rs k =>
    let b := vals F rs
    if k = 0 then F.sqrt mode (at_ a 0)
    else
      let t := F.mul mode (.ofInt 2) (at_ b 0)
      let r := quot F mode (F.val t.1)
        (fmaFrom F mode (fun i => (at_ b i).neg) (fun i => at_ b (k - i)) 1 (k - 1) (enc F (at_ a k)))
      (r.1, if k = 1 then r.2 ||| t.2 else r.2)

/-- VRSQRT (R117): the flags of q[k] go into plane k. -/
def rsqrt (F : Fmt) (mode J : Nat) (a : List FpVal) : List (Nat × Flags) :=
  let qs := sqrt F mode J a
  let q := vals F qs
  recurrence J fun rs k =>
    let r := vals F rs
    if k = 0 then
      let v := F.rsqrt mode (at_ a 0)
      (v.1, v.2 ||| (qs.getD 0 (0, 0)).2)
    else
      let v := quotNeg F mode (at_ q 0)
        (fmaFrom F mode (fun i => at_ q i) (fun i => at_ r (k - i)) 2 k (F.mul mode (at_ q 1) (at_ r (k - 1))))
      (v.1, v.2 ||| (qs.getD k (0, 0)).2)

/-- VEXP (R119). -/
def exp (F : Fmt) (mode J : Nat) (a : List FpVal) : List (Nat × Flags) :=
  recurrence J fun rs k =>
    if k = 0 then Special.exp.eval F mode (at_ a 0)
    else quot F mode (.ofInt (k : Nat)) (wdot F mode a (vals F rs) k k)

/-- VLOG (R119). -/
def log (F : Fmt) (mode J : Nat) (a : List FpVal) : List (Nat × Flags) :=
  recurrence J fun rs k =>
    if k = 0 then Special.log.eval F mode (at_ a 0)
    else
      let v := if k = 1 then enc F (at_ a 1)
        else chain F (fun w => F.add mode (at_ a k) w.neg) (quot F mode (.ofInt (k : Nat)) (wdot F mode (vals F rs) a k (k - 1)))
      quot F mode (at_ a 0) v

/-- VSINCOS (R120): the sine and cosine planes, and the flags of both. -/
def sincos (F : Fmt) (mode J : Nat) (a : List FpVal) : List ((Nat × Flags) × (Nat × Flags)) :=
  (List.range (J + 1)).foldl (fun (rs : List ((Nat × Flags) × (Nat × Flags))) (k : Nat) =>
    let S := vals F (rs.map (·.1))
    let C := vals F (rs.map (·.2))
    if k = 0 then rs ++ [(Special.sin.eval F mode (at_ a 0), Special.cos.eval F mode (at_ a 0))]
    else
      let sk := quot F mode (.ofInt (k : Nat)) (wdot F mode a C k k)
      let ck := quotNeg F mode (.ofInt (k : Nat)) (wdot F mode a S k k)
      rs ++ [(sk, ck)]) []

/-- u[0] .. u[J-1] from y, by R121; `tanh` chooses u = 1 − y² or y − y². -/
def auxPlane (F : Fmt) (mode : Nat) (tanh : Bool) (y : List FpVal) (k : Nat) : Nat × Flags :=
  if tanh then
    if k = 1 then F.fma mode (at_ y 0).neg (at_ y 0) .one
    else fmaFrom F mode (fun i => (at_ y i).neg) (fun i => at_ y (k - 1 - i)) 1 (k - 1)
      (F.mul mode (at_ y 0).neg (at_ y (k - 1)))
  else fmaFrom F mode (fun i => (at_ y i).neg) (fun i => at_ y (k - 1 - i)) 0 (k - 1) (enc F (at_ y (k - 1)))

/-- VTANH and VSIGM (R121): the planes of y and u so far; the flags of u[k-1] go into plane k. -/
def logistic (F : Fmt) (mode J : Nat) (tanh : Bool) (a : List FpVal) : List (Nat × Flags) :=
  ((List.range (J + 1)).foldl (fun (st : List (Nat × Flags) × List FpVal) k =>
    let y := vals F st.1
    if k = 0 then ([(if tanh then Special.tanh else Special.sigm).eval F mode (at_ a 0)], [])
    else
      let u := auxPlane F mode tanh y k
      let us := st.2 ++ [F.val u.1]
      let r := quot F mode (.ofInt (k : Nat)) (wdot F mode a us k k)
      (st.1 ++ [(r.1, r.2 ||| u.2)], us)) ([], [])).1

/-- Which jet VMIN or VMAX takes by plane 0 (R113): none when both are NaN. -/
def pick (F : Fmt) (greater : Bool) (a b : Nat) : Option Bool :=
  let x := F.val a
  let y := F.val b
  if x.isNan && y.isNan then none
  else if x.isNan then some false
  else if y.isNan then some true
  else if greater then some (!FpVal.below x y) else some (!FpVal.below y x)

/-- A copied encoding: a NaN becomes CanonNaN (R113). -/
def copied (F : Fmt) (x : Nat) : Nat := if (F.val x).isNan then F.canon else x

/-- VMIN and VMAX of two jets (R113). -/
def select (F : Fmt) (greater : Bool) (a b : Jet) : Jet × List Flags :=
  let nv : Flags := if (F.val (a.plane 0)).isSig || (F.val (b.plane 0)).isSig then Flags.nv else 0
  let out := match pick F greater (a.plane 0) (b.plane 0) with
    | some true => a
    | some false => b
    | none => F.canon :: a.tail
  (out.map (copied F), [nv])

end JetFp

/-- Results by plane as a jet and its flags. -/
def ofPlanes (rs : List (Nat × Flags)) : Jet × List Flags := (rs.map (·.1), rs.map (·.2))

/-- The values of one lane of a group, for planes 0 to J. -/
def laneVals (F : Fmt) (J : Nat) (xs : List VWord) (i : Nat) : List FpVal := ((jetAt F.width xs i).take (J + 1)).map F.val

/-- d from the jets of A. -/
def vecFp1 (i : Instr) (g : Guard) (t : Ty) (d a : VReg) (f : Fmt → Nat → Nat → List FpVal → List (Nat × Flags)) (s : State) :
    Out :=
  vector i (fun s =>
    let F := vecFmt t
    let xs := s.group a s.gsize
    s.vecWrite F.width g d s.gsize fun l => ofPlanes (f F s.rm s.jet (laneVals F s.jet xs l))) s

/-- d from the jets of A and B. -/
def vecFp2 (i : Instr) (g : Guard) (t : Ty) (d a b : VReg)
    (f : Fmt → Nat → Nat → List FpVal → List FpVal → List (Nat × Flags)) (s : State) : Out :=
  vector i (fun s =>
    let F := vecFmt t
    let xs := s.group a s.gsize
    let ys := s.group b s.gsize
    s.vecWrite F.width g d s.gsize fun l => ofPlanes (f F s.rm s.jet (laneVals F s.jet xs l) (laneVals F s.jet ys l))) s

/-- The jet FMA family (R114). -/
def vecFma (i : Instr) (g : Guard) (t : Ty) (d a b c : VReg) (na nc : Bool) (s : State) : Out :=
  vector i (fun s =>
    let F := vecFmt t
    let xs := s.group a s.gsize
    let ys := s.group b s.gsize
    let zs := s.group c s.gsize
    let flip (n : Bool) (v : FpVal) : FpVal := if n then v.neg else v
    s.vecWrite F.width g d s.gsize fun l =>
      let x := (laneVals F s.jet xs l).map (flip na)
      let y := laneVals F s.jet ys l
      let z := (laneVals F s.jet zs l).map (flip nc)
      planes s.jet fun k => JetFp.cauchy F s.rm x y k (some (JetFp.at_ z k))) s

/-- VMIN and VMAX (R113). -/
def vecPick (i : Instr) (g : Guard) (t : Ty) (d a b : VReg) (greater : Bool) (s : State) : Out :=
  vector i (fun s =>
    let F := vecFmt t
    let xs := (s.group a s.gsize).take (s.jet + 1)
    let ys := (s.group b s.gsize).take (s.jet + 1)
    s.vecWrite F.width g d s.gsize fun l => JetFp.select F greater (jetAt F.width xs l) (jetAt F.width ys l)) s

/-- VNEG and VABS (R113): no flags; VABS decides by the sign bit of plane 0. -/
def vecSign (i : Instr) (g : Guard) (t : Ty) (d a : VReg) (always : Bool) (s : State) : Out :=
  vector i (fun s =>
    let F := vecFmt t
    let xs := (s.group a s.gsize).take (s.jet + 1)
    s.vecWrite F.width g d s.gsize fun l =>
      let x := jetAt F.width xs l
      plain (if always || decide (F.signBit ≤ x.plane 0) then x.map F.negate else x.map (JetFp.copied F))) s

/-- VCMP (R122): the condition, and whether a quiet NaN raises NV. -/
def vecCmp (i : Instr) (g : Guard) (t : Ty) (d : PReg) (a b : VReg) (quiet : Bool) (f : FpVal → FpVal → Bool) (s : State) :
    Out :=
  vector i (fun s =>
    let F := vecFmt t
    let x := s.vreg a
    let y := s.vreg b
    let v (r : VWord) (l : Nat) : FpVal := F.val (lane F.width r l)
    let nv := (List.range (256 / F.width)).any fun l => s.guardLane g l &&
      ((v x l).isSig || (v y l).isSig || (quiet && ((v x l).isNan || (v y l).isNan)))
    let s' := s.setPred d (s.lanePred F.width g fun l => f (v x l) (v y l))
    if nv then s'.raisePlane 0 Flags.nv else s') s

/-! ## Conversion (R123, R124) -/

/-- One plane of VCVT. -/
def vcvtPlane (t src : Ty) (mode x : Nat) : Nat × Flags :=
  let v := if src.isInt then FpVal.ofInt (intValue src x) else (vecFmt src).val x
  if t.isInt then toInt t.bits (isSigned t) mode v else (vecFmt t).convert mode v

/-- VCVT (R123): Guard(i) governs the pair of lanes. -/
def vcvtLanes (s : State) (g : Guard) (t : Ty) (a : VReg) (src : Ty) (q mode : Nat) : List (Option (Jet × List Flags)) :=
  let xs := s.group a s.gsize
  let L := 256 / max src.bits t.bits
  let pair (i : Nat) : Jet × List Flags :=
    let from_ := if src.bits < t.bits then q * L + i else i
    let x := jetAt src.bits xs from_
    planes s.jet fun k => vcvtPlane t src mode (x.plane k)
  (List.range (256 / t.bits)).map fun l =>
    let base := if t.bits < src.bits then q * L else 0
    if base ≤ l ∧ l < base + L ∧ s.guardLane g (l - base) = true then some (pair (l - base)) else none

/-! ## Reductions (R125, 03_formats R103) -/

/-- One level of the tree. -/
def pairUp {α : Type} (f : α → α → α) : List α → List α
  | x :: y :: xs => f x y :: pairUp f xs
  | xs => xs

/-- The tree over 8, 16 or 32 lanes. -/
def redTree {α : Type} (f : α → α → α) (dflt : α) (xs : List α) : α :=
  ((List.range (Nat.log2 xs.length)).foldl (fun ys _ => pairUp f ys) xs).headD dflt

/-- The inputs of a reduction: a disabled lane enters as the identity. -/
def redInputs (s : State) (n : Nat) (g : Guard) (a : VReg) (ident : Jet) : List Jet :=
  let xs := (s.group a s.gsize).take (s.jet + 1)
  (List.range (256 / n)).map fun i => if s.guardLane g i then jetAt n xs i else ident

/-- Write a reduction's destination in full (R125). -/
def redWrite (s : State) (n : Nat) (d : VReg) (x : Jet) (fl : List Flags) : State :=
  let s' := s.setGroup d ((List.range s.gsize).map fun k => joinLanes n [x.getD k 0])
  if fl.all (· == 0) then s' else s'.raisePlanes 0 fl

/-- A sum by plane, each in its own tree. -/
def redAddFp (F : Fmt) (mode J : Nat) (xs : List Jet) : Jet × List Flags :=
  planes J fun k => redTree (fun x y =>
    let r := F.add mode (F.val x.1) (F.val y.1)
    (r.1, x.2 ||| y.2 ||| r.2)) (0, 0) (xs.map fun x => (x.plane k, 0))

/-- A choice of whole jets. -/
def redPickFp (F : Fmt) (greater : Bool) (xs : List Jet) : Jet × List Flags :=
  redTree (fun x y =>
    let r := JetFp.select F greater x.1 y.1
    (r.1, [x.2.getD 0 0 ||| y.2.getD 0 0 ||| r.2.getD 0 0])) ([], []) (xs.map fun x => (x, []))

/-! ## Meanings -/

/-- VADD (R113). -/
def execVadd (g : Guard) (t : Ty) (d a b : VReg) (s : State) : Out :=
  vecFp2 (.vadd g t d a b) g t d a b (fun F m J x y => (List.range (J + 1)).map fun k => F.add m (JetFp.at_ x k) (JetFp.at_ y k)) s

/-- VSUB (R113). -/
def execVsub (g : Guard) (t : Ty) (d a b : VReg) (s : State) : Out :=
  vecFp2 (.vsub g t d a b) g t d a b (fun F m J x y => (List.range (J + 1)).map fun k => F.add m (JetFp.at_ x k) (JetFp.at_ y k).neg) s

/-- VMUL (R113). -/
def execVmul (g : Guard) (t : Ty) (d a b : VReg) (s : State) : Out :=
  vecFp2 (.vmul g t d a b) g t d a b (fun F m J x y => (List.range (J + 1)).map fun k => JetFp.cauchy F m x y k none) s

/-- VMIN (R113). -/
def execVmin (g : Guard) (t : Ty) (d a b : VReg) (s : State) : Out :=
  vecPick (.vmin g t d a b) g t d a b false s

/-- VMAX (R113). -/
def execVmax (g : Guard) (t : Ty) (d a b : VReg) (s : State) : Out :=
  vecPick (.vmax g t d a b) g t d a b true s

/-- VNEG (R113). -/
def execVneg (g : Guard) (t : Ty) (d a : VReg) (s : State) : Out :=
  vecSign (.vneg g t d a) g t d a true s

/-- VABS (R113). -/
def execVabs (g : Guard) (t : Ty) (d a : VReg) (s : State) : Out :=
  vecSign (.vabs g t d a) g t d a false s

/-- VFMA (R114). -/
def execVfma (g : Guard) (t : Ty) (d a b c : VReg) (s : State) : Out :=
  vecFma (.vfma g t d a b c) g t d a b c false false s

/-- VFMS (R114). -/
def execVfms (g : Guard) (t : Ty) (d a b c : VReg) (s : State) : Out :=
  vecFma (.vfms g t d a b c) g t d a b c false true s

/-- VFNMA (R114). -/
def execVfnma (g : Guard) (t : Ty) (d a b c : VReg) (s : State) : Out :=
  vecFma (.vfnma g t d a b c) g t d a b c true false s

/-- VFNMS (R114). -/
def execVfnms (g : Guard) (t : Ty) (d a b c : VReg) (s : State) : Out :=
  vecFma (.vfnms g t d a b c) g t d a b c true true s

/-- VDIV (R116). -/
def execVdiv (g : Guard) (t : Ty) (d a b : VReg) (s : State) : Out :=
  vecFp2 (.vdiv g t d a b) g t d a b JetFp.div s

/-- VRCP (R116). -/
def execVrcp (g : Guard) (t : Ty) (d a : VReg) (s : State) : Out :=
  vecFp1 (.vrcp g t d a) g t d a JetFp.rcp s

/-- VSQRT (R117). -/
def execVsqrt (g : Guard) (t : Ty) (d a : VReg) (s : State) : Out :=
  vecFp1 (.vsqrt g t d a) g t d a JetFp.sqrt s

/-- VRSQRT (R117). -/
def execVrsqrt (g : Guard) (t : Ty) (d a : VReg) (s : State) : Out :=
  vecFp1 (.vrsqrt g t d a) g t d a JetFp.rsqrt s

/-- VEXP (R119). -/
def execVexp (g : Guard) (t : Ty) (d a : VReg) (s : State) : Out :=
  vecFp1 (.vexp g t d a) g t d a JetFp.exp s

/-- VLOG (R119). -/
def execVlog (g : Guard) (t : Ty) (d a : VReg) (s : State) : Out :=
  vecFp1 (.vlog g t d a) g t d a JetFp.log s

/-- VSINCOS (R120): the sine jet, then the cosine jet. -/
def execVsincos (g : Guard) (t : Ty) (d a : VReg) (s : State) : Out :=
  vector (.vsincos g t d a) (fun s =>
    let F := vecFmt t
    let G := s.gsize
    let xs := s.group a G
    let pad (x : Jet) : Jet := x ++ List.replicate (G - x.length) 0
    s.vecWrite F.width g d (2 * G) fun l =>
      let r := JetFp.sincos F s.rm s.jet (laneVals F s.jet xs l)
      (pad (r.map (·.1.1)) ++ r.map (·.2.1), r.map fun x => x.1.2 ||| x.2.2)) s

/-- VTANH (R121). -/
def execVtanh (g : Guard) (t : Ty) (d a : VReg) (s : State) : Out :=
  vecFp1 (.vtanh g t d a) g t d a (fun F m J x => JetFp.logistic F m J true x) s

/-- VSIGM (R121). -/
def execVsigm (g : Guard) (t : Ty) (d a : VReg) (s : State) : Out :=
  vecFp1 (.vsigm g t d a) g t d a (fun F m J x => JetFp.logistic F m J false x) s

/-- VCMP.EQ (R122). -/
def execVcmpEq (g : Guard) (t : Ty) (d : PReg) (a b : VReg) (s : State) : Out :=
  vecCmp (.vcmpEq g t d a b) g t d a b false (fun x y => FpVal.eq x y) s

/-- VCMP.NE (R122). -/
def execVcmpNe (g : Guard) (t : Ty) (d : PReg) (a b : VReg) (s : State) : Out :=
  vecCmp (.vcmpNe g t d a b) g t d a b false (fun x y => !FpVal.eq x y) s

/-- VCMP.LT (R122). -/
def execVcmpLt (g : Guard) (t : Ty) (d : PReg) (a b : VReg) (s : State) : Out :=
  vecCmp (.vcmpLt g t d a b) g t d a b true (fun x y => FpVal.lt x y) s

/-- VCMP.LE (R122). -/
def execVcmpLe (g : Guard) (t : Ty) (d : PReg) (a b : VReg) (s : State) : Out :=
  vecCmp (.vcmpLe g t d a b) g t d a b true (fun x y => FpVal.lt x y || FpVal.eq x y) s

/-- VSEL (R122). -/
def execVsel (g : Guard) (d a b : VReg) (c : PReg) (width : BitVec 2) (s : State) : Out :=
  vector (.vsel g d a b c width) (fun s =>
    let n := 8 * 2 ^ width.toNat
    let xs := (s.group a s.gsize).take (s.jet + 1)
    let ys := (s.group b s.gsize).take (s.jet + 1)
    s.vecWrite n g d s.gsize fun l => plain (if (s.pred c).getLsbD l then jetAt n xs l else jetAt n ys l)) s

/-- VCVT (R123). -/
def execVcvt (g : Guard) (t : Ty) (d a : VReg) (src : Ty) (q : BitVec 2) (rm : BitVec 3) (s : State) : Out :=
  vector (.vcvt g t d a src q rm) (fun s =>
    s.writeLanes t.bits d s.gsize (vcvtLanes s g t a src q.toNat (modeOf s rm.toNat))) s

/-- VQMX (R124): guarded as a whole. -/
def execVqmx (g : Guard) (d a : VReg) (b : SReg) (fmt : BitVec 3) (s : State) : Out :=
  instr (.vqmx g d a b fmt) g (fun s =>
    let xs := (List.range 32).map fun i => Fmt.fp32.val (lane 32 (s.vreg (a + BitVec.ofNat 5 (i / 8))) (i % 8))
    let r := Mx.quantBlock fmt.toNat s.rm xs
    let s' := (s.setVreg d (BitVec.ofNat 256 (Mx.pack (Mx.elt fmt.toNat).bits r.2.1))).setReg b (BitVec.ofNat 64 r.1)
    .done ((s'.raisePlane 0 r.2.2).count 4 1)) s

/-- VDQMX (R124): guarded as a whole. -/
def execVdqmx (g : Guard) (d a : VReg) (b : SReg) (fmt : BitVec 3) (s : State) : Out :=
  instr (.vdqmx g d a b fmt) g (fun s =>
    let x := (s.vreg a).toNat
    let scale := (s.reg b).toNat % 256
    let rs := (List.range 32).map fun i => Mx.dequant fmt.toNat s.rm scale (Mx.unpack (Mx.elt fmt.toNat).bits x i)
    let s' := s.setGroup d ((List.range 4).map fun r => joinLanes 32 ((List.range 8).map fun i => (rs.getD (8 * r + i) (0, 0)).1))
    .done ((s'.raisePlane 0 (rs.foldl (fun f r => f ||| r.2) 0)).count 4 1)) s

end Sys2Proof.Machine
end

