-- ==== Sys2Proof/Machine/VectorInt.lean ====
section
/-!
DEFINITION. The packed integer, dot-product and complex vector instructions, and the reductions (04_vector R125-R130).
-/

namespace Sys2Proof.Machine

open Sys2Proof

namespace JetInt

/-- The exact value of a lane in a signedness (R126). -/
def val (sg : Bool) (n x : Nat) : Int := if sg && decide (2 ^ (n - 1) ≤ x) then (x : Int) - (2 ^ n : Nat) else x

/-- Wrap(n, z). -/
def wrap (n : Nat) (z : Int) : Nat := (z % (2 ^ n : Nat)).toNat

/-- SatS(n, z) and SatZ(n, z), as values. -/
def clamp (sg : Bool) (n : Nat) (z : Int) : Int :=
  if sg then max (-(2 ^ (n - 1) : Nat)) (min ((2 ^ (n - 1) : Nat) - 1) z) else max 0 (min ((2 ^ n : Nat) - 1) z)
def sat (sg : Bool) (n : Nat) (z : Int) : Nat := wrap n (clamp sg n z)

/-- The exact Cauchy sum of two jets at plane k (R127). -/
def cauchy (sg : Bool) (n : Nat) (a b : Jet) (k : Nat) : Int :=
  (List.range (k + 1)).foldl (fun s j => s + val sg n (a.plane j) * val sg n (b.plane (k - j))) 0

end JetInt

/-- The jets of operand B: a group, or the constant jet of an immediate (R126). -/
def opJets (s : State) (n : Nat) (b : OpBV) (l : Nat) : Jet :=
  match b with
  | .reg r => jetAt n (s.group r s.gsize) l
  | .imm16 v => JetInt.wrap n v.toInt :: List.replicate 7 0

/-- d[k] from plane k of a, plane k of b and plane 0 of b (R126). -/
def vecInt (i : Instr) (g : Guard) (t : Ty) (d a : VReg) (b : OpBV) (f : Bool → Nat → Nat → Nat → Nat → Nat) (s : State) : Out :=
  vector i (fun s =>
    let n := t.bits
    let xs := s.group a s.gsize
    let ys := (List.range (256 / n)).map (opJets s n b)
    s.vecWrite n g d s.gsize fun l =>
      let x := jetAt n xs l
      let y := ys.getD l []
      plain ((List.range (s.jet + 1)).map fun k => f (isSigned t) n (x.plane k) (y.plane k) (y.plane 0))) s

/-- VMIN and VMAX: the whole jet by plane 0 (R126). -/
def vecIntPick (i : Instr) (g : Guard) (t : Ty) (d a : VReg) (b : OpBV) (f : Int → Int → Bool) (s : State) : Out :=
  vector i (fun s =>
    let n := t.bits
    let xs := s.group a s.gsize
    let ys := (List.range (256 / n)).map (opJets s n b)
    s.vecWrite n g d s.gsize fun l =>
      let x := jetAt n xs l
      let y := ys.getD l []
      plain (List.take (s.jet + 1)
        (if f (JetInt.val (isSigned t) n (x.plane 0)) (JetInt.val (isSigned t) n (y.plane 0)) then x else y))) s

/-- The packed compares (R126). -/
def vecIntCmp (i : Instr) (g : Guard) (t : Ty) (d : PReg) (a : VReg) (b : OpBV) (f : Int → Int → Bool) (s : State) : Out :=
  vector i (fun s =>
    let n := t.bits
    let x := s.vreg a
    let ys := (List.range (256 / n)).map (opJets s n b)
    s.setPred d (s.lanePred n g fun l => f (JetInt.val (isSigned t) n (lane n x l)) (JetInt.val (isSigned t) n ((ys.getD l []).plane 0)))) s

/-- d[k] from the jets of a, b and the old d (R127). -/
def vecIntMul (i : Instr) (g : Guard) (t : Ty) (d a b : VReg) (f : Bool → Nat → Jet → Jet → Jet → Nat → Nat) (s : State) :
    Out :=
  vector i (fun s =>
    let n := t.bits
    let xs := s.group a s.gsize
    let ys := s.group b s.gsize
    let ds := s.group d s.gsize
    s.vecWrite n g d s.gsize fun l =>
      plain ((List.range (s.jet + 1)).map fun k => f (isSigned t) n (jetAt n xs l) (jetAt n ys l) (jetAt n ds l) k)) s

/-- VDOT4 and VDOT2 (R128): g narrow lanes of width m into each lane of 32 bits. -/
def vecDot (i : Instr) (gd : Guard) (t : Ty) (d a b : VReg) (g m : Nat) (s : State) : Out :=
  vector i (fun s =>
    let xs := s.group a s.gsize
    let ys := s.group b s.gsize
    let ds := s.group d s.gsize
    s.vecWrite 32 gd d s.gsize fun l =>
      plain ((List.range (s.jet + 1)).map fun k =>
        JetInt.wrap 32 ((List.range g).foldl
          (fun z j => z + JetInt.cauchy (isSigned t) m (jetAt m xs (g * l + j)) (jetAt m ys (g * l + j)) k)
          ((jetAt 32 ds l).plane k : Int)))) s

/-! ## Complex lanes (R129, R130) -/

namespace Cplx

/-- The parts of a CI16 lane (03_formats R88). -/
def re (x : Nat) : Int := JetInt.val true 16 (x % 65536)
def im (x : Nat) : Int := JetInt.val true 16 (x / 65536)
def join (r i : Nat) : Nat := i * 65536 + r

/-- The exact complex Cauchy sum (R129). -/
def cauchy (a b : Jet) (k : Nat) : Int × Int :=
  (List.range (k + 1)).foldl (fun (p : Int × Int) j =>
    let x := a.plane j
    let y := b.plane (k - j)
    (p.1 + (re x * re y - im x * im y), p.2 + (re x * im y + im x * re y))) (0, 0)

/-- CR(x) (R129). -/
def scale (s : Nat) (x : Int) : Int := (x + (if s = 0 then 0 else (2 ^ (s - 1) : Nat))) / (2 ^ s : Nat)

def sat16 (z : Int) : Nat := JetInt.sat true 16 z

end Cplx

/-- d[k] from complex jets of a, b and the old d. -/
def vecCplx (i : Instr) (g : Guard) (d a b : VReg) (f : Jet → Jet → Jet → Nat → Nat) (s : State) : Out :=
  vector i (fun s =>
    let xs := s.group a s.gsize
    let ys := s.group b s.gsize
    let ds := s.group d s.gsize
    s.vecWrite 32 g d s.gsize fun l =>
      plain ((List.range (s.jet + 1)).map fun k => f (jetAt 32 xs l) (jetAt 32 ys l) (jetAt 32 ds l) k)) s

/-- VBFLY and VBFLYS (R130): `f` gives a part of the upper and of the lower output. -/
def vecBfly (i : Instr) (g : Guard) (d a b c : VReg) (up low : Int → Int → Nat) (s : State) : Out :=
  vector i (fun s =>
    let G := s.gsize
    let xs := s.group a G
    let ys := s.group b G
    let zs := s.group c G
    let pad (x : Jet) : Jet := x ++ List.replicate (G - x.length) 0
    s.vecWrite 32 g d (2 * G) fun l =>
      let x := jetAt 32 xs l
      let t (k : Nat) : Int × Int :=
        let p := Cplx.cauchy (jetAt 32 zs l) (jetAt 32 ys l) k
        ((p.1 + 16384) / 32768, (p.2 + 16384) / 32768)
      let out (f : Int → Int → Nat) : Jet := (List.range (s.jet + 1)).map fun k =>
        Cplx.join (f (Cplx.re (x.plane k)) (t k).1) (f (Cplx.im (x.plane k)) (t k).2)
      plain (pad (out up) ++ out low)) s

/-! ## Reductions (R125) -/

/-- The identity of a reduction in plane 0 (03_formats R103): 0 ADD, 1 MIN, 2 MAX. -/
def redIdentity (t : Ty) (op : Nat) : Nat :=
  if t.isInt then
    let n := t.bits
    if op = 0 then 0
    else if op = 1 then (if isSigned t then 2 ^ (n - 1) - 1 else 2 ^ n - 1)
    else if isSigned t then 2 ^ (n - 1) else 0
  else
    let F := vecFmt t
    if op = 0 then F.signBit else if op = 1 then F.inf else F.signBit + F.inf

/-- VRED (R125). -/
def vecRed (i : Instr) (g : Guard) (t : Ty) (d a : VReg) (op : Nat) (s : State) : Out :=
  vector i (fun s =>
    let n := t.bits
    let F := vecFmt t
    let J := s.jet
    let ident : Jet := redIdentity t op :: List.replicate 7 (if t.isInt then 0 else F.signBit)
    let xs := (redInputs s n g a ident).map fun x => x.take (J + 1)
    let r : Jet × List Flags :=
      if t.isInt then
        if op = 0 then
          plain ((List.range (J + 1)).map fun k => redTree (fun x y => (x + y) % 2 ^ n) 0 (xs.map fun (x : Jet) => x.plane k))
        else
          plain (redTree (fun x y =>
            let p := JetInt.val (isSigned t) n (x.plane 0)
            let q := JetInt.val (isSigned t) n (y.plane 0)
            if op = 1 then (if p ≤ q then x else y) else if q ≤ p then x else y) [] xs)
      else if op = 0 then redAddFp F s.rm J xs
      else redPickFp F (decide (op = 2)) xs
    redWrite s n d r.1 r.2) s

/-! ## Meanings -/

/-- VADD of integers (R126). -/
def execVaddInt (g : Guard) (t : Ty) (d a : VReg) (b : OpBV) (s : State) : Out :=
  vecInt (.vaddInt g t d a b) g t d a b (fun _ n x y _ => (x + y) % 2 ^ n) s

/-- VSUB of integers (R126). -/
def execVsubInt (g : Guard) (t : Ty) (d a : VReg) (b : OpBV) (s : State) : Out :=
  vecInt (.vsubInt g t d a b) g t d a b (fun _ n x y _ => (x + 2 ^ n - y) % 2 ^ n) s

/-- VAND of integers (R126). -/
def execVand (g : Guard) (t : Ty) (d a : VReg) (b : OpBV) (s : State) : Out :=
  vecInt (.vand g t d a b) g t d a b (fun _ _ x y _ => x &&& y) s

/-- VOR of integers (R126). -/
def execVor (g : Guard) (t : Ty) (d a : VReg) (b : OpBV) (s : State) : Out :=
  vecInt (.vor g t d a b) g t d a b (fun _ _ x y _ => x ||| y) s

/-- VXOR of integers (R126). -/
def execVxor (g : Guard) (t : Ty) (d a : VReg) (b : OpBV) (s : State) : Out :=
  vecInt (.vxor g t d a b) g t d a b (fun _ _ x y _ => x ^^^ y) s

/-- VSHL of integers (R126). -/
def execVshl (g : Guard) (t : Ty) (d a : VReg) (b : OpBV) (s : State) : Out :=
  vecInt (.vshl g t d a b) g t d a b (fun _ n x _ y => x * 2 ^ (y % n) % 2 ^ n) s

/-- VSHR of integers (R126). -/
def execVshr (g : Guard) (t : Ty) (d a : VReg) (b : OpBV) (s : State) : Out :=
  vecInt (.vshr g t d a b) g t d a b (fun _ n x _ y => x / 2 ^ (y % n)) s

/-- VSAR of integers (R126). -/
def execVsar (g : Guard) (t : Ty) (d a : VReg) (b : OpBV) (s : State) : Out :=
  vecInt (.vsar g t d a b) g t d a b (fun _ n x _ y => JetInt.wrap n (JetInt.val true n x / (2 ^ (y % n) : Nat))) s

/-- VADDS of integers (R126). -/
def execVadds (g : Guard) (t : Ty) (d a : VReg) (b : OpBV) (s : State) : Out :=
  vecInt (.vadds g t d a b) g t d a b (fun sg n x y _ => JetInt.sat sg n (JetInt.val sg n x + JetInt.val sg n y)) s

/-- VSUBS of integers (R126). -/
def execVsubs (g : Guard) (t : Ty) (d a : VReg) (b : OpBV) (s : State) : Out :=
  vecInt (.vsubs g t d a b) g t d a b (fun sg n x y _ => JetInt.sat sg n (JetInt.val sg n x - JetInt.val sg n y)) s

/-- VMIN of integers (R126). -/
def execVminInt (g : Guard) (t : Ty) (d a : VReg) (b : OpBV) (s : State) : Out :=
  vecIntPick (.vminInt g t d a b) g t d a b (fun x y => decide (x ≤ y)) s

/-- VMAX of integers (R126). -/
def execVmaxInt (g : Guard) (t : Ty) (d a : VReg) (b : OpBV) (s : State) : Out :=
  vecIntPick (.vmaxInt g t d a b) g t d a b (fun x y => decide (y ≤ x)) s

/-- VCMP.EQ of integers (R126). -/
def execVcmpEqInt (g : Guard) (t : Ty) (d : PReg) (a : VReg) (b : OpBV) (s : State) : Out :=
  vecIntCmp (.vcmpEqInt g t d a b) g t d a b (fun x y => x == y) s

/-- VCMP.NE of integers (R126). -/
def execVcmpNeInt (g : Guard) (t : Ty) (d : PReg) (a : VReg) (b : OpBV) (s : State) : Out :=
  vecIntCmp (.vcmpNeInt g t d a b) g t d a b (fun x y => x != y) s

/-- VCMP.LT of integers (R126). -/
def execVcmpLtInt (g : Guard) (t : Ty) (d : PReg) (a : VReg) (b : OpBV) (s : State) : Out :=
  vecIntCmp (.vcmpLtInt g t d a b) g t d a b (fun x y => decide (x < y)) s

/-- VCMP.LE of integers (R126). -/
def execVcmpLeInt (g : Guard) (t : Ty) (d : PReg) (a : VReg) (b : OpBV) (s : State) : Out :=
  vecIntCmp (.vcmpLeInt g t d a b) g t d a b (fun x y => decide (x ≤ y)) s

/-- VMUL of integers (R127). -/
def execVmulInt (g : Guard) (t : Ty) (d a b : VReg) (s : State) : Out :=
  vecIntMul (.vmulInt g t d a b) g t d a b (fun sg n x y _ k => JetInt.wrap n (JetInt.cauchy sg n x y k)) s

/-- VMULH (R127). -/
def execVmulh (g : Guard) (t : Ty) (d a b : VReg) (s : State) : Out :=
  vecIntMul (.vmulh g t d a b) g t d a b (fun sg n x y _ k => JetInt.wrap n (JetInt.cauchy sg n x y k / (2 ^ n : Nat))) s

/-- VMAC (R127). -/
def execVmac (g : Guard) (t : Ty) (d a b : VReg) (s : State) : Out :=
  vecIntMul (.vmac g t d a b) g t d a b (fun sg n x y old k => JetInt.wrap n ((old.plane k : Int) + JetInt.cauchy sg n x y k)) s

/-- VSAT (R127). -/
def execVsat (g : Guard) (t : Ty) (d a : VReg) (m : BitVec 6) (s : State) : Out :=
  vector (.vsat g t d a m) (fun s =>
    let n := t.bits
    let xs := s.group a s.gsize
    s.vecWrite n g d s.gsize fun l =>
      plain ((List.range (s.jet + 1)).map fun k =>
        JetInt.wrap n (JetInt.clamp (isSigned t) m.toNat (JetInt.val (isSigned t) n ((jetAt n xs l).plane k))))) s

/-- VDOT4 (R128). -/
def execVdot4 (g : Guard) (t : Ty) (d a b : VReg) (s : State) : Out :=
  vecDot (.vdot4 g t d a b) g t d a b 4 8 s

/-- VDOT2 (R128). -/
def execVdot2 (g : Guard) (t : Ty) (d a b : VReg) (s : State) : Out :=
  vecDot (.vdot2 g t d a b) g t d a b 2 16 s

/-- VCMUL (R129). -/
def execVcmul (g : Guard) (t : Ty) (d a b : VReg) (sh : BitVec 4) (s : State) : Out :=
  vecCplx (.vcmul g t d a b sh) g d a b (fun x y _ k =>
    let p := Cplx.cauchy x y k
    Cplx.join (Cplx.sat16 (Cplx.scale sh.toNat p.1)) (Cplx.sat16 (Cplx.scale sh.toNat p.2))) s

/-- VCMAC (R129). -/
def execVcmac (g : Guard) (t : Ty) (d a b : VReg) (sh : BitVec 4) (s : State) : Out :=
  vecCplx (.vcmac g t d a b sh) g d a b (fun x y old k =>
    let p := Cplx.cauchy x y k
    Cplx.join (Cplx.sat16 (Cplx.re (old.plane k) + Cplx.scale sh.toNat p.1))
      (Cplx.sat16 (Cplx.im (old.plane k) + Cplx.scale sh.toNat p.2))) s

/-- VCONJ (R129). -/
def execVconj (g : Guard) (t : Ty) (d a : VReg) (s : State) : Out :=
  vecCplx (.vconj g t d a) g d a a (fun x _ _ k =>
    Cplx.join (x.plane k % 65536) (Cplx.sat16 (-Cplx.im (x.plane k)))) s

/-- VBFLY (R130). -/
def execVbfly (g : Guard) (t : Ty) (d a b c : VReg) (s : State) : Out :=
  vecBfly (.vbfly g t d a b c) g d a b c (fun a t => JetInt.wrap 16 (a + t))
    (fun a t => JetInt.wrap 16 (a - t)) s

/-- VBFLYS (R130). -/
def execVbflys (g : Guard) (t : Ty) (d a b c : VReg) (s : State) : Out :=
  vecBfly (.vbflys g t d a b c) g d a b c (fun a t => Cplx.sat16 ((a + t + 1) / 2))
    (fun a t => Cplx.sat16 ((a - t + 1) / 2)) s

/-- VRED.ADD (R125). -/
def execVredAdd (g : Guard) (t : Ty) (d a : VReg) (s : State) : Out :=
  vecRed (.vredAdd g t d a) g t d a 0 s

/-- VRED.MIN (R125). -/
def execVredMin (g : Guard) (t : Ty) (d a : VReg) (s : State) : Out :=
  vecRed (.vredMin g t d a) g t d a 1 s

/-- VRED.MAX (R125). -/
def execVredMax (g : Guard) (t : Ty) (d a : VReg) (s : State) : Out :=
  vecRed (.vredMax g t d a) g t d a 2 s

end Sys2Proof.Machine
end

