-- ==== Sys2Proof/Machine/VectorMove.lean ====
section
/-!
DEFINITION. The permutes, moves and jet instructions (04_vector R131-R133).
-/

namespace Sys2Proof.Machine

open Sys2Proof

/-- One lane mapping applied to every plane: from the planes of a source lane (R131). -/
def vecPermute (i : Instr) (g : Guard) (t : Ty) (d a : VReg) (src : State → Nat → Nat → Nat) (s : State) : Out :=
  vector i (fun s =>
    let n := t.bits
    let xs := (s.group a s.gsize).take (s.jet + 1)
    s.vecWrite n g d s.gsize fun l => plain (jetAt n xs (src s n l))) s

/-- The factor of JEXT. -/
def factorial : Nat → Nat
  | 0 => 1
  | k + 1 => (k + 1) * factorial k

/-! ## Meanings -/

/-- VPERM (R131). -/
def execVperm (g : Guard) (t : Ty) (d a b : VReg) (s : State) : Out :=
  vecPermute (.vperm g t d a b) g t d a (fun s n l => lane n (s.vreg b) l % (256 / n)) s

/-- VSHUF (R131). -/
def execVshuf (g : Guard) (t : Ty) (d a b c : VReg) (s : State) : Out :=
  vector (.vshuf g t d a b c) (fun s =>
    let n := t.bits
    let L := 256 / n
    let xs := (s.group a s.gsize).take (s.jet + 1)
    let ys := (s.group b s.gsize).take (s.jet + 1)
    s.vecWrite n g d s.gsize fun l =>
      let j := lane n (s.vreg c) l % (2 * L)
      plain (if j < L then jetAt n xs j else jetAt n ys (j - L))) s

/-- VROT (R131). -/
def execVrot (g : Guard) (t : Ty) (d a : VReg) (b : OpB64) (s : State) : Out :=
  vecPermute (.vrot g t d a b) g t d a (fun s n l => (l + (s.opB64 b).toNat) % (256 / n)) s

/-- VBCAST (R131). -/
def execVbcast (g : Guard) (t : Ty) (d a : VReg) (j : BitVec 5) (s : State) : Out :=
  vecPermute (.vbcast g t d a j) g t d a (fun _ _ _ => j.toNat) s

/-- VMOV (R132). -/
def execVmov (g : Guard) (d a : VReg) (width : BitVec 2) (s : State) : Out :=
  vector (.vmov g d a width) (fun s =>
    let n := 8 * 2 ^ width.toNat
    let xs := (s.group a s.gsize).take (s.jet + 1)
    s.vecWrite n g d s.gsize fun l => plain (jetAt n xs l)) s

/-- VINS (R132): acts when Guard(j). -/
def execVins (g : Guard) (t : Ty) (d : VReg) (a : SReg) (j : BitVec 5) (s : State) : Out :=
  instrIf (.vins g t d a j) (s.guardLane g j.toNat) (fun s =>
    let n := t.bits
    .done ((s.writeLanes n d s.gsize ((List.range (256 / n)).map fun l =>
      if l = j.toNat then some (plain [(s.reg a).toNat % 2 ^ n]) else none)).count 4 1)) s

/-- VEXT (R132): acts when Guard(j). -/
def execVext (g : Guard) (t : Ty) (d : SReg) (a : VReg) (j : BitVec 5) (s : State) : Out :=
  instrIf (.vext g t d a j) (s.guardLane g j.toNat) (fun s =>
    let x : BitVec t.bits := BitVec.ofNat t.bits (lane t.bits (s.vreg a) j.toNat)
    .done ((s.setReg d (if t.isInt && isSigned t || t == .dflt then x.signExtend 64 else x.setWidth 64)).count 4 1)) s

/-- VSPLAT (R132). -/
def execVsplat (g : Guard) (t : Ty) (d : VReg) (a : SReg) (s : State) : Out :=
  vector (.vsplat g t d a) (fun s =>
    s.vecWrite t.bits g d s.gsize fun _ => plain [(s.reg a).toNat % 2 ^ t.bits]) s

/-- JSEED (R133). -/
def execJseed (g : Guard) (t : Ty) (d : VReg) (a : SVReg) (s : State) : Out :=
  vector (.jseed g t d a) (fun s =>
    let n := t.bits
    let one := if t.isInt then 1 else ((vecFmt t).round 0 .one).1
    s.vecWrite n g d s.gsize fun l =>
      let x := match a with
        | .s r => (s.reg r).toNat % 2 ^ n
        | .v r => lane n (s.vreg r) l
      plain (if s.jet = 0 then [x] else [x, one])) s

/-- JEXT (R133): k > J is ILLEGAL, checked before the guard (01_encoding R30). -/
def execJext (g : Guard) (t : Ty) (d a : VReg) (k : BitVec 3) (s : State) : Out :=
  vector (.jext g t d a k) (fun s =>
    let n := t.bits
    let x := s.vreg (a + k.setWidth 5)
    s.vecWrite n g d s.gsize fun l =>
      let v := lane n x l
      let f := factorial k.toNat
      if t.isInt then plain [v * f % 2 ^ n]
      else
        let r := (vecFmt t).mul s.rm ((vecFmt t).val v) (.ofInt f)
        ([r.1], [r.2])) s

/-- JPLANE (R133): k > J or m > J is ILLEGAL, checked before the guard (01_encoding R30). -/
def execJplane (g : Guard) (t : Ty) (d a : VReg) (k m : BitVec 3) (s : State) : Out :=
  vector (.jplane g t d a k m) (fun s =>
    let n := t.bits
    let x := s.vreg (a + k.setWidth 5)
    s.writeLanes n (d + m.setWidth 5) 1 (s.enabledLanes n g fun l => plain [lane n x l])) s

/-- JCLR (R133). -/
def execJclr (g : Guard) (mask : BitVec 8) (s : State) : Out :=
  instr (.jclr g mask) g (fun s => .done ((s.clearFlags mask).count 4 1)) s

end Sys2Proof.Machine
end

