-- ==== Sys2Proof/Machine/Dispatch.lean ====
section
/-! DEFINITION. One arm per instruction, each a direct call of its meaning. -/

namespace Sys2Proof.Machine

open Sys2Proof

/-- What an instruction does in a state. -/
def exec (i : Instr) (s : State) : Host.Outcome State Fault Refusal :=
  match i with
  | .fill => Sys2Proof.Machine.execFill s
  | .add g t d a b => Sys2Proof.Machine.execAdd g t d a b s
  | .sub g t d a b => Sys2Proof.Machine.execSub g t d a b s
  | .and g t d a b => Sys2Proof.Machine.execAnd g t d a b s
  | .or g t d a b => Sys2Proof.Machine.execOr g t d a b s
  | .xor g t d a b => Sys2Proof.Machine.execXor g t d a b s
  | .andn g t d a b => Sys2Proof.Machine.execAndn g t d a b s
  | .shl g t d a b => Sys2Proof.Machine.execShl g t d a b s
  | .shr g t d a b => Sys2Proof.Machine.execShr g t d a b s
  | .sar g t d a b => Sys2Proof.Machine.execSar g t d a b s
  | .ror g t d a b => Sys2Proof.Machine.execRor g t d a b s
  | .min g t d a b => Sys2Proof.Machine.execMin g t d a b s
  | .max g t d a b => Sys2Proof.Machine.execMax g t d a b s
  | .mul g t d a b => Sys2Proof.Machine.execMul g t d a b s
  | .mulh g t d a b => Sys2Proof.Machine.execMulh g t d a b s
  | .div g t d a b => Sys2Proof.Machine.execDiv g t d a b s
  | .rem g t d a b => Sys2Proof.Machine.execRem g t d a b s
  | .clz g t d a => Sys2Proof.Machine.execClz g t d a s
  | .ctz g t d a => Sys2Proof.Machine.execCtz g t d a s
  | .popc g t d a => Sys2Proof.Machine.execPopc g t d a s
  | .brev g t d a => Sys2Proof.Machine.execBrev g t d a s
  | .bswap g t d a => Sys2Proof.Machine.execBswap g t d a s
  | .bext g t d a pos lenM1 => Sys2Proof.Machine.execBext g t d a pos lenM1 s
  | .bins g t d a pos lenM1 => Sys2Proof.Machine.execBins g t d a pos lenM1 s
  | .sext g t d a => Sys2Proof.Machine.execSext g t d a s
  | .zext g t d a => Sys2Proof.Machine.execZext g t d a s
  | .cmpEq g t d a b => Sys2Proof.Machine.execCmpEq g t d a b s
  | .cmpNe g t d a b => Sys2Proof.Machine.execCmpNe g t d a b s
  | .cmpLt g t d a b => Sys2Proof.Machine.execCmpLt g t d a b s
  | .cmpLe g t d a b => Sys2Proof.Machine.execCmpLe g t d a b s
  | .cmpGt g t d a b => Sys2Proof.Machine.execCmpGt g t d a b s
  | .cmpGe g t d a b => Sys2Proof.Machine.execCmpGe g t d a b s
  | .pand g d a b => Sys2Proof.Machine.execPand g d a b s
  | .por g d a b => Sys2Proof.Machine.execPor g d a b s
  | .pxor g d a b => Sys2Proof.Machine.execPxor g d a b s
  | .pandn g d a b => Sys2Proof.Machine.execPandn g d a b s
  | .pnot g d a => Sys2Proof.Machine.execPnot g d a s
  | .pmov g d a => Sys2Proof.Machine.execPmov g d a s
  | .pset g d imm => Sys2Proof.Machine.execPset g d imm s
  | .movi g d imm => Sys2Proof.Machine.execMovi g d imm s
  | .mov g d a => Sys2Proof.Machine.execMov g d a s
  | .lea g d a b => Sys2Proof.Machine.execLea g d a b s
  | .sel g d a b c => Sys2Proof.Machine.execSel g d a b c s
  | .qcap g d b => Sys2Proof.Machine.execQcap g d b s
  | .rndc g d a b => Sys2Proof.Machine.execRndc g d a b s
  | .mfs g d idx => Sys2Proof.Machine.execMfs g d idx s
  | .mts g a idx => Sys2Proof.Machine.execMts g a idx s
  | .mtsWp g a => Sys2Proof.Machine.execMtsWp g a s
  | .pushm g r => Sys2Proof.Machine.execPushm g r s
  | .popm g r => Sys2Proof.Machine.execPopm g r s
  | .fadd g t d a b => Sys2Proof.Machine.execFadd g t d a b s
  | .fsub g t d a b => Sys2Proof.Machine.execFsub g t d a b s
  | .fmul g t d a b => Sys2Proof.Machine.execFmul g t d a b s
  | .fdiv g t d a b => Sys2Proof.Machine.execFdiv g t d a b s
  | .fsqrt g t d a => Sys2Proof.Machine.execFsqrt g t d a s
  | .fmin g t d a b => Sys2Proof.Machine.execFmin g t d a b s
  | .fmax g t d a b => Sys2Proof.Machine.execFmax g t d a b s
  | .fneg g t d a => Sys2Proof.Machine.execFneg g t d a s
  | .fabs g t d a => Sys2Proof.Machine.execFabs g t d a s
  | .fma g t d a b c => Sys2Proof.Machine.execFma g t d a b c s
  | .fms g t d a b c => Sys2Proof.Machine.execFms g t d a b c s
  | .fnma g t d a b c => Sys2Proof.Machine.execFnma g t d a b c s
  | .fnms g t d a b c => Sys2Proof.Machine.execFnms g t d a b c s
  | .fcmpEq g t d a b => Sys2Proof.Machine.execFcmpEq g t d a b s
  | .fcmpLt g t d a b => Sys2Proof.Machine.execFcmpLt g t d a b s
  | .fcmpLe g t d a b => Sys2Proof.Machine.execFcmpLe g t d a b s
  | .fcmpUn g t d a b => Sys2Proof.Machine.execFcmpUn g t d a b s
  | .fcvt g t d a src rm => Sys2Proof.Machine.execFcvt g t d a src rm s
  | .fclass g t d a => Sys2Proof.Machine.execFclass g t d a s
  | .br g off => Sys2Proof.Machine.execBr g off s
  | .call g d off => Sys2Proof.Machine.execCall g d off s
  | .jmp g d a => Sys2Proof.Machine.execJmp g d a s
  | .ret g a => Sys2Proof.Machine.execRet g a s
  | .brx g a b count => Sys2Proof.Machine.execBrx g a b count s
  | .loop g a off => Sys2Proof.Machine.execLoop g a off s
  | .rep a lenM1 stride mask => Sys2Proof.Machine.execRep a lenM1 stride mask s
  | .nop g => Sys2Proof.Machine.execNop g s
  | .hint g code => Sys2Proof.Machine.execHint g code s
  | .unchain => Sys2Proof.Machine.execUnchain s
  | .rechain slot => Sys2Proof.Machine.execRechain slot s
  | .vadd g t d a b => Sys2Proof.Machine.execVadd g t d a b s
  | .vsub g t d a b => Sys2Proof.Machine.execVsub g t d a b s
  | .vmul g t d a b => Sys2Proof.Machine.execVmul g t d a b s
  | .vmin g t d a b => Sys2Proof.Machine.execVmin g t d a b s
  | .vmax g t d a b => Sys2Proof.Machine.execVmax g t d a b s
  | .vneg g t d a => Sys2Proof.Machine.execVneg g t d a s
  | .vabs g t d a => Sys2Proof.Machine.execVabs g t d a s
  | .vfma g t d a b c => Sys2Proof.Machine.execVfma g t d a b c s
  | .vfms g t d a b c => Sys2Proof.Machine.execVfms g t d a b c s
  | .vfnma g t d a b c => Sys2Proof.Machine.execVfnma g t d a b c s
  | .vfnms g t d a b c => Sys2Proof.Machine.execVfnms g t d a b c s
  | .vdiv g t d a b => Sys2Proof.Machine.execVdiv g t d a b s
  | .vrcp g t d a => Sys2Proof.Machine.execVrcp g t d a s
  | .vsqrt g t d a => Sys2Proof.Machine.execVsqrt g t d a s
  | .vrsqrt g t d a => Sys2Proof.Machine.execVrsqrt g t d a s
  | .vexp g t d a => Sys2Proof.Machine.execVexp g t d a s
  | .vlog g t d a => Sys2Proof.Machine.execVlog g t d a s
  | .vsincos g t d a => Sys2Proof.Machine.execVsincos g t d a s
  | .vtanh g t d a => Sys2Proof.Machine.execVtanh g t d a s
  | .vsigm g t d a => Sys2Proof.Machine.execVsigm g t d a s
  | .vcmpEq g t d a b => Sys2Proof.Machine.execVcmpEq g t d a b s
  | .vcmpNe g t d a b => Sys2Proof.Machine.execVcmpNe g t d a b s
  | .vcmpLt g t d a b => Sys2Proof.Machine.execVcmpLt g t d a b s
  | .vcmpLe g t d a b => Sys2Proof.Machine.execVcmpLe g t d a b s
  | .vsel g d a b c width => Sys2Proof.Machine.execVsel g d a b c width s
  | .vcvt g t d a src q rm => Sys2Proof.Machine.execVcvt g t d a src q rm s
  | .vqmx g d a b fmt => Sys2Proof.Machine.execVqmx g d a b fmt s
  | .vdqmx g d a b fmt => Sys2Proof.Machine.execVdqmx g d a b fmt s
  | .vredAdd g t d a => Sys2Proof.Machine.execVredAdd g t d a s
  | .vredMin g t d a => Sys2Proof.Machine.execVredMin g t d a s
  | .vredMax g t d a => Sys2Proof.Machine.execVredMax g t d a s
  | .vaddInt g t d a b => Sys2Proof.Machine.execVaddInt g t d a b s
  | .vsubInt g t d a b => Sys2Proof.Machine.execVsubInt g t d a b s
  | .vand g t d a b => Sys2Proof.Machine.execVand g t d a b s
  | .vor g t d a b => Sys2Proof.Machine.execVor g t d a b s
  | .vxor g t d a b => Sys2Proof.Machine.execVxor g t d a b s
  | .vshl g t d a b => Sys2Proof.Machine.execVshl g t d a b s
  | .vshr g t d a b => Sys2Proof.Machine.execVshr g t d a b s
  | .vsar g t d a b => Sys2Proof.Machine.execVsar g t d a b s
  | .vminInt g t d a b => Sys2Proof.Machine.execVminInt g t d a b s
  | .vmaxInt g t d a b => Sys2Proof.Machine.execVmaxInt g t d a b s
  | .vadds g t d a b => Sys2Proof.Machine.execVadds g t d a b s
  | .vsubs g t d a b => Sys2Proof.Machine.execVsubs g t d a b s
  | .vcmpEqInt g t d a b => Sys2Proof.Machine.execVcmpEqInt g t d a b s
  | .vcmpNeInt g t d a b => Sys2Proof.Machine.execVcmpNeInt g t d a b s
  | .vcmpLtInt g t d a b => Sys2Proof.Machine.execVcmpLtInt g t d a b s
  | .vcmpLeInt g t d a b => Sys2Proof.Machine.execVcmpLeInt g t d a b s
  | .vmulInt g t d a b => Sys2Proof.Machine.execVmulInt g t d a b s
  | .vmulh g t d a b => Sys2Proof.Machine.execVmulh g t d a b s
  | .vmac g t d a b => Sys2Proof.Machine.execVmac g t d a b s
  | .vsat g t d a m => Sys2Proof.Machine.execVsat g t d a m s
  | .vdot4 g t d a b => Sys2Proof.Machine.execVdot4 g t d a b s
  | .vdot2 g t d a b => Sys2Proof.Machine.execVdot2 g t d a b s
  | .vcmul g t d a b sh => Sys2Proof.Machine.execVcmul g t d a b sh s
  | .vcmac g t d a b sh => Sys2Proof.Machine.execVcmac g t d a b sh s
  | .vconj g t d a => Sys2Proof.Machine.execVconj g t d a s
  | .vbfly g t d a b c => Sys2Proof.Machine.execVbfly g t d a b c s
  | .vbflys g t d a b c => Sys2Proof.Machine.execVbflys g t d a b c s
  | .vperm g t d a b => Sys2Proof.Machine.execVperm g t d a b s
  | .vshuf g t d a b c => Sys2Proof.Machine.execVshuf g t d a b c s
  | .vrot g t d a b => Sys2Proof.Machine.execVrot g t d a b s
  | .vbcast g t d a j => Sys2Proof.Machine.execVbcast g t d a j s
  | .vmov g d a width => Sys2Proof.Machine.execVmov g d a width s
  | .vins g t d a j => Sys2Proof.Machine.execVins g t d a j s
  | .vext g t d a j => Sys2Proof.Machine.execVext g t d a j s
  | .vsplat g t d a => Sys2Proof.Machine.execVsplat g t d a s
  | .jseed g t d a => Sys2Proof.Machine.execJseed g t d a s
  | .jext g t d a k => Sys2Proof.Machine.execJext g t d a k s
  | .jplane g t d a k m => Sys2Proof.Machine.execJplane g t d a k m s
  | .jclr g mask => Sys2Proof.Machine.execJclr g mask s
  | .ld g t d a b => Sys2Proof.Machine.execLd g t d a b s
  | .st g t a b c => Sys2Proof.Machine.execSt g t a b c s
  | .vld g d a b => Sys2Proof.Machine.execVld g d a b s
  | .vst g a b c => Sys2Proof.Machine.execVst g a b c s
  | .vgather g t d a b stride => Sys2Proof.Machine.execVgather g t d a b stride s
  | .vscatter g t a b c stride => Sys2Proof.Machine.execVscatter g t a b c stride s
  | .ldb g d a nM1 => Sys2Proof.Machine.execLdb g d a nM1 s
  | .amoAdd g t d a b => Sys2Proof.Machine.execAmoAdd g t d a b s
  | .amoAnd g t d a b => Sys2Proof.Machine.execAmoAnd g t d a b s
  | .amoOr g t d a b => Sys2Proof.Machine.execAmoOr g t d a b s
  | .amoXor g t d a b => Sys2Proof.Machine.execAmoXor g t d a b s
  | .amoMin g t d a b => Sys2Proof.Machine.execAmoMin g t d a b s
  | .amoMax g t d a b => Sys2Proof.Machine.execAmoMax g t d a b s
  | .amoSwap g t d a b => Sys2Proof.Machine.execAmoSwap g t d a b s
  | .amoCas g t d a b c => Sys2Proof.Machine.execAmoCas g t d a b c s
  | .amoFadd g t d a b => Sys2Proof.Machine.execAmoFadd g t d a b s
  | .amoFaddOrd g t d a b c last => Sys2Proof.Machine.execAmoFaddOrd g t d a b c last s
  | .redAdd g t a b => Sys2Proof.Machine.execRedAdd g t a b s
  | .redMin g t a b => Sys2Proof.Machine.execRedMin g t a b s
  | .redMax g t a b => Sys2Proof.Machine.execRedMax g t a b s
  | .redAddOrd g t a b c last => Sys2Proof.Machine.execRedAddOrd g t a b c last s
  | .redMinOrd g t a b c last => Sys2Proof.Machine.execRedMinOrd g t a b c last s
  | .redMaxOrd g t a b c last => Sys2Proof.Machine.execRedMaxOrd g t a b c last s
  | .pref g a level => Sys2Proof.Machine.execPref g a level s
  | .chint g a hop => Sys2Proof.Machine.execChint g a hop s
  | .copy g d a b c bslot bar tlk tls => Sys2Proof.Machine.execCopy g d a b c bslot bar tlk tls s
  | .copyh g d a b c bslot bar tlk tls hfrom => Sys2Proof.Machine.execCopyh g d a b c bslot bar tlk tls hfrom s
  | .binit g a slot => Sys2Proof.Machine.execBinit g a slot s
  | .barrive g d slot => Sys2Proof.Machine.execBarrive g d slot s
  | .bwait g a slot => Sys2Proof.Machine.execBwait g a slot s
  | .bsync g slot => Sys2Proof.Machine.execBsync g slot s
  | .bstat g d slot => Sys2Proof.Machine.execBstat g d slot s
  | .tlwait g a b => Sys2Proof.Machine.execTlwait g a b s
  | .tlread g d a wide selr => Sys2Proof.Machine.execTlread g d a wide selr s
  | .fence g a kinds => Sys2Proof.Machine.execFence g a kinds s
  | .wake g a b => Sys2Proof.Machine.execWake g a b s
  | .wait g d b => Sys2Proof.Machine.execWait g d b s
  | .chinit g a b c => Sys2Proof.Machine.execChinit g a b c s
  | .send g d a b c => Sys2Proof.Machine.execSend g d a b c s
  | .sendNb g d a b c => Sys2Proof.Machine.execSendNb g d a b c s
  | .recv g d a b => Sys2Proof.Machine.execRecv g d a b s
  | .recvNb g d a b => Sys2Proof.Machine.execRecvNb g d a b s
  | .mshl g d a q => Sys2Proof.Machine.execMshl g d a q s
  | .mshf g d a field q => Sys2Proof.Machine.execMshf g d a field q s
  | .mshs g a b q => Sys2Proof.Machine.execMshs g a b q s
  | .mclaim g d countM1 log2a => Sys2Proof.Machine.execMclaim g d countM1 log2a s
  | .mrel g a countM1 => Sys2Proof.Machine.execMrel g a countM1 s
  | .mld g d a slot tr q => Sys2Proof.Machine.execMld g d a slot tr q s
  | .mldx g d a slot tr q => Sys2Proof.Machine.execMldx g d a slot tr q s
  | .mma g d c slotA slotB q => Sys2Proof.Machine.execMma g d c slotA slotB q s
  | .mmaS g d c slotA slotB q => Sys2Proof.Machine.execMmaS g d c slotA slotB q s
  | .mzero g d q => Sys2Proof.Machine.execMzero g d q s
  | .mmov g d a row sh intf q => Sys2Proof.Machine.execMmov g d a row sh intf q s
  | .mmovr g d a row q => Sys2Proof.Machine.execMmovr g d a row q s
  | .mst g d a b c sc cplx q => Sys2Proof.Machine.execMst g d a b c sc cplx q s
  | .mspec g mask q => Sys2Proof.Machine.execMspec g mask q s
  | .mresolve g c q => Sys2Proof.Machine.execMresolve g c q s
  | .mcommit g q => Sys2Proof.Machine.execMcommit g q s
  | .mdiscard g q => Sys2Proof.Machine.execMdiscard g q s
  | .tgemm g d a b c acc addc slot q => Sys2Proof.Machine.execTgemm g d a b c acc addc slot q s
  | .tfact g d a srci ptrap q => Sys2Proof.Machine.execTfact g d a srci ptrap q s
  | .tsolve g d a b q => Sys2Proof.Machine.execTsolve g d a b q s
  | .mqpri g cq pri => Sys2Proof.Machine.execMqpri g cq pri s
  | .mqsync g d cq => Sys2Proof.Machine.execMqsync g d cq s
  | .launch d a pwake pwen => Sys2Proof.Machine.execLaunch d a pwake pwen s
  | .exit => Sys2Proof.Machine.execExit s
  | .yield d => Sys2Proof.Machine.execYield d s
  | .halt => Sys2Proof.Machine.execHalt s
  | .gcall gate => Sys2Proof.Machine.execGcall gate s
  | .gret a abort => Sys2Proof.Machine.execGret a abort s
  | .trap code => Sys2Proof.Machine.execTrap code s
  | .eret => Sys2Proof.Machine.execEret s
  | .sysr g d idx => Sys2Proof.Machine.execSysr g d idx s
  | .sysw g a idx => Sys2Proof.Machine.execSysw g a idx s
  | .publish d a c => Sys2Proof.Machine.execPublish d a c s
  | .tlbinv g a b kind reach => Sys2Proof.Machine.execTlbinv g a b kind reach s
  | .lflush g a b inv reach => Sys2Proof.Machine.execLflush g a b inv reach s
  | .l2cfg g d a b dir => Sys2Proof.Machine.execL2cfg g d a b dir s
  | .mscrub g d a b => Sys2Proof.Machine.execMscrub g d a b s
  | .mspare g d a b => Sys2Proof.Machine.execMspare g d a b s
  | .mrmapRead g d a b c => Sys2Proof.Machine.execMrmapRead g d a b c s
  | .mrmapWrite g d a b c => Sys2Proof.Machine.execMrmapWrite g d a b c s
  | .mrmapInvalidate g d a b c => Sys2Proof.Machine.execMrmapInvalidate g d a b c s
  | .mrmapSpareBitmap g d a b c => Sys2Proof.Machine.execMrmapSpareBitmap g d a b c s
  | .mliveNotLive g d a b => Sys2Proof.Machine.execMliveNotLive g d a b s
  | .mliveLive g d a b => Sys2Proof.Machine.execMliveLive g d a b s
  | .jrnl g d a word clear => Sys2Proof.Machine.execJrnl g d a word clear s
  | .msave g d a => Sys2Proof.Machine.execMsave g d a s
  | .bind g d a b => Sys2Proof.Machine.execBind g d a b s
  | .gswitchCancel g d a b => Sys2Proof.Machine.execGswitchCancel g d a b s
  | .gswitchArm g d a b => Sys2Proof.Machine.execGswitchArm g d a b s
  | .asyncTrapTaken core => Sys2Proof.Machine.execAsyncTrapTaken core s
  | .waitConditionMet core => Sys2Proof.Machine.execWaitConditionMet core s
  | .coprocessorPortAccept spire => Sys2Proof.Machine.execCoprocessorPortAccept spire s
  | .graverOpStart spire => Sys2Proof.Machine.execGraverOpStart spire s
  | .graverOpComplete spire ctx => Sys2Proof.Machine.execGraverOpComplete spire ctx s
  | .bankGrant dome bank => Sys2Proof.Machine.execBankGrant dome bank s
  | .postedStoreArrival k => Sys2Proof.Machine.execPostedStoreArrival k s
  | .redPacketArrival k => Sys2Proof.Machine.execRedPacketArrival k s
  | .wakeDelivery k => Sys2Proof.Machine.execWakeDelivery k s
  | .postedAcknowledge k => Sys2Proof.Machine.execPostedAcknowledge k s
  | .postedRefusal k => Sys2Proof.Machine.execPostedRefusal k s
  | .streamerPiece unit => Sys2Proof.Machine.execStreamerPiece unit s
  | .copyStatusLanding k => Sys2Proof.Machine.execCopyStatusLanding k s
  | .channelRetry core => Sys2Proof.Machine.execChannelRetry core s
  | .tlbWalkComplete spire tenant ctx va => Sys2Proof.Machine.execTlbWalkComplete spire tenant ctx va s
  | .sliceRetryHint spire => Sys2Proof.Machine.execSliceRetryHint spire s
  | .linkRetrain link failures held => Sys2Proof.Machine.execLinkRetrain link failures held s
  | .hbmDemandAccess pa data => Sys2Proof.Machine.execHbmDemandAccess pa data s
  | .trackerLeak => Sys2Proof.Machine.execTrackerLeak s
  | .mspareCopyEnd channel => Sys2Proof.Machine.execMspareCopyEnd channel s
  | .launchRegisterWrite port tenant n value => Sys2Proof.Machine.execLaunchRegisterWrite port tenant n value s
  | .lstatWrite port tenant value => Sys2Proof.Machine.execLstatWrite port tenant value s
  | .belfryAdmission order => Sys2Proof.Machine.execBelfryAdmission order s
  | .ageingStep region => Sys2Proof.Machine.execAgeingStep region s
  | .dispatchFreshStart part => Sys2Proof.Machine.execDispatchFreshStart part s
  | .partitionResume part => Sys2Proof.Machine.execPartitionResume part s
  | .gangSwitch part => Sys2Proof.Machine.execGangSwitch part s
  | .regionRetire region => Sys2Proof.Machine.execRegionRetire region s
  | .maxrunExpiry region => Sys2Proof.Machine.execMaxrunExpiry region s
  | .gstepsExpiry region => Sys2Proof.Machine.execGstepsExpiry region s
  | .watchdogTimeout region => Sys2Proof.Machine.execWatchdogTimeout region s
  | .watchdogSwitchTimeout region => Sys2Proof.Machine.execWatchdogSwitchTimeout region s
  | .yieldTimeout core => Sys2Proof.Machine.execYieldTimeout core s
  | .semaphoreTake port n tie => Sys2Proof.Machine.execSemaphoreTake port n tie s
  | .semaphoreRelease port n value => Sys2Proof.Machine.execSemaphoreRelease port n value s
  | .setshare port tenant share => Sys2Proof.Machine.execSetshare port tenant share s
  | .setwdcfg port tenant n value => Sys2Proof.Machine.execSetwdcfg port tenant n value s
  | .traceCommand port enable base log2 => Sys2Proof.Machine.execTraceCommand port enable base log2 s
  | .attest port nonce => Sys2Proof.Machine.execAttest port nonce s
  | .msixVectorUnmask tenant vector => Sys2Proof.Machine.execMsixVectorUnmask tenant vector s
  | .hostBar4Access port pa len data => Sys2Proof.Machine.execHostBar4Access port pa len data s
  | .functionLevelReset port => Sys2Proof.Machine.execFunctionLevelReset port s
  | .registerWrite port bar offset value => Sys2Proof.Machine.execRegisterWrite port bar offset value s
  | .thaturLoad tenant ctx container => Sys2Proof.Machine.execThaturLoad tenant ctx container s
  | .deviceReset => Sys2Proof.Machine.execDeviceReset s
  | .powerCap dome stop => Sys2Proof.Machine.execPowerCap dome stop s
  | .thermalAlarm => Sys2Proof.Machine.execThermalAlarm s
  | .thermalShutdown => Sys2Proof.Machine.execThermalShutdown s
  | .spirePortSend spire => Sys2Proof.Machine.execSpirePortSend spire s
  | .softError unit where_ => Sys2Proof.Machine.execSoftError unit where_ s

end Sys2Proof.Machine
end

