-- ==== Sys2Proof/Machine/Sched.lean ====
section
/-!
DEFINITION. What moves next when no turn is given (assumption log 1): events of the device that are ready first, then the
cores in turn, else time passes. Events from outside the device come in turns only.
-/

namespace Sys2Proof.Machine

open Sys2Proof

/-- A move of the device by itself. -/
inductive Move where
  | core (c : Nat)
  | idle
  | arrival (k : Nat) | answer (k : Nat) | landing (k : Nat) | piece (unit : Nat) | port (spire : Nat) | represent (spire : Nat)
  | grant (dome bank : Nat) | opDone (spire ctx : Nat) | opStart (spire : Nat)
  | spareEnd (channel : Nat) | leak
  | retire (r : Nat) | maxrun (r : Nat) | gsteps (r : Nat) | watchdog (r : Nat) | switchLate (r : Nat)
  | gangSwitch (part : Nat) | freshStart (part : Nat) | resume (part : Nat) | ageing (r : Nat) | admission
  deriving DecidableEq, Repr

namespace State

/-- Between two turns: what the last one stopped is noted, and core cycles pass and are counted. The next turn acts for the device
unless it is a core's (22_host_compat R381). -/
def pass (s : State) (dt : Nat) : State := { (s.noteStops.countCycles dt).tick dt with acting := some deviceTenant }

/-- Whether a core can move in its turn. -/
def canMove (s : State) (c : Nat) : Bool :=
  let s : State := { s with cur := c }
  match s.core.status with
  | .running => true
  | .waiting w => s.condHolds w || s.asyncNow || s.killedNow
  | _ => false

/-- The next core after the current one that can move. -/
def nextCore (s : State) : Option Nat :=
  let ks := (s.cores.map (·.1)).filter fun c => s.canMove c
  match ks.find? fun c => decide (s.cur < c) with
  | some c => some c
  | none => ks.head?

/-- A bank with a request it can grant. -/
def grantable (s : State) : Option Move :=
  let bursts := s.spires.filterMap fun (px : Nat × Spire) => (outstanding px.2.graver).map fun x => (x.2.2.bank / 4096, x.2.2.bank % 4096)
  let held := s.domes.flatMap fun (dd : Nat × Dome) => (dd.2.holds.filter fun bh => bh.2.any (·.ready)).map fun bh => (dd.1, bh.1)
  ((bursts ++ held).find? fun db => (s.domeAt db.1).stopAt.isNone && (s.chooseGrant db.1 db.2).isSome).map fun db => .grant db.1 db.2

/-- Moves of the mesh, the streamers and the Spire ports. -/
def meshMove (s : State) : Option Move :=
  match (List.range s.packets.length).find? fun k => (s.takePacket k).isSome with
  | some k => some (.arrival k)
  | none =>
    if !s.acks.isEmpty then some (.answer 0)
    else if !s.landings.isEmpty then some (.landing 0)
    else match (List.range 72).find? fun u => !(s.streamerAt u).active.isEmpty with
    | some u => some (.piece u)
    | none => match List.find? (fun (px : Nat × Spire) => !px.2.port.isEmpty) s.spires with
      | some px => some (.port px.1)
      | none => (List.find? (fun (px : Nat × Spire) => px.2.retries.any fun r => decide (r.dueCycle ≤ s.cycle)) s.spires).map fun px => .represent px.1

/-- Moves of the Gravers. -/
def graverMove (s : State) : Option Move :=
  match s.grantable with
  | some m => some m
  | none => match s.spires.findSome? fun (px : Nat × Spire) =>
      ((List.range 4).find? fun q => (nth px.2.graver.ctx q {}).queue.any GEntry.finished).map fun q => Move.opDone px.1 q with
    | some m => some m
    | none => (List.find? (fun (px : Nat × Spire) =>
        !(s.spireStopping px.1 || (s.domeAt (px.1 / 32)).stopAt.isSome) && (px.2.graver.choose (px.1 / 32) (s.gclock px.1 px.2.graver)).isSome) s.spires).map
          fun px => .opStart px.1

/-- Moves of a region: it retires, is killed, or its partition starts, stops or resumes. -/
def regionMove (s : State) (r : Region) : Option Move :=
  let due := match s.armedAt r with
    | some t => decide (t ≤ s.time)
    | none => false
  if (r.status = .killed ∧ r.begun = false ∧ r.spires.isEmpty = true) ∨
      ((r.status = .running ∨ r.status = .killed) ∧ s.allExited r = true ∧ s.operationsOver r = true) then some (.retire r.id)
  else if s.overMaxrun r then some (.maxrun r.id)
  else if overGsteps r then some (.gsteps r.id)
  else if s.periodOver r then some (.watchdog r.id)
  else if s.switchLate r then some (.switchLate r.id)
  else if r.status = .running ∧ due = true ∧ (r.spires.foldl (fun (s : State) sp => s.withdrawOps sp) s).switchReady r = true then
    some (.gangSwitch r.part)
  else if r.status = .placed ∧ (s.boundSpires r.part false).isSome = true then some (.freshStart r.part)
  else if r.status = .placed ∧ (s.boundSpires r.part true).isSome = true ∧ (s.savedOf r.id).isSome = true then some (.resume r.part)
  else if inQueue r = true ∧ r.waitFrom + 64000 ≤ s.time then some (.ageing r.id)
  else none

/-- An admission decision changes something. -/
def admissionDue (s : State) : Bool :=
  s.boot == .up && (!s.commands.isEmpty || s.fifos.any (fun (kl : Nat × List Launch) => !kl.2.isEmpty) ||
    ((s.regions.any inQueue) && (let t := s.admission []; t.regions != s.regions || t.armed != s.armed)))

/-- The move the device makes by itself. -/
def autoMove (s : State) : Move :=
  ((s.meshMove.or s.graverMove).or ((s.regions.findSome? s.regionMove).or (
    if s.admissionDue then some .admission
    else match List.find? (fun (c : Nat × SpareCopy) => decide (c.2.endTick ≤ s.time)) s.hbm.copies with
      | some c => some (.spareEnd c.1)
      | none => if (s.hbm.leaks + 1) * 16800000 ≤ s.time then some .leak else s.nextCore.map .core))).getD .idle

/-- Make a move other than a core's. -/
def ownMove (m : Move) (s : State) : Out :=
  match m with
  | .core _ | .idle => .next s
  | .arrival k => match s.packets[k]? with
    | some p => match p.kind with
      | .store _ _ _ _ => execPostedStoreArrival k s
      | .red _ _ _ _ _ _ => execRedPacketArrival k s
      | .wake _ _ _ => execWakeDelivery k s
    | none => .next s
  | .answer k => match s.acks[k]? with
    | some a => if a.refused then execPostedRefusal k s else execPostedAcknowledge k s
    | none => .next s
  | .landing k => execCopyStatusLanding k s
  | .piece u => execStreamerPiece u s
  | .port sp => execSpirePortSend sp s
  | .represent sp => execSliceRetryHint sp s
  | .grant d b => execBankGrant d b s
  | .opDone sp q => execGraverOpComplete sp q s
  | .opStart sp => execGraverOpStart sp s
  | .spareEnd ch => execMspareCopyEnd ch s
  | .leak => execTrackerLeak s
  | .retire r => execRegionRetire r s
  | .maxrun r => execMaxrunExpiry r s
  | .gsteps r => execGstepsExpiry r s
  | .watchdog r => execWatchdogTimeout r s
  | .switchLate r => execWatchdogSwitchTimeout r s
  | .gangSwitch p => execGangSwitch p s
  | .freshStart p => execDispatchFreshStart p s
  | .resume p => execPartitionResume p s
  | .ageing r => execAgeingStep r s
  | .admission => execBelfryAdmission [] s

end State

end Sys2Proof.Machine
end

