-- ==== Sys2Proof/Machine/Step.lean ====
section
/-!
DEFINITION. One step of the device: the next turn, then a core's instruction, an asynchronous trap, or an event.
-/

namespace Sys2Proof.Machine

open Sys2Proof

/-- Run the instruction a fetch found at the core's PC, or take the trap the fetch raised. -/
def runFetched (f : Fetched) : Out :=
  match f with
  | .instr at_ i s => exec i (s.setPc at_)
  | .trap at_ t s => .next ((s.setPc at_).raiseTrap t)
  | .skip at_ s => .next (s.setPc at_)

/-- One core's turn on its own: it stops if its region was killed, it takes an asynchronous trap that is due, or it runs
its next instruction (R313, R243, 09_execution R246). -/
def stepCore (s : State) : Out :=
  let s := s.dropBstats fun c => c == s.cur
  if s.killedNow = true then .next (s.onCore fun k => { k with status := .exited, done := false })
  else if s.asyncNow = true then .next s.takeAsync
  else if s.mayIssue = true then runFetched (s.fetchNext)
  else .next s

/-- The members of an attached chain in turn, the leader first, until each has completed the instruction (R72, R312). -/
def stepMembers : List Nat → State → Out
  | [], s => .next s
  | c :: cs, s =>
    let s : State := { s with cur := c }
    if s.core.done || s.core.detached || !(s.asyncNow || s.killedNow || s.joins) then stepMembers cs s
    else match stepCore s with
      | .next s' => stepMembers cs s'
      | .fault f => .fault f
      | .refused r => .refused r

/-- The chain's turn (R72, R312): every attached member executes the instruction, and when all have, the chain goes on. -/
def stepChain (s : State) : Out :=
  let l := s.leaderIdx
  match stepMembers (s.attached l) s with
  | .next s' => .next (s'.endLockstep l)
  | .fault f => .fault f
  | .refused r => .refused r

/-- A core's turn: what it does is counted to its own tenant. -/
def coreTurn (c : Nat) (s : State) : Out :=
  let s : State := { s with cur := c, acting := none }
  if s.core.chained then stepChain s else stepCore s

/-- Carry out a turn. -/
def runTurn (t : Turn) (s : State) : Out :=
  match t.who with
  | .idle => .next s
  | .event i => if i.isEvent then exec i s else .next s
  | .outside a => .next (s.outsideAccess a)
  | .core c => coreTurn c s

/-- The move the device makes by itself. -/
def runMove (s : State) : Out :=
  match s.autoMove with
  | .core c => coreTurn c s
  | m => s.ownMove m

/-- Whether the next turn is a device reset, which brings back a module that has no power or has halted. -/
def State.resetNext (s : State) : Bool :=
  match s.sched with
  | t :: _ => (match t.who with
    | .event .deviceReset => true
    | _ => false)
  | [] => false

/-- One step: the next turn of the schedule, or the device's own move a core cycle later (assumption log 1). -/
def step (s : State) : Out :=
  if s.resetNext then .next ({ s with sched := s.sched.tail } : State).bringUp
  else
    powered s <|
      match s.sched with
      | t :: ts => runTurn t (({ s with sched := ts } : State).pass t.dt)
      | [] => runMove (s.pass 1)

namespace State

/-- Where `withFetchWord` places an instruction, and the context table and tenant record it translates through. -/
def fetchSlot : Nat := 0x100000000
def fetchContexts : Nat := 0x1000
def fetchTenant : BitVec 2048 := BitVec.ofNat 2048 (2 ^ 63 + fetchContexts * 2 ^ (8 * 0x18))

/-- The state with an instruction placed where core 0 fetches next and core 0 running alone, its turn next: the load of
a program from outside the machine (assumption log 8). -/
def withFetchWord (s : State) (_nbits w : Nat) : State :=
  let k : Core := { s.coreAt 0 with pc := BitVec.ofNat 64 fetchSlot, status := .running, widthM1 := 0, detached := false
                                    pos := 0, holdUntil := 0, wp := 0, tenant := 0, done := false }
  let o : CodeObj := { base := fetchSlot, store := 0, len := 32, tenant := 0, keep := 0, hash := 0 }
  let m := Mem.store (Mem.store s.mem fetchContexts 8 (0x8000000000000000 : Word)) Config.objectStore 16 (BitVec.ofNat 128 w)
  { s with
    cores := Tab.put s.cores 0 k, cur := 0, boot := .up, power := true, mem := m
    tenants := Tab.put s.tenants 0 fetchTenant, objects := o :: s.objects
    sched := { dt := 0, who := .core 0 } :: s.sched }

end State

end Sys2Proof.Machine
end

