-- ==== Sys2Proof/Safety.lean ====
section
/-!
DEFINITION. What a safe run is: from a state, every step answers a next state and never a fault or a refusal. And the
terms in which the claims are stated: when the current core carries out an instruction, and what it leaves unchanged.
-/

namespace Sys2Proof.Machine

open Sys2Proof

/-- The state a step answers, if it answers one. -/
def next? (o : Out) : Option State :=
  match o with
  | .next s => some s
  | .fault _ => none
  | .refused _ => none

/-- A run of n steps that answers a next state at each. -/
def runs : Nat → State → Option State
  | 0, s => some s
  | n + 1, s => (next? (step s)).bind (runs n)

/-- A state from which n steps go on. -/
def Safe (n : Nat) (s : State) : Prop := (runs n s).isSome = true

namespace State

/-! ## Carrying out an instruction -/

/-- The module has power, and the boot ROM did not halt it (22_host_compat R380, R386). -/
def on (s : State) : Bool := s.power && s.boot != .halted

/-- The checks of an instruction before its guard pass (01_encoding R30 steps 3 and 4), no register it names waits for a
copy (05_memory_isa R150), and nothing it reads, nor its guard, is corrupted (07_system_isa R222 SOFT). -/
def clear (s : State) (i : Instr) : Bool :=
  s.on && (s.preTrap i).isNone && (s.pendingToken i).isNone && (s.softGuard i).isNone && (s.softHit i).isNone

/-- The current core carries out instruction i, whose guard holds (R30 steps 3 to 5). -/
def issues (s : State) (i : Instr) (guard : Bool) : Bool := s.clear i && guard

/-- Instruction i has completed without a transfer: it is retired (02_scalar R51, R79). -/
def completed (s : State) (i : Instr) : State := (s.wiped i).retire i.size

/-- The guard of a whole instruction: Guard(0) (01_encoding R29). -/
def whole (g : Guard) (s : State) : Bool := s.guardLane g 0

/-- An instruction that no guard holds back. -/
def always (_ : State) : Bool := true

/-- The current core decides for itself: it does not follow a leader (02_scalar R72). -/
def alone (s : State) : Bool := !s.core.follower

/-- Guard(0), of a core that decides for itself. -/
def wholeAlone (g : Guard) (s : State) : Bool := s.alone && s.guardLane g 0

/-! ## What stands where -/

/-- A byte of storage. -/
def byte (s : State) (loc : Nat) : Byte := Mem.read s.mem loc

/-- The n bytes from a storage address on. -/
def covers (base n loc : Nat) : Prop := base ≤ loc ∧ loc < base + n

/-- REP_STATE, which the retirement of a body instruction advances while a repetition is active (02_scalar R79). -/
def repByte (s : State) (loc : Nat) : Prop := Rep.active (s.word Ws.repState) = true ∧ covers (s.live Ws.repState) 8 loc

/-- The bytes of w[r]; w0 has none to write (00_scope R12). -/
def regByte (s : State) (r : SReg) (loc : Nat) : Prop := r ≠ 0 ∧ covers (s.live (8 * r.toNat)) 8 loc

/-- The bytes of p[r]; p0 has none to write. -/
def predByte (s : State) (r : PReg) (loc : Nat) : Prop := r ≠ 0 ∧ covers (s.live (0x500 + 4 * r.toNat)) 4 loc

/-- The bytes of the n vector registers from v[r] on. -/
def vregBytes (s : State) (r : VReg) (n loc : Nat) : Prop := covers (s.live (0x100 + 32 * r.toNat)) (32 * n) loc

/-- The bytes of a word of the live workspace. -/
def wordByte (s : State) (off loc : Nat) : Prop := covers (s.live off) 8 loc

/-- Every byte of storage but some is as before. -/
def sameBytesBut (s t : State) (out : Nat → Prop) : Prop := ∀ loc, ¬ out loc → t.byte loc = s.byte loc

/-- What the core record of an instruction that retires without a transfer may change (02_scalar R51, R72): PC, INSTRET,
the status, the lockstep marks, the mark of a released wait, the counted arrivals of other instructions of its workspace (05_memory_isa R164),
the marks of corruption, and what reading a landed token acquires (15_consistency R299). -/
def sameCoreBut (k k' : Core) : Prop :=
  k' = { k with pc := k'.pc, instret := k'.instret, status := k'.status, done := k'.done, released := k'.released, bsync := k'.bsync, soft := k'.soft
                landed := k'.landed, lt := k'.lt }

/-- A frame (01_encoding R30): outside the bytes `out` and the current core's own record nothing has changed but
performance counters, and that record only as far as every retired instruction changes it. -/
def unchangedBut (s t : State) (out : Nat → Prop) : Prop :=
  sameBytesBut s t out ∧ t = { s with mem := t.mem, cores := t.cores, counters := t.counters } ∧ sameCoreBut s.core t.core ∧
    ∀ c, c ≠ s.cur → t.coreAt c = s.coreAt c

/-! ## Stores -/

/-- The state after the elements of a store have been made, when nothing stops them (05_memory_isa R138, 18_protection
R346): every place exists, and no copy's status and no pinned handle entry is in the way. -/
def stores (s : State) (es : List Elem) (t : State) : Prop :=
  ∃ xs s', s.toStore es = .ok (xs, s') ∧ t = (s'.writeElems xs).cleanSpans (sectorSpans xs)

/-- The state after an ST has been made (05_memory_isa R139): posted through a remote window when the journal has room, at
once elsewhere. -/
def storesOrPosts (s : State) (op : BitVec 6) (ty : BitVec 4) (e : Elem) (t : State) : Prop :=
  (isRemote e.va = true ∧ s.freeEntries ≠ 0 ∧ t = s.postStore op ty e) ∨ (isRemote e.va = false ∧ s.stores [e] t)

/-- Of a list of accesses, `va` is the lowest address without a place, and finding the places of
the accesses before it changes nothing (05_memory_isa R138 step 2). -/
def firstFault (s : State) (acc : Acc) (vas : List Word) (va : Word) : Prop :=
  ∃ pre post, ∃ f : Word → Place, vas = pre ++ va :: post ∧ (∀ x ∈ pre, s.place acc x = some (f x, s)) ∧ s.place acc va = none ∧
    ∀ x ∈ vas, va.toNat ≤ x.toNat

/-- The first of a list of addresses that is not a multiple of n (R138 step 1). -/
def firstMisaligned (n : Nat) (vas : List Word) (va : Word) : Prop :=
  ∃ pre post, vas = pre ++ va :: post ∧ (∀ x ∈ pre, x.toNat % n = 0) ∧ va.toNat % n ≠ 0

/-! ## Channels -/

/-- What the checks of a SEND of operands a, b, c find before it takes the lock (05_memory_isa R162, 13_dome_memory R279): CAP, the
storage address of H, HEAD and TAIL, neither poisoned, and the state after the checks of its header and its source. -/
def sendFinds (s : State) (a b c : SReg) (cap : Word) (head : Nat) (hd tl : Word) (v : State) : Prop :=
  let len := s.reg c
  (s.reg b).toNat % 8 = 0 ∧ len.toNat % 8 = 0 ∧ ∃ s', s.openChannel (s.reg a) .store true = .ok (cap, head, s') ∧
    8 + len.toNat ≤ cap.toNat ∧ s'.mayLoad (Chan.range (s.reg b) len.toNat) = .ok v ∧ v.notifyWaits (s.reg a) = false ∧
      v.glance (s.reg a + Chan.head) = (hd, false) ∧ v.glance (s.reg a + Chan.tail) = (tl, false)

/-- A SEND finds space for its message and reserves it (R162): TAIL moves past it and the lock is released. -/
def sendReserves (s : State) (a b c : SReg) (u : State) : Prop :=
  s.core.resv = none ∧ ∃ cap head hd tl v w, s.sendFinds a b c cap head hd tl v ∧
    (tl - hd).toNat + 8 + (s.reg c).toNat ≤ cap.toNat ∧ (Chan.byte (s.reg a) cap tl).toNat % 8 = 0 ∧
      v.mayStore (Chan.words (s.reg a) cap tl (8 + (s.reg c).toNat)) = .ok w ∧
        u = (((w.headerLoads (s.reg a)).2.2.quietStore (s.reg a + Chan.tail) 8 (tl + 8 + s.reg c)).releaseLock (s.reg a) head).onCore fun k =>
          { k with resv := some { head := head, cap := cap, at_ := tl }, status := .running }

/-- What the checks of a RECV of operands a and b find before it takes the lock (R163, R279): CAP, the storage address of H, HEAD,
which is not TAIL, the message's header word, and the state in which its destination has been checked. -/
def recvMeets (s : State) (a b : SReg) (cap : Word) (head : Nat) (hd m : Word) (v : State) : Prop :=
  (s.reg b).toNat % 8 = 0 ∧ ∃ v0 w, s.openChannel (s.reg a) .load false = .ok (cap, head, v0) ∧
    hd = (v0.glance (s.reg a + Chan.head)).1 ∧ hd ≠ (v0.glance (s.reg a + Chan.tail)).1 ∧
      (let at_ := Chan.byte (s.reg a) cap hd
       at_.toNat % 8 = 0 ∧ v0.mayLoad [{ va := at_, n := 8 }] = .ok w ∧ m = (w.glance at_).1 ∧ w.mayStore (recvPages (s.reg b) m) = .ok v)

/-- A RECV finds a published message at HEAD (R163), whose words it can read: what `recvMeets` gives, and the state the header
operation begins in. -/
def recvFinds (s : State) (a b : SReg) (cap : Word) (head : Nat) (hd m : Word) (v : State) : Prop :=
  m.getLsbD 63 = true ∧ ∃ w, s.recvMeets a b cap head hd m w ∧
    w.mayLoad (Chan.words (s.reg a) cap (hd + 8) (m &&& 0xFFFFFFFF).toNat) = .ok v

/-- The checks of a RECV of operands a and b find no published message (R163): HEAD is TAIL and a word of the destination can be
written, or the header word at HEAD has READY = 0. -/
def recvFindsNone (s : State) (a b : SReg) (cap : Word) (head : Nat) (hd : Word) (v : State) : Prop :=
  ((s.reg b).toNat % 8 = 0 ∧ ∃ v0, s.openChannel (s.reg a) .load false = .ok (cap, head, v0) ∧ hd = (v0.glance (s.reg a + Chan.head)).1 ∧
    (v0.glance (s.reg a + Chan.head)).1 = (v0.glance (s.reg a + Chan.tail)).1 ∧ v0.mayStore (recvPages (s.reg b) 0) = .ok v) ∨
  ∃ m, m.getLsbD 63 = false ∧ s.recvMeets a b cap head hd m v

/-! ## Reports the device makes by itself -/

/-- A byte of the fault-address queue, or of the trace buffer or the counts of its header, which lie in system memory (21_memory_system R369,
22_host_compat R382). -/
def reportByte (s : State) (loc : Nat) : Prop :=
  (∃ q n, s.faultQueue = some q ∧ q + queueBytes ≤ Config.hbmSize ∧ 8 * n < queueBytes ∧ covers (s.storeLoc (q + 8 * n)) 8 loc) ∨
    (∃ n, s.trace.on = true ∧ traceFits s.trace.base s.trace.log2 = true ∧ (n = 0 ∨ n = 2 ∨ 8 ≤ n) ∧ n < 8 + 4 * 2 ^ s.trace.log2 ∧
      covers (s.storeLoc (s.trace.base + 8 * n)) 8 loc)

/-- A byte of a line that a slice holds clean over other bytes of HBM4E, or that a slice holds beside the one that acts as its home
(21_memory_system R361, R371): when the slice gives the line up, or acts as its home again, the byte is HBM4E's, or that slice's. -/
def staleByte (s : State) (loc : Nat) : Prop :=
  ∃ ln, covers (s.storeLoc (ln * 128)) 128 loc ∧
    ((∃ l, Tab.find? s.lines ln = some l ∧ l.dirty = false ∧ l.under.isSome = true) ∨ ∃ n, (Tab.find? s.split (splitKey n ln)).isSome = true)

/-- A byte of a line that an access of a list makes another slice act as home of (R361): what the slice that acted as its home held
stands aside. -/
def movedByte (s : State) (ps : List Place) (loc : Nat) : Prop :=
  ∃ p ∈ ps, isHbm p.loc = true ∧ covers (s.storeLoc (p.loc / 128 * 128)) 128 loc ∧
    ((∃ l, Tab.find? s.lines (p.loc / 128) = some l ∧ l.held = true ∧ l.home ≠ p.home) ∨
      (∃ o, s.ownerOfLine (p.loc / 128) = some o ∧ o.2.slice ≠ p.home) ∨ ∃ q ∈ ps, q.loc / 128 = p.loc / 128 ∧ q.home ≠ p.home)

/-- A byte of the core records of a save area of the current core's region, where a MACHINE_CHECK of its cores stands too while the
region is out (16_traps R317, R319). -/
def savedByte (s : State) (loc : Nat) : Prop :=
  ∃ v ∈ s.saved, v.region = s.core.region ∧ ∃ ls n k, covers (s.storeLoc (recordAt v.save ls n + 8 * k)) 8 loc

/-- The bytes of the enabled lanes of n bits of the group at v[d] (04_vector R109, R110). -/
def laneBytes (s : State) (g : Guard) (n : Nat) (d : VReg) (loc : Nat) : Prop :=
  ∃ k < s.gsize, ∃ l < 256 / n, s.guardLane g l = true ∧ covers (s.live (0x100 + 32 * (d.toNat + k)) + l * (n / 8)) (n / 8) loc

/-- The bytes of the registers of a range (02_scalar R63). -/
def rangeByte (s : State) (r : RegRange) (loc : Nat) : Prop :=
  ∃ k < rangeWords r, match r with
    | .scalar f _ => s.regByte (f + BitVec.ofNat 5 k) loc
    | .vector f _ => s.vregBytes (f + BitVec.ofNat 5 (k / 4)) 1 loc

end State

/-! ## Guards -/

/-- The guard of an instruction that is guarded as a whole, and its lane (01_encoding R29): Guard(0) of a scalar, memory, matrix or
system instruction, of VQMX, VDQMX and JCLR; Guard(j) of VINS and VEXT, which name one lane. The other vector instructions, and VLD,
VST, VGATHER and VSCATTER, are guarded lane by lane. -/
def wholeGuard : Instr → Option (Guard × Nat)
  | .add g _ _ _ _ | .sub g _ _ _ _ | .and g _ _ _ _ | .or g _ _ _ _ | .xor g _ _ _ _ | .andn g _ _ _ _ | .shl g _ _ _ _
  | .shr g _ _ _ _ | .sar g _ _ _ _ | .ror g _ _ _ _ | .min g _ _ _ _ | .max g _ _ _ _ | .mul g _ _ _ _ | .mulh g _ _ _ _
  | .div g _ _ _ _ | .rem g _ _ _ _ | .clz g _ _ _ | .ctz g _ _ _ | .popc g _ _ _ | .brev g _ _ _ | .bswap g _ _ _ | .bext g _ _ _ _ _
  | .bins g _ _ _ _ _ | .sext g _ _ _ | .zext g _ _ _ | .cmpEq g _ _ _ _ | .cmpNe g _ _ _ _ | .cmpLt g _ _ _ _ | .cmpLe g _ _ _ _
  | .cmpGt g _ _ _ _ | .cmpGe g _ _ _ _ | .pand g _ _ _ | .por g _ _ _ | .pxor g _ _ _ | .pandn g _ _ _ | .pnot g _ _ | .pmov g _ _
  | .pset g _ _ | .movi g _ _ | .mov g _ _ | .lea g _ _ _ | .sel g _ _ _ _ | .qcap g _ _ | .rndc g _ _ _ | .mfs g _ _ | .mts g _ _
  | .mtsWp g _ | .pushm g _ | .popm g _ | .fadd g _ _ _ _ | .fsub g _ _ _ _ | .fmul g _ _ _ _ | .fdiv g _ _ _ _ | .fsqrt g _ _ _
  | .fmin g _ _ _ _ | .fmax g _ _ _ _ | .fneg g _ _ _ | .fabs g _ _ _ | .fma g _ _ _ _ _ | .fms g _ _ _ _ _ | .fnma g _ _ _ _ _
  | .fnms g _ _ _ _ _ | .fcmpEq g _ _ _ _ | .fcmpLt g _ _ _ _ | .fcmpLe g _ _ _ _ | .fcmpUn g _ _ _ _ | .fcvt g _ _ _ _ _
  | .fclass g _ _ _ | .br g _ | .call g _ _ | .jmp g _ _ | .ret g _ | .brx g _ _ _ | .loop g _ _ | .nop g | .hint g _ | .vqmx g _ _ _ _
  | .vdqmx g _ _ _ _ | .jclr g _ | .ld g _ _ _ _ | .st g _ _ _ _ | .ldb g _ _ _ | .amoAdd g _ _ _ _ | .amoAnd g _ _ _ _
  | .amoOr g _ _ _ _ | .amoXor g _ _ _ _ | .amoMin g _ _ _ _ | .amoMax g _ _ _ _ | .amoSwap g _ _ _ _ | .amoCas g _ _ _ _ _
  | .amoFadd g _ _ _ _ | .amoFaddOrd g _ _ _ _ _ _ | .redAdd g _ _ _ | .redMin g _ _ _ | .redMax g _ _ _ | .redAddOrd g _ _ _ _ _
  | .redMinOrd g _ _ _ _ _ | .redMaxOrd g _ _ _ _ _ | .pref g _ _ | .chint g _ _ | .copy g _ _ _ _ _ _ _ _ | .copyh g _ _ _ _ _ _ _ _ _
  | .binit g _ _ | .barrive g _ _ | .bwait g _ _ | .bsync g _ | .bstat g _ _ | .tlwait g _ _ | .tlread g _ _ _ _ | .fence g _ _
  | .wake g _ _ | .wait g _ _ | .chinit g _ _ _ | .send g _ _ _ _ | .sendNb g _ _ _ _ | .recv g _ _ _ | .recvNb g _ _ _ | .mshl g _ _ _
  | .mshf g _ _ _ _ | .mshs g _ _ _ | .mclaim g _ _ _ | .mrel g _ _ | .mld g _ _ _ _ _ | .mldx g _ _ _ _ _ | .mma g _ _ _ _ _
  | .mmaS g _ _ _ _ _ | .mzero g _ _ | .mmov g _ _ _ _ _ _ | .mmovr g _ _ _ _ | .mst g _ _ _ _ _ _ _ | .mspec g _ _ | .mresolve g _ _
  | .mcommit g _ | .mdiscard g _ | .tgemm g _ _ _ _ _ _ _ _ | .tfact g _ _ _ _ _ | .tsolve g _ _ _ _ | .mqpri g _ _ | .mqsync g _ _
  | .sysr g _ _ | .sysw g _ _ | .tlbinv g _ _ _ _ | .lflush g _ _ _ _ | .l2cfg g _ _ _ _ | .mscrub g _ _ _ | .mspare g _ _ _
  | .mrmapRead g _ _ _ _ | .mrmapWrite g _ _ _ _ | .mrmapInvalidate g _ _ _ _ | .mrmapSpareBitmap g _ _ _ _ | .mliveNotLive g _ _ _
  | .mliveLive g _ _ _ | .jrnl g _ _ _ _ | .msave g _ _ | .bind g _ _ _ | .gswitchCancel g _ _ _ | .gswitchArm g _ _ _ => some (g, 0)
  | .vins g _ _ _ j | .vext g _ _ _ j => some (g, j.toNat)
  | _ => none

/-- A transfer, whose guard in a chain is the leader's (01_encoding R29, 02_scalar R72). -/
def leaderDecides : Instr → Bool
  | .br _ _ | .call _ _ _ | .jmp _ _ _ | .ret _ _ | .brx _ _ _ _ | .loop _ _ _ => true
  | _ => false

/-! ## Forms of the completion claims -/

/-- Whenever the current core carries out i, whose guard is `g`, i completes with the state `f` gives and retires. -/
def Completes (i : Instr) (g : State → Bool) (f : State → State) : Prop :=
  ∀ s, s.issues i (g s) = true → exec i s = .next ((f (s.acquireTokens i)).completed i)

/-- The same on the states in which `c` holds of the state and of the state it gives. -/
def CompletesWhen (i : Instr) (g : State → Bool) (c : State → State → Prop) : Prop :=
  ∀ s t, s.issues i (g s) = true → c (s.acquireTokens i) t → exec i s = .next (t.completed i)

/-- i completes and goes on at the address `f` gives, as a taken transfer. -/
def Jumps (i : Instr) (g : State → Bool) (c : State → Word × State → Prop) : Prop :=
  ∀ s x, s.issues i (g s) = true → c (s.acquireTokens i) x → exec i s = .next (x.2.retireTo x.1)

/-- i completes and goes on at the address `f` gives, without being a transfer. -/
def GoesTo (i : Instr) (g : State → Bool) (c : State → Word × State → Prop) : Prop :=
  ∀ s x, s.issues i (g s) = true → c (s.acquireTokens i) x → exec i s = .next (x.2.retireAt x.1)

/-- i answers the state `c` relates, in which its own retirement stands. -/
def Answers (i : Instr) (g : State → Bool) (c : State → State → Prop) : Prop :=
  ∀ s t, s.issues i (g s) = true → c (s.acquireTokens i) t → exec i s = .next t

/-- What a vector instruction that answers a next state leaves unchanged (04_vector R109-R111): every byte but those of the `count`
registers from v[d] on and, if it has `flags`, JFLAGS, of which it only raises bits; and of those registers the lanes of n bits that it
`keeps`. -/
def FramesLanes (i : Instr) (n : Nat) (d : VReg) (count : State → Nat) (flags : Bool) (keeps : State → Nat → Bool) : Prop :=
  ∀ s u : State, Mem.wf s.mem = true → s.clear i = true → exec i s = .next u →
    s.unchangedBut u (fun loc => (∃ k < count s, s.vregBytes (d + BitVec.ofNat 5 k) 1 loc) ∨ (flags = true ∧ s.wordByte Ws.jflags loc) ∨
      s.repByte loc) ∧
    s.word Ws.jflags &&& u.word Ws.jflags = s.word Ws.jflags ∧
    ∀ k < count s, ∀ l < 256 / n, keeps s l = true →
      lane n (u.vreg (d + BitVec.ofNat 5 k)) l = lane n (s.vreg (d + BitVec.ofNat 5 k)) l

/-- Whenever the current core carries out i, whose guard is `g`, and `c` holds of the state and of a trap, i raises that trap. -/
def Traps (i : Instr) (g : State → Bool) (c : State → Trap → Prop) : Prop :=
  ∀ s t, s.issues i (g s) = true → c (s.acquireTokens i) t → exec i s = .next ((s.acquireTokens i).raiseTrap t)

/-- A scalar instruction: w[d] := v, and it retires. -/
def SetsReg (i : Instr) (g : Guard) (d : SReg) (v : State → Word) : Prop :=
  Completes i (State.whole g) fun s => s.setReg d (v s)

/-- A compare: p[d] := v, and it retires. -/
def SetsPred (i : Instr) (g : Guard) (d : PReg) (v : State → BitVec 32) : Prop :=
  Completes i (State.whole g) fun s => s.setPred d (v s)

/-- A scalar floating-point instruction: w[d] := the result, its flags into FCSR (02_scalar R66). -/
def SetsFp (i : Instr) (g : Guard) (d : SReg) (r : State → Nat × Flags) : Prop :=
  Completes i (State.whole g) fun s => s.fpResult d (r s)

/-- A vector instruction, guarded lane by lane: it is counted and retires. -/
def VectorSets (i : Instr) (f : State → State) : Prop := Completes i State.always fun s => (f s).count 4 1

/-- A vector instruction that writes the enabled lanes of a group of destination registers (04_vector R109, R110). -/
def SetsLanes (i : Instr) (n : Nat) (g : Guard) (d : VReg) (f : State → Nat → Jet × List Flags) : Prop :=
  VectorSets i fun s => s.vecWrite n g d s.gsize (f s)

/-- An event of a device that is on. -/
def Happens (i : Instr) (f : State → State) : Prop := ∀ s, s.on = true → exec i s = .next (f s)

/-- An access that nothing stops, with its result. -/
def Passes {α : Type} (c : Chk α) (x : α) : Prop := c = .ok x

/-- The planes of a lane of a group, as values of a format. -/
def State.values (s : State) (F : Fmt) (r : VReg) (l : Nat) : List FpVal := laneVals F s.jet (s.group r s.gsize) l

/-- The planes of a lane of a group, as bits. -/
def State.lanePlanes (s : State) (n : Nat) (r : VReg) (l : Nat) : Jet := jetAt n (s.group r s.gsize) l

/-- Plane k of each plane 0 to J. -/
def State.eachPlane (s : State) (f : Nat → Nat × Flags) : Jet × List Flags := planes s.jet f

/-- Planes without flags. -/
def State.exactPlanes (s : State) (f : Nat → Nat) : Jet × List Flags := plain ((List.range (s.jet + 1)).map f)

end Sys2Proof.Machine
end

