-- ==== Sys2Proof/Certificates/Slice0/Obligations.lean ====
section
/-!
DEFINITION. The statements for the provers: each follows the rules of spec/ its docstring names. A core "carries out" an
instruction when `State.issues` holds: the device is on, the checks of 01_encoding R30 before the guard pass, no register
waits for a copy, nothing corrupted is read, and the guard holds.
-/

open Sys2Proof Sys2Proof.Machine

/-! ## Every scalar instruction completes with its result -/

/-- 02_scalar R52-R54: the operations of width W on w[A] and operand B, and their extension to w[D]. -/
def Obligations.ScalarArithmeticCompletes : Prop :=
  ∀ (g : Guard) (t : Ty) (d a : SReg) (b : OpB),
    SetsReg (.add g t d a b) g d (fun s => intOp t (fun _ x y => x + y) (s.reg a) (s.opB b)) ∧
    SetsReg (.sub g t d a b) g d (fun s => intOp t (fun _ x y => x - y) (s.reg a) (s.opB b)) ∧
    SetsReg (.and g t d a b) g d (fun s => intOp t (fun _ x y => x &&& y) (s.reg a) (s.opB b)) ∧
    SetsReg (.or g t d a b) g d (fun s => intOp t (fun _ x y => x ||| y) (s.reg a) (s.opB b)) ∧
    SetsReg (.xor g t d a b) g d (fun s => intOp t (fun _ x y => x ^^^ y) (s.reg a) (s.opB b)) ∧
    SetsReg (.andn g t d a b) g d (fun s => intOp t (fun _ x y => x &&& ~~~y) (s.reg a) (s.opB b)) ∧
    SetsReg (.shl g t d a b) g d (fun s => intOp t (fun w x y => x <<< (y.toNat % w)) (s.reg a) (s.opB b)) ∧
    SetsReg (.shr g t d a b) g d (fun s => intOp t (fun w x y => x >>> (y.toNat % w)) (s.reg a) (s.opB b)) ∧
    SetsReg (.sar g t d a b) g d (fun s => intOp t (fun w x y => x.sshiftRight (y.toNat % w)) (s.reg a) (s.opB b)) ∧
    SetsReg (.ror g t d a b) g d (fun s => intOp t (fun w x y => x.rotateRight (y.toNat % w)) (s.reg a) (s.opB b)) ∧
    SetsReg (.min g t d a b) g d (fun s => intOp t (fun w x y =>
      if Alu.value (isSigned t) w y < Alu.value (isSigned t) w x then y else x) (s.reg a) (s.opB b)) ∧
    SetsReg (.max g t d a b) g d (fun s => intOp t (fun w x y =>
      if Alu.value (isSigned t) w x < Alu.value (isSigned t) w y then y else x) (s.reg a) (s.opB b)) ∧
    SetsReg (.mul g t d a b) g d (fun s => intOp t (fun _ x y => x * y) (s.reg a) (s.opB b)) ∧
    SetsReg (.mulh g t d a b) g d (fun s => intOp t (fun w x y =>
      BitVec.ofInt w (Alu.value (isSigned t) w x * Alu.value (isSigned t) w y / 2 ^ w)) (s.reg a) (s.opB b)) ∧
    SetsReg (.div g t d a b) g d (fun s => intOp t (fun w x y => if y = 0 then BitVec.allOnes w
      else BitVec.ofInt w ((Alu.value (isSigned t) w x).tdiv (Alu.value (isSigned t) w y))) (s.reg a) (s.opB b)) ∧
    SetsReg (.rem g t d a b) g d (fun s => intOp t (fun w x y => if y = 0 then x
      else BitVec.ofInt w ((Alu.value (isSigned t) w x).tmod (Alu.value (isSigned t) w y))) (s.reg a) (s.opB b))

/-- 02_scalar R55, R56: the bit operations, zero-extended, and the extensions of a field. -/
def Obligations.BitOperationsComplete : Prop :=
  ∀ (g : Guard) (t : Ty) (d a : SReg),
    SetsReg (.clz g t d a) g d (fun s => bitOp t (fun w x =>
      BitVec.ofNat w ((List.range w).takeWhile fun i => !x.getLsbD (w - 1 - i)).length) (s.reg a)) ∧
    SetsReg (.ctz g t d a) g d (fun s => bitOp t (fun w x =>
      BitVec.ofNat w ((List.range w).takeWhile fun i => !x.getLsbD i).length) (s.reg a)) ∧
    SetsReg (.popc g t d a) g d (fun s => bitOp t (fun w x =>
      BitVec.ofNat w ((List.range w).filter fun i => x.getLsbD i).length) (s.reg a)) ∧
    SetsReg (.brev g t d a) g d (fun s => bitOp t (fun _ x => x.reverse) (s.reg a)) ∧
    SetsReg (.bswap g t d a) g d (fun s => bitOp t (fun w x => ofBytes w (toBytes (w / 8) x).reverse) (s.reg a)) ∧
    (∀ pos lenM1 : BitVec 6, SetsReg (.bext g t d a pos lenM1) g d (fun s => bitOp t (fun w x =>
      (x >>> pos.toNat) &&& BitVec.ofNat w (2 ^ (lenM1.toNat + 1) - 1)) (s.reg a))) ∧
    (∀ pos lenM1 : BitVec 6, SetsReg (.bins g t d a pos lenM1) g d (fun s =>
      if isW32 t then (Alu.bins pos.toNat (lenM1.toNat + 1) 32 ((s.reg d).setWidth 32) ((s.reg a).setWidth 32)).setWidth 64
      else Alu.bins pos.toNat (lenM1.toNat + 1) 64 (s.reg d) (s.reg a))) ∧
    SetsReg (.sext g t d a) g d (fun s => ((s.reg a).setWidth t.bits).signExtend 64) ∧
    SetsReg (.zext g t d a) g d (fun s => ((s.reg a).setWidth t.bits).setWidth 64)

/-- 02_scalar R57, R58: a compare writes all ones or zero, in the type's width and signedness; the predicate operations. -/
def Obligations.ComparesAndPredicatesComplete : Prop :=
  (∀ (g : Guard) (t : Ty) (d : PReg) (a : SReg) (b : OpB),
    SetsPred (.cmpEq g t d a b) g d (fun s => if intCmp t (fun _ x y => x == y) (s.reg a) (s.opB b) then 0xFFFFFFFF else 0) ∧
    SetsPred (.cmpNe g t d a b) g d (fun s => if intCmp t (fun _ x y => x != y) (s.reg a) (s.opB b) then 0xFFFFFFFF else 0) ∧
    SetsPred (.cmpLt g t d a b) g d (fun s => if intCmp t (fun w x y =>
      decide (Alu.value (isSigned t) w x < Alu.value (isSigned t) w y)) (s.reg a) (s.opB b) then 0xFFFFFFFF else 0) ∧
    SetsPred (.cmpLe g t d a b) g d (fun s => if intCmp t (fun w x y =>
      decide (Alu.value (isSigned t) w x ≤ Alu.value (isSigned t) w y)) (s.reg a) (s.opB b) then 0xFFFFFFFF else 0) ∧
    SetsPred (.cmpGt g t d a b) g d (fun s => if intCmp t (fun w x y =>
      decide (Alu.value (isSigned t) w y < Alu.value (isSigned t) w x)) (s.reg a) (s.opB b) then 0xFFFFFFFF else 0) ∧
    SetsPred (.cmpGe g t d a b) g d (fun s => if intCmp t (fun w x y =>
      decide (Alu.value (isSigned t) w y ≤ Alu.value (isSigned t) w x)) (s.reg a) (s.opB b) then 0xFFFFFFFF else 0)) ∧
  (∀ (g : Guard) (d a b : PReg),
    SetsPred (.pand g d a b) g d (fun s => s.pred a &&& s.pred b) ∧
    SetsPred (.por g d a b) g d (fun s => s.pred a ||| s.pred b) ∧
    SetsPred (.pxor g d a b) g d (fun s => s.pred a ^^^ s.pred b) ∧
    SetsPred (.pandn g d a b) g d (fun s => s.pred a &&& ~~~s.pred b) ∧
    SetsPred (.pnot g d a) g d (fun s => ~~~s.pred a) ∧
    SetsPred (.pmov g d a) g d (fun s => s.pred a)) ∧
  (∀ (g : Guard) (d : PReg) (imm : BitVec 32), SetsPred (.pset g d imm) g d (fun _ => imm))

/-- 02_scalar R59, R60, R62: MOVI, MOV, LEA in its four forms, SEL, QCAP and RNDC. The RNDC clause is the pseudocode of R62, which the
rule's own worked example contradicts: that the pseudocode decides is the model's choice (assumption log 12). -/
def Obligations.MovesComplete : Prop :=
  ∀ (g : Guard) (d a b : SReg),
    (∀ v : BitVec 16, SetsReg (.movi g d (.imm16 v)) g d (fun _ => v.signExtend 64)) ∧
    (∀ v : BitVec 32, SetsReg (.movi g d (.imm32 v)) g d (fun _ => v.signExtend 64)) ∧
    (∀ v : Word, SetsReg (.movi g d (.imm64 v)) g d (fun _ => v)) ∧
    SetsReg (.mov g d a) g d (fun s => s.reg a) ∧
    (∀ sc : BitVec 3, SetsReg (.lea g d a (.idx b sc)) g d (fun s => s.reg a + (s.reg b <<< sc.toNat))) ∧
    (∀ (sc : BitVec 3) (v : BitVec 32), SetsReg (.lea g d a (.idxDisp b sc v)) g d
      (fun s => s.reg a + (s.reg b <<< sc.toNat) + v.signExtend 64)) ∧
    (∀ v : BitVec 16, SetsReg (.lea g d a (.imm16 v)) g d (fun s => s.reg a + v.signExtend 64)) ∧
    (∀ v : BitVec 32, SetsReg (.lea g d a (.imm32 v)) g d (fun s => s.reg a + v.signExtend 64)) ∧
    (∀ c : PReg, SetsReg (.sel g d a b c) g d (fun s => if (s.pred c).getLsbD 0 then s.reg a else s.reg b)) ∧
    (∀ x : OpB64, SetsReg (.qcap g d x) g d (fun s => capability s (s.opB64 x).toNat)) ∧
    SetsReg (.rndc g d a b) g d (fun s =>
      let z := (s.reg a).setWidth 32 * 0x9E3779B1 + (s.reg b).setWidth 32
      let z := (z ^^^ (z >>> 15)) * 0x2C1B3C6D
      let z := (z ^^^ (z >>> 12)) * 0x297A2D39
      (z ^^^ (z >>> 15)).setWidth 64)

/-- 02_scalar R42, R44, R45, R50, R81: MFS reads a special register, MTS writes one under its write rule, a wake of the same
core cycle staying, and MTS WP enters another workspace: the next instruction issues 52 core cycles later, at the next PC or in
the repetition that is active there. -/
def Obligations.SpecialRegistersComplete : Prop :=
  (∀ (g : Guard) (d : SReg) (idx : BitVec 10), Completes (.mfs g d idx) (State.whole g) fun s =>
    (s.readSpecial idx).2.setReg d (s.readSpecial idx).1) ∧
  (∀ (g : Guard) (a : SReg) (idx : BitVec 10), Completes (.mts g a idx) (State.whole g) fun s =>
    s.setWord (State.specialOffset idx.toNat)
      (Ws.filter (State.specialOffset idx.toNat) (s.word (State.specialOffset idx.toNat))
        (if State.specialOffset idx.toNat = Ws.wake then s.reg a &&& ~~~s.newWakes else s.reg a))) ∧
  (∀ (g : Guard) (a : SReg), GoesTo (.mtsWp g a) (State.whole g) fun s x =>
    (s.reg a).toNat % 256 = 0 ∧ (s.reg a).toNat ≤ 0x3A00 ∧
      (let t := s.onCore fun k => { k with wp := (s.reg a).setWidth 14, holdUntil := s.clock + 52 }
       x = (t.resumeAt (s.core.pc + 8), t)))

/-- 02_scalar R63, R64: PUSHM stores its registers below SSP and moves SSP down; POPM loads them back and moves it up. -/
def Obligations.SpillStackCompletes : Prop :=
  ∀ (g : Guard) (r : RegRange),
    CompletesWhen (.pushm g r) (State.whole g) (fun s t =>
      let size := 8 * rangeWords r
      let base := s.word Ws.ssp - BitVec.ofNat 64 size
      (s.word Ws.ssp).toNat % rangeElem r = 0 ∧ (s.word Ws.ssl).toNat ≤ base.toNat ∧ meetsWorkspace s base size = false ∧
        rangeWait s .store ((List.range (rangeWords r)).map (pushElem r s base)) = none ∧
        ∃ u, pushWords r base (List.range (rangeWords r)) s = .done u ∧ t = u.setWord Ws.ssp base) ∧
    CompletesWhen (.popm g r) (State.whole g) (fun s t =>
      let base := s.word Ws.ssp
      let size := 8 * rangeWords r
      base.toNat % rangeElem r = 0 ∧ meetsWorkspace s base size = false ∧
        rangeWait s .load ((List.range (rangeWords r)).map (pushElem r s base)) = none ∧
        popWords r base (List.range (rangeWords r)) s
          (fun u => .done (u.setWord Ws.ssp (base + BitVec.ofNat 64 size))) = .done t)

/-- 02_scalar R66-R68: scalar floating-point arithmetic, rounded once by FCSR.RM, with its flags in FCSR. -/
def Obligations.ScalarFloatArithmeticCompletes : Prop :=
  ∀ (g : Guard) (t : Ty) (d a b c : SReg),
    let F := scalarFmt t
    SetsFp (.fadd g t d a b) g d (fun s => F.add s.rm (fpReg F s a) (fpReg F s b)) ∧
    SetsFp (.fsub g t d a b) g d (fun s => F.add s.rm (fpReg F s a) (fpReg F s b).neg) ∧
    SetsFp (.fmul g t d a b) g d (fun s => F.mul s.rm (fpReg F s a) (fpReg F s b)) ∧
    SetsFp (.fdiv g t d a b) g d (fun s => F.div s.rm (fpReg F s a) (fpReg F s b)) ∧
    SetsFp (.fsqrt g t d a) g d (fun s => F.sqrt s.rm (fpReg F s a)) ∧
    SetsFp (.fmin g t d a b) g d (fun s => F.minNum false (fpBits F (s.reg a)) (fpBits F (s.reg b))) ∧
    SetsFp (.fmax g t d a b) g d (fun s => F.minNum true (fpBits F (s.reg a)) (fpBits F (s.reg b))) ∧
    SetsReg (.fneg g t d a) g d (fun s => BitVec.ofNat 64 (F.negate (fpBits F (s.reg a)))) ∧
    SetsReg (.fabs g t d a) g d (fun s => BitVec.ofNat 64 (F.absolute (fpBits F (s.reg a)))) ∧
    SetsFp (.fma g t d a b c) g d (fun s => F.fma s.rm (fpReg F s a) (fpReg F s b) (fpReg F s c)) ∧
    SetsFp (.fms g t d a b c) g d (fun s => F.fma s.rm (fpReg F s a) (fpReg F s b) (fpReg F s c).neg) ∧
    SetsFp (.fnma g t d a b c) g d (fun s => F.fma s.rm (fpReg F s a).neg (fpReg F s b) (fpReg F s c)) ∧
    SetsFp (.fnms g t d a b c) g d (fun s => F.fma s.rm (fpReg F s a).neg (fpReg F s b) (fpReg F s c).neg)

/-- 02_scalar R69-R71: FCMP with its invalid flag, FCVT in every pair of types and rounding mode, FCLASS. -/
def Obligations.ScalarFloatComparesComplete : Prop :=
  (∀ (g : Guard) (t : Ty) (d : PReg) (a b : SReg),
    let F := scalarFmt t
    let sets (i : Instr) (quiet : Bool) (f : FpVal → FpVal → Bool) : Prop :=
      Completes i (State.whole g) fun s =>
        let x := fpReg F s a
        let y := fpReg F s b
        (s.setPred d (if f x y then 0xFFFFFFFF else 0)).raise
          (if x.isSig || y.isSig || (quiet && (x.isNan || y.isNan)) then Flags.nv else 0)
    sets (.fcmpEq g t d a b) false FpVal.eq ∧
    sets (.fcmpLt g t d a b) true FpVal.lt ∧
    sets (.fcmpLe g t d a b) true (fun x y => FpVal.lt x y || FpVal.eq x y) ∧
    sets (.fcmpUn g t d a b) false (fun x y => x.isNan || y.isNan)) ∧
  (∀ (g : Guard) (t src : Ty) (d a : SReg) (rm : BitVec 4), Completes (.fcvt g t d a src rm) (State.whole g) fun s =>
    let r := fcvtResult t src (if rm = 0 then s.rm else rm.toNat - 1) (s.reg a)
    (s.setReg d r.1).raise r.2) ∧
  (∀ (g : Guard) (t : Ty) (d a : SReg), SetsReg (.fclass g t d a) g d fun s =>
    BitVec.ofNat 64 (2 ^ (scalarFmt t).classOf (fpBits (scalarFmt t) (s.reg a))))

/-! ## Control -/

/-- 02_scalar R73-R77: the transfers of a core that decides for itself: BR, CALL, JMP, RET, BRX and LOOP, taken and not. -/
def Obligations.TransfersComplete : Prop :=
  (∀ (g : Guard) (off : Offset), Jumps (.br g off) (State.wholeAlone g) fun s x => x = (s.core.pc + off.bytes, s)) ∧
  (∀ (g : Guard) (d : SReg) (off : Offset), Jumps (.call g d off) (State.wholeAlone g) fun s x =>
    x = (s.core.pc + off.bytes, s.setReg d (s.core.pc + BitVec.ofNat 64 (Instr.call g d off).size))) ∧
  (∀ (g : Guard) (d a : SReg), Jumps (.jmp g d a) (State.wholeAlone g) fun s x =>
    (s.reg a).toNat % 4 = 0 ∧ x = (s.reg a, s.setReg d (s.core.pc + 8))) ∧
  (∀ (g : Guard) (a : SReg), Jumps (.ret g a) (State.wholeAlone g) fun s x => (s.reg a).toNat % 4 = 0 ∧ x = (s.reg a, s)) ∧
  (∀ (g : Guard) (a b : SReg) (count : BitVec 16), Jumps (.brx g a b count) (State.wholeAlone g) fun s x =>
    (s.reg b).toNat < count.toNat ∧ Passes (s.coreLoad (s.reg a + 8 * s.reg b) 8) x ∧ x.1.toNat % 4 = 0) ∧
  (∀ (g : Guard) (a : SReg) (off : BitVec 16), a ≠ 0 →
    Jumps (.loop g a off) (State.wholeAlone g) (fun s x =>
      s.reg a ≠ 1 ∧ x = (s.core.pc + (off.signExtend 64 <<< 2), s.setReg a (s.reg a - 1))) ∧
    CompletesWhen (.loop g a off) (State.wholeAlone g) (fun s t => s.reg a = 1 ∧ t = s.setReg a 0))

/-- 02_scalar R72: a follower whose leader has completed a transfer goes where the leader went, whatever its own guard; its
own guard decides its own register write. -/
def Obligations.FollowersFollowTheLeader : Prop :=
  ∀ (i : Instr) (g : Guard) (write : State → State),
    ((∃ off, i = .br g off ∧ write = id) ∨
      (∃ d off, i = .call g d off ∧ write = fun s => s.setReg d (s.core.pc + BitVec.ofNat 64 i.size)) ∨
      (∃ d a, i = .jmp g d a ∧ write = fun s => s.setReg d (s.core.pc + 8)) ∨
      (∃ a, i = .ret g a ∧ write = id) ∨
      (∃ a b n, i = .brx g a b n ∧ write = id) ∨
      (∃ a off, i = .loop g a off ∧ write = fun s => s.setReg a (s.reg a - 1))) →
    ∀ s : State, s.clear i = true → s.core.follower = true → (s.acquireTokens i).core.follower = true →
      (s.coreAt s.leaderIdx).done = true → ((s.acquireTokens i).coreAt (s.acquireTokens i).leaderIdx).done = true →
      (s.guardLane g 0 || s.decider.guardLane g 0) = true →
      exec i s = .next ((if s.guardLane g 0 then write (s.acquireTokens i) else s.acquireTokens i).retireAt
        ((s.acquireTokens i).coreAt (s.acquireTokens i).leaderIdx).pc)

/-- 02_scalar R78-R83, 01_encoding R20: REP starts or skips its body, NOP, HINT, UNCHAIN and FILL. -/
def Obligations.RepetitionAndHintsComplete : Prop :=
  (∀ (a : SReg) (lenM1 : BitVec 4) (stride : BitVec 5) (mask : BitVec 4),
    GoesTo (.rep a lenM1 stride mask) State.alone fun s x =>
      ∃ b u, scanBody (lenM1.toNat + 1) (s.core.pc + 8) none s = .ok (b, u) ∧
        x = if (s.reg a).setWidth 32 = (0 : BitVec 32) then (b.last, u)
          else (b.first, (u.setWord Ws.repState (Rep.start lenM1 stride mask ((s.reg a).setWidth 32))).setWord Ws.repBase b.first)) ∧
  (∀ g : Guard, Completes (.nop g) (State.whole g) fun s => s) ∧
  (∀ (g : Guard) (code : BitVec 16), Completes (.hint g code) (State.whole g) fun s =>
    s.onCore fun k => { k with holdUntil := s.clock + 1 + (if code = 1 then 8 else 64) }) ∧
  Completes .unchain State.always (fun s =>
    let whole := s.core.chained && s.core.pos == 0 && s.core.away == 0
    let u : State := (if whole then s.attached s.cur else []).foldl (fun (u : State) c => u.setCoreAt c { u.coreAt c with detached := true }) s
    u.onCore fun k => { k with detached := k.detached || k.chained }) ∧
  Happens .fill (fun s => s.onCore fun k => { k with pc := k.pc + 4 })

/-! ## Vector instructions -/

/-- 04_vector R113, R114, 00_scope R16: jet arithmetic in every enabled lane, one rounding per operation. -/
def Obligations.VectorArithmeticCompletes : Prop :=
  ∀ (g : Guard) (t : Ty) (d a b c : VReg),
    let F := vecFmt t
    let n := F.width
    let neg (s : State) (r : VReg) (l : Nat) : List FpVal := (s.values F r l).map FpVal.neg
    let fma (i : Instr) (x z : State → Nat → List FpVal) : Prop := SetsLanes i n g d fun s l =>
      s.eachPlane fun k => JetFp.cauchy F s.rm (x s l) (s.values F b l) k (some (JetFp.at_ (z s l) k))
    SetsLanes (.vadd g t d a b) n g d (fun s l =>
      s.eachPlane fun k => F.add s.rm (JetFp.at_ (s.values F a l) k) (JetFp.at_ (s.values F b l) k)) ∧
    SetsLanes (.vsub g t d a b) n g d (fun s l =>
      s.eachPlane fun k => F.add s.rm (JetFp.at_ (s.values F a l) k) (JetFp.at_ (s.values F b l) k).neg) ∧
    SetsLanes (.vmul g t d a b) n g d (fun s l =>
      s.eachPlane fun k => JetFp.cauchy F s.rm (s.values F a l) (s.values F b l) k none) ∧
    SetsLanes (.vmin g t d a b) n g d (fun s l => JetFp.select F false
      (jetAt n ((s.group a s.gsize).take (s.jet + 1)) l) (jetAt n ((s.group b s.gsize).take (s.jet + 1)) l)) ∧
    SetsLanes (.vmax g t d a b) n g d (fun s l => JetFp.select F true
      (jetAt n ((s.group a s.gsize).take (s.jet + 1)) l) (jetAt n ((s.group b s.gsize).take (s.jet + 1)) l)) ∧
    SetsLanes (.vneg g t d a) n g d (fun s l => plain ((jetAt n ((s.group a s.gsize).take (s.jet + 1)) l).map F.negate)) ∧
    SetsLanes (.vabs g t d a) n g d (fun s l =>
      let x := jetAt n ((s.group a s.gsize).take (s.jet + 1)) l
      plain (if F.signBit ≤ x.plane 0 then x.map F.negate else x.map (JetFp.copied F))) ∧
    fma (.vfma g t d a b c) (fun s => s.values F a) (fun s => s.values F c) ∧
    fma (.vfms g t d a b c) (fun s => s.values F a) (fun s => neg s c) ∧
    fma (.vfnma g t d a b c) (fun s => neg s a) (fun s => s.values F c) ∧
    fma (.vfnms g t d a b c) (fun s => neg s a) (fun s => neg s c)

/-- 04_vector R115-R121: division, roots, exponential, logarithm, sine and cosine, tanh and sigmoid, plane by plane. -/
def Obligations.VectorRecurrencesComplete : Prop :=
  ∀ (g : Guard) (t : Ty) (d a b : VReg),
    let F := vecFmt t
    let sets (i : Instr) (f : State → Nat → List (Nat × Flags)) : Prop :=
      SetsLanes i F.width g d fun s l => ((f s l).map (·.1), (f s l).map (·.2))
    sets (.vdiv g t d a b) (fun s l => JetFp.div F s.rm s.jet (s.values F a l) (s.values F b l)) ∧
    sets (.vrcp g t d a) (fun s l => JetFp.rcp F s.rm s.jet (s.values F a l)) ∧
    sets (.vsqrt g t d a) (fun s l => JetFp.sqrt F s.rm s.jet (s.values F a l)) ∧
    sets (.vrsqrt g t d a) (fun s l => JetFp.rsqrt F s.rm s.jet (s.values F a l)) ∧
    sets (.vexp g t d a) (fun s l => JetFp.exp F s.rm s.jet (s.values F a l)) ∧
    sets (.vlog g t d a) (fun s l => JetFp.log F s.rm s.jet (s.values F a l)) ∧
    VectorSets (.vsincos g t d a) (fun s => s.vecWrite F.width g d (2 * s.gsize) fun l =>
      let r := JetFp.sincos F s.rm s.jet (s.values F a l)
      let sines := r.map fun x => x.1.1
      (sines ++ List.replicate (s.gsize - sines.length) 0 ++ r.map (fun x => x.2.1), r.map fun x => x.1.2 ||| x.2.2)) ∧
    sets (.vtanh g t d a) (fun s l => JetFp.logistic F s.rm s.jet true (s.values F a l)) ∧
    sets (.vsigm g t d a) (fun s l => JetFp.logistic F s.rm s.jet false (s.values F a l))

/-- 04_vector R122-R125: compares by lane, select, conversion, microscaled blocks and the reductions. -/
def Obligations.VectorComparesAndReductionsComplete : Prop :=
  (∀ (g : Guard) (t : Ty) (d : PReg) (a b : VReg),
    let F := vecFmt t
    let sets (i : Instr) (quiet : Bool) (f : FpVal → FpVal → Bool) : Prop := VectorSets i fun s =>
      let v (r : VReg) (l : Nat) : FpVal := F.val (lane F.width (s.vreg r) l)
      let nv := (List.range (256 / F.width)).any fun l => s.guardLane g l &&
        ((v a l).isSig || (v b l).isSig || (quiet && ((v a l).isNan || (v b l).isNan)))
      let u := s.setPred d (s.lanePred F.width g fun l => f (v a l) (v b l))
      if nv then u.raisePlane 0 Flags.nv else u
    sets (.vcmpEq g t d a b) false FpVal.eq ∧
    sets (.vcmpNe g t d a b) false (fun x y => !FpVal.eq x y) ∧
    sets (.vcmpLt g t d a b) true FpVal.lt ∧
    sets (.vcmpLe g t d a b) true (fun x y => FpVal.lt x y || FpVal.eq x y)) ∧
  (∀ (g : Guard) (d a b : VReg) (c : PReg) (width : BitVec 2), SetsLanes (.vsel g d a b c width) (8 * 2 ^ width.toNat) g d
    fun s l => plain (jetAt (8 * 2 ^ width.toNat)
      ((s.group (if (s.pred c).getLsbD l then a else b) s.gsize).take (s.jet + 1)) l)) ∧
  (∀ (g : Guard) (t src : Ty) (d a : VReg) (q : BitVec 2) (rm : BitVec 3), VectorSets (.vcvt g t d a src q rm) fun s =>
    s.writeLanes t.bits d s.gsize (vcvtLanes s g t a src q.toNat (if rm = 0 then s.rm else rm.toNat - 1))) ∧
  (∀ (g : Guard) (d a : VReg) (b : SReg) (fmt : BitVec 3),
    Completes (.vqmx g d a b fmt) (State.whole g) (fun s =>
      let r := Mx.quantBlock fmt.toNat s.rm ((List.range 32).map fun i =>
        Fmt.fp32.val (lane 32 (s.vreg (a + BitVec.ofNat 5 (i / 8))) (i % 8)))
      (((s.setVreg d (BitVec.ofNat 256 (Mx.pack (Mx.elt fmt.toNat).bits r.2.1))).setReg b (BitVec.ofNat 64 r.1)).raisePlane 0
        r.2.2).count 4 1) ∧
    Completes (.vdqmx g d a b fmt) (State.whole g) (fun s =>
      let rs := (List.range 32).map fun i =>
        Mx.dequant fmt.toNat s.rm ((s.reg b).toNat % 256) (Mx.unpack (Mx.elt fmt.toNat).bits (s.vreg a).toNat i)
      ((s.setGroup d ((List.range 4).map fun r => joinLanes 32 ((List.range 8).map fun i => (rs.getD (8 * r + i) (0, 0)).1))).raisePlane
        0 (rs.foldl (fun f r => f ||| r.2) 0)).count 4 1)) ∧
  (∀ (g : Guard) (t : Ty) (d a : VReg),
    let sets (i : Instr) (op : Nat) : Prop := VectorSets i fun s =>
      let xs := (redInputs s t.bits g a (redIdentity t op :: List.replicate 7 (if t.isInt then 0 else (vecFmt t).signBit))).map
        fun x => x.take (s.jet + 1)
      let r : Jet × List Flags :=
        if t.isInt then
          if op = 0 then s.exactPlanes fun k => redTree (fun x y => (x + y) % 2 ^ t.bits) 0 (xs.map fun (x : Jet) => x.plane k)
          else plain (redTree (fun x y =>
            let p := JetInt.val (isSigned t) t.bits (x.plane 0)
            let q := JetInt.val (isSigned t) t.bits (y.plane 0)
            if op = 1 then (if p ≤ q then x else y) else if q ≤ p then x else y) [] xs)
        else if op = 0 then redAddFp (vecFmt t) s.rm s.jet xs else redPickFp (vecFmt t) (decide (op = 2)) xs
      redWrite s t.bits d r.1 r.2
    sets (.vredAdd g t d a) 0 ∧ sets (.vredMin g t d a) 1 ∧ sets (.vredMax g t d a) 2)

/-- 04_vector R126: packed integers; shifts count by plane 0 of B, the whole jet of the smaller or larger, compares. -/
def Obligations.PackedIntegersComplete : Prop :=
  (∀ (g : Guard) (t : Ty) (d a : VReg) (b : OpBV),
    let n := t.bits
    let v (x : Nat) : Int := JetInt.val (isSigned t) n x
    let sets (i : Instr) (f : Nat → Nat → Nat → Nat) : Prop := SetsLanes i n g d fun s l => s.exactPlanes fun k =>
      let y := ((List.range (256 / n)).map (opJets s n b)).getD l []
      f ((s.lanePlanes n a l).plane k) (y.plane k) (y.plane 0)
    let picks (i : Instr) (f : Int → Int → Bool) : Prop := SetsLanes i n g d fun s l =>
      let x := s.lanePlanes n a l
      let y := ((List.range (256 / n)).map (opJets s n b)).getD l []
      plain (List.take (s.jet + 1) (if f (v (x.plane 0)) (v (y.plane 0)) then x else y))
    sets (.vaddInt g t d a b) (fun x y _ => (x + y) % 2 ^ n) ∧
    sets (.vsubInt g t d a b) (fun x y _ => (x + 2 ^ n - y) % 2 ^ n) ∧
    sets (.vand g t d a b) (fun x y _ => x &&& y) ∧
    sets (.vor g t d a b) (fun x y _ => x ||| y) ∧
    sets (.vxor g t d a b) (fun x y _ => x ^^^ y) ∧
    sets (.vshl g t d a b) (fun x _ c => x * 2 ^ (c % n) % 2 ^ n) ∧
    sets (.vshr g t d a b) (fun x _ c => x / 2 ^ (c % n)) ∧
    sets (.vsar g t d a b) (fun x _ c => JetInt.wrap n (JetInt.val true n x / (2 ^ (c % n) : Nat))) ∧
    sets (.vadds g t d a b) (fun x y _ => JetInt.sat (isSigned t) n (v x + v y)) ∧
    sets (.vsubs g t d a b) (fun x y _ => JetInt.sat (isSigned t) n (v x - v y)) ∧
    picks (.vminInt g t d a b) (fun x y => decide (x ≤ y)) ∧
    picks (.vmaxInt g t d a b) (fun x y => decide (y ≤ x))) ∧
  (∀ (g : Guard) (t : Ty) (d : PReg) (a : VReg) (b : OpBV),
    let n := t.bits
    let v (x : Nat) : Int := JetInt.val (isSigned t) n x
    let sets (i : Instr) (f : Int → Int → Bool) : Prop := VectorSets i fun s =>
      s.setPred d (s.lanePred n g fun l =>
        f (v (lane n (s.vreg a) l)) (v ((((List.range (256 / n)).map (opJets s n b)).getD l []).plane 0)))
    sets (.vcmpEqInt g t d a b) (fun x y => x == y) ∧
    sets (.vcmpNeInt g t d a b) (fun x y => x != y) ∧
    sets (.vcmpLtInt g t d a b) (fun x y => decide (x < y)) ∧
    sets (.vcmpLeInt g t d a b) (fun x y => decide (x ≤ y)))

/-- 04_vector R127-R130: packed multiplies, saturation, dot products, complex lanes and butterflies, from exact sums. -/
def Obligations.PackedProductsComplete : Prop :=
  ∀ (g : Guard) (t : Ty) (d a b c : VReg),
    let n := t.bits
    let sg := isSigned t
    let sum (s : State) (l k : Nat) : Int := JetInt.cauchy sg n (s.lanePlanes n a l) (s.lanePlanes n b l) k
    let dot (s : State) (parts m l k : Nat) : Nat := JetInt.wrap 32 ((List.range parts).foldl
      (fun z j => z + JetInt.cauchy sg m (s.lanePlanes m a (parts * l + j)) (s.lanePlanes m b (parts * l + j)) k)
      (((s.lanePlanes 32 d l).plane k : Nat) : Int))
    let cplx (s : State) (l k : Nat) : Int × Int := Cplx.cauchy (s.lanePlanes 32 a l) (s.lanePlanes 32 b l) k
    let fly (i : Instr) (up low : Int → Int → Nat) : Prop := VectorSets i fun s => s.vecWrite 32 g d (2 * s.gsize) fun l =>
      let x := s.lanePlanes 32 a l
      let p (k : Nat) : Int × Int := Cplx.cauchy (s.lanePlanes 32 c l) (s.lanePlanes 32 b l) k
      let out (f : Int → Int → Nat) : Jet := (List.range (s.jet + 1)).map fun k => Cplx.join
        (f (Cplx.re (x.plane k)) (((p k).1 + 16384) / 32768)) (f (Cplx.im (x.plane k)) (((p k).2 + 16384) / 32768))
      plain (out up ++ List.replicate (s.gsize - (out up).length) 0 ++ out low)
    SetsLanes (.vmulInt g t d a b) n g d (fun s l => s.exactPlanes fun k => JetInt.wrap n (sum s l k)) ∧
    SetsLanes (.vmulh g t d a b) n g d (fun s l => s.exactPlanes fun k => JetInt.wrap n (sum s l k / (2 ^ n : Nat))) ∧
    SetsLanes (.vmac g t d a b) n g d (fun s l => s.exactPlanes fun k =>
      JetInt.wrap n ((((s.lanePlanes n d l).plane k : Nat) : Int) + sum s l k)) ∧
    (∀ m : BitVec 6, SetsLanes (.vsat g t d a m) n g d (fun s l => s.exactPlanes fun k =>
      JetInt.wrap n (JetInt.clamp sg m.toNat (JetInt.val sg n ((s.lanePlanes n a l).plane k))))) ∧
    SetsLanes (.vdot4 g t d a b) 32 g d (fun s l => s.exactPlanes (dot s 4 8 l)) ∧
    SetsLanes (.vdot2 g t d a b) 32 g d (fun s l => s.exactPlanes (dot s 2 16 l)) ∧
    (∀ sh : BitVec 4, SetsLanes (.vcmul g t d a b sh) 32 g d (fun s l => s.exactPlanes fun k =>
      Cplx.join (Cplx.sat16 (Cplx.scale sh.toNat (cplx s l k).1)) (Cplx.sat16 (Cplx.scale sh.toNat (cplx s l k).2)))) ∧
    (∀ sh : BitVec 4, SetsLanes (.vcmac g t d a b sh) 32 g d (fun s l => s.exactPlanes fun k =>
      let old := (s.lanePlanes 32 d l).plane k
      Cplx.join (Cplx.sat16 (Cplx.re old + Cplx.scale sh.toNat (cplx s l k).1))
        (Cplx.sat16 (Cplx.im old + Cplx.scale sh.toNat (cplx s l k).2)))) ∧
    SetsLanes (.vconj g t d a) 32 g d (fun s l => s.exactPlanes fun k =>
      let x := (s.lanePlanes 32 a l).plane k
      Cplx.join (x % 65536) (Cplx.sat16 (-Cplx.im x))) ∧
    fly (.vbfly g t d a b c) (fun x y => JetInt.wrap 16 (x + y)) (fun x y => JetInt.wrap 16 (x - y)) ∧
    fly (.vbflys g t d a b c) (fun x y => Cplx.sat16 ((x + y + 1) / 2)) (fun x y => Cplx.sat16 ((x - y + 1) / 2))

/-- 04_vector R131-R133: permutes, moves between scalar and vector registers, and the jet instructions. -/
def Obligations.PermutesAndJetsComplete : Prop :=
  (∀ (g : Guard) (t : Ty) (d a b c : VReg),
    let n := t.bits
    let L := 256 / n
    let from_ (s : State) (r : VReg) (l : Nat) : Jet × List Flags := plain (jetAt n ((s.group r s.gsize).take (s.jet + 1)) l)
    SetsLanes (.vperm g t d a b) n g d (fun s l => from_ s a (lane n (s.vreg b) l % L)) ∧
    SetsLanes (.vshuf g t d a b c) n g d (fun s l =>
      let j := lane n (s.vreg c) l % (2 * L)
      if j < L then from_ s a j else from_ s b (j - L)) ∧
    (∀ x : OpB64, SetsLanes (.vrot g t d a x) n g d (fun s l => from_ s a ((l + (s.opB64 x).toNat) % L))) ∧
    (∀ j : BitVec 5, SetsLanes (.vbcast g t d a j) n g d (fun s _ => from_ s a j.toNat)) ∧
    (∀ k : BitVec 3, SetsLanes (.jext g t d a k) n g d (fun s l =>
      let v := lane n (s.vreg (a + k.setWidth 5)) l
      if t.isInt then plain [v * factorial k.toNat % 2 ^ n]
      else (fun r => ([r.1], [r.2])) ((vecFmt t).mul s.rm ((vecFmt t).val v) (.ofInt (factorial k.toNat))))) ∧
    (∀ k m : BitVec 3, VectorSets (.jplane g t d a k m) (fun s => s.writeLanes n (d + m.setWidth 5) 1
      (s.enabledLanes n g fun l => plain [lane n (s.vreg (a + k.setWidth 5)) l]))) ∧
    (∀ x : SVReg, SetsLanes (.jseed g t d x) n g d (fun s l =>
      let v := match x with
        | .s r => (s.reg r).toNat % 2 ^ n
        | .v r => lane n (s.vreg r) l
      plain (if s.jet = 0 then [v] else [v, if t.isInt then 1 else ((vecFmt t).round 0 .one).1])))) ∧
  (∀ (g : Guard) (d a : VReg) (width : BitVec 2), SetsLanes (.vmov g d a width) (8 * 2 ^ width.toNat) g d fun s l =>
    plain (jetAt (8 * 2 ^ width.toNat) ((s.group a s.gsize).take (s.jet + 1)) l)) ∧
  (∀ (g : Guard) (t : Ty) (v : VReg) (w : SReg),
    (∀ j : BitVec 5, Completes (.vins g t v w j) (fun s => s.guardLane g j.toNat) fun s =>
      (s.writeLanes t.bits v s.gsize ((List.range (256 / t.bits)).map fun l =>
        if l = j.toNat then some (plain [(s.reg w).toNat % 2 ^ t.bits]) else none)).count 4 1) ∧
    (∀ j : BitVec 5, Completes (.vext g t w v j) (fun s => s.guardLane g j.toNat) fun s =>
      let x : BitVec t.bits := BitVec.ofNat t.bits (lane t.bits (s.vreg v) j.toNat)
      (s.setReg w (if t.isInt && isSigned t || t == .dflt then x.signExtend 64 else x.setWidth 64)).count 4 1) ∧
    SetsLanes (.vsplat g t v w) t.bits g v (fun s _ => plain [(s.reg w).toNat % 2 ^ t.bits])) ∧
  (∀ (g : Guard) (mask : BitVec 8), Completes (.jclr g mask) (State.whole g) fun s => (s.clearFlags mask).count 4 1)

/-! ## Memory instructions -/

/-- 05_memory_isa R138, R141-R144: a load whose address is aligned and whose bytes can be read completes with what they hold. -/
def Obligations.LoadsComplete : Prop :=
  (∀ (g : Guard) (t : Ty) (d a : SReg) (b : OpB), CompletesWhen (.ld g t d a b) (State.whole g) fun s u =>
    (s.reg a + s.opB b).toNat % memBytes t = 0 ∧
      ∃ x s', Passes (s.loadElems [{ va := s.reg a + s.opB b, n := memBytes t }]) ([x], s') ∧ u = s'.setReg d (loadExtend t x)) ∧
  (∀ (g : Guard) (d : VReg) (a : SReg) (b : OpB),
    CompletesWhen (.vld g d a b) State.always (fun s u => jetWords s g = [] ∧ u = s) ∧
    CompletesWhen (.vld g d a b) State.always (fun s u => jetWords s g ≠ [] ∧ (s.reg a + s.opB b).toNat % 32 = 0 ∧
      ∃ xs s', Passes (s.loadElems ((jetWords s g).map fun x => jetElem (s.reg a + s.opB b) x 0)) (xs, s') ∧
        u = putJetWords d s' ((jetWords s g).zip xs))) ∧
  (∀ (g : Guard) (t : Ty) (d : VReg) (a : SReg) (b : VReg) (stride : BitVec 16),
    CompletesWhen (.vgather g t d a b stride) State.always fun s u =>
      let es := gatherElems s g t.bits a b stride
      (∀ e ∈ es, e.2.2.toNat % (t.bits / 8) = 0) ∧
        ∃ xs s', Passes (s.loadElems (es.map fun e => { va := e.2.2, n := t.bits / 8 })) (xs, s') ∧
          u = (es.zip xs).foldl (fun s ex => putLane s t.bits d ex.1.1 ex.1.2.1 ex.2) s') ∧
  (∀ (g : Guard) (d : VReg) (a : SReg) (nM1 : BitVec 3), CompletesWhen (.ldb g d a nM1) (State.whole g) fun s u =>
    let x := s.reg a
    let n := nM1.toNat + 1
    x.toNat % 8 = 0 ∧ x.toNat % 2048 + 8 * n ≤ 2048 ∧ 0x1800000 ≤ x.toNat ∧ x.toNat < 0x2000000 ∧
      ∃ xs s', Passes (s.loadElems ((List.range n).map fun j => { va := x + BitVec.ofNat 64 (8 * j), n := 8 })) (xs, s') ∧
        u = (s'.setGroup d ((List.range ((n + 3) / 4)).map fun r =>
          BitVec.ofNat 256 ((List.range 4).foldl (fun z j => z + (xs.getD (4 * r + j) 0).toNat * 2 ^ (64 * j)) 0))).count 15 n)

/-- 05_memory_isa R138, R139, R141-R143: a store whose address is aligned and whose bytes can be written completes; an ST
through a remote window is posted when the journal has room. That the journal records an ST without a suffix with code 8 of its type
is the model's choice (assumption log 51); VST and VSCATTER act at once by 15_consistency R290 (assumption log 10). -/
def Obligations.StoresComplete : Prop :=
  (∀ (g : Guard) (t : Ty) (a : SReg) (b : OpB) (c : SReg), CompletesWhen (.st g t a b c) (State.whole g) fun s u =>
    (s.reg a + s.opB b).toNat % memBytes t = 0 ∧
      s.storesOrPosts 0 (journalType .z64 t) { va := s.reg a + s.opB b, n := memBytes t, x := lowBytes (memBytes t) (s.reg c) } u) ∧
  (∀ (g : Guard) (a : SReg) (b : OpB) (c : VReg),
    CompletesWhen (.vst g a b c) State.always (fun s u => jetWords s g = [] ∧ u = s) ∧
    CompletesWhen (.vst g a b c) State.always (fun s u => jetWords s g ≠ [] ∧ (s.reg a + s.opB b).toNat % 32 = 0 ∧
      s.stores ((jetWords s g).map fun x =>
        jetElem (s.reg a + s.opB b) x (s.word (0x100 + 32 * (c.toNat + x.1) + 8 * x.2.1))) u)) ∧
  (∀ (g : Guard) (t : Ty) (a : SReg) (b c : VReg) (stride : BitVec 16),
    CompletesWhen (.vscatter g t a b c stride) State.always fun s u =>
      let es := gatherElems s g t.bits a b stride
      (∀ e ∈ es, e.2.2.toNat % (t.bits / 8) = 0) ∧
        s.stores (es.map fun e =>
          { va := e.2.2, n := t.bits / 8, x := BitVec.ofNat 64 (lane t.bits (s.vreg (c + BitVec.ofNat 5 e.2.1)) e.1) }) u)

/-- 05_memory_isa R145, R146: an atomic at a word of a readable and writable window, not in a handle table and not
poisoned, gives w[D] the old value and the word the new one, as one access; one held at its bank returns what its word held
when it applied. -/
def Obligations.AtomicsComplete : Prop :=
  (∀ (g : Guard) (t : Ty) (d a b c : SReg),
    let does (i : Instr) (ty : Ty) (op : AtomOp) (third : State → Word) : Prop :=
      CompletesWhen i (State.whole g) fun s u => ∃ p s',
        Passes (s.atomPlace (s.reg a) (atomBytes ty) false) (p, s') ∧ s'.handleEntryAt p.loc = none ∧
          (s'.stampAmo p).isPoisoned p.loc = false ∧ p.outside = false ∧ (s'.stampAmo p).handleEntryAt p.loc = none ∧
            u = ((s'.stampAmo p).atomApply p.loc op ty (s.reg b) (third s)).2.setReg d
              (atomOld ty ((s'.stampAmo p).atomApply p.loc op ty (s.reg b) (third s)).1)
    does (.amoAdd g t d a b) t .add (fun _ => 0) ∧
    does (.amoAnd g t d a b) t .and (fun _ => 0) ∧
    does (.amoOr g t d a b) t .or (fun _ => 0) ∧
    does (.amoXor g t d a b) t .xor (fun _ => 0) ∧
    does (.amoMin g t d a b) t .min (fun _ => 0) ∧
    does (.amoMax g t d a b) t .max (fun _ => 0) ∧
    does (.amoSwap g t d a b) t .swap (fun _ => 0) ∧
    does (.amoCas g t d a b c) t .cas (fun s => s.reg c) ∧
    does (.amoFadd g t d a b) (if t = .dflt then .f64 else t) .add (fun _ => 0)) ∧
  (∀ (g : Guard) (t : Ty) (d a b c : SReg) (last : BitVec 1), CompletesWhen (.amoFaddOrd g t d a b c last) (State.whole g) fun s u =>
    let ty : Ty := if t = .dflt then .f64 else t
    (∃ old, s.core.amoBad = false ∧ s.core.amo = some old ∧ u = (s.setReg d old).onCore fun k => { k with amo := none }) ∨
    (s.core.amoBad = false ∧ s.core.amo = none ∧ ∃ p s',
      Passes (s.atomPlace (s.reg a) (atomBytes ty) true) (p, s') ∧ (∀ h ∈ s'.holdsOf p.loc, h.pkt = none → h.core ≠ s'.cur) ∧
        s'.isPoisoned p.loc = false ∧
        (let q : BitVec 32 := (s'.reg c).setWidth 32
         let stream := ((s'.streamsOf p.loc).find? fun e => e.1 == p.loc).map (·.2)
         let r := s'.atomApply p.loc .add ty (s'.reg b) 0
         (∀ x ∈ s'.holdsOf p.loc, x.loc = p.loc → x.q ≠ q) ∧ q = stream.getD 0 ∧
           (stream = none → (s'.streamsOf p.loc).length < 8) ∧
           u = ((r.2.advance { loc := p.loc, q := q, last := (last == 1), port := s'.corePort p, core := s'.cur
                               op := 9, ty := ty, n := atomBytes ty, data := s'.reg b }).stampAmo p).setReg d r.1)))

/-- 05_memory_isa R139, R146-R148: a reduce packet is posted when the journal has the entries it needs; PREF and CHINT. -/
def Obligations.ReducePacketsAndHintsComplete : Prop :=
  (∀ (g : Guard) (t : Ty) (a b c : SReg) (last : BitVec 1),
    let does (i : Instr) (op : BitVec 6) (ordered : Bool) : Prop := CompletesWhen i (State.whole g) fun s u =>
      ∃ loc, Passes (redCheck s (s.reg a) (atomBytes t)) loc ∧ (if ordered then 2 else 1) ≤ s.freeEntries ∧
        u = sendRed s op t (s.reg a) loc (atomBytes t) (lowBytes (atomBytes t) (s.reg b))
          (if ordered then some ((s.reg c).setWidth 32, last == 1) else none)
    does (.redAdd g t a b) 0x00 false ∧
    does (.redMin g t a b) 0x01 false ∧
    does (.redMax g t a b) 0x02 false ∧
    does (.redAddOrd g t a b c last) 0x10 true ∧
    does (.redMinOrd g t a b c last) 0x11 true ∧
    does (.redMaxOrd g t a b c last) 0x12 true) ∧
  (∀ (g : Guard) (a : SReg) (level : BitVec 2),
    Completes (.pref g a level) (State.whole g) (fun s => s.prefetch (s.reg a) level.toNat) ∧
    Completes (.chint g a level) (State.whole g) (fun s => s.cacheHint (s.reg a) level.toNat))

/-- 05_memory_isa R149-R151: a copy whose checks pass is issued: its pending bytes are added, its token or number is given,
and its streamer has it; a copy that takes a token needs a free place for it; a copy of no bytes, and a COPYH that a Keep may not
make, end at issue. -/
def Obligations.CopiesComplete : Prop :=
  (∀ (g : Guard) (d a b c : SReg) (bslot : BitVec 8) (bar : BitVec 1) (tlk : BitVec 3) (tls : BitVec 1),
    ∀ (s : State) tl bo, s.issues (.copy g d a b c bslot bar tlk tls) (State.whole g s) = true →
      let v := s.acquireTokens (.copy g d a b c bslot bar tlk tls)
      let op := v.newCopy (v.reg b) (v.reg a) (v.reg c).toNat
      Passes (State.copyRanges op (v.reg c)) () → Passes (v.copyTimeline tls tlk) tl → Passes (v.copyBarrier bar bslot) bo →
      (d ≠ 0 → tl = none → none ∈ v.core.tokens) →
        ∃ u, Passes (v.issueCopy d op bo tl) u ∧ exec (.copy g d a b c bslot bar tlk tls) s =
          .next (u.completed (.copy g d a b c bslot bar tlk tls)) ∧
        (v.reg c = 0 → u = v.endAtIssue d bo tl 0 false)) ∧
  (∀ (g : Guard) (d a b c : SReg) (bslot : BitVec 8) (bar : BitVec 1) (tlk : BitVec 3) (tls hfrom : BitVec 1),
    ∀ (s : State) e t tl bo, s.issues (.copyh g d a b c bslot bar tlk tls hfrom) (State.whole g s) = true →
      let v := s.acquireTokens (.copyh g d a b c bslot bar tlk tls hfrom)
      let obj := t.handleBase e + ((v.reg b) >>> 32).toNat
      let op := t.newCopy (v.reg a) (v.reg a) (v.reg c).toNat
      let op : CopyOp := if hfrom = 1 then { op with srcObj := some obj, pin := some e } else { op with dstObj := some obj, pin := some e }
      Passes (v.copyHandle (v.reg b) (v.reg c) (hfrom == 1)) (.ok e, t) → Passes (State.copyRanges op (v.reg c)) () →
      Passes (t.copyTimeline tls tlk) tl → Passes (t.copyBarrier bar bslot) bo →
      (d ≠ 0 → tl = none → none ∈ (t.pin e).core.tokens) →
        ∃ u, Passes ((t.pin e).issueCopy d op bo tl) u ∧ exec (.copyh g d a b c bslot bar tlk tls hfrom) s =
          .next (u.completed (.copyh g d a b c bslot bar tlk tls hfrom))) ∧
  (∀ (g : Guard) (d a b c : SReg) (bslot : BitVec 8) (bar : BitVec 1) (tlk : BitVec 3) (tls hfrom : BitVec 1),
    CompletesWhen (.copyh g d a b c bslot bar tlk tls hfrom) (State.whole g) fun s u =>
      ∃ code tl bo v, Passes (s.copyHandle (s.reg b) (s.reg c) (hfrom == 1)) (.error code, v) ∧
        (let obj := v.handleBase 0 + ((s.reg b) >>> 32).toNat
         let op := v.newCopy (s.reg a) (s.reg a) (s.reg c).toNat
         let op : CopyOp := if hfrom = 1 then { op with srcObj := some obj, pin := some 0 } else { op with dstObj := some obj, pin := some 0 }
         Passes (State.copyRanges op (s.reg c)) ()) ∧
        Passes (v.copyTimeline tls tlk) tl ∧ Passes (v.copyBarrier bar bslot) bo ∧ u = v.endAtIssue d bo tl code true)

/-! ## Synchronisation -/

/-- 05_memory_isa R154-R156, 02_scalar R84, 13_dome_memory R282: the barrier instructions on a granted object; an arrival of
BSYNC or RECHAIN is counted once and waits for the end of its phase, which completes it. That a counted arrival is the one of the same
workspace and PC is the model's choice (assumption log 21), and so is what RECHAIN does to members that stand elsewhere
(`rechainAll`, assumption log 25). -/
def Obligations.BarriersComplete : Prop :=
  ∀ (g : Guard) (a d : SReg) (slot : BitVec 8),
    let granted (s : State) (dm o : Nat) : Prop := Passes (s.barrierSlot slot) (dm, o)
    CompletesWhen (.binit g a slot) (State.whole g) (fun s u => ∃ dm o, granted s dm o ∧
      u = s.setBarrier dm o { s.barrierAt dm o with
        expect := (s.reg a).setWidth 16, arrived := s.arrivalsNow (s.barrierAt dm o), err := s.errorNow (s.barrierAt dm o) }) ∧
    CompletesWhen (.barrive g d slot) (State.whole g) (fun s u => ∃ dm o, granted s dm o ∧ s.storesSettled = true ∧
      u = (s.arrive dm o).setReg d (BitVec.ofNat 64 (s.barrierAt dm o).phase.toNat)) ∧
    CompletesWhen (.bwait g a slot) (State.whole g) (fun s u => ∃ dm o, granted s dm o ∧
      (s.core.released = true ∨ (s.barrierAt dm o).phase ≠ (s.reg a).getLsbD 0) ∧ u = s.acquire (s.barrierAt dm o).relTs) ∧
    CompletesWhen (.bsync g slot) (State.whole g) (fun s u => ∃ dm o a, granted s dm o ∧ s.counted = some a ∧
      (s.core.released = true ∨ a.ended = true ∨ (s.barrierAt dm o).phase ≠ a.phase) ∧
        u = (s.acquire (s.barrierAt dm o).relTs).onCore State.forgetArrival) ∧
    (∀ i : Instr, ∀ guard : State → Bool, ∀ w : Nat → Nat → Bool → WaitCond, ∀ rechain : Bool,
      ((i = .bsync g slot ∧ guard = State.whole g ∧ w = .barrier ∧ rechain = false) ∨
        (i = .rechain slot ∧ guard = State.always ∧ w = .rechain ∧ rechain = true)) →
        Answers i guard fun s u => ∃ dm o, granted s dm o ∧ s.counted = none ∧ s.core.released = false ∧ s.storesSettled = true ∧
          (let ph := (s.barrierAt dm o).phase
           let ld : Nat := ((s.word Ws.bwin).extractLsb' 13 3).toNat
           let a : Arrival := { wp := s.core.wp, pc := s.core.pc, phase := ph, dome := ld, obj := o, rechain := rechain }
           u = ((s.arrive dm o).onCore fun k => { k with bsync := a :: k.bsync }).waitOn (w dm o ph))) ∧
    CompletesWhen (.bstat g d slot) (State.whole g) (fun s u => ∃ dm o, granted s dm o ∧
      (let b := if s.evals.contains (dm, o) then State.flip (s.barrierAt dm o) else s.barrierAt dm o
       u = { s.setReg d (BitVec.ofBool b.phase ++ b.err ++ (0 : BitVec 4) ++ b.arrived ++ BitVec.ofNat 40 b.pending) with
         bstats := s.bstats ++ [(s.cur, d, dm, o)] })) ∧
    Answers (.rechain slot) State.always (fun s u => ∃ dm o a, granted s dm o ∧ s.counted = some a ∧
      (s.core.released = true ∨ a.ended = true ∨ (s.barrierAt dm o).phase ≠ a.phase) ∧
        u = ((s.acquire (s.barrierAt dm o).relTs).onCore State.forgetArrival).rechainAll dm o a.phase)

/-- 05_memory_isa R152, R153, R157, R158: timelines, the fence that waits for the kinds it selects and orders
them unless its rectangle is empty, and wakes. -/
def Obligations.TimelinesAndWakesComplete : Prop :=
  (∀ (g : Guard) (k : BitVec 3) (b : OpB), CompletesWhen (.tlwait g k b) (State.whole g) fun s u => ∃ gr n,
    s.binding k = some (gr, n) ∧ (s.opB b).toNat ≤ (s.timeline gr s.mySpire n).comp ∧ u = s.acquire ((s.timeline gr s.mySpire n).tsUpTo (s.opB b).toNat)) ∧
  (∀ (g : Guard) (d : SReg) (k : BitVec 3) (wide : Bool) (selr : BitVec 2),
    CompletesWhen (.tlread g d k wide selr) (State.whole g) fun s u => ∃ gr n, s.binding k = some (gr, n) ∧
      (let t := s.timeline gr s.mySpire n
       u = if selr = 0 then s.setReg d (BitVec.ofNat 64 t.comp) else if selr = 1 then s.setReg d (BitVec.ofNat 64 t.sub)
        else if selr = 2 then s.setReg d t.err
        else (s.onTimeline gr s.mySpire n fun t => { t with err := 0 }).setReg d t.err)) ∧
  (∀ (g : Guard) (a : SReg) (kinds : BitVec 5), CompletesWhen (.fence g a kinds) (State.whole g) fun s u =>
    s.fenced kinds = true ∧ u = if s.fenceOrders a then s.acquire (s.fenceTs kinds) else s) ∧
  (∀ (g : Guard) (a : SReg) (b : OpB64), CompletesWhen (.wake g a b) (State.whole g) fun s u =>
    let target := (s.reg a).toNat % 2 ^ 32
    target < s.coreCount ∧ 0 < s.freeEntries ∧
      u = ((s.setEntry s.freeEntry { st := 1, kind := 2, size := 3, vaddr := BitVec.ofNat 48 target, data := s.opB64 b
                                     ts := BitVec.ofNat 64 s.postTs }).setLt s.postTs).sendPort 8
        (s.packet s.freeEntry target (.wake target (s.opB64 b) s.postTs))) ∧
  (∀ (g : Guard) (d : SReg) (b : OpB64),
    CompletesWhen (.wait g d b) (State.whole g) (fun s u => s.opB64 b = 0 ∧ u = s.setReg d 0) ∧
    CompletesWhen (.wait g d b) (State.whole g) (fun s u => s.word Ws.wake &&& s.opB64 b ≠ 0 ∧
      (let hit := s.word Ws.wake &&& s.opB64 b
       let t := (s.setWord Ws.wake (s.word Ws.wake &&& ~~~(s.opB64 b &&& ~~~s.newWakes))).acquire (s.wakeStamp hit)
       u = (t.onCore fun k => { k with wakeTs := (k.wakeTs.map fun x => (x.1 &&& ~~~hit, x.2)).filter fun x => x.1 != 0 }).setReg d hit)))

/-- 05_memory_isa R161-R163: CHINIT makes a channel; a SEND that has its space copies its message a word at a time and
publishes it; a SEND.NB without space and a RECV.NB without a message, or at one whose READY is 0, answer at once; a RECV takes the
message at HEAD, whose bytes it can read and whose destination it can write. One payload word a turn, the whole RECV in one turn and the
wait for a journal entry of the notify wake are the model's choices (assumption log 26), as are the extent of the destination RECV checks
(assumption log 56) and the alignment of H, HEAD and TAIL by 8 (assumption log 79). -/
def Obligations.ChannelsComplete : Prop :=
  (∀ (g : Guard) (a b c : SReg), CompletesWhen (.chinit g a b c) (State.whole g) fun s u =>
    let h := s.reg a
    let cap := s.reg b
    h.toNat % 64 = 0 ∧ State.isDomeWindow h = true ∧ Chan.capOk cap = true ∧
      h.toNat + 64 + cap.toNat ≤ (windowEnd h.toNat).getD 0 ∧
      s.stores (([cap, 0, 0, s.reg c, 0, 0, 0, 0] : List Word).zipIdx.map fun x =>
        { va := h + BitVec.ofNat 64 (8 * x.2), n := 8, x := x.1 }) u) ∧
  (∀ (g : Guard) (d a b c : SReg) (nb : Bool),
    let i : Instr := if nb then .sendNb g d a b c else .send g d a b c
    Answers i (State.whole g) (fun s u => s.sendReserves a b c u) ∧
    (nb = true → CompletesWhen i (State.whole g) fun s u => s.core.resv = none ∧ ∃ cap head hd tl v, s.sendFinds a b c cap head hd tl v ∧
      cap.toNat < (tl - hd).toNat + 8 + (s.reg c).toNat ∧ u = (((v.headerLoads (s.reg a)).2.2).releaseLock (s.reg a) head).setReg d 1) ∧
    Answers i (State.whole g) (fun s u => ∃ r, s.core.resv = some r ∧ r.sent < (s.reg c).toNat / 8 ∧
      (let x := s.quietLoad (s.reg b + BitVec.ofNat 64 (8 * r.sent)) 8
       u = (x.2.2.quietStore (Chan.byte (s.reg a) r.cap (r.at_ + 8 + BitVec.ofNat 64 (8 * r.sent))) 8
          (if x.2.1 then 0 else x.1)).onCore fun k =>
            { k with resv := some { r with sent := r.sent + 1, damaged := r.damaged || x.2.1 } })) ∧
    Answers i (State.whole g) (fun s u => (∃ r, s.core.resv = some r ∧ (s.reg c).toNat / 8 ≤ r.sent) ∧
      (s.glance (s.reg a + Chan.notify)).1.getLsbD 63 = true ∧ s.freeEntries = 0 ∧ u = s.waitOn (.journal 1)) ∧
    CompletesWhen i (State.whole g) (fun s u => ∃ r, s.core.resv = some r ∧ (s.reg c).toNat / 8 ≤ r.sent ∧
      ((s.glance (s.reg a + Chan.notify)).1.getLsbD 63 = false ∨ s.freeEntries ≠ 0) ∧
        u = (s.publishMessage r (s.reg a) (s.reg c)).setReg d (if r.damaged then 2 else 0))) ∧
  (∀ (g : Guard) (d a b : SReg) (nb : Bool),
    let i : Instr := if nb then .recvNb g d a b else .recv g d a b
    (nb = true → CompletesWhen i (State.whole g) fun s u => ∃ cap head hd v, s.recvFindsNone a b cap head hd v ∧
      u = ((v.loadsNothing (s.reg a) cap hd).releaseLock (s.reg a) head).setReg d 0x8000000000000000) ∧
    ∀ (s : State) cap head hd m v, s.issues i (State.whole g s) = true → (s.acquireTokens i).recvFinds a b cap head hd m v →
      let h := (s.acquireTokens i).reg a
      let x := (v.headerLoads h).2.2.quietLoad (Chan.byte h cap hd) 8
      ∃ u : State, x.2.2.take d h ((s.acquireTokens i).reg b) cap hd m x.2.1 head = .done u ∧ exec i s = .next (u.completed i))

/-! ## Matrix instructions -/

/-- 06_matrix_isa R167, R173, R175, R188, 11_matrix_engine R256: the shape, slot and queue instructions present themselves to the
port, which decides among the instructions presented since an earlier core cycle (assumption log 86); when it takes them, they act at
once. MQSYNC then waits for the operations submitted when it was accepted. -/
def Obligations.ShapesAndSlotsComplete : Prop :=
  let taken (i : Instr) (g : Guard) (q : Nat) (c : State → State → Prop) : Prop := CompletesWhen i (State.whole g) fun s u =>
    s.portTurn s.mySpire q = true ∧ c ((s.setGraver { s.graver with portLast := coreInSpire s.cur, acceptAt := some s.clock }).count 5 1) u
  (∀ (g : Guard) (n : BitVec 4) (a : SReg) (q : BitVec 2),
    taken (.mshl g n a q) g 4 (fun s u => (s.reg a).toNat % 64 = 0 ∧ ∃ ws s', Passes (s.loadElems (shapeElems (s.reg a) 0)) (ws, s') ∧
      (let x := BitVec.ofNat 512 ((List.range 8).foldl (fun z k => z + (ws.getD k 0).toNat * 2 ^ (64 * k)) 0)
       Shape.legal x = true ∧ u = s'.setShape q.toNat n.toNat x)) ∧
    (∀ field : BitVec 5, taken (.mshf g n a field q) g 4 (fun s u =>
      (s.reg a).toNat < 2 ^ (nth Shape.fields field.toNat (0, 0)).2 ∧ Shape.fieldAssigned field.toNat (s.reg a).toNat = true ∧
        u = s.setShape q.toNat n.toNat (Shape.setField (s.shapeReg q.toNat n.toNat) field.toNat (s.reg a).toNat))) ∧
    taken (.mshs g a n q) g 4 (fun s u => (s.reg a).toNat % 64 = 0 ∧
      s.stores (shapeElems (s.reg a) (s.shapeReg q.toNat n.toNat)) u)) ∧
  (∀ (g : Guard) (d : SReg) (countM1 : BitVec 7) (log2a : BitVec 3), taken (.mclaim g d countM1 log2a) g 4 fun s u =>
    let c := countM1.toNat + 1
    match freeSlots s.graver.slots c (2 ^ log2a.toNat) with
    | none => u = s.setReg d 0x8000000000000000
    | some b => u = (s.setGraver { s.graver with slots := s.graver.slots.zipIdx.map fun sn =>
        if b ≤ sn.2 ∧ sn.2 < b + c then claimedSlot else sn.1 }).setReg d (BitVec.ofNat 64 b)) ∧
  (∀ (g : Guard) (a : SReg) (countM1 : BitVec 7), taken (.mrel g a countM1) g 4 fun s u =>
    let b := (s.reg a).toNat
    let n := countM1.toNat + 1
    (∀ k < n, b + k ≤ 127 ∧ (s.slotAt (b + k)).claimed = true) ∧
      u = s.setGraver (Graver.sweep { s.graver with slots := s.graver.slots.zipIdx.map fun sn =>
        if b ≤ sn.2 ∧ sn.2 < b + n then { sn.1 with releasing := true } else sn.1 })) ∧
  (∀ (g : Guard) (cq pri : BitVec 2), taken (.mqpri g cq pri) g 4 fun s u =>
    u = s.setQctx cq.toNat { s.qctx cq.toNat with prio := pri }) ∧
  (∀ (i : Instr) (g : Guard),
    ((∃ n a q, i = .mshl g n a q) ∨ (∃ n a f q, i = .mshf g n a f q) ∨ (∃ a n q, i = .mshs g a n q) ∨ (∃ d n l, i = .mclaim g d n l) ∨
      (∃ a n, i = .mrel g a n) ∨ (∃ q p, i = .mqpri g q p) ∨ ∃ d q, i = .mqsync g d q) →
    Answers i (State.whole g) fun s u => s.core.status = .running ∧ u = s.waitOn (.queue s.mySpire 4 s.clock)) ∧
  (∀ (g : Guard) (d : SReg) (cq : BitVec 2), Answers (.mqsync g d cq) (State.whole g) fun s u =>
    (∃ sp q since, s.core.status = .waiting (.queue sp q since)) ∧ s.portTurn s.mySpire 4 = true ∧
      (let s' := (s.setGraver { s.graver with portLast := coreInSpire s.cur, acceptAt := some s.clock }).count 5 1
       let t := s'.timeline true s'.mySpire cq.toNat
       t.comp < t.sub ∧ u = s'.waitOn (.timeline true s'.mySpire cq.toNat t.sub))) ∧
  (∀ (g : Guard) (d : SReg) (cq : BitVec 2), CompletesWhen (.mqsync g d cq) (State.whole g) fun s u => ∃ gr sp k n,
    s.core.status = .waiting (.timeline gr sp k n) ∧
      (let t := s.timeline true s.mySpire cq.toNat
       n ≤ t.comp ∧ u = (s.acquire (t.tsUpTo n)).setReg d t.err)) ∧
  (∀ (g : Guard) (d : SReg) (cq : BitVec 2), CompletesWhen (.mqsync g d cq) (State.whole g)
    fun s u => (∃ sp q since, s.core.status = .waiting (.queue sp q since)) ∧ s.portTurn s.mySpire 4 = true ∧
      (let s' := (s.setGraver { s.graver with portLast := coreInSpire s.cur, acceptAt := some s.clock }).count 5 1
       let t := s'.timeline true s'.mySpire cq.toNat
       t.sub ≤ t.comp ∧ u = (s'.acquire (t.tsUpTo t.sub)).setReg d t.err))

/-- 06_matrix_isa R167, R168, R176-R187, 11_matrix_engine R256: an operation presents itself to the port (assumption log 86); when the
port takes it and its checks pass, it is accepted under the next number of its context; MMOV and TFACT complete when their result is
there. -/
def Obligations.MatrixOperationsComplete : Prop :=
  let taken (i : Instr) (g : Guard) (q : BitVec 2) (c : State → State → Prop) : Prop := CompletesWhen i (State.whole g) fun s u =>
    s.portTurn s.mySpire q.toNat = true ∧ c ((s.setGraver { s.graver with portLast := coreInSpire s.cur, acceptAt := some s.clock }).count 5 1) u
  ∀ (g : Guard) (q : BitVec 2),
    (∀ (d : SReg) (n : BitVec 4) (slot : BitVec 7) (tr : BitVec 1),
      let load (scaled : Bool) (s u : State) : Prop :=
        let x := s.shapeReg q.toNat n.toNat
        let f := Shape.fmt x
        Passes (s.checkSlots (if Shape.wide f then [slot.toNat, slot.toNat + 1] else [slot.toNat])) () ∧
        Shape.legal x = true ∧ Shape.layer x < Shape.depth x ∧ Shape.alignedTo x (alignUnit f) = true ∧
        (f = 14 → (if tr = 1 then Shape.row0 x else Shape.col0 x) % 32 = 0) ∧ Shape.operand f = true ∧ (scaled = true → f = 14) ∧
        (Shape.wide f = true → slot.toNat % 2 = 0) ∧
        ∃ org h t pages v, Passes (s.captureShape x) (org, h, t) ∧
          Passes (State.reachAll .load h (loadBytes x org (tr == 1) scaled (Shape.layer x) (Shape.row0 x) (Shape.col0 x)) { st := t }).check
            (pages, v) ∧
          (let w := v.submit q.toNat (.mld scaled (tr == 1) slot.toNat x) [] pages [h] [org]
           u = (w.2.tagSlots (slotKeys f slot.toNat) x).setReg d (BitVec.ofNat 64 w.1))
      taken (.mld g d n slot tr q) g q (load false) ∧ taken (.mldx g d n slot tr q) g q (load true)) ∧
    (∀ (t : BitVec 3) (c : SReg) (x y : BitVec 7),
      let mma (spec : Bool) (s u : State) : Prop :=
        let f := (s.slotAt x.toNat).fmt.toNat
        let keys := slotKeys f x.toNat ++ slotKeys f y.toNat
        let tiles := if f = 13 then [t.toNat, t.toNat + 1] else [t.toNat]
        (s.slotAt y.toNat).fmt.toNat = f ∧ Passes (s.checkSlots keys) () ∧ (∀ k ∈ keys, (s.slotAt k).fmt ≠ 0) ∧
        (Shape.wide f = true → x.toNat % 2 = 0 ∧ y.toNat % 2 = 0) ∧ (f = 13 → t.toNat % 2 = 0) ∧
        (f = 14 ∨ s.reg c >>> 48 = 0) ∧ Passes (s.checkSoft keys) () ∧
        (if spec then (s.qctx q.toNat).isOpen = true ∧ ∀ k ∈ tiles, (s.qctx q.toNat).sel.getLsbD k = true
          else Passes (s.checkProtected tiles) ()) ∧
        u = (s.submit q.toNat (.mma spec (if spec then 8 + t.toNat else t.toNat) x.toNat y.toNat (s.reg c) (s.slotAt x.toNat).fmt) [] [] []).2
      taken (.mma g t c x y q) g q (mma false) ∧ taken (.mmaS g t c x y q) g q (mma true)) ∧
    (∀ i : Instr, ((∃ d n k tr, i = .mld g d n k tr q) ∨ (∃ d n k tr, i = .mldx g d n k tr q) ∨ (∃ t c x y, i = .mma g t c x y q) ∨
        (∃ t c x y, i = .mmaS g t c x y q) ∨ (∃ t, i = .mzero g t q) ∨ (∃ d t r sh f, i = .mmov g d t r sh f q) ∨ (∃ t a r, i = .mmovr g t a r q) ∨
        (∃ d n t c sc x, i = .mst g d n t c sc x q) ∨ (∃ m, i = .mspec g m q) ∨ (∃ c, i = .mresolve g c q) ∨ i = .mcommit g q ∨ i = .mdiscard g q ∨
        (∃ d a b c t ad k, i = .tgemm g d a b c t ad k q) ∨ (∃ d t x p, i = .tfact g d t x p q) ∨ ∃ x f b, i = .tsolve g x f b q) →
      ∀ s, s.issues i (State.whole g s) = true → s.pivotHere = none → s.core.gop = none → s.core.status = .running →
        exec i s = .next ((s.acquireTokens i).waitOn (.queue s.mySpire q.toNat s.clock))) ∧
    (∀ t : BitVec 3, taken (.mzero g t q) g q fun s u =>
      Passes (s.checkProtected [t.toNat]) () ∧ u = (s.submit q.toNat (.mzero t.toNat) [] [] []).2) ∧
    (∀ (d : VReg) (t : BitVec 3) (row : BitVec 4) (sh intf : BitVec 1), CompletesWhen (.mmov g d t row sh intf q) (State.whole g) fun s u =>
      ∃ num data, s.core.gop = some num ∧ s.core.gres = some (.row data) ∧
        u = (s.onCore answered).setGroup d ((List.range 4).map fun k => BitVec.ofNat 256 ((List.range 4).foldl
          (fun z j => z + (rowLane data (intf == 1) (4 * k + j)).toNat * 2 ^ (64 * j)) 0))) ∧
    (∀ (t : BitVec 3) (a : VReg) (row : BitVec 4), taken (.mmovr g t a row q) g q fun s u =>
      Passes (s.checkProtected [t.toNat]) () ∧ u = (s.submit q.toNat (.mmovr t.toNat row.toNat
        (BitVec.ofNat 896 ((List.range 16).foldl (fun z c =>
          z + lane 64 (s.vreg (a + BitVec.ofNat 5 (c / 4))) (c % 4) % 2 ^ 56 * 2 ^ (56 * c)) 0))) [] [] []).2) ∧
    (∀ (d : SReg) (n : BitVec 4) (t : BitVec 3) (c : SReg) (sc : BitVec 4) (cplx : BitVec 1), taken (.mst g d n t c sc cplx q) g q fun s u =>
      let x := s.shapeReg q.toNat n.toNat
      let f := Shape.fmt x
      let pair := (cplx == 1) || f == 13
      let tiles := if pair then [t.toNat, t.toNat + 1] else [t.toNat]
      Shape.legal x = true ∧ Shape.layer x < Shape.depth x ∧ Shape.alignedTo x (alignUnit f) = true ∧
      f ∈ [9, 10, 11, 13, 15] ∧ (cplx = 1 → f = 13 ∨ f = 15) ∧ (sc = 0 ∨ f = 13) ∧ (pair = true → t.toNat % 2 = 0) ∧
      s.reg c >>> 32 = 0 ∧ ∃ org h z pages v, Passes (s.captureShape x) (org, h, z) ∧
        (let es := storeList x org (rawBits ((cplx == 1) && f == 15)) ((s.reg c).setWidth 32) (Shape.layer x) (Shape.row0 x) (Shape.col0 x)
         Passes (State.reachAll .store h (es.flatMap fun e => e.2.2.all) { st := z }).check (pages, v)) ∧
        Passes (v.checkPoison tiles) () ∧
        (let w := v.submit q.toNat (.mst t.toNat x ((s.reg c).setWidth 32) sc.toNat pair v.rm) (v.graver.writers (tileKeys tiles)) pages [h] [org]
         u = w.2.setReg d (BitVec.ofNat 64 w.1))) ∧
    (∀ mask : BitVec 8, taken (.mspec g mask q) g q fun s u =>
      (s.qctx q.toNat).isOpen = false ∧ (∀ n ∈ selected mask, ∀ c ∈ s.graver.ctx, c.isOpen = true → c.sel.getLsbD n = false) ∧
        (let s' := (s.submit q.toNat (.mspec mask) [] [] []).2
         u = s'.setQctx q.toNat { s'.qctx q.toNat with isOpen := true, sel := mask })) ∧
    (let ends (i : Instr) (commit : State → Bool) : Prop := taken i g q fun s u => (s.qctx q.toNat).isOpen = true ∧
      (let s' := (s.submit q.toNat (.resolve (commit s) (s.qctx q.toNat).sel) [] [] []).2
       u = s'.setQctx q.toNat { s'.qctx q.toNat with isOpen := false })
     (∀ c : PReg, ends (.mresolve g c q) fun s => (s.pred c).getLsbD 0) ∧ ends (.mcommit g q) (fun _ => true) ∧
      ends (.mdiscard g q) (fun _ => false)) ∧
    (∀ (d : SReg) (a b c : BitVec 4) (t : BitVec 3) (addc : BitVec 1) (slot : BitVec 7), taken (.tgemm g d a b c t addc slot q) g q fun s u =>
      let xa := s.shapeReg q.toNat a.toNat
      let xb := s.shapeReg q.toNat b.toNat
      let xc := s.shapeReg q.toNat c.toNat
      let f := Shape.fmt xa
      let bytes (x : BitVec 512) (org raw : Nat) : List (Nat × Bool) := (wholeList x org raw).flatMap MElem.all
      let known (x : BitVec 512) (n : Nat) : List MElem := match placed s x with
        | some org => wholeList x org n
        | none => []
      let raw := rawBits (f == 13)
      let scales (x : BitVec 512) (tr : Bool) : List MElem := if f = 14 then wholeScales x tr else []
      Passes (s.checkSlots ((List.range 8).map (slot.toNat + ·))) () ∧
      (∀ x ∈ [xa, xb, xc], Shape.legal x = true ∧ Shape.depth x ≠ 0 ∧ Shape.alignedTo x (alignUnit (Shape.fmt x)) = true) ∧
      Shape.operand f = true ∧ Shape.fmt xb = f ∧
      (if f = 13 then Shape.fmt xc ∈ [13, 15] ∧ t.toNat % 2 = 0 else Shape.fmt xc ∈ [9, 10, 11, 15]) ∧
      Passes (s.checkProtected (if f = 13 then [t.toNat, t.toNat + 1] else [t.toNat])) () ∧
      Shape.rows xa = Shape.rows xc ∧ Shape.rows xb = Shape.cols xa ∧ Shape.cols xb = Shape.cols xc ∧
      Shape.depth xa = Shape.depth xc ∧ Shape.depth xb = Shape.depth xc ∧
      shareByte s (known xc raw) (known xa 64 ++ known xb 64 ++ scales xa false ++ scales xb true) = false ∧
      ∃ oa ha s1 ob hb s2 oc hc s3 pages v, Passes (s.captureShape xa) (oa, ha, s1) ∧ Passes (s1.captureShape xb) (ob, hb, s2) ∧
        Passes (s2.captureShape xc) (oc, hc, s3) ∧ Passes (pinsFit s3 [ha, hb, hc]) () ∧
        (let r := State.reachAll .load ha (bytes xa oa 64) { st := s3 }
         let r := State.reachAll .load hb (bytes xb ob 64) r
         let r := State.reachAll .load none ((scales xa false ++ scales xb true).flatMap MElem.all) r
         let r := State.reachAll .store hc (bytes xc oc raw) r
         Passes (State.reachAll .load hc (bytes xc oc raw) r).check (pages, v)) ∧
        (let w := v.submit q.toNat (.tgemm xa xb xc t.toNat (addc == 1) slot.toNat v.rm) [] pages [ha, hb, hc] [oa, ob, oc]
         u = (w.2.tagSlots ((List.range 8).map (slot.toNat + ·)) xa).setReg d (BitVec.ofNat 64 w.1))) ∧
    (∀ (d : SReg) (t : BitVec 3) (srci ptrap : BitVec 1),
      CompletesWhen (.tfact g d t srci ptrap q) (fun s => State.whole g s && s.pivotHere.isNone) fun s u => ∃ num status, s.core.gop = some num ∧ s.core.gres = some (.fact status) ∧ (ptrap = 0 ∨ status = 0) ∧
        u = (s.onCore answered).setReg d (status.setWidth 64)) ∧
    (∀ (x f : BitVec 3) (b : SReg), taken (.tsolve g x f b q) g q fun s u =>
      (s.reg b).toNat < 2 ^ 16 ∧ Passes (s.checkProtected [x.toNat, x.toNat + 1]) () ∧
        u = (s.submit q.toNat (.tsolve x.toNat f.toNat ((s.reg b).setWidth 16)) [] [] []).2)

/-! ## System instructions -/

/-- 07_system_isa R195-R198: LAUNCH submits an RCB or answers that the FIFO is full, EXIT ends the core, YIELD answers, HALT
ends when a wake is pending. -/
def Obligations.LaunchingAndLeavingComplete : Prop :=
  (∀ (d a : SReg) (pwake : BitVec 6) (pwen : BitVec 1), CompletesWhen (.launch d a pwake pwen) State.alone fun s u =>
    s.core.follower = false ∧ s.inCall = none ∧ (s.reg a).toNat % 256 = 0 ∧ ∃ ps v ws s',
      (let es : List Elem := (List.range 32).map fun k => { va := s.reg a + BitVec.ofNat 64 (8 * k), n := 8 }
       Passes (s.places .load (es.map (·.va))) (ps, v) ∧ v.fenced 0x1F = true ∧ Passes ((v.acquire (v.fenceTs 0x1F)).loadElems es) (ws, s')) ∧
      (let own : BitVec 2048 := BitVec.ofNat 2048 (ws.zipIdx.foldl (fun n x => n + x.1.toNat * 2 ^ (64 * x.2)) 0)
       let n := min (Rcb.prio (Rcb.effective own (match s'.myRegion with | some r => r.rcb | none => 0))) 11
       u = if 64 ≤ (s'.fifoOf s'.core.tenant n).length then s'.setReg d 1
        else (s'.pushLaunch s'.core.tenant n
          { rcb := (s.reg a).toNat % 2 ^ 48, ctx := s'.ctx, parent := some s'.core.region
            wake := if pwen = 1 then some (s'.core.region, s'.core.lcore, pwake) else none }).setReg d 0)) ∧
  Answers .exit State.always (fun s u => s.inCall = none ∧ s.drained = true ∧ s.lowestRefused = none ∧
    u = (s.retire 8).onCore fun k => { k with status := .exited, done := false }) ∧
  (∀ d : SReg, CompletesWhen (.yield d) State.always fun s u => s.inCall = none ∧
    let answered (x : Word) : Prop := u = (s.setReg d x).onCore fun k => { k with yieldAt := none, yielded := false }
    (s.myRegion = none ∧ answered 0) ∨ ∃ r, s.myRegion = some r ∧
      ((s.core.yielded = true ∧ answered 1) ∨
        (s.core.yielded = false ∧ s.core.yieldAt = none ∧ (Rcb.preempt r.rcb = false ∨ s.wanted r = false) ∧ answered 0) ∨
        (s.core.yielded = false ∧ (∃ t, s.core.yieldAt = some t ∧ t + 64000 ≤ s.time) ∧ s.armedAt r = none ∧ answered 0))) ∧
  CompletesWhen .halt State.always (fun s u => (s.word Ws.wake ≠ 0 ∨ s.core.irq = true) ∧ u = s)

/-- 07_system_isa R199-R204: GCALL through a valid gate, GRET to the frame's address, TRAP, and ERET. -/
def Obligations.GatesAndTrapsComplete : Prop :=
  (∀ gate : BitVec 12, GoesTo (.gcall gate) State.alone fun s x => s.core.follower = false ∧ s.gateCheck gate.toNat = none ∧
    x = (((s.gateWord gate.toNat 0).setWidth 48).setWidth 64,
      s.gateEnter gate.toNat (s.gateWord gate.toNat 1) (s.gateWord gate.toNat 2))) ∧
  (∀ (a : SReg) (abort : BitVec 1), GoesTo (.gret a abort) State.alone fun s x => s.core.follower = false ∧ s.core.gdepth ≠ 0 ∧
    s.inKeepHandler = false ∧
      (let counts := State.frameCounts (s.frame (s.core.gdepth.toNat - 1) 7)
       x = s.gateLeave counts (abort == 1) (if abort = 1 then [s.reg a] else s.argRegs counts.2) s.core.wp.toNat)) ∧
  (∀ code : BitVec 16, Answers (.trap code) State.always fun s u =>
    u = s.takeTrap false (s.core.pc + 8) { code := 0x16, tval := code.setWidth 64 }) ∧
  Answers .eret State.always (fun s u => u = ((s.count 0 1).onCore fun k => State.retiredCore k k.pc).returnFromTrap.rejoin)

/-- 07_system_isa R205-R209, R218, R219: SYSR reads every system register, SYSW writes SYSCTL, JRNL reads a journal entry,
MSAVE stores the Graver's record, PUBLISH answers once the fence holds. -/
def Obligations.SystemRegistersComplete : Prop :=
  (∀ (g : Guard) (d : SReg) (idx : BitVec 12), SetsReg (.sysr g d idx) g d fun s =>
    if idx = 0 then s.sysctl
    else if idx = 1 then (if s.isBelfry then 0 else s.core.kres)
    else if idx = 2 then (if s.isBelfry then 0 else s.kperm.setWidth 64)
    else if idx = 3 then BitVec.ofNat 64 (s.core.tenant + if s.isBelfry then 256 else 0)
    else if idx = 4 then (if s.isBelfry then 0 else s.core.gatetab)
    else s.core.tvec) ∧
  (∀ (g : Guard) (a : SReg) (idx : BitVec 12), Completes (.sysw g a idx) (State.whole g) fun s => { s with sysctl := s.reg a &&& 1 }) ∧
  (∀ (g : Guard) (d a : SReg) (word : BitVec 2) (clear : BitVec 1), CompletesWhen (.jrnl g d a word clear) (State.whole g) fun s u =>
    (s.reg a).toNat < 16 ∧
      (let e := nth s.core.journal (s.reg a).toNat {}
       let y := if word = 0 then e.op ++ e.ty ++ e.st ++ e.kind ++ e.size ++ e.vaddr else if word = 1 then e.data else e.ts
       u = (if clear = 1 ∧ e.st = 2 then s.freeEntryAt (s.reg a).toNat else s).setReg d y)) ∧
  (∀ (g : Guard) (d a : SReg), CompletesWhen (.msave g d a) (State.whole g) fun s u => (s.reg a).toNat % 256 = 0 ∧
    s.graverIdle s.mySpire = true ∧ ∃ v, s.stores (s.msaveElems (s.reg a)) v ∧ u = v.setReg d v.poisonedTiles) ∧
  (∀ d a c : SReg, CompletesWhen (.publish d a c) State.always fun s u => (s.reg a).toNat % 64 = 0 ∧ s.fenced 0x1F = true ∧
    ∃ ws v bs w, Passes ((s.acquire (s.fenceTs 0x1F)).loadElems (State.stagingElems (s.reg a) 0 64)) (ws, v) ∧ sizesOk ws = true ∧
      Passes (v.loadElems (State.stagingElems (s.reg a) 64 ((ws.getD 0 0).toNat + (ws.getD 1 0).toNat + (ws.getD 4 0).toNat))) (bs, w) ∧
      (let im := Image.of ws (bs.flatMap (toBytes 8))
       (∀ e, w.publishImage w.core.tenant (w.mayOwn im.owner) im = .error e → u = (w.count 78 1).setReg d (State.rejection e.1 e.2)) ∧
       ∀ o code, w.publishImage w.core.tenant (w.mayOwn im.owner) im = .ok (o, code) →
        let put (v : State) : State := ((v.addObject o code).count 79 1).setReg d (BitVec.ofNat 64 o.base)
        if c = 0 then u = put w
        else ((s.acquire (s.fenceTs 0x1F)).reg c).toNat % 8 = 0 ∧ ∃ v, w.stores ((List.range 4).map fun k =>
          { va := (s.acquire (s.fenceTs 0x1F)).reg c + BitVec.ofNat 64 (8 * k), n := 8, x := o.hash.extractLsb' (64 * k) 64 }) v ∧ u = put v))

/-- 07_system_isa R210-R217, 21_memory_system R368: TLBINV once nothing in reach uses the translation, LFLUSH, L2CFG; and on a
row the locator names, MSCRUB a row a turn with its three ends, MSPARE with its refusals, its start and its end, MRMAP and MLIVE. That
LFLUSH passes over pages it cannot translate and that with INV the slices pass the lines on are the model's choices (assumption logs 31
and 70); so is that L2CFG ignores the bits of w[A] above its fields and bits 63:16 of w[B] (assumption log 30). -/
def Obligations.MaintenanceCompletes : Prop :=
  (∀ (g : Guard) (d a b : SReg) (kind reach : BitVec 2) (inv : BitVec 1),
    CompletesWhen (.tlbinv g a b kind reach) (State.whole g) (fun s u =>
      let ctx : Option (BitVec 16) := if kind = 2 then none else some ((s.reg a).setWidth 16)
      let va : Option Nat := if kind = 0 then some (s.reg b).toNat else none
      let s' := s.dropTlb ctx va reach.toNat
      s.core.status = .running ∧ s'.usesTranslation reach.toNat s'.core.tenant ctx va = false ∧ u = s'.count 60 1) ∧
    CompletesWhen (.tlbinv g a b kind reach) (State.whole g) (fun s u =>
      (∃ r t c v, s.core.status = .waiting (.translation r t c v)) ∧ u = s.count 60 1) ∧
    Completes (.lflush g a b inv reach) (State.whole g) (fun s =>
      s.flushRange (s.reg a).toNat (s.reg b).toNat (inv == 1) reach.toNat) ∧
    Completes (.l2cfg g d a b inv) (State.whole g) (fun s =>
      let r := s.convertWays ((s.reg a).extractLsb' 0 6).toNat ((s.reg a).extractLsb' 8 4).toNat ((s.reg b).setWidth 16) (inv == 1)
      r.2.setReg d r.1)) ∧
  (∀ (g : Guard) (d a b c : SReg),
    let named (i : Instr) (k : State → Nat → State → Prop) : Prop := CompletesWhen i (State.whole g) fun s u =>
      ∃ pa, locatorPa (s.reg a) = some pa ∧ k s pa u
    let entry (s : State) (pa : Nat) : Word := Tab.get s.hbm.remap (chanOf pa * 64 + (s.reg b).toNat % 64) 0
    let lives (i : Instr) (on : Bool) : Prop := named i fun s pa u =>
      let rows : List Nat := State.liveRows pa ((s.reg b).toNat % 65536)
      (∀ k, s.reserved (chanOf pa) = some k → k.row * 1024 ∉ rows) ∧
        u = (rows.foldl (fun (s : State) r => s.markRow r on) s).setReg d (BitVec.ofNat 64 rows.length)
    named (.mscrub g d a b) (fun s pa u =>
      let x := s.core.scrub.getD (0, 0, 0)
      (x.1 = (s.reg b).toNat % 65536 ∨ Config.hbmSize ≤ pa + x.1 * 2 ^ 22) ∧
        u = (s.onCore fun k => { k with scrub := none }).setReg d (State.scrubStatus false false x.1 x.2.1 x.2.2)) ∧
    named (.mscrub g d a b) (fun s pa u =>
      let x := s.core.scrub.getD (0, 0, 0)
      x.1 ≠ (s.reg b).toNat % 65536 ∧ pa + x.1 * 2 ^ 22 < Config.hbmSize ∧ x.1 ≠ 0 ∧ (s.stopping = true ∨ s.trapDue = true) ∧
        u = (s.onCore fun k => { k with scrub := none }).setReg d (State.scrubStatus false true x.1 x.2.1 x.2.2)) ∧
    named (.mscrub g d a b) (fun s pa u =>
      let x := s.core.scrub.getD (0, 0, 0)
      let row := pa + x.1 * 2 ^ 22
      let r := s.scrubRow row
      x.1 ≠ (s.reg b).toNat % 65536 ∧ row < Config.hbmSize ∧ (x.1 = 0 ∨ (s.stopping = false ∧ s.trapDue = false)) ∧
        s.counterOf row < 8 ∧ 8 ≤ r.2.2.counterOf row ∧
        u = (r.2.2.onCore fun k => { k with scrub := none }).setReg d (State.scrubStatus true false (x.1 + 1) (x.2.1 + r.1) (x.2.2 + r.2.1))) ∧
    Answers (.mscrub g d a b) (State.whole g) (fun s u => ∃ pa, locatorPa (s.reg a) = some pa ∧
      (let x := s.core.scrub.getD (0, 0, 0)
       let row := pa + x.1 * 2 ^ 22
       let r := s.scrubRow row
       x.1 ≠ (s.reg b).toNat % 65536 ∧ row < Config.hbmSize ∧ (x.1 = 0 ∨ (s.stopping = false ∧ s.trapDue = false)) ∧
         (8 ≤ s.counterOf row ∨ r.2.2.counterOf row < 8) ∧
         u = r.2.2.onCore fun k => { k with scrub := some (x.1 + 1, x.2.1 + r.1, x.2.2 + r.2.1), status := .running })) ∧
    named (.mspare g d a b) (fun s pa u => ∃ e, s.core.spare = none ∧ s.spareCheck pa ((s.reg b).toNat % 32) = .ok e ∧
      s.rowLive pa = false ∧ u = (s.spareNotLive pa ((s.reg b).toNat % 32) e).setReg d (State.spareStatus 0 e)) ∧
    named (.mspare g d a b) (fun s pa u => ∃ code, s.core.spare = none ∧ s.spareCheck pa ((s.reg b).toNat % 32) = .error code ∧
      u = s.setReg d (BitVec.ofNat 64 (code * 2 ^ 56))) ∧
    Answers (.mspare g d a b) (State.whole g) (fun s u => ∃ pa e, locatorPa (s.reg a) = some pa ∧ s.core.spare = none ∧
      s.spareCheck pa ((s.reg b).toNat % 32) = .ok e ∧ s.rowLive pa = true ∧
        (let ch := chanOf pa
         let bg := ch * 4 + pa / 2 ^ 20 % 4
         let sp := (s.reg b).toNat % 32
         let v : State := { s with hbm := { s.hbm with
           copies := Tab.put s.hbm.copies ch { row := pa / 1024, spare := sp, entry := e, endTick := s.time + 2000, core := s.cur }
           spareUse := Tab.put s.hbm.spareUse bg (Tab.get s.hbm.spareUse bg 0 ||| ((1 : BitVec 32) <<< sp)) } }
         u = (v.onCore fun k => { k with spare := some (ch, none) }).waitOn (.spare ch))) ∧
    named (.mspare g d a b) (fun s _ u => ∃ ch x, s.core.spare = some (ch, some x) ∧
      u = (s.onCore fun k => { k with spare := none }).setReg d x) ∧
    named (.mrmapRead g d a b c) (fun s pa u => u = s.setReg d (entry s pa)) ∧
    named (.mrmapWrite g d a b c) (fun s pa u =>
      (s.reg c).extractLsb' 54 9 = 0 ∧ (s.reg c).getLsbD 49 = false ∧ (s.reg c).extractLsb' 5 27 = 0 ∧
        u = (if s.remapAllowed (chanOf pa) ((s.reg b).toNat % 64) (s.reg c) then s.setRemap (chanOf pa) ((s.reg b).toNat % 64) (s.reg c)
          else s).setReg d (entry s pa)) ∧
    named (.mrmapInvalidate g d a b c) (fun s pa u =>
      u = (s.setRemap (chanOf pa) ((s.reg b).toNat % 64) (entry s pa &&& 0x7FFFFFFFFFFFFFFF)).setReg d (entry s pa)) ∧
    named (.mrmapSpareBitmap g d a b c) (fun s pa u =>
      u = s.setReg d ((Tab.get s.hbm.spareUse (chanOf pa * 4 + pa / 2 ^ 20 % 4) 0).setWidth 64)) ∧
    lives (.mliveNotLive g d a b) false ∧ lives (.mliveLive g d a b) true)

/-- 07_system_isa R220, R221: BIND answers 1 for a slot in use, 2 for a reserved value, else writes the slot table; GSWITCH
arms a partition or takes it back before its agreed time. That answer 1 goes before 2, and that the cancel of a partition that is not
armed answers 0, are the model's choices (assumption log 41). -/
def Obligations.BindingAndSwitchingComplete : Prop :=
  ∀ (g : Guard) (d a b : SReg),
    CompletesWhen (.bind g d a b) (State.whole g) (fun s u => (s.reg b).toNat % 8 = 0 ∧ ∃ ws s',
      Passes (s.loadElems ((List.range 8).map fun k => { va := s.reg b + BitVec.ofNat 64 (8 * k), n := 8 })) (ws, s') ∧
      (let n := (s.reg a).toNat % 256
       let e : BitVec 512 := BitVec.ofNat 512 (ws.zipIdx.foldl (fun n x => n + x.1.toNat * 2 ^ (64 * x.2)) 0)
       u = if Bind.holds (s'.slotEntry n) then s'.setReg d 1 else if Bind.reserved e then s'.setReg d 2
        else
          let v := s'.bindFlush e n
          ({ v with slotTable := Tab.put v.slotTable n (Bind.written e) } : State).setReg d 0)) ∧
    Completes (.gswitchCancel g d a b) (State.whole g) (fun s =>
      let p := (s.reg a).toNat % 256
      match Tab.find? s.armed p with
      | some t => if s.time < t then ({ s with armed := Tab.del s.armed p } : State).setReg d 0 else s.setReg d 0xFFFFFFFFFFFFFFFF
      | none => s.setReg d 0) ∧
    Completes (.gswitchArm g d a b) (State.whole g) (fun s =>
      match s.armSwitch ((s.reg a).toNat % 256) (s.reg b).toNat with
      | some (t, s') => s'.setReg d (BitVec.ofNat 64 t)
      | none => s.setReg d 0xFFFFFFFFFFFFFFFF)

/-! ## Events of the device -/

/-- 16_traps R313, 09_execution R243, R251, 13_dome_memory R280, 11_matrix_engine R256, 07_system_isa R197: what the device
does to a core. An asynchronous trap that is due is taken at a boundary, a fatal one kills the region; a wait ends when its
condition holds; a core that waits on a channel tries again and sends or receives; the port takes the matrix instruction of
the next core; a YIELD ends after 64,000 ticks or with the switch. -/
def Obligations.CoreEventsHappen : Prop :=
  ∀ (s : State) (c : Nat), s.on = true →
    let s' : State := { s with cur := c }
    let acts : Prop := s'.mayIssue = true ∧ s'.asyncNow = false ∧ s'.killedNow = false
    (∀ t fatal, s'.asyncNow = true → s'.killedNow = false → s'.asyncDue = some (t, fatal) →
      let v := ((s'.dropBstats fun x => x == c).withdraw c).onCore (State.takenCore t.code t.tjrnl.toNat)
      exec (.asyncTrapTaken c) s = .next (if fatal then (v.kill v.core.region 1).onCore fun k => { k with status := .exited }
        else v.takeTrap true v.boundaryPc t)) ∧
    (∀ w, s'.core.status = .waiting w → s'.condHolds w = true → State.keepsStatus w = false →
      exec (.waitConditionMet c) s = .next (s'.onCore fun k => { k with status := .running })) ∧
    (∀ h due pc u, s'.core.status = .waiting (.channel h due) → acts →
      let v := u.setPc pc
      (∀ g d a b e t, s'.fetchNext = .instr pc (.send g d a b e) u → v.issues (.send g d a b e) (State.whole g v) = true →
        (v.acquireTokens (.send g d a b e)).sendReserves a b e t → exec (.channelRetry c) s = .next t) ∧
      (∀ g d a b cap head hd m x, s'.fetchNext = .instr pc (.recv g d a b) u → v.issues (.recv g d a b) (State.whole g v) = true →
        let z := v.acquireTokens (.recv g d a b)
        z.recvFinds a b cap head hd m x →
          let y := (x.headerLoads (z.reg a)).2.2.quietLoad (Chan.byte (z.reg a) cap hd) 8
          ∃ t : State, y.2.2.take d (z.reg a) (z.reg b) cap hd m y.2.1 head = .done t ∧
            exec (.channelRetry c) s = .next (t.completed (.recv g d a b)))) ∧
    (∀ pc d u r (early : Bool), s'.core.status = .waiting .yield → acts → s'.fetchNext = .instr pc (.yield d) u →
      let v := (u.setPc pc).acquireTokens (.yield d)
      (u.setPc pc).issues (.yield d) true = true → v.inCall = none → v.myRegion = some r → v.core.yielded = early →
      (early = false → (∃ t, v.core.yieldAt = some t ∧ t + 64000 ≤ v.time) ∧ v.armedAt r = none) →
        exec (.yieldTimeout c) s = .next (((v.setReg d (if early then 1 else 0)).onCore fun k =>
          { k with yieldAt := none, yielded := false }).completed (.yield d))) ∧
    (∀ sp pc u, s.portPick sp = some c → acts →
      let v := u.setPc pc
      let port (x : State) : State := (x.setGraver { x.graver with portLast := coreInSpire x.cur, acceptAt := some x.clock }).count 5 1
      (∀ g q pri, s'.fetchNext = .instr pc (.mqpri g q pri) u → v.issues (.mqpri g q pri) (State.whole g v) = true →
        let x := v.acquireTokens (.mqpri g q pri)
        x.portTurn x.mySpire 4 = true → exec (.coprocessorPortAccept sp) s =
          .next (((port x).setQctx q.toNat { (port x).qctx q.toNat with prio := pri }).completed (.mqpri g q pri))) ∧
      (∀ g t q, s'.fetchNext = .instr pc (.mzero g t q) u → v.issues (.mzero g t q) (State.whole g v) = true →
        let x := v.acquireTokens (.mzero g t q)
        x.portTurn x.mySpire q.toNat = true → Passes ((port x).checkProtected [t.toNat]) () → exec (.coprocessorPortAccept sp) s =
          .next (((port x).submit q.toNat (.mzero t.toNat) [] [] []).2.completed (.mzero g t q))) ∧
      (∀ i t, s'.fetchNext = .instr pc i u → 0x60 ≤ i.major → i.major ≤ 0x68 → exec i v = .next t →
        exec (.coprocessorPortAccept sp) s = .next t))

/-- 09_execution R248, 05_memory_isa R139, R146-R147, R151, R158, R163, 16_traps R314, R315, R322, R325, 21_memory_system R363: packets
leave a Spire's port and arrive, and their answers free or refuse journal entries; pieces of copies move their bytes unit by unit; landings
and repeated requests. That a freed journal entry holds zeros (assumption log 34), that the MACHINE_CHECK of a link is not fatal (assumption
log 38), and that a reduce packet takes its timestamp at its bank (assumption log 22) are the model's choices. -/
def Obligations.MeshEventsHappen : Prop :=
  ∀ s : State, s.on = true →
    (∀ sp c, let x := s.spireAt sp
      State.cyclic x.visit (fun c => (x.port.any fun r => r.core == c) && decide (1 ≤ s.portWeight sp c)) = some c →
      let r := State.sendWhile c (nth x.deficit c 0 + 5 * s.portWeight sp c) x.port
      exec (.spirePortSend sp) s = .next ((s.setSpireAt sp { x with
        port := r.2.1, deficit := x.deficit.set c (if r.2.1.any fun q => q.core == c then r.2.2 else 0), visit := (c + 1) % 32 }).launchPackets r.1)) ∧
    (∀ sp c i r, let x := s.spireAt sp
      let holds (c : Nat) : Bool := x.port.any fun r => r.core == c
      State.cyclic x.visit (fun c => holds c && decide (1 ≤ s.portWeight sp c)) = none → State.cyclic x.visit0 holds = some c →
      x.port.findIdx? (fun r => r.core == c) = some i → x.port[i]? = some r →
      exec (.spirePortSend sp) s = .next ((s.setSpireAt sp { x with port := x.port.eraseIdx i, visit0 := (c + 1) % 32 }).launchPackets [r])) ∧
    (∀ sp, (s.spireAt sp).port = [] → exec (.spirePortSend sp) s = .next s) ∧
    (∀ k p u loc n data ts, s.takePacket k = some (p, u) → p.kind = .store loc n data ts →
      exec (.postedStoreArrival k) s = .next (if u.bankRefuses p loc then u.answer p true
        else ((u.grantPosted p loc ts.toNat).poke loc n (data.setWidth (8 * n))).answer p false)) ∧
    (∀ k p u loc n op ty data, s.takePacket k = some (p, u) → p.kind = .red loc n op ty data none →
      exec (.redPacketArrival k) s = .next (if u.bankRefuses p loc then u.answer p true
        else (((u.grantPosted p loc 0).atomApply loc (State.redOp op) ty data 0).2.countFor (u.pktTenant p) 12 1).answer p false)) ∧
    (∀ k p u loc n op ty data q last v, s.takePacket k = some (p, u) → p.kind = .red loc n op ty data (some (q, last)) → u.bankRefuses p loc = false →
      let o := u.orderedArrive { loc := loc, q := q, last := last, port := 1057, pkt := some p, op := op, ty := ty, n := n, data := data }
      ((∃ x, o = .applied x v) → exec (.redPacketArrival k) s = .next (((v.grantPosted p loc 0).countFor (v.pktTenant p) 12 1).answer p false)) ∧
      (o = .held v → exec (.redPacketArrival k) s = .next ((v.grantOnly loc 1057).countFor (u.pktTenant p) 13 1)) ∧
      (o = .refused → exec (.redPacketArrival k) s = .next (((u.grantOnly loc 1057).countFor (u.pktTenant p) 14 1).answer p true))) ∧
    (∀ k p u target mask ts, s.takePacket k = some (p, u) → p.kind = .wake target mask ts →
      let r := u.actingFor (u.pktTenant p) fun x => x.deliverWake p.region target mask (x.sentTs p ts) true
      exec (.wakeDelivery k) s = .next (r.2.answer p r.1)) ∧
    (∀ k a, s.acks[k]? = some a → a.refused = false →
      exec (.postedAcknowledge k) s = .next (({ s with acks := s.acks.eraseIdx k } : State).onLogical a.region a.lcore
        (State.entryPair a.entry fun _ => {}))) ∧
    (∀ k a, s.acks[k]? = some a → a.refused = true →
      exec (.postedRefusal k) s = .next (({ s with acks := s.acks.eraseIdx k } : State).onLogical a.region a.lcore
        (State.entryPair a.entry fun e => { e with st := 2 }))) ∧
    (∀ unit op rest, (s.streamerAt unit).active = op :: rest → op.code = 0 → op.len ≠ 0 → op.moved = 0 → State.copyOverlaps op = true → op.bar = none →
      exec (.streamerPiece unit) s = .next (let v := (s.countFor op.tenant 36 0).onRegion op.region fun g => { g with progBytes := g.progBytes + 0 }
        (v.setStreamer unit (State.fillActive { v.streamerAt unit with active := rest })).endCopy { op with code := 4 })) ∧
    (∀ unit op rest, (s.streamerAt unit).active = op :: rest →
      let ends (op' : CopyOp) (v : State) : State :=
        let m := op'.moved - op.moved
        let w := (v.countFor op.tenant 36 ((m + 31) / 32)).onRegion op.region fun g => { g with progBytes := g.progBytes + m }
        let x := match op'.bar with
          | some b => if m = 0 then w else w.settleBytes op.region b m 0 op'.ts
          | none => w
        if op'.code ≠ 0 ∨ op'.moved = op'.len then (x.setStreamer unit (State.fillActive { x.streamerAt unit with active := rest })).endCopy op'
        else x.setStreamer unit { x.streamerAt unit with active := rest ++ [op'] }
      let z : State := { s with acting := some op.tenant }
      (op.code ≠ 0 → exec (.streamerPiece unit) s = .next (ends op s)) ∧
      (∀ op' v, op.code = 0 → z.movePiece unit op = (op', v) → exec (.streamerPiece unit) s = .next (ends op' { v with acting := s.acting })) ∧
      ∀ p q, op.code = 0 → op.moved < op.len → op.was = [] → z.copyPlace op .load op.src op.srcObj op.moved = some p →
        z.copyPlace op .store op.dst op.dstObj op.moved = some q → p.outside = false → q.outside = false →
        let n := op.len - op.moved
        let part := if op.moved = 0 then op.len else n
        let near := isDome q.loc && locDome q.loc == unit
        let r := z.engineRead op.region none p.home p.kind 256 p.loc n
        n ≤ State.unitBytes p.loc - p.loc % State.unitBytes p.loc → n ≤ State.unitBytes q.loc - q.loc % State.unitBytes q.loc →
        (op.moved = 0 → State.copyOverlaps op = false) → z.foreignBank op op.dst op.dstObj op.moved part = false →
        z.foreignBank op op.src op.srcObj op.moved part = false → (isDome q.loc && !near && z.meshHeld q.loc) = false → r.1.2 = false →
          let w := r.2.engineWrite q.home q.kind q.loc n (if near then 1056 else 1057) (ofBytes 256 (toBytes n r.1.1))
          exec (.streamerPiece unit) s = .next (ends { r.2.noteWas op q.loc n with moved := op.moved + n, ts := max op.ts w.1, code := 0 }
            { w.2 with acting := s.acting })) ∧
    (∀ k l, s.landings[k]? = some l →
      exec (.copyStatusLanding k) s = .next (({ s with landings := s.landings.eraseIdx k } : State).landCopy l)) ∧
    (∀ sp k r, (s.spireAt sp).retries.findIdx? (fun r => decide (r.dueCycle ≤ s.cycle)) = some k → (s.spireAt sp).retries[k]? = some r →
      exec (.sliceRetryHint sp) s = .next ((s.setSpireAt sp { s.spireAt sp with retries := (s.spireAt sp).retries.eraseIdx k }).offerCopy
        r.unit r.tries r.op)) ∧
    (∀ link failures held, exec (.linkRetrain link failures held) s = .next
      (let u := (s.countFor State.deviceTenant 49 1).countFor State.deviceTenant 50 1
       if failures < 3 then u
       else (u.regions.filter fun r => held.contains r.part && r.status == .running).foldl
        (fun (s : State) r => s.machineCheck r.id false (BitVec.ofNat 64 (0x322 * 2 ^ 32 + link))) u))

/-- 11_matrix_engine R257-R261, 13_dome_memory R275, R277, 05_memory_isa R146, 16_traps R323, R324, 21_memory_system R365, R367,
R371, 07_system_isa R215, R222: the next operation of a Graver starts, and one that is over completes; a bank grants a burst or a
released ordered operation; the walker fills a TLB; a demand access reads or writes its beat; the trackers leak; a spare takes
its row; soft errors strike. The units 0 to 7 of a soft error and the places they name are the model's (assumption logs 16 and 52), and the
value of a struck word is a free value (assumption log 6). -/
def Obligations.MemoryEventsHappen : Prop :=
  ∀ s : State, s.on = true →
    (∀ sp q e, let g := s.graverAt sp
      let clk := s.domeClock (sp / 32)
      s.spireStopping sp = false → (s.domeAt (sp / 32)).stopAt = none → g.startAt ≠ some clk → g.choose (sp / 32) (s.gclock sp g) = some (q, e) →
      let passes := g.ctx.any fun c => c.queue.any fun x => x.isGemm && x.started && x.tilesLeft && !(x.num == e.num && e.isGemm)
      let v := (if passes then s.countFor e.tenant 22 1 else s).setGraverAt sp { g with arbLast := q, startAt := some clk }
      let e' : GEntry := { e with started := true, began := true, pri := if e.began then e.pri else (nth g.ctx q {}).prio.toNat }
      (∀ e'' w, v.actingFor e.tenant (fun v => v.startOp sp q e') = (e'', w) →
        exec (.graverOpStart sp) s = .next (((w.setEntryAt sp q e'').ageHead sp q).noteStallAt sp 1)) ∧
      (∀ t, e.op = .mzero t → exec (.graverOpStart sp) s = .next
        ((((v.setGraverAt sp (((v.graverAt sp).setTile t []).setTileStat t 0)).setEntryAt sp q e').ageHead sp q).noteStallAt sp 1))) ∧
    (∀ sp q e, (nth (s.graverAt sp).ctx q {}).queue.find? GEntry.finished = some e →
      let v := s.unpinAll e.pins
      let g : Graver := { v.graverAt sp with ctx := (v.graverAt sp).ctx.modify q fun c =>
        { c with queue := c.queue.filter fun x => x.num != e.num, tl := c.tl.complete e.num e.code e.ts } }
      exec (.graverOpComplete sp q) s = .next (((v.setGraverAt sp g.sweep).deliver sp q e).noteStallAt sp 0)) ∧
    (∀ d bank, (s.domeAt d).stopAt.isSome = true → exec (.bankGrant d bank) s = .next s) ∧
    (∀ sp q e b, (s.domeAt (b.bank / 4096)).stopAt = none → s.chooseGrant (b.bank / 4096) (b.bank % 4096) = some (.burst sp q e b) →
      ∃ u, exec (.bankGrant (b.bank / 4096) (b.bank % 4096)) s = .next u ∧ u = s.grantBurst sp q e b ∧
        Tab.get (u.domeAt (b.bank / 4096)).ptr (b.bank % 4096) 1057 = State.graverPort sp (b.bank / 4096)) ∧
    (∀ d bank h, (s.domeAt d).stopAt = none → s.chooseGrant d bank = some (.held h) → h.pkt = none → s.isPoisoned h.loc = true →
      ∃ u, exec (.bankGrant d bank) s = .next u ∧ u = s.applyHeld h ∧ (u.coreAt h.core).amoBad = true ∧
        (u.coreAt h.core).amo = (s.coreAt h.core).amo ∧ u.mem = s.mem) ∧
    (∀ d bank h, (s.domeAt d).stopAt = none → s.chooseGrant d bank = some (.held h) → h.pkt = none → s.isPoisoned h.loc = false →
      ∃ u, exec (.bankGrant d bank) s = .next u ∧ u = s.applyHeld h ∧ (∃ old, (u.coreAt h.core).amo = some old) ∧
        Tab.get (u.domeAt (locDome h.loc)).bclk (locBank h.loc) 0 = (u.coreAt h.core).lt ∧
        Tab.get (u.domeAt (locDome h.loc)).ptr (locBank h.loc) 1057 = h.port) ∧
    (∀ d bank h p, (s.domeAt d).stopAt = none → s.chooseGrant d bank = some (.held h) → h.pkt = some p →
      ∃ u, exec (.bankGrant d bank) s = .next u ∧ u = s.applyHeld h ∧
        ({ region := p.region, lcore := p.lcore, entry := p.entry, refused := false } : Ack) ∈ u.acks) ∧
    (∀ sp t ctx va leaf level u, s.tlbHit sp t ctx va.toNat = none → s.walk t ctx va.toNat = (some (leaf, level), u) →
      exec (.tlbWalkComplete sp t ctx va) s = .next ((u.fillTlb sp
        { tenant := t, ctx := ctx, vpage := va.toNat / State.pageSize level, leaf := leaf, level := level }).countFor t 57 1)) ∧
    (∀ sp t ctx va u, s.tlbHit sp t ctx va.toNat = none → s.walk t ctx va.toNat = (none, u) →
      exec (.tlbWalkComplete sp t ctx va) s = .next ((u.countFor t 57 1).countFor t 59 1)) ∧
    (∀ pa, let b := pa % Config.hbmSize / 32 * 32
      let live := Tab.find? s.hbm.live (s.hbmLoc b / 1024)
      let err := Tab.find? s.hbm.errs (s.hbmLoc b / 32)
      (∀ x, exec (.hbmDemandAccess pa (some x)) s = .next ((s.writeBeat b x).countBy 41 1)) ∧
      (live = none → exec (.hbmDemandAccess pa none) s = .next ((s.countBy 44 1).deliverSector b false)) ∧
      (live = some () →
        let v := s.countBy 40 1
        (err = none → exec (.hbmDemandAccess pa none) s = .next (v.deliverSector b false)) ∧
        ((err = some .mark ∨ err = some .stuckMark) → exec (.hbmDemandAccess pa none) s = .next (v.deliverSector b true)) ∧
        ((err = some .correctable ∨ err = some .stuck) →
          exec (.hbmDemandAccess pa none) s = .next ((v.deliverSector b false).countCorrected 0 b)) ∧
        ((err = some .uncorrectable ∨ err = some .stuckBad) →
          exec (.hbmDemandAccess pa none) s = .next (((v.countBy 43 1).postFault 2 0 b).deliverSector b true)))) ∧
    (s.hbm.leaks < s.time / 16800000 → ∃ u, exec .trackerLeak s = .next u ∧ u = { s with hbm := u.hbm } ∧
      u.hbm = { s.hbm with leaks := s.hbm.leaks + 1, track := u.hbm.track } ∧
      ∀ ch e row n, (e, row, n) ∈ Tab.get u.hbm.track ch [] ↔
        ((e, row, n + 1) ∈ Tab.get s.hbm.track ch [] ∧ n ≠ 0 ∧ ¬ ∃ c, Tab.find? s.hbm.copies ch = some c ∧ c.row = row) ∨
        ((e, row, n) ∈ Tab.get s.hbm.track ch [] ∧ ∃ c, Tab.find? s.hbm.copies ch = some c ∧ c.row = row)) ∧
    (s.time / 16800000 ≤ s.hbm.leaks → exec .trackerLeak s = .next s) ∧
    (∀ ch c, s.reserved ch = some c →
      let pa := c.row * 1024
      let z : State := { s with acting := some (s.coreAt c.core).tenant }
      let v := (z.spareBeats pa).2.untrack pa
      let a := State.spareLoc pa c.spare
      let moved : State := { v with
        mem := (List.range 8).foldl (fun m k => Mem.store m (a + 128 * k) 128 (v.hbmLine (pa / 128 + k))) v.mem
        hbm := { v.hbm with
          copies := Tab.del v.hbm.copies ch, errs := State.spareErrs v.hbm.errs a (z.spareBeats pa).1, live := Tab.put v.hbm.live (a / 1024) () } }
      let w : State := { (moved.setRemap ch c.entry (State.remapWord pa c.spare)).countBy 46 1 with acting := s.acting }
      (w.coreAt c.core).spare = some (ch, none) → exec (.mspareCopyEnd ch) s = .next (w.setCoreAt c.core
        { w.coreAt c.core with spare := some (ch, some (State.spareStatus (if (s.spareBeats pa).1.isEmpty then 0 else 4) c.entry)) })) ∧
    (let x := s.free.1
     let v := s.free.2
     (∀ at_, isDome at_ = true → exec (.softError 0 at_) s = .next { v with
       mem := Mem.store v.mem (at_ / 8 * 8) 8 x, poison := Tab.put v.poison (at_ / 8 * 8) () }) ∧
     (∀ c off, off < 16384 → off % 8 = 0 → exec (.softError 1 (16384 * c + off)) s = .next
       (let w : State := { v with mem := Mem.store v.mem (State.wsLoc c off) 8 x }
        w.setCoreAt c { w.coreAt c with soft := (w.coreAt c).soft ++ [(1, off)] })) ∧
     (∀ c, exec (.softError 2 c) s = .next (v.setCoreAt c
       { v.coreAt c with soft := (v.coreAt c).soft ++ [(2, (v.coreAt c).wp.toNat + Ws.repState)] })) ∧
     (∀ sp n b, n < 128 → b < 512 → ∃ u, exec (.softError 3 (65536 * sp + 512 * n + b)) s = .next u ∧
       ∀ m, (nth (u.graverAt sp).slots m {}).soft = if m = n ∧ n < (v.graverAt sp).slots.length then some b else (nth (v.graverAt sp).slots m {}).soft) ∧
     (∀ at_, let e := Tab.find? v.hbm.errs (at_ / 32)
       let beat (x : BeatErr) : State := { v with hbm := { v.hbm with errs := Tab.put v.hbm.errs (at_ / 32) x } }
       ((∀ unit, (unit = 4 ∨ unit = 5) → Tab.find? v.hbm.live (at_ / 1024) = none → exec (.softError unit at_) s = .next v) ∧
        (Tab.find? v.hbm.live (at_ / 1024) = some () →
          exec (.softError 4 at_) s = .next (beat (match e with
            | none => .correctable
            | some .correctable => .uncorrectable
            | some .stuck => .stuckBad
            | some x => x)) ∧
          exec (.softError 5 at_) s = .next (beat (match e with
            | some .stuck | some .stuckBad => .stuckBad
            | some .stuckMark => .stuckMark
            | some .mark => .mark
            | _ => .uncorrectable))) ∧
        exec (.softError 6 at_) s = .next (beat (match e with
          | none => .stuck
          | some .correctable | some .uncorrectable => .stuckBad
          | some .mark => .stuckMark
          | some x => x)))) ∧
     ∀ at_, isHbm at_ = true → Tab.find? v.hbm.live (v.hbmLoc at_ / 1024) = some () → exec (.softError 7 at_) s = .next (v.setHbmLine (at_ / 128)
       ((v.hbmLine (at_ / 128) &&& ~~~((0xFFFFFFFFFFFFFFFF : BitVec 1024) <<< (8 * (at_ % 128 / 8 * 8)))) |||
         ((x.setWidth 1024) <<< (8 * (at_ % 128 / 8 * 8))))))

/-- 09_execution R231, R233, R236, R238, R241, R244-R247, 16_traps R316, R320: launches, admission, ageing, the start, switch and
resumption of partitions, the retirement of regions, and the budgets that kill them. That ARG of the trace records 3 and 5 is the number
of the first Spire (assumption log 45), and how partitions are numbered and a region killed before its RCB was read retires (assumption log
42), are the model's choices. -/
def Obligations.SchedulingEventsHappen : Prop :=
  ∀ s : State, s.on = true →
    (∀ port t n v, s.pageLive port t = true → n ≤ 11 →
      (v &&& 0xFF ≠ 0 → exec (.launchRegisterWrite port t n v) s = .next (s.setLstat t (16 + n))) ∧
      (v &&& 0xFF = 0 → 64 ≤ (s.fifoOf t n).length →
        exec (.launchRegisterWrite port t n v) s = .next ((s.setLstat t n).countFor t 65 1)) ∧
      (v &&& 0xFF = 0 → (s.fifoOf t n).length < 64 →
        let w := s.joinVtime t
        exec (.launchRegisterWrite port t n v) s = .next ((({ w with
          fifos := Tab.put w.fifos (State.fifoKey t n) (w.fifoOf t n ++ [{ rcb := v.toNat, ctx := 0, root := true, accepted := w.time, seq := w.seqNext }])
          seqNext := w.seqNext + 1 } : State).countFor t 64 1).traceRec 1 t n 0 0xFFFFFFFF (BitVec.ofNat 64 v.toNat)))) ∧
    (∀ port t v, s.pageLive port t = true →
      exec (.lstatWrite port t v) s = .next { s with lstat := Tab.put s.lstat t (Tab.get s.lstat t 0 &&& ~~~v) }) ∧
    (∀ order w, let v := (s.applyCommands.takeAll.refuseCodeless).countFor State.deviceTenant 93 1
      (State.admitRanked order v.ranked none v = (none, w) → exec (.belfryAdmission order) s = .next w.armYields) ∧
      (∀ h, State.admitRanked order v.ranked none v = (some h, w) → exec (.belfryAdmission order) s = .next (w.preemptFor h order).armYields) ∧
      ∀ r sps, v.ranked = [r] → v.budgetOk r.id (Rcb.need r.rcb) = true → (v.freePart.isSome = true ∨ r.status = .switched) →
        (r.status = .waiting → (v.codeOf r.tenant r.rcb).isSome = true) → v.fitting r (v.freeSpires order) = some sps →
          exec (.belfryAdmission order) s = .next (v.bindRegion r sps).armYields) ∧
    (∀ id r, s.region? id = some r → State.inQueue r = true → r.waitFrom + 64000 ≤ s.time →
      let v := s.countFor r.tenant (80 + r.prio) 64000
      exec (.ageingStep id) s = .next ((if 1 < r.level then v.countFor r.tenant 92 1 else v).onRegion id fun g =>
        { g with waitFrom := g.waitFrom + 64000, level := if 1 < g.level then g.level - 1 else g.level })) ∧
    (∀ part sps r v, s.boundSpires part false = some sps → s.placedRegion part sps = some (r, v) →
      let image := v.imageCells ((v.tenantRec r.tenant).extractLsb' (8 * 0x28) 44).toNat 4096
      let w := sps.zipIdx.foldl (fun (s : State) x => s.startSpire r image x.2 x.1) (v.setBarriers (sps.headD 0) fun _ => {})
      let x := (w.onRegion r.id fun g => { g with start := w.time, begun := true, spires := sps, part := part }).nowRunning r.id
      exec (.dispatchFreshStart part) s = .next ((x.writeStart r).traceRec 3 r.tenant r.level r.id 0xFFFFFFFF (BitVec.ofNat 64 (sps.headD 0)))) ∧
    (∀ part sps r m, s.boundSpires part true = some sps → s.partRegion part .placed = some r → s.savedOf r.id = some m →
      let v := (sps.zip m.spires).foldl (fun (u : State) x => u.restoreSpire (State.keepsBanks r) (s.settleVtime.watchdogValue r) x.1 x.2) s.settleVtime
      let w := if State.keepsBanks r then v.setBarriers (sps.headD 0) fun n => ((m.barriers.find? fun (x : Nat × BObj) => x.1 == n).map (·.2)).getD {} else v
      let x : State := { w with saved := w.saved.filter fun (y : Saved) => y.region != r.id }
      exec (.partitionResume part) s = .next (((x.onRegion r.id fun g => { g with spires := sps, part := part, wdTrap := false }).nowRunning r.id).traceRec
        5 r.tenant r.level r.id 0xFFFFFFFF (BitVec.ofNat 64 (sps.headD 0)))) ∧
    (∀ part r t, s.partRegion part .running = some r → Tab.find? s.armed part = some t → t ≤ s.time →
      let v := r.spires.foldl (fun (u : State) sp => u.withdrawOps sp) s
      v.switchReady r = true → ∃ u, exec (.gangSwitch part) s = .next u ∧ u = v.saveOut r t ∧ Tab.find? u.armed part = none ∧
        ∃ m ∈ u.saved, m.region = r.id ∧ m.part = part) ∧
    (∀ id r st w, s.region? id = some r → (r.status = .running ∨ (r.status = .killed ∧ (r.begun = true ∨ r.spires ≠ []))) →
      s.allExited r = true → s.operationsOver r = true → (s.releaseEngines r).successor r = (st, none, w) →
      let x := (w.releaseFlush r false).writeStatus r true r.kill st
      let y := ((x.2.wakeParent r).interruptHost r).traceRec 6 r.tenant r.level r.id 0xFFFFFFFF x.1
      let z := (y.settleVtime.releaseSlots r.spires).close r
      exec (.regionRetire id) s = .next { z with armed := Tab.del z.armed r.part }) ∧
    (∀ id r st w f l, s.region? id = some r → (r.status = .running ∨ (r.status = .killed ∧ (r.begun = true ∨ r.spires ≠ []))) →
      s.allExited r = true → s.operationsOver r = true → (s.releaseEngines r).successor r = (st, some (f, l), w) →
      let x := (w.releaseFlush r true).writeStatus r true r.kill st
      let y := (((x.2.pushLaunch r.tenant f l).wakeParent r).interruptHost r).traceRec 6 r.tenant r.level r.id 0xFFFFFFFF x.1
      let z := (y.settleVtime.releaseSlots r.spires).close r
      exec (.regionRetire id) s = .next { z with armed := Tab.del z.armed r.part }) ∧
    (∀ id r loc own v, s.region? id = some r → r.status = .killed → r.begun = false → r.spires = [] →
      (s.flushChain r.successorOf).readRcb r.tenant r.ctx r.rcbAddr = some (loc, own, v) →
      exec (.regionRetire id) s = .next ((v.complete { r with rcb := if r.unread then v.effectiveRcb r.parent own else r.rcb } r.kill 0 6).close r)) ∧
    (∀ id r, s.region? id = some r →
      let killed (code : Nat) (i : Instr) : Prop := ∃ u, exec i s = .next u ∧ u = s.kill id code ∧
        ∃ r', u.region? id = some r' ∧ r'.status = .killed ∧ r'.kill = code
      (s.overMaxrun r = true → killed 3 (.maxrunExpiry id)) ∧ (State.overGsteps r = true → killed 4 (.gstepsExpiry id)) ∧
      (s.switchLate r = true → killed 2 (.watchdogSwitchTimeout id))) ∧
    (∀ id r p, s.region? id = some r → s.watchdogPeriod r = some p → s.periodOver r = true →
      let late := decide (s.progress r - r.progBase < ((s.wdcfg r.tenant r.fifo).extractLsb' 32 24).toNat)
      let v := s.onRegion id fun g =>
        { g with progBase := s.progress r, progFrom := r.progFrom + p, wdForced := g.wdForced || late, wdTrap := g.wdTrap || late }
      exec (.watchdogTimeout id) s = .next (if late then (v.armRegion r).countFor r.tenant 70 1 else v))

/-- 22_host_compat R372-R386, 00_scope R9: the accesses of the host to the semaphores, the mailbox, the registers and HBM4E, the
Thatur loader, a function-level reset, the reset of the device, and what power and temperature do. These are the model's choices: a vector
control word that nothing has written is 0x100000000, masked (assumption log 74); a command waits for the next admission, and OWNER 0 makes
the loader's image a system one (assumption log 43); where the home of a host access lies (assumption logs 48 and 60); that the thermal
alarm is not fatal (assumption log 38); the values a reset gives where the spec gives none (assumption logs 3, 4 and 5). -/
def Obligations.HostEventsHappen : Prop :=
  ∀ s : State, s.on = true →
    (∀ port n, s.barOpen = true → n < 64 → let w := Tab.get s.semaphores n 0
      (Sem.held w = false → exec (.semaphoreTake port n false) s = .next { s.reply port (toBytes 8 (Sem.free w)) with
        semaphores := Tab.put s.semaphores n (Sem.taken w port) }) ∧
      (Sem.held w = true → exec (.semaphoreTake port n false) s = .next (s.reply port (toBytes 8 w))) ∧
      (exec (.semaphoreTake port n true) s = .next { (s.take1 (!s.lastTie) n).take1 s.lastTie n with lastTie := !s.lastTie }) ∧
      (∀ v, v.getLsbD 63 = false → Sem.held w = true → Sem.owner w = port → exec (.semaphoreRelease port n v) s =
        .next { s with semaphores := Tab.put s.semaphores n (Sem.free w) }) ∧
      ∀ v, (v.getLsbD 63 = true ∨ Sem.held w = false ∨ Sem.owner w ≠ port) →
        exec (.semaphoreRelease port n v) s = .next (s.countFor (State.portTenant port) 77 1)) ∧
    (∀ port, s.holdsZero port = true →
      (∀ t share, exec (.setshare port t share) s = .next { s with commands := s.commands ++ [.share t share] }) ∧
      (∀ t n v, exec (.setwdcfg port t n v) s = .next { s with commands := s.commands ++ [.watchdog t n v] }) ∧
      (∀ en base log2, exec (.traceCommand port en base log2) s = .next { s with commands := s.commands ++ [.trace en base log2] }) ∧
      (∀ nonce, exec (.attest port nonce) s = .next { s with commands := s.commands ++ [.attest port nonce] })) ∧
    (∀ t v, t < 16 → v < 64 → let m := s.msixAt t
      let tab := Tab.put m.table (2 * v + 1) (Tab.get m.table (2 * v + 1) 0x100000000 &&& 0xFFFFFFFEFFFFFFFF)
      exec (.msixVectorUnmask t v) s = .next { s with msix := Tab.put s.msix t (if m.pend.getLsbD v = true then
        { m with table := tab, pend := m.pend &&& ~~~((1 : BitVec 64) <<< v), sent := m.sent ++ [v] } else { m with table := tab }) }) ∧
    (∀ port pa len, s.boot = .up → let inside := decide (pa + len ≤ Config.hbmSize) && s.hostWindow port pa len
      (inside = false → (∀ bs, exec (.hostBar4Access port pa len (some bs)) s = .next (s.countFor (State.portTenant port) 76 1)) ∧
        exec (.hostBar4Access port pa len none) s = .next ((s.countFor (State.portTenant port) 76 1).reply port (List.replicate len 0xFF))) ∧
      (inside = true → (∀ bs, exec (.hostBar4Access port pa len (some bs)) s = .next
          (s.actFor (State.portTenant port) fun u => (State.hostWrite (bs.take len) pa (if pa % 128 = 0 then u
            else (u.slicedWrite (u.hwHome pa) (pa / 128) 0 false).2)).cleanRange pa (bs.take len).length)) ∧
        exec (.hostBar4Access port pa len none) s = .next (s.actFor (State.portTenant port) fun u =>
          (State.hostRead len pa u).2.reply port (State.hostRead len pa u).1))) ∧
    (∀ port, exec (.functionLevelReset port) s = .next { s with semaphores := s.semaphores.map (fun nw =>
      if Sem.held nw.2 && Sem.owner nw.2 == port then (nw.1, Sem.free nw.2) else nw) }) ∧
    (∀ port v, (∀ t n, t < 16 → n < 12 →
        exec (.registerWrite port 2 (0x10000 * t + 8 * n) v) s = exec (.launchRegisterWrite port t n v) s) ∧
      (∀ t, t < 16 → exec (.registerWrite port 2 (0x10000 * t + 0x60) v) s = exec (.lstatWrite port t v) s) ∧
      (∀ t k, t < 16 → k < 128 → s.pageLive port t = true → ¬ (k % 2 = 1 ∧ v.getLsbD 32 = false) →
        let x := if k % 2 = 0 then v &&& 0xFFFFFFFFFFFFFFFC else v &&& 0x1FFFFFFFF
        exec (.registerWrite port 2 (0x10000 * t + 0x1000 + 8 * k) v) s = .next
          { s with msix := Tab.put s.msix t { s.msixAt t with table := Tab.put (s.msixAt t).table k x } }) ∧
      (∀ n, n < 64 → exec (.registerWrite port 0 (16 * n) v) s = exec (.semaphoreRelease port n v) s) ∧
      ∀ n, n < 64 → s.barOpen = true → exec (.registerWrite port 0 (16 * n + 8) v) s = .next (s.countFor (State.portTenant port) 77 1)) ∧
    (∀ t ctx va ws bs, s.containerImage t ctx va.toNat = some (ws, bs) → let port := (s.tenantRec t).getLsbD 62
      (sizesOk ws = false → exec (.thaturLoad t ctx va) s = .next ((s.countFor t 78 1).reply port (toBytes 8 (State.rejection 1 0)))) ∧
      (sizesOk ws = true → let im := Image.of ws bs
        (∀ e v, s.publishImage t (im.owner == 0) im = .error (e, v) →
          exec (.thaturLoad t ctx va) s = .next ((s.countFor t 78 1).reply port (toBytes 8 (State.rejection e v)))) ∧
        ∀ o code, s.publishImage t (im.owner == 0) im = .ok (o, code) →
          exec (.thaturLoad t ctx va) s = .next (((s.addObject o code).countFor t 79 1).reply port (toBytes 8 (BitVec.ofNat 64 o.base))))) ∧
    (let kept : State := { State.reset with
      config := s.config, flashVersion := s.flashVersion, ownerHash := s.ownerHash, badPages := s.badPages.take 1024, sched := s.sched
      freeCtr := s.freeCtr }
     (Config.firmwareVerifies = false → exec .deviceReset s = .next { kept with boot := .halted }) ∧
     (Config.firmwareVerifies = true → kept.configAccepted = false → exec .deviceReset s = .next { kept with boot := .degraded }) ∧
     (Config.firmwareVerifies = true → kept.configAccepted = true → exec .deviceReset s = .next { kept.applyBadList.configure with boot := .up })) ∧
    (∀ d x, d < 8 → s.domeAt d = x → x.stopAt = none →
      exec (.powerCap d true) s = .next (s.setDomeAt d { x with stopAt := some s.cycle })) ∧
    (∀ d x c, d < 8 → s.domeAt d = x → x.stopAt = some c →
      exec (.powerCap d false) s = .next ((s.setDomeAt d { x with stopAt := none, stopFor := x.stopFor + (s.cycle - c) }).countFor
        State.deviceTenant 94 (s.cycle - c))) ∧
    exec .thermalAlarm s = .next ((s.regions.filter fun r => r.status == .running || r.status == .placed || r.status == .switched).foldl
      (fun (u : State) r => u.machineCheck r.id false (BitVec.ofNat 64 (0x386 * 2 ^ 32))) s) ∧
    exec .thermalShutdown s = .next { s with power := false }

/-! ## Traps -/

/-- 16_traps R310: trap entry, when the handler's WP is not the live one, no word of its workspace is corrupted, and its WP and
level are legal (R311, 02_scalar R42, R309). Outside the five words it writes, and the device's own reports, no byte of storage
changes. -/
def Obligations.TrapEntry : Prop :=
  ∀ (s : State) (async : Bool) (tpc : Word) (t : Trap),
    let hwp := s.handler.2.1
    let at_ := State.wsLoc s.cur hwp.toNat
    let u := s.takeTrap async tpc t
    Mem.wf s.mem = true → hwp ≠ s.core.wp → s.softEntry hwp = false → State.fixWp hwp = hwp → s.fixPriv s.handler.1 = s.handler.1 →
      (let w : Word := Mem.load u.mem 64 (at_ + 0x540) 8
       w.extractLsb' 0 8 = t.code ∧ w.extractLsb' 8 2 = s.core.priv ∧ w.extractLsb' 16 14 = s.core.wp ∧ w.getLsbD 63 = async ∧
        w.extractLsb' 10 6 = 0 ∧ w.extractLsb' 30 33 = 0) ∧
      Mem.load u.mem 64 (at_ + 0x548) 8 = tpc ∧ Mem.load u.mem 64 (at_ + 0x550) 8 = t.tval ∧
      Mem.load u.mem 64 (at_ + 0x558) 8 = t.tjrnl ∧ Mem.load u.mem 64 (at_ + 0x5D0) 8 = (0 : Word) ∧
      u.core.wp = hwp ∧ u.core.priv = s.handler.1 ∧ u.core.pc = s.handler.2.2 ∧ u.core.holdUntil = s.clock + 56 ∧
      State.sameBytesBut s u (fun loc => State.covers (at_ + 0x540) 32 loc ∨ State.covers (at_ + 0x5D0) 8 loc ∨ s.reportByte loc)

/-- 16_traps R311, 09_execution R246: a trap raised while the handler's WP is live, or whose entry meets a corrupted word of the
handler's workspace, is not entered: no byte of storage but the device's reports changes, the core exits, and its region is
killed with completion code 1. -/
def Obligations.FatalTrapKillsTheRegion : Prop :=
  ∀ (s : State) (async : Bool) (tpc : Word) (t : Trap) (r : Region), Mem.wf s.mem = true →
    (State.fixWp s.handler.2.1 = s.core.wp ∨ s.softEntry (State.fixWp s.handler.2.1) = true) →
    s.region? s.core.region = some r → r.status ≠ .killed → r.status ≠ .retired →
    let u := s.takeTrap async tpc t
    u.core.status = .exited ∧ State.sameBytesBut s u s.reportByte ∧
      ∃ r', u.region? r.id = some r' ∧ r'.status = .killed ∧ r'.kill = 1

/-- 07_system_isa R203: TRAP code raises cause 0x16 with TVAL the code, and TPC is the address of the instruction after it. -/
def Obligations.TrapInstructionNamesTheNextAddress : Prop :=
  ∀ (code : BitVec 16) (s : State), s.issues (.trap code) true = true → Mem.wf s.mem = true →
    let hwp := s.handler.2.1
    hwp ≠ s.core.wp → s.softEntry hwp = false → State.fixWp hwp = hwp → s.core.landed = [] →
      ∃ u, exec (.trap code) s = .next u ∧
        (Mem.load u.mem 64 (State.wsLoc s.cur hwp.toNat + 0x540) 8 : Word).extractLsb' 0 8 = (0x16 : BitVec 8) ∧
        Mem.load u.mem 64 (State.wsLoc s.cur hwp.toNat + 0x550) 8 = (code.setWidth 64 : Word) ∧
        Mem.load u.mem 64 (State.wsLoc s.cur hwp.toNat + 0x548) 8 = s.core.pc + 8

/-- 07_system_isa R204, 01_encoding R30: ERET at a privileged level puts back WP, PRIV and PC from the live workspace,
whatever TPC is, changes no byte of storage, and the resumed context issues 52 core cycles later; a misaligned PC raises MISALIGN
before the fetch, which R204 says of the context ERET resumes and the model takes of every PC (assumption log 63, its choice); at
TENANT level ERET raises PRIV. -/
def Obligations.EretResumes : Prop :=
  (∀ s : State, s.issues .eret true = true → s.core.chained = false → s.core.landed = [] →
    State.fixWp ((s.word 0x540).extractLsb' 16 14) = (s.word 0x540).extractLsb' 16 14 →
    s.fixPriv ((s.word 0x540).extractLsb' 8 2) = (s.word 0x540).extractLsb' 8 2 →
    ∃ u, exec .eret s = .next u ∧ u.mem = s.mem ∧ u.core.wp = (s.word 0x540).extractLsb' 16 14 ∧
      u.core.priv = (s.word 0x540).extractLsb' 8 2 ∧ u.core.pc = s.word 0x548 ∧ u.core.holdUntil = s.clock + 52) ∧
  (∀ (s : State) (st : Raw → Raw) (n : Nat) (pc : Word), pc.toNat % 4 ≠ 0 →
    s.fetchAt st (n + 1) pc = .trap pc { code := Cause.misalign, tval := pc } s) ∧
  (∀ s : State, s.on = true → s.isBelfry = false → s.core.priv = 0 →
    exec .eret s = .next (s.raiseTrap { code := Cause.priv, tval := s.instrBits .eret }))

/-- 02_scalar R77: LOOP counts down and branches while the counter is not 0; a counter of 0 becomes all ones and branches;
w0 as the counter is ILLEGAL at the fetch of the word. -/
def Obligations.LoopCountsDown : Prop :=
  (∀ (s u : State) (n : Nat) (pc : Word) (bs : List Byte), pc.toNat % 4 = 0 → s.fetchBytes pc = .ok (bs, u) →
    let k := lenBytes ((nth bs 0 0).setWidth 2)
    let w : BitVec 128 := ofBytes 128 (bs.take k)
    k ≤ bs.length → w.extractLsb' 0 2 ≠ 3 → w.extractLsb' 2 7 = 0x1C → w.extractLsb' 19 6 = 0 →
      s.fetchAt id (n + 1) pc = .trap pc { code := Cause.illegal, tval := w.setWidth 64 } u) ∧
  (∀ (g : Guard) (a : SReg) (off : BitVec 16) (s : State), a ≠ 0 → Mem.wf s.mem = true → s.issues (.loop g a off) (State.wholeAlone g s) = true →
    s.core.landed = [] → Rep.active (s.word Ws.repState) = false → ∃ u, exec (.loop g a off) s = .next u ∧
      u.reg a = s.reg a - 1 ∧ (s.reg a = 0 → u.reg a = BitVec.allOnes 64) ∧
      u.core.pc = if s.reg a - 1 ≠ 0 then s.core.pc + 4 * off.signExtend 64 else s.core.pc + 8)

/-! ## The order of checks -/

/-- 01_encoding R30 steps 3 to 5, 07_system_isa R192: the illegal and privilege checks come before the guard: whatever the
guard, the trap they find is raised at the instruction, with its bits as TVAL, and nothing else happens. -/
def Obligations.ChecksComeBeforeTheGuard : Prop :=
  ∀ (i : Instr) (s : State) (t : Trap), i.isEvent = false → i ≠ .fill → s.on = true → s.alone = true → s.preTrap i = some t →
    exec i s = .next (s.raiseTrap t) ∧ t.tval = s.instrBits i ∧ (t.code = Cause.illegal ∨ t.code = Cause.priv)

/-- 01_encoding R29: every instruction that is guarded as a whole, when its guard is off, changes nothing but its retirement and
counter 6; for a transfer in a chain, when the leader's guard is off too and the leader has acted (02_scalar R72). -/
def Obligations.GuardedOffInstructionsOnlyRetire : Prop :=
  ∀ (i : Instr) (g : Guard) (l : Nat) (s : State), wholeGuard i = some (g, l) → s.clear i = true → s.guardLane g l = false →
    (leaderDecides i = true → s.decider.guardLane g 0 = false ∧ (s.core.follower = true → (s.coreAt s.leaderIdx).done = true)) →
      exec i s = .next ((s.count 6 1).retire i.size)

/-- 05_memory_isa R138, R139, R141-R145, R146: the accesses of a load, a store, an atomic, a jet load or store, a gather or scatter and
a bank load are checked for their alignment first, then for window and permission, each with its trap at the instruction and its
address as TVAL; a store to a remote window is checked for its alignment alone, and waits for a free journal entry. -/
def Obligations.AccessChecksInOrder : Prop :=
  (∀ (g : Guard) (t : Ty) (d a : SReg) (b : OpB), Traps (.ld g t d a b) (State.whole g) fun u e =>
    let va := u.reg a + u.opB b
    (va.toNat % memBytes t ≠ 0 ∧ e = { code := Cause.misalign, tval := va }) ∨
      (va.toNat % memBytes t = 0 ∧ u.place .load va = none ∧ e = { code := Cause.loadFault, tval := va })) ∧
  (∀ (g : Guard) (t : Ty) (a : SReg) (b : OpB) (c : SReg), Traps (.st g t a b c) (State.whole g) fun u e =>
    let va := u.reg a + u.opB b
    (va.toNat % memBytes t ≠ 0 ∧ e = { code := Cause.misalign, tval := va }) ∨
      (va.toNat % memBytes t = 0 ∧ State.isRemote va = false ∧ u.place .store va = none ∧ e = { code := Cause.storeFault, tval := va })) ∧
  (∀ (g : Guard) (t : Ty) (a : SReg) (b : OpB) (c : SReg) (s : State), s.issues (.st g t a b c) (State.whole g s) = true →
    let u := s.acquireTokens (.st g t a b c)
    let va := u.reg a + u.opB b
    va.toNat % memBytes t = 0 → State.isRemote va = true →
      exec (.st g t a b c) s = .next (if u.freeEntries = 0 then u.waitOn (.journal 1) else
        (u.postStore 0 (journalType .z64 t) { va := va, n := memBytes t, x := lowBytes (memBytes t) (u.reg c) }).completed (.st g t a b c))) ∧
  (∀ (g : Guard) (t : Ty) (d a b c : SReg) (last : BitVec 1) (i : Instr) (ordered : Bool),
    ((i = .amoAdd g t d a b ∨ i = .amoAnd g t d a b ∨ i = .amoOr g t d a b ∨ i = .amoXor g t d a b ∨ i = .amoMin g t d a b ∨
        i = .amoMax g t d a b ∨ i = .amoSwap g t d a b ∨ i = .amoCas g t d a b c ∨ i = .amoFadd g t d a b) ∧ ordered = false) ∨
      (i = .amoFaddOrd g t d a b c last ∧ ordered = true) →
    Traps i (State.whole g) fun u e =>
      let x := u.reg a
      (ordered = true → u.core.amoBad = false ∧ u.core.amo = none) ∧
      ((x.toNat % atomBytes t ≠ 0 ∧ e = { code := Cause.misalign, tval := x }) ∨
        (x.toNat % atomBytes t = 0 ∧ e = { code := Cause.storeFault, tval := x } ∧
          (x.toNat < 0x4000 ∨ (ordered = true ∧ State.isDomeWindow x = false) ∨ u.place .store x = none ∨
            ∃ p v, u.place .store x = some (p, v) ∧ v.place .load x = none)))) ∧
  (∀ (g : Guard) (d : VReg) (a : SReg) (b : OpB) (i : Instr) (acc : Acc),
    (i = .vld g d a b ∧ acc = .load) ∨ (i = .vst g a b d ∧ acc = .store) → Traps i State.always fun u e =>
      let base := u.reg a + u.opB b
      jetWords u g ≠ [] ∧
      ((base.toNat % 32 ≠ 0 ∧ e = { code := Cause.misalign, tval := base }) ∨
        (base.toNat % 32 = 0 ∧ ∃ va, u.firstFault acc ((jetWords u g).map fun x => (jetElem base x 0).va) va ∧
          e = { code := State.faultOf acc, tval := va }))) ∧
  (∀ (g : Guard) (t : Ty) (d : VReg) (a : SReg) (b : VReg) (stride : BitVec 16) (i : Instr) (acc : Acc),
    (i = .vgather g t d a b stride ∧ acc = .load) ∨ (i = .vscatter g t a b d stride ∧ acc = .store) → Traps i State.always fun u e =>
      let vas := (gatherElems u g t.bits a b stride).map (·.2.2)
      (∃ va, State.firstMisaligned (t.bits / 8) vas va ∧ e = { code := Cause.misalign, tval := va }) ∨
        ((∀ va ∈ vas, va.toNat % (t.bits / 8) = 0) ∧ ∃ va, u.firstFault acc vas va ∧ e = { code := State.faultOf acc, tval := va })) ∧
  ∀ (g : Guard) (d : VReg) (a : SReg) (nM1 : BitVec 3), Traps (.ldb g d a nM1) (State.whole g) fun u e =>
    let x := u.reg a
    let n := nM1.toNat + 1
    ((x.toNat % 8 ≠ 0 ∨ 2048 < x.toNat % 2048 + 8 * n) ∧ e = { code := Cause.misalign, tval := x }) ∨
      (x.toNat % 8 = 0 ∧ x.toNat % 2048 + 8 * n ≤ 2048 ∧ (x.toNat < 0x1800000 ∨ 0x2000000 ≤ x.toNat) ∧
        e = { code := Cause.loadFault, tval := x }) ∨
      (x.toNat % 8 = 0 ∧ x.toNat % 2048 + 8 * n ≤ 2048 ∧ 0x1800000 ≤ x.toNat ∧ x.toNat < 0x2000000 ∧
        ∃ va, u.firstFault .load ((List.range n).map fun j => x + BitVec.ofNat 64 (8 * j)) va ∧ e = { code := Cause.loadFault, tval := va })

/-! ## Registers and memory -/

/-- 00_scope R12, 02_scalar R41: w0 reads zero and p0 all ones, and writes to them are discarded; every other register
reads what was written last, and a write to one register leaves every other as it was. -/
def Obligations.RegistersHoldWhatIsWritten : Prop :=
  ∀ s : State, Mem.wf s.mem = true →
    s.reg 0 = 0 ∧ s.pred 0 = 0xFFFFFFFF ∧ (∀ x, s.setReg 0 x = s) ∧ (∀ x, s.setPred 0 x = s) ∧
    (∀ (r q : SReg) (x : Word), r ≠ 0 → (s.setReg r x).reg q = if q = r then x else s.reg q) ∧
    (∀ (r : SReg) (v : VReg) (x : Word), (s.setReg r x).vreg v = s.vreg v) ∧
    (∀ (r : SReg) (p : PReg) (x : Word), (s.setReg r x).pred p = s.pred p) ∧
    (∀ (v u : VReg) (x : VWord), (s.setVreg v x).vreg u = if u = v then x else s.vreg u) ∧
    (∀ (v : VReg) (r : SReg) (x : VWord), (s.setVreg v x).reg r = s.reg r) ∧
    (∀ (v : VReg) (p : PReg) (x : VWord), (s.setVreg v x).pred p = s.pred p) ∧
    (∀ (p q : PReg) (x : BitVec 32), p ≠ 0 → (s.setPred p x).pred q = if q = p then x else s.pred q) ∧
    (∀ (p : PReg) (r : SReg) (x : BitVec 32), (s.setPred p x).reg r = s.reg r) ∧
    (∀ (p : PReg) (v : VReg) (x : BitVec 32), (s.setPred p x).vreg v = s.vreg v)

/-- 02_scalar R43: LD.z64 and ST.z64 at the address of a register of the live workspace read and write that register, as a
move would; when the range KRES closes to TENANT level does not hold that word (07_system_isa R200). -/
def Obligations.WorkspaceWindowIsTheRegisters : Prop :=
  ∀ (g : Guard) (d a r : SReg) (s : State),
    let off := s.core.wp.toNat + 8 * r.toNat
    Mem.wf s.mem = true → r ≠ 0 → s.core.landed = [] → s.core.soft = [] → (∀ t ∈ s.core.tokens, t = none) → off < 0x4000 → s.reg a = BitVec.ofNat 64 off → isWs (State.wsLoc s.cur off) = true →
    ¬ (s.core.priv = 0 ∧ (s.core.kres.extractLsb' 0 16).toNat ≤ off ∧ off < (s.core.kres.extractLsb' 16 16).toNat) →
    s.isPoisoned (State.wsLoc s.cur off) = false →
      (s.core.wp.toNat % 8 = 0 → s.issues (.ld g .z64 d a (.imm16 0)) (State.whole g s) = true →
        exec (.ld g .z64 d a (.imm16 0)) s = .next ((s.setReg d (s.reg r)).completed (.ld g .z64 d a (.imm16 0)))) ∧
      (s.core.wp.toNat % 8 = 0 → s.issues (.st g .z64 a (.imm16 0) d) (State.whole g s) = true →
        exec (.st g .z64 a (.imm16 0) d) s = .next ((s.setReg r (s.reg d)).completed (.st g .z64 a (.imm16 0) d)))

/-- 22_host_compat R380, R375, R381, R382, 09_execution R243, 02_scalar R51: device reset before bring-up. Nothing is placed,
no region, launch, semaphore, counter or trace is live, and no instruction has retired; storage is in canonical form. That
storage reads zero is the model's choice (assumption log 3), and so are the Belfry cores' registers (log 4). -/
def Obligations.ResetLeavesNothingPlaced : Prop :=
  let s := State.reset
  s.boot = .off ∧ s.power = true ∧ s.cycle = 0 ∧ s.regions = [] ∧ s.fifos = [] ∧ s.semaphores = [] ∧ s.counters = [] ∧
    s.trace.on = false ∧ s.packets = [] ∧ s.landings = [] ∧ s.objects = [] ∧ Mem.wf s.mem = true ∧ (∀ loc, s.byte loc = 0) ∧
    (∀ c, c < Config.domeCores → (s.coreAt c).status = .notPlaced ∧ (s.coreAt c).instret = 0) ∧
    (∀ c, Config.domeCores ≤ c → c < Config.domeCores + 4 → (s.coreAt c).priv = 2 ∧ (s.coreAt c).instret = 0) ∧
    (∀ c, Config.domeCores + 4 ≤ c → (s.coreAt c).status = .notPlaced) ∧
    ∀ sp, (s.spireAt sp).graver = {} ∧ (s.spireAt sp).tlb = [] ∧ (s.spireAt sp).lines = []

/-! ## What instructions leave unchanged -/

/-- 02_scalar R51, R52-R62, R79, R205: an integer, predicate, move, bit, compare, capability or system-register read changes,
besides what every retirement changes, only its destination register. -/
def Obligations.ScalarFrame : Prop :=
  (∀ (i : Instr) (g : Guard) (d : SReg),
    ((∃ t a b, i = .add g t d a b ∨ i = .sub g t d a b ∨ i = .and g t d a b ∨ i = .or g t d a b ∨ i = .xor g t d a b ∨
        i = .andn g t d a b ∨ i = .shl g t d a b ∨ i = .shr g t d a b ∨ i = .sar g t d a b ∨ i = .ror g t d a b ∨
        i = .min g t d a b ∨ i = .max g t d a b ∨ i = .mul g t d a b ∨ i = .mulh g t d a b ∨ i = .div g t d a b ∨
        i = .rem g t d a b) ∨
      (∃ t a, i = .clz g t d a ∨ i = .ctz g t d a ∨ i = .popc g t d a ∨ i = .brev g t d a ∨ i = .bswap g t d a ∨
        i = .sext g t d a ∨ i = .zext g t d a ∨ i = .fneg g t d a ∨ i = .fabs g t d a ∨ i = .fclass g t d a) ∨
      (∃ t a pos n, i = .bext g t d a pos n ∨ i = .bins g t d a pos n) ∨
      (∃ x, i = .movi g d x) ∨ (∃ a, i = .mov g d a) ∨ (∃ a x, i = .lea g d a x) ∨ (∃ a b c, i = .sel g d a b c) ∨
      (∃ x, i = .qcap g d x) ∨ (∃ a b, i = .rndc g d a b) ∨ (∃ idx, i = .sysr g d idx)) →
    ∀ s t : State, Mem.wf s.mem = true → s.clear i = true → exec i s = .next t → s.unchangedBut t fun loc => s.regByte d loc ∨ s.repByte loc) ∧
  (∀ (i : Instr) (g : Guard) (d : PReg),
    ((∃ t a b, i = .cmpEq g t d a b ∨ i = .cmpNe g t d a b ∨ i = .cmpLt g t d a b ∨ i = .cmpLe g t d a b ∨ i = .cmpGt g t d a b ∨
        i = .cmpGe g t d a b) ∨
      (∃ a b, i = .pand g d a b ∨ i = .por g d a b ∨ i = .pxor g d a b ∨ i = .pandn g d a b) ∨
      (∃ a, i = .pnot g d a ∨ i = .pmov g d a) ∨ (∃ imm, i = .pset g d imm)) →
    ∀ s t : State, Mem.wf s.mem = true → s.clear i = true → exec i s = .next t → s.unchangedBut t fun loc => s.predByte d loc ∨ s.repByte loc)

/-- 02_scalar R47, R66-R70: a scalar floating-point instruction changes only its destination and FCSR's flags, which it only
raises; FCSR's other bits stay. -/
def Obligations.ScalarFloatFrame : Prop :=
  (∀ (i : Instr) (g : Guard) (d : SReg),
    ((∃ t a b, i = .fadd g t d a b ∨ i = .fsub g t d a b ∨ i = .fmul g t d a b ∨ i = .fdiv g t d a b ∨ i = .fmin g t d a b ∨
        i = .fmax g t d a b) ∨
      (∃ t a, i = .fsqrt g t d a) ∨
      (∃ t a b c, i = .fma g t d a b c ∨ i = .fms g t d a b c ∨ i = .fnma g t d a b c ∨ i = .fnms g t d a b c) ∨
      (∃ t a src rm, i = .fcvt g t d a src rm)) →
    ∀ s t : State, Mem.wf s.mem = true → s.clear i = true → exec i s = .next t →
      s.unchangedBut t (fun loc => s.regByte d loc ∨ s.wordByte Ws.fcsr loc ∨ s.repByte loc) ∧
      t.word Ws.fcsr &&& ~~~0x1F00 = s.word Ws.fcsr &&& ~~~0x1F00 ∧ t.word Ws.fcsr &&& s.word Ws.fcsr = s.word Ws.fcsr) ∧
  (∀ (i : Instr) (g : Guard) (d : PReg),
    (∃ t a b, i = .fcmpEq g t d a b ∨ i = .fcmpLt g t d a b ∨ i = .fcmpLe g t d a b ∨ i = .fcmpUn g t d a b) →
    ∀ s t : State, Mem.wf s.mem = true → s.clear i = true → exec i s = .next t →
      s.unchangedBut t (fun loc => s.predByte d loc ∨ s.wordByte Ws.fcsr loc ∨ s.repByte loc) ∧
      t.word Ws.fcsr &&& ~~~0x1F00 = s.word Ws.fcsr &&& ~~~0x1F00 ∧ t.word Ws.fcsr &&& s.word Ws.fcsr = s.word Ws.fcsr)

/-- 04_vector R109-R111, R113-R133: a vector instruction that writes lanes changes only the registers of its destination group (two
groups for VSINCOS and the butterflies, one register for JPLANE), and in them only the lanes it writes: the enabled ones; for VCVT those
of the part Q names; for VINS lane j. Of JFLAGS it only raises bits, and one without flags raises none. A reduction writes its group
in full; a compare changes only its predicate and JFLAGS, VEXT its scalar register, VQMX and VDQMX their registers and JFLAGS, JCLR
clears bits of JFLAGS. -/
def Obligations.VectorFrame : Prop :=
  ∀ (g : Guard) (t : Ty),
    let off (s : State) (l : Nat) : Bool := !s.guardLane g l
    (∀ (d a b c : VReg), ∀ i ∈ ([.vadd g t d a b, .vsub g t d a b, .vmul g t d a b, .vdiv g t d a b, .vmin g t d a b, .vmax g t d a b,
        .vrcp g t d a, .vsqrt g t d a, .vrsqrt g t d a, .vexp g t d a, .vlog g t d a, .vtanh g t d a, .vsigm g t d a, .vfma g t d a b c,
        .vfms g t d a b c, .vfnma g t d a b c, .vfnms g t d a b c] : List Instr),
      FramesLanes i (vecFmt t).width d State.gsize true off) ∧
    (∀ (d a : VReg), ∀ i ∈ ([.vneg g t d a, .vabs g t d a] : List Instr), FramesLanes i (vecFmt t).width d State.gsize false off) ∧
    (∀ (d a : VReg), FramesLanes (.vsincos g t d a) (vecFmt t).width d (fun s => 2 * s.gsize) true off) ∧
    (∀ (d a : VReg) (b : OpBV), ∀ i ∈ ([.vaddInt g t d a b, .vsubInt g t d a b, .vand g t d a b, .vor g t d a b, .vxor g t d a b,
        .vshl g t d a b, .vshr g t d a b, .vsar g t d a b, .vminInt g t d a b, .vmaxInt g t d a b, .vadds g t d a b,
        .vsubs g t d a b] : List Instr), FramesLanes i t.bits d State.gsize false off) ∧
    (∀ (d a b c : VReg) (m : BitVec 6) (j : BitVec 5) (r : SReg) (o : OpB64) (x : SVReg), ∀ i ∈ ([.vmulInt g t d a b, .vmulh g t d a b,
        .vmac g t d a b, .vsat g t d a m, .vperm g t d a b, .vshuf g t d a b c, .vrot g t d a o, .vbcast g t d a j, .vsplat g t d r,
        .jseed g t d x] : List Instr), FramesLanes i t.bits d State.gsize false off) ∧
    (∀ (d a b : VReg) (sh : BitVec 4), ∀ i ∈ ([.vdot4 g t d a b, .vdot2 g t d a b, .vcmul g t d a b sh, .vcmac g t d a b sh,
        .vconj g t d a] : List Instr), FramesLanes i 32 d State.gsize false off) ∧
    (∀ (d a b c : VReg), ∀ i ∈ ([.vbfly g t d a b c, .vbflys g t d a b c] : List Instr),
      FramesLanes i 32 d (fun s => 2 * s.gsize) false off) ∧
    (∀ (d a b : VReg) (c : PReg) (w : BitVec 2), ∀ i ∈ ([.vsel g d a b c w, .vmov g d a w] : List Instr),
      FramesLanes i (8 * 2 ^ w.toNat) d State.gsize false off) ∧
    (∀ (d a : VReg) (k m : BitVec 3), FramesLanes (.jext g t d a k) t.bits d State.gsize (!t.isInt) off ∧
      FramesLanes (.jplane g t d a k m) t.bits (d + m.setWidth 5) (fun _ => 1) false off) ∧
    (∀ (d a : VReg) (src : Ty) (q : BitVec 2) (rm : BitVec 3), FramesLanes (.vcvt g t d a src q rm) t.bits d State.gsize true fun s l =>
      let n := 256 / max src.bits t.bits
      let base := if t.bits < src.bits then q.toNat * n else 0
      !(decide (base ≤ l) && decide (l < base + n) && s.guardLane g (l - base))) ∧
    (∀ (d : VReg) (a : SReg) (j : BitVec 5), FramesLanes (.vins g t d a j) t.bits d State.gsize false fun s l =>
      !(l == j.toNat && s.guardLane g j.toNat)) ∧
    (∀ (d a : VReg), ∀ i ∈ ([.vredAdd g t d a, .vredMin g t d a, .vredMax g t d a] : List Instr),
      FramesLanes i t.bits d State.gsize (!t.isInt) fun _ _ => false) ∧
    (∀ (d : PReg) (a b : VReg), ∀ i ∈ ([.vcmpEq g t d a b, .vcmpNe g t d a b, .vcmpLt g t d a b, .vcmpLe g t d a b] : List Instr),
      ∀ s u : State, Mem.wf s.mem = true → s.clear i = true → exec i s = .next u →
        s.unchangedBut u (fun loc => s.predByte d loc ∨ s.wordByte Ws.jflags loc ∨ s.repByte loc) ∧
        s.word Ws.jflags &&& u.word Ws.jflags = s.word Ws.jflags) ∧
    (∀ (d : PReg) (a : VReg) (b : OpBV), ∀ i ∈ ([.vcmpEqInt g t d a b, .vcmpNeInt g t d a b, .vcmpLtInt g t d a b,
        .vcmpLeInt g t d a b] : List Instr), ∀ s u : State, Mem.wf s.mem = true → s.clear i = true → exec i s = .next u →
      s.unchangedBut u fun loc => s.predByte d loc ∨ s.repByte loc) ∧
    (∀ (d : SReg) (a : VReg) (j : BitVec 5) (s u : State), Mem.wf s.mem = true → s.clear (.vext g t d a j) = true →
      exec (.vext g t d a j) s = .next u → s.unchangedBut u fun loc => s.regByte d loc ∨ s.repByte loc) ∧
    (∀ (d a : VReg) (b : SReg) (fmt : BitVec 3) (s u : State), Mem.wf s.mem = true →
      (s.clear (.vqmx g d a b fmt) = true → exec (.vqmx g d a b fmt) s = .next u →
        s.unchangedBut u (fun loc => s.vregBytes d 1 loc ∨ s.regByte b loc ∨ s.wordByte Ws.jflags loc ∨ s.repByte loc) ∧
        s.word Ws.jflags &&& u.word Ws.jflags = s.word Ws.jflags) ∧
      (s.clear (.vdqmx g d a b fmt) = true → exec (.vdqmx g d a b fmt) s = .next u →
        s.unchangedBut u (fun loc => (∃ k < 4, s.vregBytes (d + BitVec.ofNat 5 k) 1 loc) ∨ s.wordByte Ws.jflags loc ∨ s.repByte loc) ∧
        s.word Ws.jflags &&& u.word Ws.jflags = s.word Ws.jflags)) ∧
    ∀ (mask : BitVec 8) (s u : State), Mem.wf s.mem = true → s.clear (.jclr g mask) = true → exec (.jclr g mask) s = .next u →
      s.unchangedBut u (fun loc => s.wordByte Ws.jflags loc ∨ s.repByte loc) ∧
      s.word Ws.jflags &&& u.word Ws.jflags = u.word Ws.jflags ∧
      ∀ p < 8, mask.getLsbD p = false → s.word Ws.jflags &&& State.planeFlags p = u.word Ws.jflags &&& State.planeFlags p

/-- 05_memory_isa R138, R139, R141-R147, 02_scalar R63, R64: a load (LD, VLD, VGATHER, LDB, POPM) changes no byte of storage but its
destination's, and in a vector register no lane whose guard is off; a store (ST, VST, VSCATTER, PUSHM) none but the bytes at the places
its own operation finds for its elements, with their sizes, and PUSHM the stack pointer; an atomic its destination register and its
word; a posted store and a reduce packet none, since they are made where they arrive. The reports the device makes by itself
(21_memory_system R369, 22_host_compat R382) stand apart, and so do the lines a slice may give up that hold other bytes than HBM4E does
(R371), those another slice holds or comes to hold (R361), and the records of a partition that is out (16_traps R319). -/
def Obligations.MemoryFrame : Prop :=
  (∀ (i : Instr) (g : Guard) (guard : State → Bool) (ok : State → Prop) (es : State → List Elem) (mine : State → Nat → Prop),
    ((∃ t d a b, i = .ld g t d a b ∧ guard = State.whole g ∧ (ok = fun v => (v.reg a + v.opB b).toNat % memBytes t = 0) ∧
        (es = fun v => [{ va := v.reg a + v.opB b, n := memBytes t }]) ∧ mine = fun s => s.regByte d) ∨
      (∃ d a b, i = .vld g d a b ∧ guard = State.always ∧ (ok = fun v => jetWords v g = [] ∨ (v.reg a + v.opB b).toNat % 32 = 0) ∧
        (es = fun v => (jetWords v g).map fun x => jetElem (v.reg a + v.opB b) x 0) ∧ mine = fun s => s.laneBytes g 32 d) ∨
      (∃ t d a b stride, i = .vgather g t d a b stride ∧ guard = State.always ∧
        (ok = fun v => ∀ e ∈ gatherElems v g t.bits a b stride, e.2.2.toNat % (t.bits / 8) = 0) ∧
        (es = fun v => (gatherElems v g t.bits a b stride).map fun e => { va := e.2.2, n := t.bits / 8 }) ∧
        mine = fun s => s.laneBytes g t.bits d) ∨
      (∃ d a nM1, i = .ldb g d a nM1 ∧ guard = State.whole g ∧ (ok = fun v => (v.reg a).toNat % 8 = 0 ∧
          (v.reg a).toNat % 2048 + 8 * (nM1.toNat + 1) ≤ 2048 ∧ 0x1800000 ≤ (v.reg a).toNat ∧ (v.reg a).toNat < 0x2000000) ∧
        (es = fun v => (List.range (nM1.toNat + 1)).map fun j => { va := v.reg a + BitVec.ofNat 64 (8 * j), n := 8 }) ∧
        mine = fun s loc => ∃ k < (nM1.toNat + 4) / 4, s.vregBytes (d + BitVec.ofNat 5 k) 1 loc)) →
    ∀ (s s' s'' u : State) (ps : List Place) (xs : List Word), Mem.wf s.mem = true → s.issues i (guard s) = true →
      let v := s.acquireTokens i
      ok v → v.places .load ((es v).map (·.va)) = .ok (ps, s') → v.loadElems (es v) = .ok (xs, s'') → exec i s = .next u →
        State.sameBytesBut s u fun loc => mine s loc ∨ s.repByte loc ∨ s.reportByte loc ∨ s.staleByte loc ∨ s'.movedByte ps loc) ∧
  (∀ (g : Guard) (r : RegRange) (s u t : State), Mem.wf s.mem = true → s.issues (.popm g r) (State.whole g s) = true →
    let v := s.acquireTokens (.popm g r)
    let base := v.word Ws.ssp
    base.toNat % rangeElem r = 0 → meetsWorkspace v base (8 * rangeWords r) = false →
    rangeWait v .load ((List.range (rangeWords r)).map (pushElem r v base)) = none →
    popWords r base (List.range (rangeWords r)) v .done = .done t → exec (.popm g r) s = .next u →
      State.sameBytesBut s u fun loc => s.rangeByte r loc ∨ s.wordByte Ws.ssp loc ∨ s.repByte loc ∨ s.reportByte loc ∨ s.staleByte loc ∨
        ∃ k < rangeWords r, ∃ w p w', popWords r base (List.range k) v .done = .done w ∧
          w.place .load (base + BitVec.ofNat 64 (8 * k)) = some (p, w') ∧ w'.movedByte [p] loc) ∧
  (∀ (g : Guard) (r : RegRange) (s u t : State), Mem.wf s.mem = true → s.issues (.pushm g r) (State.whole g s) = true →
    let v := s.acquireTokens (.pushm g r)
    let base := v.word Ws.ssp - BitVec.ofNat 64 (8 * rangeWords r)
    (v.word Ws.ssp).toNat % rangeElem r = 0 → (v.word Ws.ssl).toNat ≤ base.toNat → meetsWorkspace v base (8 * rangeWords r) = false →
    rangeWait v .store ((List.range (rangeWords r)).map (pushElem r v base)) = none →
    pushWords r base (List.range (rangeWords r)) v = .done t → exec (.pushm g r) s = .next u →
      State.sameBytesBut s u fun loc => s.wordByte Ws.ssp loc ∨ s.repByte loc ∨ s.reportByte loc ∨ s.staleByte loc ∨ s.savedByte loc ∨
        ∃ k < rangeWords r, ∃ w p w', pushWords r base (List.range k) v = .done w ∧
          w.place .store (base + BitVec.ofNat 64 (8 * k)) = some (p, w') ∧ (State.covers (s.storeLoc p.loc) 8 loc ∨ w'.movedByte [p] loc)) ∧
  (∀ (i : Instr) (g : Guard) (guard : State → Bool) (ok : State → Prop) (es : State → List Elem),
    ((∃ t a b c, i = .st g t a b c ∧ guard = State.whole g ∧
        (ok = fun v => (v.reg a + v.opB b).toNat % memBytes t = 0 ∧ State.isRemote (v.reg a + v.opB b) = false) ∧
        es = fun v => [{ va := v.reg a + v.opB b, n := memBytes t, x := lowBytes (memBytes t) (v.reg c) }]) ∨
      (∃ a b c, i = .vst g a b c ∧ guard = State.always ∧ (ok = fun v => jetWords v g = [] ∨ (v.reg a + v.opB b).toNat % 32 = 0) ∧
        es = fun v => (jetWords v g).map fun x =>
          jetElem (v.reg a + v.opB b) x (v.word (0x100 + 32 * (c.toNat + x.1) + 8 * x.2.1))) ∨
      (∃ t a b c stride, i = .vscatter g t a b c stride ∧ guard = State.always ∧
        (ok = fun v => ∀ e ∈ gatherElems v g t.bits a b stride, e.2.2.toNat % (t.bits / 8) = 0) ∧
        es = fun v => (gatherElems v g t.bits a b stride).map fun e =>
          { va := e.2.2, n := t.bits / 8, x := BitVec.ofNat 64 (lane t.bits (v.vreg (c + BitVec.ofNat 5 e.2.1)) e.1) })) →
    ∀ (s s' u : State) (xs : List (Elem × Place)), Mem.wf s.mem = true → s.issues i (guard s) = true →
      let v := s.acquireTokens i
      ok v → v.toStore (es v) = .ok (xs, s') → exec i s = .next u →
        let w := s'.writeElems xs
        State.sameBytesBut s u fun loc => (∃ x ∈ xs, State.covers (s.storeLoc x.2.loc) x.1.n loc) ∨
          (Rep.active (w.word Ws.repState) = true ∧ w.wordByte Ws.repState loc) ∨ s.reportByte loc ∨ s.staleByte loc ∨
          s'.movedByte (xs.map (·.2)) loc ∨ s.savedByte loc) ∧
  (∀ (g : Guard) (t ty : Ty) (d a b c : SReg) (i : Instr) (op : AtomOp),
    ((i = .amoAdd g t d a b ∧ op = .add ∧ ty = t) ∨ (i = .amoAnd g t d a b ∧ op = .and ∧ ty = t) ∨
      (i = .amoOr g t d a b ∧ op = .or ∧ ty = t) ∨ (i = .amoXor g t d a b ∧ op = .xor ∧ ty = t) ∨
      (i = .amoMin g t d a b ∧ op = .min ∧ ty = t) ∨ (i = .amoMax g t d a b ∧ op = .max ∧ ty = t) ∨
      (i = .amoSwap g t d a b ∧ op = .swap ∧ ty = t) ∨ (i = .amoCas g t d a b c ∧ op = .cas ∧ ty = t) ∨
      (i = .amoFadd g t d a b ∧ op = .add ∧ ty = if t = .dflt then .f64 else t)) →
    ∀ (s s' s'' u : State) (p : Place) (old : Word), Mem.wf s.mem = true → s.issues i (State.whole g s) = true →
      let v := s.acquireTokens i
      v.atomPlace (v.reg a) (atomBytes ty) false = .ok (p, s') →
      v.amo op ty (v.reg a) (v.reg b) (if op = .cas then v.reg c else 0) = .ok (old, s'') → exec i s = .next u →
        State.sameBytesBut s u fun loc => s.regByte d loc ∨ State.covers (s.storeLoc p.loc) (atomBytes ty) loc ∨ s.repByte loc ∨
          s.reportByte loc ∨ s.staleByte loc ∨ s'.movedByte [p] loc) ∧
  (∀ (g : Guard) (t : Ty) (d a b c : SReg) (last : BitVec 1) (s u : State), Mem.wf s.mem = true →
    let i : Instr := .amoFaddOrd g t d a b c last
    let ty : Ty := if t = .dflt then .f64 else t
    let v := s.acquireTokens i
    s.issues i (State.whole g s) = true → v.core.amoBad = false → exec i s = .next u →
      (∀ old, v.core.amo = some old → State.sameBytesBut s u fun loc => s.regByte d loc ∨ s.repByte loc) ∧
      ∀ p s' w old, v.core.amo = none → v.atomPlace (v.reg a) (atomBytes ty) true = .ok (p, s') →
        (let o := s'.orderedArrive { loc := p.loc, q := (s'.reg c).setWidth 32, last := (last == 1), port := s'.corePort p, core := s'.cur
                                     op := 9, ty := ty, n := atomBytes ty, data := s'.reg b }
         o = .applied old w ∨ o = .held w) →
        State.sameBytesBut s u fun loc => s.regByte d loc ∨ State.covers p.loc (atomBytes ty) loc ∨ s.repByte loc) ∧
  (∀ (i : Instr) (g : Guard) (t : Ty) (a b c : SReg) (last : BitVec 1),
    (i = .redAdd g t a b ∨ i = .redMin g t a b ∨ i = .redMax g t a b ∨ i = .redAddOrd g t a b c last ∨ i = .redMinOrd g t a b c last ∨
      i = .redMaxOrd g t a b c last) →
    ∀ (s u : State) (loc : Nat), Mem.wf s.mem = true → s.issues i (State.whole g s) = true →
      let v := s.acquireTokens i
      redCheck v (v.reg a) (atomBytes t) = .ok loc → exec i s = .next u → State.sameBytesBut s u s.repByte) ∧
  ∀ (g : Guard) (t : Ty) (a : SReg) (b : OpB) (c : SReg) (s u : State), Mem.wf s.mem = true →
    s.issues (.st g t a b c) (State.whole g s) = true →
    let v := s.acquireTokens (.st g t a b c)
    (v.reg a + v.opB b).toNat % memBytes t = 0 → State.isRemote (v.reg a + v.opB b) = true →
      exec (.st g t a b c) s = .next u → State.sameBytesBut s u s.repByte

/-! ## The whole machine -/

/-- 01_encoding R18-R21, R30, 09_execution R243: on the turn of a core that stands alone and may issue, with no repetition
active and no asynchronous trap due, a step is the instruction the bytes at its PC decode to; before it, the turn's cycles have passed, a
BSTAT that core still had has ended, and what the core does is counted to its own tenant (22_host_compat R381). -/
def Obligations.StepRunsTheDecodedInstruction : Prop :=
  ∀ (s : State) (c dt : Nat) (ts : List Turn) (bs rest : List Byte) (i : Instr) (u : State),
    s.on = true → s.sched = { dt := dt, who := .core c } :: ts →
    let s' : State := ({ (({ s with sched := ts } : State).pass dt) with cur := c, acting := none } : State).dropBstats fun x => x == c
    s'.core.chained = false → s'.killedNow = false → s'.asyncNow = false → s'.mayIssue = true →
    Rep.active (s'.word Ws.repState) = false → s'.core.pc.toNat % 4 = 0 → s'.fetchBytes s'.core.pc = .ok (bs, u) →
    decode bs = .ok (i, rest) → i ≠ .fill →
      step s = exec i (u.setPc s'.core.pc)

/-- 01_encoding R18-R31: words written out from the encodings of the spec, and the instructions they are. -/
def Obligations.WordsDecode : Prop :=
  decodeTableWord 32 0x00000003 = some (.fill) ∧
  decodeTableWord 64 0x0000000008102600 = some (.add ⟨3, false⟩ .dflt 1 2 (.reg 4)) ∧
  decodeTableWord 64 0x8001B84000206004 = some (.div ⟨0, false⟩ .z32 3 4 (.imm16 0x8001)) ∧
  decodeTableWord 64 0x04CC40A00040E008 = some (.bext ⟨0, false⟩ .z64 7 8 12 19) ∧
  decodeTableWord 64 0x000020801448C00C = some (.cmpGt ⟨0, false⟩ .s64 6 9 (.reg 10)) ∧
  decodeTableWord 96 0xF0F0F0F0000080C000004011 = some (.pset ⟨0, false⟩ 2 0xF0F0F0F0) ∧
  decodeTableWord 128 0x0123456789ABCDEF0000800000022016 = some (.movi ⟨0, false⟩ 17 (.imm64 0x0123456789ABCDEF)) ∧
  decodeTableWord 64 0x010280000000A018 = some (.qcap ⟨0, false⟩ 5 (.imm16 0x0102)) ∧
  decodeTableWord 64 0x000500200048001C = some (.mts ⟨0, false⟩ 9 5) ∧
  decodeTableWord 64 0x0000000063180020 = some (.pushm ⟨0, false⟩ (.vector 3 17)) ∧
  decodeTableWord 64 0x0000100000102024 = some (.sext ⟨0, false⟩ .s16 1 2) ∧
  decodeTableWord 64 0x0000586006102040 = some (.fdiv ⟨0, false⟩ .f32 1 2 3) ∧
  decodeTableWord 64 0xFFF0000000000060 = some (.br ⟨0, false⟩ (.off16 0xFFF0)) ∧
  decodeTableWord 64 0x0000504061050080 = some (.vmul ⟨0, false⟩ .bf16 8 0 16) ∧
  decodeTableWord 64 0x0003B0C00114209C = some (.vshr ⟨0, false⟩ .z16 1 2 (.imm16 3)) ∧
  decodeTableWord 64 0x001F0860011420B0 = some (.vbcast ⟨0, false⟩ .s8 1 2 31) ∧
  decodeTableWord 64 0xFFF8880000206100 = some (.ld ⟨0, false⟩ .s8 3 4 (.imm16 0xFFF8)) ∧
  decodeTableWord 128 0x0000000000001D050000000206102142 = some (.copy ⟨0, false⟩ 1 2 3 4 5 1 6 1) ∧
  decodeTableWord 64 0x800600200019E180 = some (.mshf ⟨0, false⟩ 15 3 6 2) ∧
  decodeTableWord 128 0x000000000000004500000000001021C2 = some (.launch 1 2 5 1)

/-- 01_encoding R18-R31: decoding an encoded well-formed instruction gives it back with the bytes after it. -/
def Obligations.DecodeInvertsEncode : Prop :=
  ∀ (i : Instr) (rest : List Byte), i.wf = true → i.isEvent = false → decode (encode i ++ rest) = .ok (i, rest)

/-- 05_memory_isa R136, R138 (storage as the model keeps it, assumption log 2): every step keeps storage in its canonical form. -/
def Obligations.StepKeepsStorageCanonical : Prop :=
  ∀ s t : State, Mem.wf s.mem = true → step s = .next t → Mem.wf t.mem = true

/-- 01_encoding R30, 22_host_compat R380, R386: on a device that is on, every instruction and every event answers a next
state; without power, or after the boot ROM halted it, everything but a device reset stops by its name. -/
def Obligations.EveryInstructionGoesOn : Prop :=
  (∀ (i : Instr) (s : State), s.on = true → ∃ t, exec i s = .next t) ∧
  (∀ (i : Instr) (s : State), i ≠ .deviceReset → s.power = false → exec i s = .fault .powerOff) ∧
  (∀ (i : Instr) (s : State), i ≠ .deviceReset → s.power = true → s.boot = .halted → exec i s = .fault .bootHalted) ∧
  (∀ s : State, ∃ t, exec .deviceReset s = .next t)

/-- 18_protection R334, 05_memory_isa R136: a data access of a core reaches global memory only in the windows of its
context's owner, unless the memory refuses it, and dome memory only in banks of its own tenant. -/
def Obligations.AccessesStayWithTheOwner : Prop :=
  ∀ (s s' : State) (acc : Acc) (va : Word) (p : Place), s.place acc va = some (p, s') →
    (isHbm p.loc = true → p.outside = false →
      s'.ownerWindow s.core.tenant (s'.ctxKeep s.core.tenant s.ctx) (p.loc / 65536 * 65536) (p.loc / 65536 * 65536 + 65536) = true) ∧
    (isDome p.loc = true → s.bankTenant (locDome p.loc) (locBank p.loc) = some s.core.tenant)

/-- 02_scalar R79: what the retirement of a body instruction does to REP_STATE and the PC: the next instruction of the
body, the next iteration from REP_BASE, or the end. -/
def Obligations.RepetitionAdvances : Prop :=
  ∀ (s : State) (size : Nat), Mem.wf s.mem = true →
    let r := s.word Ws.repState
    let u := s.retire size
    let next := s.core.pc + BitVec.ofNat 64 size
    (Rep.active r = false → u.word Ws.repState = r ∧ u.core.pc = next) ∧
    (Rep.active r = true → Rep.index r < Rep.lenM1 r →
      Rep.active (u.word Ws.repState) = true ∧ Rep.index (u.word Ws.repState) = Rep.index r + 1 ∧
      Rep.kmod (u.word Ws.repState) = Rep.kmod r ∧ Rep.remain (u.word Ws.repState) = Rep.remain r ∧ u.core.pc = next) ∧
    (Rep.active r = true → Rep.index r = Rep.lenM1 r → Rep.remain r ≠ 1 →
      Rep.active (u.word Ws.repState) = true ∧ Rep.index (u.word Ws.repState) = 0 ∧
      Rep.kmod (u.word Ws.repState) = (Rep.kmod r + 1) % 32 ∧ Rep.remain (u.word Ws.repState) = Rep.remain r - 1 ∧
      Rep.lenM1 (u.word Ws.repState) = Rep.lenM1 r ∧ Rep.stride (u.word Ws.repState) = Rep.stride r ∧
      Rep.mask (u.word Ws.repState) = Rep.mask r ∧ u.core.pc = s.word Ws.repBase) ∧
    (Rep.active r = true → Rep.index r = Rep.lenM1 r → Rep.remain r = 1 → u.word Ws.repState = 0 ∧ u.core.pc = next)

/-- 07_system_isa R199-R201, 18_protection R339: a return from a call just entered leads to the address after the GCALL, in the
caller's workspace, level and depth; when the frame area lies apart from the workspace entered. -/
def Obligations.GateReturnGoesBack : Prop :=
  ∀ (s : State) (gate : BitVec 12) (abort : Bool) (xs : List Word) (scrub : Nat), s.gateCheck gate.toNat = none → Mem.wf s.mem = true →
    State.fixWp s.core.wp = s.core.wp → s.fixPriv s.core.priv = s.core.priv →
    let kres := (s.core.kres.extractLsb' 0 16).toNat
    let entered := ((s.gateWord gate.toNat 1).extractLsb' 0 14).toNat
    kres + 256 ≤ entered ∨ entered + 1536 ≤ kres →
    let u := s.gateEnter gate.toNat (s.gateWord gate.toNat 1) (s.gateWord gate.toNat 2)
    let counts := State.frameCounts (u.frame s.core.gdepth.toNat 7)
    u.core.gdepth = s.core.gdepth + 1 ∧ u.core.priv = 1 ∧ u.core.wp.toNat = entered ∧
      (u.gateLeave counts abort xs scrub).1 = s.core.pc + 8 ∧
      (u.gateLeave counts abort xs scrub).2.core.wp = s.core.wp ∧
      (u.gateLeave counts abort xs scrub).2.core.priv = s.core.priv ∧
      (u.gateLeave counts abort xs scrub).2.core.gdepth = s.core.gdepth
end

