-- ==== Sys2Proof/Laws/Run.lean ====
section
/-!
SUPPORT. What running an instruction answers: one lemma for each way an instruction can end (01_encoding R30).
-/

namespace Sys2Proof.Machine

open Sys2Proof

theorem powered_on {s : State} (h : s.on = true) (o : Out) : powered s o = o := by
  simp only [State.on, Bool.and_eq_true, bne_iff_ne, ne_eq] at h
  simp [powered, h.1, h.2]

theorem event_on {s : State} (h : s.on = true) (f : State → State) : event f s = .next (f s) := powered_on h _

/-- What `State.clear` says of the parts of an instruction's run. -/
theorem clear_iff {s : State} {i : Instr} : s.clear i = true ↔
    s.on = true ∧ s.preTrap i = none ∧ s.pendingToken i = none ∧ s.softGuard i = none ∧ s.softHit i = none := by
  simp [State.clear, and_assoc]

/-- An instruction that is clear runs its body, or retires when its guard is off. -/
theorem instrIf_clear {i : Instr} {s : State} (h : s.clear i = true) (g : Bool) (body : State → Res) :
    instrIf i g body s = .next (if g then ((body (s.acquireTokens i)).wiped i).next i.size
      else (s.count 6 1).retire i.size) := by
  obtain ⟨hon, hp, ht, hg, hs⟩ := clear_iff.1 h
  simp [instrIf, powered_on hon, hp, ht, hg, hs]

/-- An instruction whose checks before the guard fail raises their trap. -/
theorem instrIf_pre {i : Instr} {s : State} {t : Trap} (hon : s.on = true) (h : s.preTrap i = some t) (g : Bool) (body : State → Res) :
    instrIf i g body s = .next (s.raiseTrap t) := by simp [instrIf, powered_on hon, h]

variable {i : Instr} {s t : State} {g : Bool} {body : State → Res}

theorem instrIf_done (h : s.issues i g = true) (hb : body (s.acquireTokens i) = .done t) : instrIf i g body s = .next (t.completed i) := by
  simp only [State.issues, Bool.and_eq_true] at h
  simp [instrIf_clear h.1, h.2, hb, Res.wiped, Res.next, State.completed]

theorem instrIf_jump {x : Word} (h : s.issues i g = true) (hb : body (s.acquireTokens i) = .jump x t) :
    instrIf i g body s = .next (t.retireTo x) := by
  simp only [State.issues, Bool.and_eq_true] at h
  simp [instrIf_clear h.1, h.2, hb, Res.wiped, Res.next]

theorem instrIf_goto {x : Word} (h : s.issues i g = true) (hb : body (s.acquireTokens i) = .goto x t) :
    instrIf i g body s = .next (t.retireAt x) := by
  simp only [State.issues, Bool.and_eq_true] at h
  simp [instrIf_clear h.1, h.2, hb, Res.wiped, Res.next]

theorem instrIf_asIs (h : s.issues i g = true) (hb : body (s.acquireTokens i) = .asIs t) : instrIf i g body s = .next t := by
  simp only [State.issues, Bool.and_eq_true] at h
  simp [instrIf_clear h.1, h.2, hb, Res.wiped, Res.next]

theorem instrIf_trap {x : Trap} (h : s.issues i g = true) (hb : body (s.acquireTokens i) = .trap x t) :
    instrIf i g body s = .next (t.raiseTrap x) := by
  simp only [State.issues, Bool.and_eq_true] at h
  simp [instrIf_clear h.1, h.2, hb, Res.wiped, Res.next]

theorem instrIf_wait {w : WaitCond} (h : s.issues i g = true) (hb : body (s.acquireTokens i) = .wait w t) :
    instrIf i g body s = .next (t.waitOn w) := by
  simp only [State.issues, Bool.and_eq_true] at h
  simp [instrIf_clear h.1, h.2, hb, Res.wiped, Res.next]

/-- An instruction whose guard is off counts and retires (01_encoding R29). -/
theorem instrIf_off {i : Instr} {g : Bool} {body : State → Res} {s : State} (hc : s.clear i = true) (hg : g = false) :
    instrIf i g body s = .next ((s.count 6 1).retire i.size) := by
  subst hg
  exact instrIf_clear hc _ _

theorem instr_off {i : Instr} {g : Guard} {body : State → Res} {s : State} (hc : s.clear i = true) (hg : s.guardLane g 0 = false) :
    instr i g body s = .next ((s.count 6 1).retire i.size) := instrIf_off hc hg

/-- A guarded instruction whose body is a plain function of the state completes with it. -/
theorem completes_instr {i : Instr} {g : Guard} {f : State → State} {run : State → Out} (body : State → Res)
    (hrun : ∀ s, run s = instr i g body s) (hb : ∀ s, body s = .done (f s)) (hexec : ∀ s, exec i s = run s) :
    Completes i (State.whole g) f := fun s h => by
  rw [hexec, hrun]
  exact instrIf_done (g := s.guardLane g 0) h (hb _)

/-- The same of an instruction without a whole guard. -/
theorem completes_instrAll {i : Instr} {f : State → State} {run : State → Out} (body : State → Res)
    (hrun : ∀ s, run s = instrAll i body s) (hb : ∀ s, body s = .done (f s)) (hexec : ∀ s, exec i s = run s) :
    Completes i State.always f := fun s h => by
  rw [hexec, hrun]
  exact instrIf_done (g := true) h (hb _)

end Sys2Proof.Machine
end

