-- ==== Sys2Proof/Laws/Memory.lean ====
section
/-!
SUPPORT. Memory keeps its canonical form, and a read after a write gives the value written.
-/

namespace Sys2Proof.Machine

open Sys2Proof

namespace Mem

/-- All listed addresses of a memory are above `a`. -/
def above (a : Nat) (m : Mem) : Prop := ∀ c ∈ m, a < c.1

theorem wf_cons {k : Nat} {v : Byte} {m : Mem} : wf ((k, v) :: m) = true ↔ v ≠ blank ∧ above k m ∧ wf m = true := by
  induction m generalizing k v with
  | nil => simp [wf, above]
  | cons c m ih =>
    obtain ⟨k', v'⟩ := c
    simp only [wf, Bool.and_eq_true, bne_iff_ne, ne_eq, decide_eq_true_eq, above, List.mem_cons]
    constructor
    · rintro ⟨⟨hv, hk⟩, hm⟩
      refine ⟨hv, ?_, hm⟩
      rintro c (rfl | hc)
      · exact hk
      · exact lt_trans hk ((ih.1 hm).2.1 c hc)
    · rintro ⟨hv, ha, hm⟩
      exact ⟨⟨hv, ha (k', v') (Or.inl rfl)⟩, hm⟩

theorem wf_nil : wf [] = true := rfl

theorem above_mono {a b : Nat} {m : Mem} (h : a ≤ b) (hm : above b m) : above a m := fun c hc => lt_of_le_of_lt h (hm c hc)

theorem above_write {k a : Nat} {b : Byte} {m : Mem} (h : k < a) (hm : above k m) : above k (write m a b) := by
  induction m with
  | nil =>
    unfold write
    split
    · intro c hc; simp at hc
    · intro c hc; simp at hc; simp [hc, h]
  | cons c m ih =>
    obtain ⟨k', v'⟩ := c
    have hk' : k < k' := hm (k', v') (by simp)
    have hm' : above k m := fun c hc => hm c (by simp [hc])
    unfold write
    split
    · split
      · exact hm
      · intro c hc
        rcases List.mem_cons.1 hc with rfl | hc
        · exact h
        · exact hm c hc
    · split
      · split
        · exact hm'
        · intro c hc
          rcases List.mem_cons.1 hc with rfl | hc
          · exact h
          · exact hm' c hc
      · intro c hc
        rcases List.mem_cons.1 hc with rfl | hc
        · exact hk'
        · exact ih hm' c hc

/-- A write keeps the canonical form. -/
theorem wf_write {m : Mem} (h : wf m = true) (a : Nat) (b : Byte) : wf (write m a b) = true := by
  induction m with
  | nil =>
    unfold write
    split
    · rfl
    · next hb => exact wf_cons.2 ⟨hb, by intro c hc; simp at hc, rfl⟩
  | cons c m ih =>
    obtain ⟨k, v⟩ := c
    obtain ⟨hv, ha, hm⟩ := wf_cons.1 h
    unfold write
    split
    · next hlt =>
      split
      · exact h
      · next hb =>
        refine wf_cons.2 ⟨hb, ?_, h⟩
        intro c hc
        rcases List.mem_cons.1 hc with rfl | hc
        · exact hlt
        · exact lt_trans hlt (ha c hc)
    · next hlt =>
      split
      · next he =>
        split
        · exact hm
        · next hb => subst he; exact wf_cons.2 ⟨hb, ha, hm⟩
      · next hne => exact wf_cons.2 ⟨hv, above_write (by omega) ha, ih hm⟩

/-- Writing a list of bytes keeps the canonical form. -/
theorem wf_writeBytes {m : Mem} (h : wf m = true) (a : Nat) (bs : List Byte) : wf (writeBytes m a bs) = true := by
  induction bs generalizing m a with
  | nil => exact h
  | cons b bs ih => exact ih (wf_write h a b) (a + 1)

/-- A store keeps the canonical form. -/
theorem wf_store {w : Nat} {m : Mem} (h : wf m = true) (a n : Nat) (x : BitVec w) : wf (store m a n x) = true :=
  wf_writeBytes h a _

theorem wf_filter {m : Mem} (h : wf m = true) (p : Host.Cell → Bool) : wf (m.filter p) = true := by
  induction m with
  | nil => rfl
  | cons c m ih =>
    obtain ⟨k, v⟩ := c
    obtain ⟨hv, ha, hm⟩ := wf_cons.1 h
    simp only [List.filter_cons]
    split
    · exact wf_cons.2 ⟨hv, fun c hc => ha c (List.mem_of_mem_filter hc), ih hm⟩
    · exact ih hm

/-- Clearing a range keeps the canonical form. -/
theorem wf_clear {m : Mem} (h : wf m = true) (a n : Nat) : wf (clear m a n) = true := wf_filter h _

theorem read_above {m : Mem} {a : Nat} (h : above a m) : read m a = blank := by
  cases m with
  | nil => rfl
  | cons c m =>
    obtain ⟨k, v⟩ := c
    have hk : a < k := h (k, v) (by simp)
    simp [read, hk, Nat.ne_of_lt hk]

/-- A read after a write to the same address gives the byte written. -/
theorem read_write_same {m : Mem} (h : wf m = true) (a : Nat) (b : Byte) : read (write m a b) a = b := by
  induction m with
  | nil =>
    unfold write
    split
    · next hb => simp [read, hb]
    · simp [read]
  | cons c m ih =>
    obtain ⟨k, v⟩ := c
    obtain ⟨hv, ha, hm⟩ := wf_cons.1 h
    unfold write
    split
    · next hlt =>
      split
      · next hb => simp [read, Nat.ne_of_lt hlt, hlt, hb]
      · simp [read]
    · next hlt =>
      split
      · next he =>
        split
        · next hb => rw [read_above (he ▸ ha), hb]
        · simp [read]
      · next hne => simp [read, hne, hlt, ih hm]

/-- A write leaves every other address alone. -/
theorem read_write_other {m : Mem} (h : wf m = true) {a a' : Nat} (hne : a' ≠ a) (b : Byte) : read (write m a b) a' = read m a' := by
  induction m with
  | nil =>
    unfold write
    split
    · rfl
    · simp [read, hne]
  | cons c m ih =>
    obtain ⟨k, v⟩ := c
    obtain ⟨hv, ha, hm⟩ := wf_cons.1 h
    unfold write
    split
    · next hlt =>
      split
      · rfl
      · simp only [read, hne, if_false]
        split
        · next h1 =>
          have : a' ≠ k := by omega
          have : a' < k := by omega
          simp [*]
        · rfl
    · next hlt =>
      split
      · next he =>
        have hk : a' ≠ k := by omega
        split
        · simp only [read, hk, if_false]
          split
          · next h1 => exact read_above (above_mono (by omega) ha)
          · rfl
        · simp [read, hne, ← he]
      · next hka =>
        simp only [read]
        split
        · rfl
        · split
          · rfl
          · exact ih hm

/-- A read outside the bytes written gives what it gave before. -/
theorem read_writeBytes_other {m : Mem} (h : wf m = true) {a a' : Nat} (bs : List Byte) (hout : a' < a ∨ a + bs.length ≤ a') :
    read (writeBytes m a bs) a' = read m a' := by
  induction bs generalizing m a with
  | nil => rfl
  | cons b bs ih =>
    simp only [writeBytes, List.length_cons] at *
    rw [ih (wf_write h a b) (by omega), read_write_other h (by omega)]

/-- A read of a byte written gives it. -/
theorem read_writeBytes {m : Mem} (h : wf m = true) {a i : Nat} (bs : List Byte) (hi : i < bs.length) :
    read (writeBytes m a bs) (a + i) = bs[i] := by
  induction bs generalizing m a i with
  | nil => simp at hi
  | cons b bs ih =>
    simp only [writeBytes]
    cases i with
    | zero => rw [read_writeBytes_other (wf_write h a b) bs (by omega)]; simp [read_write_same h]
    | succ i =>
      have := ih (m := write m a b) (a := a + 1) (i := i) (wf_write h a b) (by simpa using hi)
      simpa [Nat.add_assoc, Nat.add_comm 1 i] using this

/-- A read outside the bytes stored gives what it gave before. -/
theorem read_store_other {w : Nat} {m : Mem} (h : wf m = true) {a a' : Nat} (n : Nat) (x : BitVec w) (hout : a' < a ∨ a + n ≤ a') :
    read (store m a n x) a' = read m a' :=
  read_writeBytes_other h _ (by simpa [toBytes] using hout)

/-- The bytes read back after a store are the bytes stored. -/
theorem bytes_store_same {w : Nat} {m : Mem} (h : wf m = true) (a n : Nat) (x : BitVec w) : bytes (store m a n x) a n = toBytes n x := by
  apply List.ext_getElem
  · simp [bytes, toBytes]
  · intro i h1 h2
    simp only [bytes, List.getElem_map, List.getElem_range, store]
    rw [read_writeBytes h]

/-- A load after a store of as many bytes to the same address reads the bytes stored. -/
theorem load_store_same {w v : Nat} {m : Mem} (h : wf m = true) (a n : Nat) (x : BitVec w) :
    load (store m a n x) v a n = ofBytes v (toBytes n x) := by
  rw [load, bytes_store_same h]

/-- A load that meets no byte stored reads what it read before. -/
theorem load_store_other {w v : Nat} {m : Mem} (h : wf m = true) {a a' n n' : Nat} (x : BitVec w) (hout : a' + n' ≤ a ∨ a + n ≤ a') :
    load (store m a n x) v a' n' = load m v a' n' := by
  unfold load bytes
  congr 1
  apply List.map_congr_left
  intro i hi
  have := List.mem_range.1 hi
  exact read_store_other h n x (by omega)

end Mem

end Sys2Proof.Machine
end

