-- ==== Sys2Proof/Laws/State.lean ====
section
/-!
SUPPORT. The fields of a state after each named update.
-/

namespace Sys2Proof.Machine.State

open Sys2Proof

/-! ## setCoreAt -/

@[simp] theorem setCoreAt_mem (s : State) (c : Nat) (k : Core) : (s.setCoreAt c k).mem = s.mem := rfl
@[simp] theorem setCoreAt_cores (s : State) (c : Nat) (k : Core) : (s.setCoreAt c k).cores = Tab.put s.cores c k := rfl
@[simp] theorem setCoreAt_spires (s : State) (c : Nat) (k : Core) : (s.setCoreAt c k).spires = s.spires := rfl
@[simp] theorem setCoreAt_domes (s : State) (c : Nat) (k : Core) : (s.setCoreAt c k).domes = s.domes := rfl
@[simp] theorem setCoreAt_slices (s : State) (c : Nat) (k : Core) : (s.setCoreAt c k).slices = s.slices := rfl
@[simp] theorem setCoreAt_lines (s : State) (c : Nat) (k : Core) : (s.setCoreAt c k).lines = s.lines := rfl
@[simp] theorem setCoreAt_split (s : State) (c : Nat) (k : Core) : (s.setCoreAt c k).split = s.split := rfl
@[simp] theorem setCoreAt_poison (s : State) (c : Nat) (k : Core) : (s.setCoreAt c k).poison = s.poison := rfl
@[simp] theorem setCoreAt_hbm (s : State) (c : Nat) (k : Core) : (s.setCoreAt c k).hbm = s.hbm := rfl
@[simp] theorem setCoreAt_packets (s : State) (c : Nat) (k : Core) : (s.setCoreAt c k).packets = s.packets := rfl
@[simp] theorem setCoreAt_acks (s : State) (c : Nat) (k : Core) : (s.setCoreAt c k).acks = s.acks := rfl
@[simp] theorem setCoreAt_landings (s : State) (c : Nat) (k : Core) : (s.setCoreAt c k).landings = s.landings := rfl
@[simp] theorem setCoreAt_fifos (s : State) (c : Nat) (k : Core) : (s.setCoreAt c k).fifos = s.fifos := rfl
@[simp] theorem setCoreAt_lstat (s : State) (c : Nat) (k : Core) : (s.setCoreAt c k).lstat = s.lstat := rfl
@[simp] theorem setCoreAt_regions (s : State) (c : Nat) (k : Core) : (s.setCoreAt c k).regions = s.regions := rfl
@[simp] theorem setCoreAt_regNext (s : State) (c : Nat) (k : Core) : (s.setCoreAt c k).regNext = s.regNext := rfl
@[simp] theorem setCoreAt_seqNext (s : State) (c : Nat) (k : Core) : (s.setCoreAt c k).seqNext = s.seqNext := rfl
@[simp] theorem setCoreAt_vtime (s : State) (c : Nat) (k : Core) : (s.setCoreAt c k).vtime = s.vtime := rfl
@[simp] theorem setCoreAt_slotTable (s : State) (c : Nat) (k : Core) : (s.setCoreAt c k).slotTable = s.slotTable := rfl
@[simp] theorem setCoreAt_armed (s : State) (c : Nat) (k : Core) : (s.setCoreAt c k).armed = s.armed := rfl
@[simp] theorem setCoreAt_saved (s : State) (c : Nat) (k : Core) : (s.setCoreAt c k).saved = s.saved := rfl
@[simp] theorem setCoreAt_semaphores (s : State) (c : Nat) (k : Core) : (s.setCoreAt c k).semaphores = s.semaphores := rfl
@[simp] theorem setCoreAt_lastTie (s : State) (c : Nat) (k : Core) : (s.setCoreAt c k).lastTie = s.lastTie := rfl
@[simp] theorem setCoreAt_msix (s : State) (c : Nat) (k : Core) : (s.setCoreAt c k).msix = s.msix := rfl
@[simp] theorem setCoreAt_counters (s : State) (c : Nat) (k : Core) : (s.setCoreAt c k).counters = s.counters := rfl
@[simp] theorem setCoreAt_trace (s : State) (c : Nat) (k : Core) : (s.setCoreAt c k).trace = s.trace := rfl
@[simp] theorem setCoreAt_replies (s : State) (c : Nat) (k : Core) : (s.setCoreAt c k).replies = s.replies := rfl
@[simp] theorem setCoreAt_commands (s : State) (c : Nat) (k : Core) : (s.setCoreAt c k).commands = s.commands := rfl
@[simp] theorem setCoreAt_rejected (s : State) (c : Nat) (k : Core) : (s.setCoreAt c k).rejected = s.rejected := rfl
@[simp] theorem setCoreAt_tenants (s : State) (c : Nat) (k : Core) : (s.setCoreAt c k).tenants = s.tenants := rfl
@[simp] theorem setCoreAt_keepTable (s : State) (c : Nat) (k : Core) : (s.setCoreAt c k).keepTable = s.keepTable := rfl
@[simp] theorem setCoreAt_masks (s : State) (c : Nat) (k : Core) : (s.setCoreAt c k).masks = s.masks := rfl
@[simp] theorem setCoreAt_maskGrants (s : State) (c : Nat) (k : Core) : (s.setCoreAt c k).maskGrants = s.maskGrants := rfl
@[simp] theorem setCoreAt_sysctl (s : State) (c : Nat) (k : Core) : (s.setCoreAt c k).sysctl = s.sysctl := rfl
@[simp] theorem setCoreAt_config (s : State) (c : Nat) (k : Core) : (s.setCoreAt c k).config = s.config := rfl
@[simp] theorem setCoreAt_flashVersion (s : State) (c : Nat) (k : Core) : (s.setCoreAt c k).flashVersion = s.flashVersion := rfl
@[simp] theorem setCoreAt_ownerHash (s : State) (c : Nat) (k : Core) : (s.setCoreAt c k).ownerHash = s.ownerHash := rfl
@[simp] theorem setCoreAt_faultQueue (s : State) (c : Nat) (k : Core) : (s.setCoreAt c k).faultQueue = s.faultQueue := rfl
@[simp] theorem setCoreAt_badPages (s : State) (c : Nat) (k : Core) : (s.setCoreAt c k).badPages = s.badPages := rfl
@[simp] theorem setCoreAt_badListOk (s : State) (c : Nat) (k : Core) : (s.setCoreAt c k).badListOk = s.badListOk := rfl
@[simp] theorem setCoreAt_excluded (s : State) (c : Nat) (k : Core) : (s.setCoreAt c k).excluded = s.excluded := rfl
@[simp] theorem setCoreAt_mcLog (s : State) (c : Nat) (k : Core) : (s.setCoreAt c k).mcLog = s.mcLog := rfl
@[simp] theorem setCoreAt_objects (s : State) (c : Nat) (k : Core) : (s.setCoreAt c k).objects = s.objects := rfl
@[simp] theorem setCoreAt_globalTs (s : State) (c : Nat) (k : Core) : (s.setCoreAt c k).globalTs = s.globalTs := rfl
@[simp] theorem setCoreAt_acting (s : State) (c : Nat) (k : Core) : (s.setCoreAt c k).acting = s.acting := rfl
@[simp] theorem setCoreAt_evals (s : State) (c : Nat) (k : Core) : (s.setCoreAt c k).evals = s.evals := rfl
@[simp] theorem setCoreAt_bstats (s : State) (c : Nat) (k : Core) : (s.setCoreAt c k).bstats = s.bstats := rfl
@[simp] theorem setCoreAt_boot (s : State) (c : Nat) (k : Core) : (s.setCoreAt c k).boot = s.boot := rfl
@[simp] theorem setCoreAt_power (s : State) (c : Nat) (k : Core) : (s.setCoreAt c k).power = s.power := rfl
@[simp] theorem setCoreAt_cycle (s : State) (c : Nat) (k : Core) : (s.setCoreAt c k).cycle = s.cycle := rfl
@[simp] theorem setCoreAt_sched (s : State) (c : Nat) (k : Core) : (s.setCoreAt c k).sched = s.sched := rfl
@[simp] theorem setCoreAt_cur (s : State) (c : Nat) (k : Core) : (s.setCoreAt c k).cur = s.cur := rfl
@[simp] theorem setCoreAt_freeCtr (s : State) (c : Nat) (k : Core) : (s.setCoreAt c k).freeCtr = s.freeCtr := rfl

/-! ## setCore -/

@[simp] theorem setCore_mem (s : State) (k : Core) : (s.setCore k).mem = s.mem := rfl
@[simp] theorem setCore_cores (s : State) (k : Core) : (s.setCore k).cores = Tab.put s.cores s.cur k := rfl
@[simp] theorem setCore_spires (s : State) (k : Core) : (s.setCore k).spires = s.spires := rfl
@[simp] theorem setCore_domes (s : State) (k : Core) : (s.setCore k).domes = s.domes := rfl
@[simp] theorem setCore_slices (s : State) (k : Core) : (s.setCore k).slices = s.slices := rfl
@[simp] theorem setCore_lines (s : State) (k : Core) : (s.setCore k).lines = s.lines := rfl
@[simp] theorem setCore_split (s : State) (k : Core) : (s.setCore k).split = s.split := rfl
@[simp] theorem setCore_poison (s : State) (k : Core) : (s.setCore k).poison = s.poison := rfl
@[simp] theorem setCore_hbm (s : State) (k : Core) : (s.setCore k).hbm = s.hbm := rfl
@[simp] theorem setCore_packets (s : State) (k : Core) : (s.setCore k).packets = s.packets := rfl
@[simp] theorem setCore_acks (s : State) (k : Core) : (s.setCore k).acks = s.acks := rfl
@[simp] theorem setCore_landings (s : State) (k : Core) : (s.setCore k).landings = s.landings := rfl
@[simp] theorem setCore_fifos (s : State) (k : Core) : (s.setCore k).fifos = s.fifos := rfl
@[simp] theorem setCore_lstat (s : State) (k : Core) : (s.setCore k).lstat = s.lstat := rfl
@[simp] theorem setCore_regions (s : State) (k : Core) : (s.setCore k).regions = s.regions := rfl
@[simp] theorem setCore_regNext (s : State) (k : Core) : (s.setCore k).regNext = s.regNext := rfl
@[simp] theorem setCore_seqNext (s : State) (k : Core) : (s.setCore k).seqNext = s.seqNext := rfl
@[simp] theorem setCore_vtime (s : State) (k : Core) : (s.setCore k).vtime = s.vtime := rfl
@[simp] theorem setCore_slotTable (s : State) (k : Core) : (s.setCore k).slotTable = s.slotTable := rfl
@[simp] theorem setCore_armed (s : State) (k : Core) : (s.setCore k).armed = s.armed := rfl
@[simp] theorem setCore_saved (s : State) (k : Core) : (s.setCore k).saved = s.saved := rfl
@[simp] theorem setCore_semaphores (s : State) (k : Core) : (s.setCore k).semaphores = s.semaphores := rfl
@[simp] theorem setCore_lastTie (s : State) (k : Core) : (s.setCore k).lastTie = s.lastTie := rfl
@[simp] theorem setCore_msix (s : State) (k : Core) : (s.setCore k).msix = s.msix := rfl
@[simp] theorem setCore_counters (s : State) (k : Core) : (s.setCore k).counters = s.counters := rfl
@[simp] theorem setCore_trace (s : State) (k : Core) : (s.setCore k).trace = s.trace := rfl
@[simp] theorem setCore_replies (s : State) (k : Core) : (s.setCore k).replies = s.replies := rfl
@[simp] theorem setCore_commands (s : State) (k : Core) : (s.setCore k).commands = s.commands := rfl
@[simp] theorem setCore_rejected (s : State) (k : Core) : (s.setCore k).rejected = s.rejected := rfl
@[simp] theorem setCore_tenants (s : State) (k : Core) : (s.setCore k).tenants = s.tenants := rfl
@[simp] theorem setCore_keepTable (s : State) (k : Core) : (s.setCore k).keepTable = s.keepTable := rfl
@[simp] theorem setCore_masks (s : State) (k : Core) : (s.setCore k).masks = s.masks := rfl
@[simp] theorem setCore_maskGrants (s : State) (k : Core) : (s.setCore k).maskGrants = s.maskGrants := rfl
@[simp] theorem setCore_sysctl (s : State) (k : Core) : (s.setCore k).sysctl = s.sysctl := rfl
@[simp] theorem setCore_config (s : State) (k : Core) : (s.setCore k).config = s.config := rfl
@[simp] theorem setCore_flashVersion (s : State) (k : Core) : (s.setCore k).flashVersion = s.flashVersion := rfl
@[simp] theorem setCore_ownerHash (s : State) (k : Core) : (s.setCore k).ownerHash = s.ownerHash := rfl
@[simp] theorem setCore_faultQueue (s : State) (k : Core) : (s.setCore k).faultQueue = s.faultQueue := rfl
@[simp] theorem setCore_badPages (s : State) (k : Core) : (s.setCore k).badPages = s.badPages := rfl
@[simp] theorem setCore_badListOk (s : State) (k : Core) : (s.setCore k).badListOk = s.badListOk := rfl
@[simp] theorem setCore_excluded (s : State) (k : Core) : (s.setCore k).excluded = s.excluded := rfl
@[simp] theorem setCore_mcLog (s : State) (k : Core) : (s.setCore k).mcLog = s.mcLog := rfl
@[simp] theorem setCore_objects (s : State) (k : Core) : (s.setCore k).objects = s.objects := rfl
@[simp] theorem setCore_globalTs (s : State) (k : Core) : (s.setCore k).globalTs = s.globalTs := rfl
@[simp] theorem setCore_acting (s : State) (k : Core) : (s.setCore k).acting = s.acting := rfl
@[simp] theorem setCore_evals (s : State) (k : Core) : (s.setCore k).evals = s.evals := rfl
@[simp] theorem setCore_bstats (s : State) (k : Core) : (s.setCore k).bstats = s.bstats := rfl
@[simp] theorem setCore_boot (s : State) (k : Core) : (s.setCore k).boot = s.boot := rfl
@[simp] theorem setCore_power (s : State) (k : Core) : (s.setCore k).power = s.power := rfl
@[simp] theorem setCore_cycle (s : State) (k : Core) : (s.setCore k).cycle = s.cycle := rfl
@[simp] theorem setCore_sched (s : State) (k : Core) : (s.setCore k).sched = s.sched := rfl
@[simp] theorem setCore_cur (s : State) (k : Core) : (s.setCore k).cur = s.cur := rfl
@[simp] theorem setCore_freeCtr (s : State) (k : Core) : (s.setCore k).freeCtr = s.freeCtr := rfl

/-! ## onCore -/

@[simp] theorem onCore_mem (s : State) (f : Core → Core) : (s.onCore f).mem = s.mem := rfl
@[simp] theorem onCore_cores (s : State) (f : Core → Core) : (s.onCore f).cores = Tab.put s.cores s.cur (f s.core) := rfl
@[simp] theorem onCore_spires (s : State) (f : Core → Core) : (s.onCore f).spires = s.spires := rfl
@[simp] theorem onCore_domes (s : State) (f : Core → Core) : (s.onCore f).domes = s.domes := rfl
@[simp] theorem onCore_slices (s : State) (f : Core → Core) : (s.onCore f).slices = s.slices := rfl
@[simp] theorem onCore_lines (s : State) (f : Core → Core) : (s.onCore f).lines = s.lines := rfl
@[simp] theorem onCore_split (s : State) (f : Core → Core) : (s.onCore f).split = s.split := rfl
@[simp] theorem onCore_poison (s : State) (f : Core → Core) : (s.onCore f).poison = s.poison := rfl
@[simp] theorem onCore_hbm (s : State) (f : Core → Core) : (s.onCore f).hbm = s.hbm := rfl
@[simp] theorem onCore_packets (s : State) (f : Core → Core) : (s.onCore f).packets = s.packets := rfl
@[simp] theorem onCore_acks (s : State) (f : Core → Core) : (s.onCore f).acks = s.acks := rfl
@[simp] theorem onCore_landings (s : State) (f : Core → Core) : (s.onCore f).landings = s.landings := rfl
@[simp] theorem onCore_fifos (s : State) (f : Core → Core) : (s.onCore f).fifos = s.fifos := rfl
@[simp] theorem onCore_lstat (s : State) (f : Core → Core) : (s.onCore f).lstat = s.lstat := rfl
@[simp] theorem onCore_regions (s : State) (f : Core → Core) : (s.onCore f).regions = s.regions := rfl
@[simp] theorem onCore_regNext (s : State) (f : Core → Core) : (s.onCore f).regNext = s.regNext := rfl
@[simp] theorem onCore_seqNext (s : State) (f : Core → Core) : (s.onCore f).seqNext = s.seqNext := rfl
@[simp] theorem onCore_vtime (s : State) (f : Core → Core) : (s.onCore f).vtime = s.vtime := rfl
@[simp] theorem onCore_slotTable (s : State) (f : Core → Core) : (s.onCore f).slotTable = s.slotTable := rfl
@[simp] theorem onCore_armed (s : State) (f : Core → Core) : (s.onCore f).armed = s.armed := rfl
@[simp] theorem onCore_saved (s : State) (f : Core → Core) : (s.onCore f).saved = s.saved := rfl
@[simp] theorem onCore_semaphores (s : State) (f : Core → Core) : (s.onCore f).semaphores = s.semaphores := rfl
@[simp] theorem onCore_lastTie (s : State) (f : Core → Core) : (s.onCore f).lastTie = s.lastTie := rfl
@[simp] theorem onCore_msix (s : State) (f : Core → Core) : (s.onCore f).msix = s.msix := rfl
@[simp] theorem onCore_counters (s : State) (f : Core → Core) : (s.onCore f).counters = s.counters := rfl
@[simp] theorem onCore_trace (s : State) (f : Core → Core) : (s.onCore f).trace = s.trace := rfl
@[simp] theorem onCore_replies (s : State) (f : Core → Core) : (s.onCore f).replies = s.replies := rfl
@[simp] theorem onCore_commands (s : State) (f : Core → Core) : (s.onCore f).commands = s.commands := rfl
@[simp] theorem onCore_rejected (s : State) (f : Core → Core) : (s.onCore f).rejected = s.rejected := rfl
@[simp] theorem onCore_tenants (s : State) (f : Core → Core) : (s.onCore f).tenants = s.tenants := rfl
@[simp] theorem onCore_keepTable (s : State) (f : Core → Core) : (s.onCore f).keepTable = s.keepTable := rfl
@[simp] theorem onCore_masks (s : State) (f : Core → Core) : (s.onCore f).masks = s.masks := rfl
@[simp] theorem onCore_maskGrants (s : State) (f : Core → Core) : (s.onCore f).maskGrants = s.maskGrants := rfl
@[simp] theorem onCore_sysctl (s : State) (f : Core → Core) : (s.onCore f).sysctl = s.sysctl := rfl
@[simp] theorem onCore_config (s : State) (f : Core → Core) : (s.onCore f).config = s.config := rfl
@[simp] theorem onCore_flashVersion (s : State) (f : Core → Core) : (s.onCore f).flashVersion = s.flashVersion := rfl
@[simp] theorem onCore_ownerHash (s : State) (f : Core → Core) : (s.onCore f).ownerHash = s.ownerHash := rfl
@[simp] theorem onCore_faultQueue (s : State) (f : Core → Core) : (s.onCore f).faultQueue = s.faultQueue := rfl
@[simp] theorem onCore_badPages (s : State) (f : Core → Core) : (s.onCore f).badPages = s.badPages := rfl
@[simp] theorem onCore_badListOk (s : State) (f : Core → Core) : (s.onCore f).badListOk = s.badListOk := rfl
@[simp] theorem onCore_excluded (s : State) (f : Core → Core) : (s.onCore f).excluded = s.excluded := rfl
@[simp] theorem onCore_mcLog (s : State) (f : Core → Core) : (s.onCore f).mcLog = s.mcLog := rfl
@[simp] theorem onCore_objects (s : State) (f : Core → Core) : (s.onCore f).objects = s.objects := rfl
@[simp] theorem onCore_globalTs (s : State) (f : Core → Core) : (s.onCore f).globalTs = s.globalTs := rfl
@[simp] theorem onCore_acting (s : State) (f : Core → Core) : (s.onCore f).acting = s.acting := rfl
@[simp] theorem onCore_evals (s : State) (f : Core → Core) : (s.onCore f).evals = s.evals := rfl
@[simp] theorem onCore_bstats (s : State) (f : Core → Core) : (s.onCore f).bstats = s.bstats := rfl
@[simp] theorem onCore_boot (s : State) (f : Core → Core) : (s.onCore f).boot = s.boot := rfl
@[simp] theorem onCore_power (s : State) (f : Core → Core) : (s.onCore f).power = s.power := rfl
@[simp] theorem onCore_cycle (s : State) (f : Core → Core) : (s.onCore f).cycle = s.cycle := rfl
@[simp] theorem onCore_sched (s : State) (f : Core → Core) : (s.onCore f).sched = s.sched := rfl
@[simp] theorem onCore_cur (s : State) (f : Core → Core) : (s.onCore f).cur = s.cur := rfl
@[simp] theorem onCore_freeCtr (s : State) (f : Core → Core) : (s.onCore f).freeCtr = s.freeCtr := rfl

/-! ## setSpireAt -/

@[simp] theorem setSpireAt_mem (s : State) (n : Nat) (x : Spire) : (s.setSpireAt n x).mem = s.mem := rfl
@[simp] theorem setSpireAt_cores (s : State) (n : Nat) (x : Spire) : (s.setSpireAt n x).cores = s.cores := rfl
@[simp] theorem setSpireAt_spires (s : State) (n : Nat) (x : Spire) : (s.setSpireAt n x).spires = Tab.put s.spires n x := rfl
@[simp] theorem setSpireAt_domes (s : State) (n : Nat) (x : Spire) : (s.setSpireAt n x).domes = s.domes := rfl
@[simp] theorem setSpireAt_slices (s : State) (n : Nat) (x : Spire) : (s.setSpireAt n x).slices = s.slices := rfl
@[simp] theorem setSpireAt_lines (s : State) (n : Nat) (x : Spire) : (s.setSpireAt n x).lines = s.lines := rfl
@[simp] theorem setSpireAt_split (s : State) (n : Nat) (x : Spire) : (s.setSpireAt n x).split = s.split := rfl
@[simp] theorem setSpireAt_poison (s : State) (n : Nat) (x : Spire) : (s.setSpireAt n x).poison = s.poison := rfl
@[simp] theorem setSpireAt_hbm (s : State) (n : Nat) (x : Spire) : (s.setSpireAt n x).hbm = s.hbm := rfl
@[simp] theorem setSpireAt_packets (s : State) (n : Nat) (x : Spire) : (s.setSpireAt n x).packets = s.packets := rfl
@[simp] theorem setSpireAt_acks (s : State) (n : Nat) (x : Spire) : (s.setSpireAt n x).acks = s.acks := rfl
@[simp] theorem setSpireAt_landings (s : State) (n : Nat) (x : Spire) : (s.setSpireAt n x).landings = s.landings := rfl
@[simp] theorem setSpireAt_fifos (s : State) (n : Nat) (x : Spire) : (s.setSpireAt n x).fifos = s.fifos := rfl
@[simp] theorem setSpireAt_lstat (s : State) (n : Nat) (x : Spire) : (s.setSpireAt n x).lstat = s.lstat := rfl
@[simp] theorem setSpireAt_regions (s : State) (n : Nat) (x : Spire) : (s.setSpireAt n x).regions = s.regions := rfl
@[simp] theorem setSpireAt_regNext (s : State) (n : Nat) (x : Spire) : (s.setSpireAt n x).regNext = s.regNext := rfl
@[simp] theorem setSpireAt_seqNext (s : State) (n : Nat) (x : Spire) : (s.setSpireAt n x).seqNext = s.seqNext := rfl
@[simp] theorem setSpireAt_vtime (s : State) (n : Nat) (x : Spire) : (s.setSpireAt n x).vtime = s.vtime := rfl
@[simp] theorem setSpireAt_slotTable (s : State) (n : Nat) (x : Spire) : (s.setSpireAt n x).slotTable = s.slotTable := rfl
@[simp] theorem setSpireAt_armed (s : State) (n : Nat) (x : Spire) : (s.setSpireAt n x).armed = s.armed := rfl
@[simp] theorem setSpireAt_saved (s : State) (n : Nat) (x : Spire) : (s.setSpireAt n x).saved = s.saved := rfl
@[simp] theorem setSpireAt_semaphores (s : State) (n : Nat) (x : Spire) : (s.setSpireAt n x).semaphores = s.semaphores := rfl
@[simp] theorem setSpireAt_lastTie (s : State) (n : Nat) (x : Spire) : (s.setSpireAt n x).lastTie = s.lastTie := rfl
@[simp] theorem setSpireAt_msix (s : State) (n : Nat) (x : Spire) : (s.setSpireAt n x).msix = s.msix := rfl
@[simp] theorem setSpireAt_counters (s : State) (n : Nat) (x : Spire) : (s.setSpireAt n x).counters = s.counters := rfl
@[simp] theorem setSpireAt_trace (s : State) (n : Nat) (x : Spire) : (s.setSpireAt n x).trace = s.trace := rfl
@[simp] theorem setSpireAt_replies (s : State) (n : Nat) (x : Spire) : (s.setSpireAt n x).replies = s.replies := rfl
@[simp] theorem setSpireAt_commands (s : State) (n : Nat) (x : Spire) : (s.setSpireAt n x).commands = s.commands := rfl
@[simp] theorem setSpireAt_rejected (s : State) (n : Nat) (x : Spire) : (s.setSpireAt n x).rejected = s.rejected := rfl
@[simp] theorem setSpireAt_tenants (s : State) (n : Nat) (x : Spire) : (s.setSpireAt n x).tenants = s.tenants := rfl
@[simp] theorem setSpireAt_keepTable (s : State) (n : Nat) (x : Spire) : (s.setSpireAt n x).keepTable = s.keepTable := rfl
@[simp] theorem setSpireAt_masks (s : State) (n : Nat) (x : Spire) : (s.setSpireAt n x).masks = s.masks := rfl
@[simp] theorem setSpireAt_maskGrants (s : State) (n : Nat) (x : Spire) : (s.setSpireAt n x).maskGrants = s.maskGrants := rfl
@[simp] theorem setSpireAt_sysctl (s : State) (n : Nat) (x : Spire) : (s.setSpireAt n x).sysctl = s.sysctl := rfl
@[simp] theorem setSpireAt_config (s : State) (n : Nat) (x : Spire) : (s.setSpireAt n x).config = s.config := rfl
@[simp] theorem setSpireAt_flashVersion (s : State) (n : Nat) (x : Spire) : (s.setSpireAt n x).flashVersion = s.flashVersion := rfl
@[simp] theorem setSpireAt_ownerHash (s : State) (n : Nat) (x : Spire) : (s.setSpireAt n x).ownerHash = s.ownerHash := rfl
@[simp] theorem setSpireAt_faultQueue (s : State) (n : Nat) (x : Spire) : (s.setSpireAt n x).faultQueue = s.faultQueue := rfl
@[simp] theorem setSpireAt_badPages (s : State) (n : Nat) (x : Spire) : (s.setSpireAt n x).badPages = s.badPages := rfl
@[simp] theorem setSpireAt_badListOk (s : State) (n : Nat) (x : Spire) : (s.setSpireAt n x).badListOk = s.badListOk := rfl
@[simp] theorem setSpireAt_excluded (s : State) (n : Nat) (x : Spire) : (s.setSpireAt n x).excluded = s.excluded := rfl
@[simp] theorem setSpireAt_mcLog (s : State) (n : Nat) (x : Spire) : (s.setSpireAt n x).mcLog = s.mcLog := rfl
@[simp] theorem setSpireAt_objects (s : State) (n : Nat) (x : Spire) : (s.setSpireAt n x).objects = s.objects := rfl
@[simp] theorem setSpireAt_globalTs (s : State) (n : Nat) (x : Spire) : (s.setSpireAt n x).globalTs = s.globalTs := rfl
@[simp] theorem setSpireAt_acting (s : State) (n : Nat) (x : Spire) : (s.setSpireAt n x).acting = s.acting := rfl
@[simp] theorem setSpireAt_evals (s : State) (n : Nat) (x : Spire) : (s.setSpireAt n x).evals = s.evals := rfl
@[simp] theorem setSpireAt_bstats (s : State) (n : Nat) (x : Spire) : (s.setSpireAt n x).bstats = s.bstats := rfl
@[simp] theorem setSpireAt_boot (s : State) (n : Nat) (x : Spire) : (s.setSpireAt n x).boot = s.boot := rfl
@[simp] theorem setSpireAt_power (s : State) (n : Nat) (x : Spire) : (s.setSpireAt n x).power = s.power := rfl
@[simp] theorem setSpireAt_cycle (s : State) (n : Nat) (x : Spire) : (s.setSpireAt n x).cycle = s.cycle := rfl
@[simp] theorem setSpireAt_sched (s : State) (n : Nat) (x : Spire) : (s.setSpireAt n x).sched = s.sched := rfl
@[simp] theorem setSpireAt_cur (s : State) (n : Nat) (x : Spire) : (s.setSpireAt n x).cur = s.cur := rfl
@[simp] theorem setSpireAt_freeCtr (s : State) (n : Nat) (x : Spire) : (s.setSpireAt n x).freeCtr = s.freeCtr := rfl

/-! ## setDomeAt -/

@[simp] theorem setDomeAt_mem (s : State) (n : Nat) (x : Dome) : (s.setDomeAt n x).mem = s.mem := rfl
@[simp] theorem setDomeAt_cores (s : State) (n : Nat) (x : Dome) : (s.setDomeAt n x).cores = s.cores := rfl
@[simp] theorem setDomeAt_spires (s : State) (n : Nat) (x : Dome) : (s.setDomeAt n x).spires = s.spires := rfl
@[simp] theorem setDomeAt_domes (s : State) (n : Nat) (x : Dome) : (s.setDomeAt n x).domes = Tab.put s.domes n x := rfl
@[simp] theorem setDomeAt_slices (s : State) (n : Nat) (x : Dome) : (s.setDomeAt n x).slices = s.slices := rfl
@[simp] theorem setDomeAt_lines (s : State) (n : Nat) (x : Dome) : (s.setDomeAt n x).lines = s.lines := rfl
@[simp] theorem setDomeAt_split (s : State) (n : Nat) (x : Dome) : (s.setDomeAt n x).split = s.split := rfl
@[simp] theorem setDomeAt_poison (s : State) (n : Nat) (x : Dome) : (s.setDomeAt n x).poison = s.poison := rfl
@[simp] theorem setDomeAt_hbm (s : State) (n : Nat) (x : Dome) : (s.setDomeAt n x).hbm = s.hbm := rfl
@[simp] theorem setDomeAt_packets (s : State) (n : Nat) (x : Dome) : (s.setDomeAt n x).packets = s.packets := rfl
@[simp] theorem setDomeAt_acks (s : State) (n : Nat) (x : Dome) : (s.setDomeAt n x).acks = s.acks := rfl
@[simp] theorem setDomeAt_landings (s : State) (n : Nat) (x : Dome) : (s.setDomeAt n x).landings = s.landings := rfl
@[simp] theorem setDomeAt_fifos (s : State) (n : Nat) (x : Dome) : (s.setDomeAt n x).fifos = s.fifos := rfl
@[simp] theorem setDomeAt_lstat (s : State) (n : Nat) (x : Dome) : (s.setDomeAt n x).lstat = s.lstat := rfl
@[simp] theorem setDomeAt_regions (s : State) (n : Nat) (x : Dome) : (s.setDomeAt n x).regions = s.regions := rfl
@[simp] theorem setDomeAt_regNext (s : State) (n : Nat) (x : Dome) : (s.setDomeAt n x).regNext = s.regNext := rfl
@[simp] theorem setDomeAt_seqNext (s : State) (n : Nat) (x : Dome) : (s.setDomeAt n x).seqNext = s.seqNext := rfl
@[simp] theorem setDomeAt_vtime (s : State) (n : Nat) (x : Dome) : (s.setDomeAt n x).vtime = s.vtime := rfl
@[simp] theorem setDomeAt_slotTable (s : State) (n : Nat) (x : Dome) : (s.setDomeAt n x).slotTable = s.slotTable := rfl
@[simp] theorem setDomeAt_armed (s : State) (n : Nat) (x : Dome) : (s.setDomeAt n x).armed = s.armed := rfl
@[simp] theorem setDomeAt_saved (s : State) (n : Nat) (x : Dome) : (s.setDomeAt n x).saved = s.saved := rfl
@[simp] theorem setDomeAt_semaphores (s : State) (n : Nat) (x : Dome) : (s.setDomeAt n x).semaphores = s.semaphores := rfl
@[simp] theorem setDomeAt_lastTie (s : State) (n : Nat) (x : Dome) : (s.setDomeAt n x).lastTie = s.lastTie := rfl
@[simp] theorem setDomeAt_msix (s : State) (n : Nat) (x : Dome) : (s.setDomeAt n x).msix = s.msix := rfl
@[simp] theorem setDomeAt_counters (s : State) (n : Nat) (x : Dome) : (s.setDomeAt n x).counters = s.counters := rfl
@[simp] theorem setDomeAt_trace (s : State) (n : Nat) (x : Dome) : (s.setDomeAt n x).trace = s.trace := rfl
@[simp] theorem setDomeAt_replies (s : State) (n : Nat) (x : Dome) : (s.setDomeAt n x).replies = s.replies := rfl
@[simp] theorem setDomeAt_commands (s : State) (n : Nat) (x : Dome) : (s.setDomeAt n x).commands = s.commands := rfl
@[simp] theorem setDomeAt_rejected (s : State) (n : Nat) (x : Dome) : (s.setDomeAt n x).rejected = s.rejected := rfl
@[simp] theorem setDomeAt_tenants (s : State) (n : Nat) (x : Dome) : (s.setDomeAt n x).tenants = s.tenants := rfl
@[simp] theorem setDomeAt_keepTable (s : State) (n : Nat) (x : Dome) : (s.setDomeAt n x).keepTable = s.keepTable := rfl
@[simp] theorem setDomeAt_masks (s : State) (n : Nat) (x : Dome) : (s.setDomeAt n x).masks = s.masks := rfl
@[simp] theorem setDomeAt_maskGrants (s : State) (n : Nat) (x : Dome) : (s.setDomeAt n x).maskGrants = s.maskGrants := rfl
@[simp] theorem setDomeAt_sysctl (s : State) (n : Nat) (x : Dome) : (s.setDomeAt n x).sysctl = s.sysctl := rfl
@[simp] theorem setDomeAt_config (s : State) (n : Nat) (x : Dome) : (s.setDomeAt n x).config = s.config := rfl
@[simp] theorem setDomeAt_flashVersion (s : State) (n : Nat) (x : Dome) : (s.setDomeAt n x).flashVersion = s.flashVersion := rfl
@[simp] theorem setDomeAt_ownerHash (s : State) (n : Nat) (x : Dome) : (s.setDomeAt n x).ownerHash = s.ownerHash := rfl
@[simp] theorem setDomeAt_faultQueue (s : State) (n : Nat) (x : Dome) : (s.setDomeAt n x).faultQueue = s.faultQueue := rfl
@[simp] theorem setDomeAt_badPages (s : State) (n : Nat) (x : Dome) : (s.setDomeAt n x).badPages = s.badPages := rfl
@[simp] theorem setDomeAt_badListOk (s : State) (n : Nat) (x : Dome) : (s.setDomeAt n x).badListOk = s.badListOk := rfl
@[simp] theorem setDomeAt_excluded (s : State) (n : Nat) (x : Dome) : (s.setDomeAt n x).excluded = s.excluded := rfl
@[simp] theorem setDomeAt_mcLog (s : State) (n : Nat) (x : Dome) : (s.setDomeAt n x).mcLog = s.mcLog := rfl
@[simp] theorem setDomeAt_objects (s : State) (n : Nat) (x : Dome) : (s.setDomeAt n x).objects = s.objects := rfl
@[simp] theorem setDomeAt_globalTs (s : State) (n : Nat) (x : Dome) : (s.setDomeAt n x).globalTs = s.globalTs := rfl
@[simp] theorem setDomeAt_acting (s : State) (n : Nat) (x : Dome) : (s.setDomeAt n x).acting = s.acting := rfl
@[simp] theorem setDomeAt_evals (s : State) (n : Nat) (x : Dome) : (s.setDomeAt n x).evals = s.evals := rfl
@[simp] theorem setDomeAt_bstats (s : State) (n : Nat) (x : Dome) : (s.setDomeAt n x).bstats = s.bstats := rfl
@[simp] theorem setDomeAt_boot (s : State) (n : Nat) (x : Dome) : (s.setDomeAt n x).boot = s.boot := rfl
@[simp] theorem setDomeAt_power (s : State) (n : Nat) (x : Dome) : (s.setDomeAt n x).power = s.power := rfl
@[simp] theorem setDomeAt_cycle (s : State) (n : Nat) (x : Dome) : (s.setDomeAt n x).cycle = s.cycle := rfl
@[simp] theorem setDomeAt_sched (s : State) (n : Nat) (x : Dome) : (s.setDomeAt n x).sched = s.sched := rfl
@[simp] theorem setDomeAt_cur (s : State) (n : Nat) (x : Dome) : (s.setDomeAt n x).cur = s.cur := rfl
@[simp] theorem setDomeAt_freeCtr (s : State) (n : Nat) (x : Dome) : (s.setDomeAt n x).freeCtr = s.freeCtr := rfl

/-! ## setSliceAt -/

@[simp] theorem setSliceAt_mem (s : State) (n : Nat) (x : Slice) : (s.setSliceAt n x).mem = s.mem := rfl
@[simp] theorem setSliceAt_cores (s : State) (n : Nat) (x : Slice) : (s.setSliceAt n x).cores = s.cores := rfl
@[simp] theorem setSliceAt_spires (s : State) (n : Nat) (x : Slice) : (s.setSliceAt n x).spires = s.spires := rfl
@[simp] theorem setSliceAt_domes (s : State) (n : Nat) (x : Slice) : (s.setSliceAt n x).domes = s.domes := rfl
@[simp] theorem setSliceAt_slices (s : State) (n : Nat) (x : Slice) : (s.setSliceAt n x).slices = Tab.put s.slices n x := rfl
@[simp] theorem setSliceAt_lines (s : State) (n : Nat) (x : Slice) : (s.setSliceAt n x).lines = s.lines := rfl
@[simp] theorem setSliceAt_split (s : State) (n : Nat) (x : Slice) : (s.setSliceAt n x).split = s.split := rfl
@[simp] theorem setSliceAt_poison (s : State) (n : Nat) (x : Slice) : (s.setSliceAt n x).poison = s.poison := rfl
@[simp] theorem setSliceAt_hbm (s : State) (n : Nat) (x : Slice) : (s.setSliceAt n x).hbm = s.hbm := rfl
@[simp] theorem setSliceAt_packets (s : State) (n : Nat) (x : Slice) : (s.setSliceAt n x).packets = s.packets := rfl
@[simp] theorem setSliceAt_acks (s : State) (n : Nat) (x : Slice) : (s.setSliceAt n x).acks = s.acks := rfl
@[simp] theorem setSliceAt_landings (s : State) (n : Nat) (x : Slice) : (s.setSliceAt n x).landings = s.landings := rfl
@[simp] theorem setSliceAt_fifos (s : State) (n : Nat) (x : Slice) : (s.setSliceAt n x).fifos = s.fifos := rfl
@[simp] theorem setSliceAt_lstat (s : State) (n : Nat) (x : Slice) : (s.setSliceAt n x).lstat = s.lstat := rfl
@[simp] theorem setSliceAt_regions (s : State) (n : Nat) (x : Slice) : (s.setSliceAt n x).regions = s.regions := rfl
@[simp] theorem setSliceAt_regNext (s : State) (n : Nat) (x : Slice) : (s.setSliceAt n x).regNext = s.regNext := rfl
@[simp] theorem setSliceAt_seqNext (s : State) (n : Nat) (x : Slice) : (s.setSliceAt n x).seqNext = s.seqNext := rfl
@[simp] theorem setSliceAt_vtime (s : State) (n : Nat) (x : Slice) : (s.setSliceAt n x).vtime = s.vtime := rfl
@[simp] theorem setSliceAt_slotTable (s : State) (n : Nat) (x : Slice) : (s.setSliceAt n x).slotTable = s.slotTable := rfl
@[simp] theorem setSliceAt_armed (s : State) (n : Nat) (x : Slice) : (s.setSliceAt n x).armed = s.armed := rfl
@[simp] theorem setSliceAt_saved (s : State) (n : Nat) (x : Slice) : (s.setSliceAt n x).saved = s.saved := rfl
@[simp] theorem setSliceAt_semaphores (s : State) (n : Nat) (x : Slice) : (s.setSliceAt n x).semaphores = s.semaphores := rfl
@[simp] theorem setSliceAt_lastTie (s : State) (n : Nat) (x : Slice) : (s.setSliceAt n x).lastTie = s.lastTie := rfl
@[simp] theorem setSliceAt_msix (s : State) (n : Nat) (x : Slice) : (s.setSliceAt n x).msix = s.msix := rfl
@[simp] theorem setSliceAt_counters (s : State) (n : Nat) (x : Slice) : (s.setSliceAt n x).counters = s.counters := rfl
@[simp] theorem setSliceAt_trace (s : State) (n : Nat) (x : Slice) : (s.setSliceAt n x).trace = s.trace := rfl
@[simp] theorem setSliceAt_replies (s : State) (n : Nat) (x : Slice) : (s.setSliceAt n x).replies = s.replies := rfl
@[simp] theorem setSliceAt_commands (s : State) (n : Nat) (x : Slice) : (s.setSliceAt n x).commands = s.commands := rfl
@[simp] theorem setSliceAt_rejected (s : State) (n : Nat) (x : Slice) : (s.setSliceAt n x).rejected = s.rejected := rfl
@[simp] theorem setSliceAt_tenants (s : State) (n : Nat) (x : Slice) : (s.setSliceAt n x).tenants = s.tenants := rfl
@[simp] theorem setSliceAt_keepTable (s : State) (n : Nat) (x : Slice) : (s.setSliceAt n x).keepTable = s.keepTable := rfl
@[simp] theorem setSliceAt_masks (s : State) (n : Nat) (x : Slice) : (s.setSliceAt n x).masks = s.masks := rfl
@[simp] theorem setSliceAt_maskGrants (s : State) (n : Nat) (x : Slice) : (s.setSliceAt n x).maskGrants = s.maskGrants := rfl
@[simp] theorem setSliceAt_sysctl (s : State) (n : Nat) (x : Slice) : (s.setSliceAt n x).sysctl = s.sysctl := rfl
@[simp] theorem setSliceAt_config (s : State) (n : Nat) (x : Slice) : (s.setSliceAt n x).config = s.config := rfl
@[simp] theorem setSliceAt_flashVersion (s : State) (n : Nat) (x : Slice) : (s.setSliceAt n x).flashVersion = s.flashVersion := rfl
@[simp] theorem setSliceAt_ownerHash (s : State) (n : Nat) (x : Slice) : (s.setSliceAt n x).ownerHash = s.ownerHash := rfl
@[simp] theorem setSliceAt_faultQueue (s : State) (n : Nat) (x : Slice) : (s.setSliceAt n x).faultQueue = s.faultQueue := rfl
@[simp] theorem setSliceAt_badPages (s : State) (n : Nat) (x : Slice) : (s.setSliceAt n x).badPages = s.badPages := rfl
@[simp] theorem setSliceAt_badListOk (s : State) (n : Nat) (x : Slice) : (s.setSliceAt n x).badListOk = s.badListOk := rfl
@[simp] theorem setSliceAt_excluded (s : State) (n : Nat) (x : Slice) : (s.setSliceAt n x).excluded = s.excluded := rfl
@[simp] theorem setSliceAt_mcLog (s : State) (n : Nat) (x : Slice) : (s.setSliceAt n x).mcLog = s.mcLog := rfl
@[simp] theorem setSliceAt_objects (s : State) (n : Nat) (x : Slice) : (s.setSliceAt n x).objects = s.objects := rfl
@[simp] theorem setSliceAt_globalTs (s : State) (n : Nat) (x : Slice) : (s.setSliceAt n x).globalTs = s.globalTs := rfl
@[simp] theorem setSliceAt_acting (s : State) (n : Nat) (x : Slice) : (s.setSliceAt n x).acting = s.acting := rfl
@[simp] theorem setSliceAt_evals (s : State) (n : Nat) (x : Slice) : (s.setSliceAt n x).evals = s.evals := rfl
@[simp] theorem setSliceAt_bstats (s : State) (n : Nat) (x : Slice) : (s.setSliceAt n x).bstats = s.bstats := rfl
@[simp] theorem setSliceAt_boot (s : State) (n : Nat) (x : Slice) : (s.setSliceAt n x).boot = s.boot := rfl
@[simp] theorem setSliceAt_power (s : State) (n : Nat) (x : Slice) : (s.setSliceAt n x).power = s.power := rfl
@[simp] theorem setSliceAt_cycle (s : State) (n : Nat) (x : Slice) : (s.setSliceAt n x).cycle = s.cycle := rfl
@[simp] theorem setSliceAt_sched (s : State) (n : Nat) (x : Slice) : (s.setSliceAt n x).sched = s.sched := rfl
@[simp] theorem setSliceAt_cur (s : State) (n : Nat) (x : Slice) : (s.setSliceAt n x).cur = s.cur := rfl
@[simp] theorem setSliceAt_freeCtr (s : State) (n : Nat) (x : Slice) : (s.setSliceAt n x).freeCtr = s.freeCtr := rfl

/-! ## setSliceLine -/

@[simp] theorem setSliceLine_mem (s : State) (ln : Nat) (x : SLine) : (s.setSliceLine ln x).mem = s.mem := rfl
@[simp] theorem setSliceLine_cores (s : State) (ln : Nat) (x : SLine) : (s.setSliceLine ln x).cores = s.cores := rfl
@[simp] theorem setSliceLine_spires (s : State) (ln : Nat) (x : SLine) : (s.setSliceLine ln x).spires = s.spires := rfl
@[simp] theorem setSliceLine_domes (s : State) (ln : Nat) (x : SLine) : (s.setSliceLine ln x).domes = s.domes := rfl
@[simp] theorem setSliceLine_slices (s : State) (ln : Nat) (x : SLine) : (s.setSliceLine ln x).slices = s.slices := rfl
@[simp] theorem setSliceLine_lines (s : State) (ln : Nat) (x : SLine) : (s.setSliceLine ln x).lines = Tab.put s.lines ln x := rfl
@[simp] theorem setSliceLine_split (s : State) (ln : Nat) (x : SLine) : (s.setSliceLine ln x).split = s.split := rfl
@[simp] theorem setSliceLine_poison (s : State) (ln : Nat) (x : SLine) : (s.setSliceLine ln x).poison = s.poison := rfl
@[simp] theorem setSliceLine_hbm (s : State) (ln : Nat) (x : SLine) : (s.setSliceLine ln x).hbm = s.hbm := rfl
@[simp] theorem setSliceLine_packets (s : State) (ln : Nat) (x : SLine) : (s.setSliceLine ln x).packets = s.packets := rfl
@[simp] theorem setSliceLine_acks (s : State) (ln : Nat) (x : SLine) : (s.setSliceLine ln x).acks = s.acks := rfl
@[simp] theorem setSliceLine_landings (s : State) (ln : Nat) (x : SLine) : (s.setSliceLine ln x).landings = s.landings := rfl
@[simp] theorem setSliceLine_fifos (s : State) (ln : Nat) (x : SLine) : (s.setSliceLine ln x).fifos = s.fifos := rfl
@[simp] theorem setSliceLine_lstat (s : State) (ln : Nat) (x : SLine) : (s.setSliceLine ln x).lstat = s.lstat := rfl
@[simp] theorem setSliceLine_regions (s : State) (ln : Nat) (x : SLine) : (s.setSliceLine ln x).regions = s.regions := rfl
@[simp] theorem setSliceLine_regNext (s : State) (ln : Nat) (x : SLine) : (s.setSliceLine ln x).regNext = s.regNext := rfl
@[simp] theorem setSliceLine_seqNext (s : State) (ln : Nat) (x : SLine) : (s.setSliceLine ln x).seqNext = s.seqNext := rfl
@[simp] theorem setSliceLine_vtime (s : State) (ln : Nat) (x : SLine) : (s.setSliceLine ln x).vtime = s.vtime := rfl
@[simp] theorem setSliceLine_slotTable (s : State) (ln : Nat) (x : SLine) : (s.setSliceLine ln x).slotTable = s.slotTable := rfl
@[simp] theorem setSliceLine_armed (s : State) (ln : Nat) (x : SLine) : (s.setSliceLine ln x).armed = s.armed := rfl
@[simp] theorem setSliceLine_saved (s : State) (ln : Nat) (x : SLine) : (s.setSliceLine ln x).saved = s.saved := rfl
@[simp] theorem setSliceLine_semaphores (s : State) (ln : Nat) (x : SLine) : (s.setSliceLine ln x).semaphores = s.semaphores := rfl
@[simp] theorem setSliceLine_lastTie (s : State) (ln : Nat) (x : SLine) : (s.setSliceLine ln x).lastTie = s.lastTie := rfl
@[simp] theorem setSliceLine_msix (s : State) (ln : Nat) (x : SLine) : (s.setSliceLine ln x).msix = s.msix := rfl
@[simp] theorem setSliceLine_counters (s : State) (ln : Nat) (x : SLine) : (s.setSliceLine ln x).counters = s.counters := rfl
@[simp] theorem setSliceLine_trace (s : State) (ln : Nat) (x : SLine) : (s.setSliceLine ln x).trace = s.trace := rfl
@[simp] theorem setSliceLine_replies (s : State) (ln : Nat) (x : SLine) : (s.setSliceLine ln x).replies = s.replies := rfl
@[simp] theorem setSliceLine_commands (s : State) (ln : Nat) (x : SLine) : (s.setSliceLine ln x).commands = s.commands := rfl
@[simp] theorem setSliceLine_rejected (s : State) (ln : Nat) (x : SLine) : (s.setSliceLine ln x).rejected = s.rejected := rfl
@[simp] theorem setSliceLine_tenants (s : State) (ln : Nat) (x : SLine) : (s.setSliceLine ln x).tenants = s.tenants := rfl
@[simp] theorem setSliceLine_keepTable (s : State) (ln : Nat) (x : SLine) : (s.setSliceLine ln x).keepTable = s.keepTable := rfl
@[simp] theorem setSliceLine_masks (s : State) (ln : Nat) (x : SLine) : (s.setSliceLine ln x).masks = s.masks := rfl
@[simp] theorem setSliceLine_maskGrants (s : State) (ln : Nat) (x : SLine) : (s.setSliceLine ln x).maskGrants = s.maskGrants := rfl
@[simp] theorem setSliceLine_sysctl (s : State) (ln : Nat) (x : SLine) : (s.setSliceLine ln x).sysctl = s.sysctl := rfl
@[simp] theorem setSliceLine_config (s : State) (ln : Nat) (x : SLine) : (s.setSliceLine ln x).config = s.config := rfl
@[simp] theorem setSliceLine_flashVersion (s : State) (ln : Nat) (x : SLine) : (s.setSliceLine ln x).flashVersion = s.flashVersion := rfl
@[simp] theorem setSliceLine_ownerHash (s : State) (ln : Nat) (x : SLine) : (s.setSliceLine ln x).ownerHash = s.ownerHash := rfl
@[simp] theorem setSliceLine_faultQueue (s : State) (ln : Nat) (x : SLine) : (s.setSliceLine ln x).faultQueue = s.faultQueue := rfl
@[simp] theorem setSliceLine_badPages (s : State) (ln : Nat) (x : SLine) : (s.setSliceLine ln x).badPages = s.badPages := rfl
@[simp] theorem setSliceLine_badListOk (s : State) (ln : Nat) (x : SLine) : (s.setSliceLine ln x).badListOk = s.badListOk := rfl
@[simp] theorem setSliceLine_excluded (s : State) (ln : Nat) (x : SLine) : (s.setSliceLine ln x).excluded = s.excluded := rfl
@[simp] theorem setSliceLine_mcLog (s : State) (ln : Nat) (x : SLine) : (s.setSliceLine ln x).mcLog = s.mcLog := rfl
@[simp] theorem setSliceLine_objects (s : State) (ln : Nat) (x : SLine) : (s.setSliceLine ln x).objects = s.objects := rfl
@[simp] theorem setSliceLine_globalTs (s : State) (ln : Nat) (x : SLine) : (s.setSliceLine ln x).globalTs = s.globalTs := rfl
@[simp] theorem setSliceLine_acting (s : State) (ln : Nat) (x : SLine) : (s.setSliceLine ln x).acting = s.acting := rfl
@[simp] theorem setSliceLine_evals (s : State) (ln : Nat) (x : SLine) : (s.setSliceLine ln x).evals = s.evals := rfl
@[simp] theorem setSliceLine_bstats (s : State) (ln : Nat) (x : SLine) : (s.setSliceLine ln x).bstats = s.bstats := rfl
@[simp] theorem setSliceLine_boot (s : State) (ln : Nat) (x : SLine) : (s.setSliceLine ln x).boot = s.boot := rfl
@[simp] theorem setSliceLine_power (s : State) (ln : Nat) (x : SLine) : (s.setSliceLine ln x).power = s.power := rfl
@[simp] theorem setSliceLine_cycle (s : State) (ln : Nat) (x : SLine) : (s.setSliceLine ln x).cycle = s.cycle := rfl
@[simp] theorem setSliceLine_sched (s : State) (ln : Nat) (x : SLine) : (s.setSliceLine ln x).sched = s.sched := rfl
@[simp] theorem setSliceLine_cur (s : State) (ln : Nat) (x : SLine) : (s.setSliceLine ln x).cur = s.cur := rfl
@[simp] theorem setSliceLine_freeCtr (s : State) (ln : Nat) (x : SLine) : (s.setSliceLine ln x).freeCtr = s.freeCtr := rfl

/-! ## setWord -/

@[simp] theorem setWord_mem (s : State) (off : Nat) (x : Word) : (s.setWord off x).mem = Mem.store s.mem (s.live off) 8 x := rfl
@[simp] theorem setWord_cores (s : State) (off : Nat) (x : Word) : (s.setWord off x).cores = s.cores := rfl
@[simp] theorem setWord_spires (s : State) (off : Nat) (x : Word) : (s.setWord off x).spires = s.spires := rfl
@[simp] theorem setWord_domes (s : State) (off : Nat) (x : Word) : (s.setWord off x).domes = s.domes := rfl
@[simp] theorem setWord_slices (s : State) (off : Nat) (x : Word) : (s.setWord off x).slices = s.slices := rfl
@[simp] theorem setWord_lines (s : State) (off : Nat) (x : Word) : (s.setWord off x).lines = s.lines := rfl
@[simp] theorem setWord_split (s : State) (off : Nat) (x : Word) : (s.setWord off x).split = s.split := rfl
@[simp] theorem setWord_poison (s : State) (off : Nat) (x : Word) : (s.setWord off x).poison = s.poison := rfl
@[simp] theorem setWord_hbm (s : State) (off : Nat) (x : Word) : (s.setWord off x).hbm = s.hbm := rfl
@[simp] theorem setWord_packets (s : State) (off : Nat) (x : Word) : (s.setWord off x).packets = s.packets := rfl
@[simp] theorem setWord_acks (s : State) (off : Nat) (x : Word) : (s.setWord off x).acks = s.acks := rfl
@[simp] theorem setWord_landings (s : State) (off : Nat) (x : Word) : (s.setWord off x).landings = s.landings := rfl
@[simp] theorem setWord_fifos (s : State) (off : Nat) (x : Word) : (s.setWord off x).fifos = s.fifos := rfl
@[simp] theorem setWord_lstat (s : State) (off : Nat) (x : Word) : (s.setWord off x).lstat = s.lstat := rfl
@[simp] theorem setWord_regions (s : State) (off : Nat) (x : Word) : (s.setWord off x).regions = s.regions := rfl
@[simp] theorem setWord_regNext (s : State) (off : Nat) (x : Word) : (s.setWord off x).regNext = s.regNext := rfl
@[simp] theorem setWord_seqNext (s : State) (off : Nat) (x : Word) : (s.setWord off x).seqNext = s.seqNext := rfl
@[simp] theorem setWord_vtime (s : State) (off : Nat) (x : Word) : (s.setWord off x).vtime = s.vtime := rfl
@[simp] theorem setWord_slotTable (s : State) (off : Nat) (x : Word) : (s.setWord off x).slotTable = s.slotTable := rfl
@[simp] theorem setWord_armed (s : State) (off : Nat) (x : Word) : (s.setWord off x).armed = s.armed := rfl
@[simp] theorem setWord_saved (s : State) (off : Nat) (x : Word) : (s.setWord off x).saved = s.saved := rfl
@[simp] theorem setWord_semaphores (s : State) (off : Nat) (x : Word) : (s.setWord off x).semaphores = s.semaphores := rfl
@[simp] theorem setWord_lastTie (s : State) (off : Nat) (x : Word) : (s.setWord off x).lastTie = s.lastTie := rfl
@[simp] theorem setWord_msix (s : State) (off : Nat) (x : Word) : (s.setWord off x).msix = s.msix := rfl
@[simp] theorem setWord_counters (s : State) (off : Nat) (x : Word) : (s.setWord off x).counters = s.counters := rfl
@[simp] theorem setWord_trace (s : State) (off : Nat) (x : Word) : (s.setWord off x).trace = s.trace := rfl
@[simp] theorem setWord_replies (s : State) (off : Nat) (x : Word) : (s.setWord off x).replies = s.replies := rfl
@[simp] theorem setWord_commands (s : State) (off : Nat) (x : Word) : (s.setWord off x).commands = s.commands := rfl
@[simp] theorem setWord_rejected (s : State) (off : Nat) (x : Word) : (s.setWord off x).rejected = s.rejected := rfl
@[simp] theorem setWord_tenants (s : State) (off : Nat) (x : Word) : (s.setWord off x).tenants = s.tenants := rfl
@[simp] theorem setWord_keepTable (s : State) (off : Nat) (x : Word) : (s.setWord off x).keepTable = s.keepTable := rfl
@[simp] theorem setWord_masks (s : State) (off : Nat) (x : Word) : (s.setWord off x).masks = s.masks := rfl
@[simp] theorem setWord_maskGrants (s : State) (off : Nat) (x : Word) : (s.setWord off x).maskGrants = s.maskGrants := rfl
@[simp] theorem setWord_sysctl (s : State) (off : Nat) (x : Word) : (s.setWord off x).sysctl = s.sysctl := rfl
@[simp] theorem setWord_config (s : State) (off : Nat) (x : Word) : (s.setWord off x).config = s.config := rfl
@[simp] theorem setWord_flashVersion (s : State) (off : Nat) (x : Word) : (s.setWord off x).flashVersion = s.flashVersion := rfl
@[simp] theorem setWord_ownerHash (s : State) (off : Nat) (x : Word) : (s.setWord off x).ownerHash = s.ownerHash := rfl
@[simp] theorem setWord_faultQueue (s : State) (off : Nat) (x : Word) : (s.setWord off x).faultQueue = s.faultQueue := rfl
@[simp] theorem setWord_badPages (s : State) (off : Nat) (x : Word) : (s.setWord off x).badPages = s.badPages := rfl
@[simp] theorem setWord_badListOk (s : State) (off : Nat) (x : Word) : (s.setWord off x).badListOk = s.badListOk := rfl
@[simp] theorem setWord_excluded (s : State) (off : Nat) (x : Word) : (s.setWord off x).excluded = s.excluded := rfl
@[simp] theorem setWord_mcLog (s : State) (off : Nat) (x : Word) : (s.setWord off x).mcLog = s.mcLog := rfl
@[simp] theorem setWord_objects (s : State) (off : Nat) (x : Word) : (s.setWord off x).objects = s.objects := rfl
@[simp] theorem setWord_globalTs (s : State) (off : Nat) (x : Word) : (s.setWord off x).globalTs = s.globalTs := rfl
@[simp] theorem setWord_acting (s : State) (off : Nat) (x : Word) : (s.setWord off x).acting = s.acting := rfl
@[simp] theorem setWord_evals (s : State) (off : Nat) (x : Word) : (s.setWord off x).evals = s.evals := rfl
@[simp] theorem setWord_bstats (s : State) (off : Nat) (x : Word) : (s.setWord off x).bstats = s.bstats := rfl
@[simp] theorem setWord_boot (s : State) (off : Nat) (x : Word) : (s.setWord off x).boot = s.boot := rfl
@[simp] theorem setWord_power (s : State) (off : Nat) (x : Word) : (s.setWord off x).power = s.power := rfl
@[simp] theorem setWord_cycle (s : State) (off : Nat) (x : Word) : (s.setWord off x).cycle = s.cycle := rfl
@[simp] theorem setWord_sched (s : State) (off : Nat) (x : Word) : (s.setWord off x).sched = s.sched := rfl
@[simp] theorem setWord_cur (s : State) (off : Nat) (x : Word) : (s.setWord off x).cur = s.cur := rfl
@[simp] theorem setWord_freeCtr (s : State) (off : Nat) (x : Word) : (s.setWord off x).freeCtr = s.freeCtr := rfl

/-! ## setVreg -/

@[simp] theorem setVreg_mem (s : State) (r : VReg) (x : VWord) : (s.setVreg r x).mem = Mem.store s.mem (s.live (0x100 + 32 * r.toNat)) 32 x := by simp only [setVreg]
@[simp] theorem setVreg_cores (s : State) (r : VReg) (x : VWord) : (s.setVreg r x).cores = s.cores := by simp only [setVreg]
@[simp] theorem setVreg_spires (s : State) (r : VReg) (x : VWord) : (s.setVreg r x).spires = s.spires := by simp only [setVreg]
@[simp] theorem setVreg_domes (s : State) (r : VReg) (x : VWord) : (s.setVreg r x).domes = s.domes := by simp only [setVreg]
@[simp] theorem setVreg_slices (s : State) (r : VReg) (x : VWord) : (s.setVreg r x).slices = s.slices := by simp only [setVreg]
@[simp] theorem setVreg_lines (s : State) (r : VReg) (x : VWord) : (s.setVreg r x).lines = s.lines := by simp only [setVreg]
@[simp] theorem setVreg_split (s : State) (r : VReg) (x : VWord) : (s.setVreg r x).split = s.split := by simp only [setVreg]
@[simp] theorem setVreg_poison (s : State) (r : VReg) (x : VWord) : (s.setVreg r x).poison = s.poison := by simp only [setVreg]
@[simp] theorem setVreg_hbm (s : State) (r : VReg) (x : VWord) : (s.setVreg r x).hbm = s.hbm := by simp only [setVreg]
@[simp] theorem setVreg_packets (s : State) (r : VReg) (x : VWord) : (s.setVreg r x).packets = s.packets := by simp only [setVreg]
@[simp] theorem setVreg_acks (s : State) (r : VReg) (x : VWord) : (s.setVreg r x).acks = s.acks := by simp only [setVreg]
@[simp] theorem setVreg_landings (s : State) (r : VReg) (x : VWord) : (s.setVreg r x).landings = s.landings := by simp only [setVreg]
@[simp] theorem setVreg_fifos (s : State) (r : VReg) (x : VWord) : (s.setVreg r x).fifos = s.fifos := by simp only [setVreg]
@[simp] theorem setVreg_lstat (s : State) (r : VReg) (x : VWord) : (s.setVreg r x).lstat = s.lstat := by simp only [setVreg]
@[simp] theorem setVreg_regions (s : State) (r : VReg) (x : VWord) : (s.setVreg r x).regions = s.regions := by simp only [setVreg]
@[simp] theorem setVreg_regNext (s : State) (r : VReg) (x : VWord) : (s.setVreg r x).regNext = s.regNext := by simp only [setVreg]
@[simp] theorem setVreg_seqNext (s : State) (r : VReg) (x : VWord) : (s.setVreg r x).seqNext = s.seqNext := by simp only [setVreg]
@[simp] theorem setVreg_vtime (s : State) (r : VReg) (x : VWord) : (s.setVreg r x).vtime = s.vtime := by simp only [setVreg]
@[simp] theorem setVreg_slotTable (s : State) (r : VReg) (x : VWord) : (s.setVreg r x).slotTable = s.slotTable := by simp only [setVreg]
@[simp] theorem setVreg_armed (s : State) (r : VReg) (x : VWord) : (s.setVreg r x).armed = s.armed := by simp only [setVreg]
@[simp] theorem setVreg_saved (s : State) (r : VReg) (x : VWord) : (s.setVreg r x).saved = s.saved := by simp only [setVreg]
@[simp] theorem setVreg_semaphores (s : State) (r : VReg) (x : VWord) : (s.setVreg r x).semaphores = s.semaphores := by simp only [setVreg]
@[simp] theorem setVreg_lastTie (s : State) (r : VReg) (x : VWord) : (s.setVreg r x).lastTie = s.lastTie := by simp only [setVreg]
@[simp] theorem setVreg_msix (s : State) (r : VReg) (x : VWord) : (s.setVreg r x).msix = s.msix := by simp only [setVreg]
@[simp] theorem setVreg_counters (s : State) (r : VReg) (x : VWord) : (s.setVreg r x).counters = s.counters := by simp only [setVreg]
@[simp] theorem setVreg_trace (s : State) (r : VReg) (x : VWord) : (s.setVreg r x).trace = s.trace := by simp only [setVreg]
@[simp] theorem setVreg_replies (s : State) (r : VReg) (x : VWord) : (s.setVreg r x).replies = s.replies := by simp only [setVreg]
@[simp] theorem setVreg_commands (s : State) (r : VReg) (x : VWord) : (s.setVreg r x).commands = s.commands := by simp only [setVreg]
@[simp] theorem setVreg_rejected (s : State) (r : VReg) (x : VWord) : (s.setVreg r x).rejected = s.rejected := by simp only [setVreg]
@[simp] theorem setVreg_tenants (s : State) (r : VReg) (x : VWord) : (s.setVreg r x).tenants = s.tenants := by simp only [setVreg]
@[simp] theorem setVreg_keepTable (s : State) (r : VReg) (x : VWord) : (s.setVreg r x).keepTable = s.keepTable := by simp only [setVreg]
@[simp] theorem setVreg_masks (s : State) (r : VReg) (x : VWord) : (s.setVreg r x).masks = s.masks := by simp only [setVreg]
@[simp] theorem setVreg_maskGrants (s : State) (r : VReg) (x : VWord) : (s.setVreg r x).maskGrants = s.maskGrants := by simp only [setVreg]
@[simp] theorem setVreg_sysctl (s : State) (r : VReg) (x : VWord) : (s.setVreg r x).sysctl = s.sysctl := by simp only [setVreg]
@[simp] theorem setVreg_config (s : State) (r : VReg) (x : VWord) : (s.setVreg r x).config = s.config := by simp only [setVreg]
@[simp] theorem setVreg_flashVersion (s : State) (r : VReg) (x : VWord) : (s.setVreg r x).flashVersion = s.flashVersion := by simp only [setVreg]
@[simp] theorem setVreg_ownerHash (s : State) (r : VReg) (x : VWord) : (s.setVreg r x).ownerHash = s.ownerHash := by simp only [setVreg]
@[simp] theorem setVreg_faultQueue (s : State) (r : VReg) (x : VWord) : (s.setVreg r x).faultQueue = s.faultQueue := by simp only [setVreg]
@[simp] theorem setVreg_badPages (s : State) (r : VReg) (x : VWord) : (s.setVreg r x).badPages = s.badPages := by simp only [setVreg]
@[simp] theorem setVreg_badListOk (s : State) (r : VReg) (x : VWord) : (s.setVreg r x).badListOk = s.badListOk := by simp only [setVreg]
@[simp] theorem setVreg_excluded (s : State) (r : VReg) (x : VWord) : (s.setVreg r x).excluded = s.excluded := by simp only [setVreg]
@[simp] theorem setVreg_mcLog (s : State) (r : VReg) (x : VWord) : (s.setVreg r x).mcLog = s.mcLog := by simp only [setVreg]
@[simp] theorem setVreg_objects (s : State) (r : VReg) (x : VWord) : (s.setVreg r x).objects = s.objects := by simp only [setVreg]
@[simp] theorem setVreg_globalTs (s : State) (r : VReg) (x : VWord) : (s.setVreg r x).globalTs = s.globalTs := by simp only [setVreg]
@[simp] theorem setVreg_acting (s : State) (r : VReg) (x : VWord) : (s.setVreg r x).acting = s.acting := by simp only [setVreg]
@[simp] theorem setVreg_evals (s : State) (r : VReg) (x : VWord) : (s.setVreg r x).evals = s.evals := by simp only [setVreg]
@[simp] theorem setVreg_bstats (s : State) (r : VReg) (x : VWord) : (s.setVreg r x).bstats = s.bstats := by simp only [setVreg]
@[simp] theorem setVreg_boot (s : State) (r : VReg) (x : VWord) : (s.setVreg r x).boot = s.boot := by simp only [setVreg]
@[simp] theorem setVreg_power (s : State) (r : VReg) (x : VWord) : (s.setVreg r x).power = s.power := by simp only [setVreg]
@[simp] theorem setVreg_cycle (s : State) (r : VReg) (x : VWord) : (s.setVreg r x).cycle = s.cycle := by simp only [setVreg]
@[simp] theorem setVreg_sched (s : State) (r : VReg) (x : VWord) : (s.setVreg r x).sched = s.sched := by simp only [setVreg]
@[simp] theorem setVreg_cur (s : State) (r : VReg) (x : VWord) : (s.setVreg r x).cur = s.cur := by simp only [setVreg]
@[simp] theorem setVreg_freeCtr (s : State) (r : VReg) (x : VWord) : (s.setVreg r x).freeCtr = s.freeCtr := by simp only [setVreg]

/-! ## free -/

@[simp] theorem free_mem (s : State) : (s.free.2).mem = s.mem := rfl
@[simp] theorem free_cores (s : State) : (s.free.2).cores = s.cores := rfl
@[simp] theorem free_spires (s : State) : (s.free.2).spires = s.spires := rfl
@[simp] theorem free_domes (s : State) : (s.free.2).domes = s.domes := rfl
@[simp] theorem free_slices (s : State) : (s.free.2).slices = s.slices := rfl
@[simp] theorem free_lines (s : State) : (s.free.2).lines = s.lines := rfl
@[simp] theorem free_split (s : State) : (s.free.2).split = s.split := rfl
@[simp] theorem free_poison (s : State) : (s.free.2).poison = s.poison := rfl
@[simp] theorem free_hbm (s : State) : (s.free.2).hbm = s.hbm := rfl
@[simp] theorem free_packets (s : State) : (s.free.2).packets = s.packets := rfl
@[simp] theorem free_acks (s : State) : (s.free.2).acks = s.acks := rfl
@[simp] theorem free_landings (s : State) : (s.free.2).landings = s.landings := rfl
@[simp] theorem free_fifos (s : State) : (s.free.2).fifos = s.fifos := rfl
@[simp] theorem free_lstat (s : State) : (s.free.2).lstat = s.lstat := rfl
@[simp] theorem free_regions (s : State) : (s.free.2).regions = s.regions := rfl
@[simp] theorem free_regNext (s : State) : (s.free.2).regNext = s.regNext := rfl
@[simp] theorem free_seqNext (s : State) : (s.free.2).seqNext = s.seqNext := rfl
@[simp] theorem free_vtime (s : State) : (s.free.2).vtime = s.vtime := rfl
@[simp] theorem free_slotTable (s : State) : (s.free.2).slotTable = s.slotTable := rfl
@[simp] theorem free_armed (s : State) : (s.free.2).armed = s.armed := rfl
@[simp] theorem free_saved (s : State) : (s.free.2).saved = s.saved := rfl
@[simp] theorem free_semaphores (s : State) : (s.free.2).semaphores = s.semaphores := rfl
@[simp] theorem free_lastTie (s : State) : (s.free.2).lastTie = s.lastTie := rfl
@[simp] theorem free_msix (s : State) : (s.free.2).msix = s.msix := rfl
@[simp] theorem free_counters (s : State) : (s.free.2).counters = s.counters := rfl
@[simp] theorem free_trace (s : State) : (s.free.2).trace = s.trace := rfl
@[simp] theorem free_replies (s : State) : (s.free.2).replies = s.replies := rfl
@[simp] theorem free_commands (s : State) : (s.free.2).commands = s.commands := rfl
@[simp] theorem free_rejected (s : State) : (s.free.2).rejected = s.rejected := rfl
@[simp] theorem free_tenants (s : State) : (s.free.2).tenants = s.tenants := rfl
@[simp] theorem free_keepTable (s : State) : (s.free.2).keepTable = s.keepTable := rfl
@[simp] theorem free_masks (s : State) : (s.free.2).masks = s.masks := rfl
@[simp] theorem free_maskGrants (s : State) : (s.free.2).maskGrants = s.maskGrants := rfl
@[simp] theorem free_sysctl (s : State) : (s.free.2).sysctl = s.sysctl := rfl
@[simp] theorem free_config (s : State) : (s.free.2).config = s.config := rfl
@[simp] theorem free_flashVersion (s : State) : (s.free.2).flashVersion = s.flashVersion := rfl
@[simp] theorem free_ownerHash (s : State) : (s.free.2).ownerHash = s.ownerHash := rfl
@[simp] theorem free_faultQueue (s : State) : (s.free.2).faultQueue = s.faultQueue := rfl
@[simp] theorem free_badPages (s : State) : (s.free.2).badPages = s.badPages := rfl
@[simp] theorem free_badListOk (s : State) : (s.free.2).badListOk = s.badListOk := rfl
@[simp] theorem free_excluded (s : State) : (s.free.2).excluded = s.excluded := rfl
@[simp] theorem free_mcLog (s : State) : (s.free.2).mcLog = s.mcLog := rfl
@[simp] theorem free_objects (s : State) : (s.free.2).objects = s.objects := rfl
@[simp] theorem free_globalTs (s : State) : (s.free.2).globalTs = s.globalTs := rfl
@[simp] theorem free_acting (s : State) : (s.free.2).acting = s.acting := rfl
@[simp] theorem free_evals (s : State) : (s.free.2).evals = s.evals := rfl
@[simp] theorem free_bstats (s : State) : (s.free.2).bstats = s.bstats := rfl
@[simp] theorem free_boot (s : State) : (s.free.2).boot = s.boot := rfl
@[simp] theorem free_power (s : State) : (s.free.2).power = s.power := rfl
@[simp] theorem free_cycle (s : State) : (s.free.2).cycle = s.cycle := rfl
@[simp] theorem free_sched (s : State) : (s.free.2).sched = s.sched := rfl
@[simp] theorem free_cur (s : State) : (s.free.2).cur = s.cur := rfl
@[simp] theorem free_freeCtr (s : State) : (s.free.2).freeCtr = s.freeCtr + 1 := rfl

/-! ## noteGlobal -/

@[simp] theorem noteGlobal_mem (s : State) (ts : Nat) : (s.noteGlobal ts).mem = s.mem := rfl
@[simp] theorem noteGlobal_cores (s : State) (ts : Nat) : (s.noteGlobal ts).cores = s.cores := rfl
@[simp] theorem noteGlobal_spires (s : State) (ts : Nat) : (s.noteGlobal ts).spires = s.spires := rfl
@[simp] theorem noteGlobal_domes (s : State) (ts : Nat) : (s.noteGlobal ts).domes = s.domes := rfl
@[simp] theorem noteGlobal_slices (s : State) (ts : Nat) : (s.noteGlobal ts).slices = s.slices := rfl
@[simp] theorem noteGlobal_lines (s : State) (ts : Nat) : (s.noteGlobal ts).lines = s.lines := rfl
@[simp] theorem noteGlobal_split (s : State) (ts : Nat) : (s.noteGlobal ts).split = s.split := rfl
@[simp] theorem noteGlobal_poison (s : State) (ts : Nat) : (s.noteGlobal ts).poison = s.poison := rfl
@[simp] theorem noteGlobal_hbm (s : State) (ts : Nat) : (s.noteGlobal ts).hbm = s.hbm := rfl
@[simp] theorem noteGlobal_packets (s : State) (ts : Nat) : (s.noteGlobal ts).packets = s.packets := rfl
@[simp] theorem noteGlobal_acks (s : State) (ts : Nat) : (s.noteGlobal ts).acks = s.acks := rfl
@[simp] theorem noteGlobal_landings (s : State) (ts : Nat) : (s.noteGlobal ts).landings = s.landings := rfl
@[simp] theorem noteGlobal_fifos (s : State) (ts : Nat) : (s.noteGlobal ts).fifos = s.fifos := rfl
@[simp] theorem noteGlobal_lstat (s : State) (ts : Nat) : (s.noteGlobal ts).lstat = s.lstat := rfl
@[simp] theorem noteGlobal_regions (s : State) (ts : Nat) : (s.noteGlobal ts).regions = s.regions := rfl
@[simp] theorem noteGlobal_regNext (s : State) (ts : Nat) : (s.noteGlobal ts).regNext = s.regNext := rfl
@[simp] theorem noteGlobal_seqNext (s : State) (ts : Nat) : (s.noteGlobal ts).seqNext = s.seqNext := rfl
@[simp] theorem noteGlobal_vtime (s : State) (ts : Nat) : (s.noteGlobal ts).vtime = s.vtime := rfl
@[simp] theorem noteGlobal_slotTable (s : State) (ts : Nat) : (s.noteGlobal ts).slotTable = s.slotTable := rfl
@[simp] theorem noteGlobal_armed (s : State) (ts : Nat) : (s.noteGlobal ts).armed = s.armed := rfl
@[simp] theorem noteGlobal_saved (s : State) (ts : Nat) : (s.noteGlobal ts).saved = s.saved := rfl
@[simp] theorem noteGlobal_semaphores (s : State) (ts : Nat) : (s.noteGlobal ts).semaphores = s.semaphores := rfl
@[simp] theorem noteGlobal_lastTie (s : State) (ts : Nat) : (s.noteGlobal ts).lastTie = s.lastTie := rfl
@[simp] theorem noteGlobal_msix (s : State) (ts : Nat) : (s.noteGlobal ts).msix = s.msix := rfl
@[simp] theorem noteGlobal_counters (s : State) (ts : Nat) : (s.noteGlobal ts).counters = s.counters := rfl
@[simp] theorem noteGlobal_trace (s : State) (ts : Nat) : (s.noteGlobal ts).trace = s.trace := rfl
@[simp] theorem noteGlobal_replies (s : State) (ts : Nat) : (s.noteGlobal ts).replies = s.replies := rfl
@[simp] theorem noteGlobal_commands (s : State) (ts : Nat) : (s.noteGlobal ts).commands = s.commands := rfl
@[simp] theorem noteGlobal_rejected (s : State) (ts : Nat) : (s.noteGlobal ts).rejected = s.rejected := rfl
@[simp] theorem noteGlobal_tenants (s : State) (ts : Nat) : (s.noteGlobal ts).tenants = s.tenants := rfl
@[simp] theorem noteGlobal_keepTable (s : State) (ts : Nat) : (s.noteGlobal ts).keepTable = s.keepTable := rfl
@[simp] theorem noteGlobal_masks (s : State) (ts : Nat) : (s.noteGlobal ts).masks = s.masks := rfl
@[simp] theorem noteGlobal_maskGrants (s : State) (ts : Nat) : (s.noteGlobal ts).maskGrants = s.maskGrants := rfl
@[simp] theorem noteGlobal_sysctl (s : State) (ts : Nat) : (s.noteGlobal ts).sysctl = s.sysctl := rfl
@[simp] theorem noteGlobal_config (s : State) (ts : Nat) : (s.noteGlobal ts).config = s.config := rfl
@[simp] theorem noteGlobal_flashVersion (s : State) (ts : Nat) : (s.noteGlobal ts).flashVersion = s.flashVersion := rfl
@[simp] theorem noteGlobal_ownerHash (s : State) (ts : Nat) : (s.noteGlobal ts).ownerHash = s.ownerHash := rfl
@[simp] theorem noteGlobal_faultQueue (s : State) (ts : Nat) : (s.noteGlobal ts).faultQueue = s.faultQueue := rfl
@[simp] theorem noteGlobal_badPages (s : State) (ts : Nat) : (s.noteGlobal ts).badPages = s.badPages := rfl
@[simp] theorem noteGlobal_badListOk (s : State) (ts : Nat) : (s.noteGlobal ts).badListOk = s.badListOk := rfl
@[simp] theorem noteGlobal_excluded (s : State) (ts : Nat) : (s.noteGlobal ts).excluded = s.excluded := rfl
@[simp] theorem noteGlobal_mcLog (s : State) (ts : Nat) : (s.noteGlobal ts).mcLog = s.mcLog := rfl
@[simp] theorem noteGlobal_objects (s : State) (ts : Nat) : (s.noteGlobal ts).objects = s.objects := rfl
@[simp] theorem noteGlobal_globalTs (s : State) (ts : Nat) : (s.noteGlobal ts).globalTs = max s.globalTs ts := rfl
@[simp] theorem noteGlobal_acting (s : State) (ts : Nat) : (s.noteGlobal ts).acting = s.acting := rfl
@[simp] theorem noteGlobal_evals (s : State) (ts : Nat) : (s.noteGlobal ts).evals = s.evals := rfl
@[simp] theorem noteGlobal_bstats (s : State) (ts : Nat) : (s.noteGlobal ts).bstats = s.bstats := rfl
@[simp] theorem noteGlobal_boot (s : State) (ts : Nat) : (s.noteGlobal ts).boot = s.boot := rfl
@[simp] theorem noteGlobal_power (s : State) (ts : Nat) : (s.noteGlobal ts).power = s.power := rfl
@[simp] theorem noteGlobal_cycle (s : State) (ts : Nat) : (s.noteGlobal ts).cycle = s.cycle := rfl
@[simp] theorem noteGlobal_sched (s : State) (ts : Nat) : (s.noteGlobal ts).sched = s.sched := rfl
@[simp] theorem noteGlobal_cur (s : State) (ts : Nat) : (s.noteGlobal ts).cur = s.cur := rfl
@[simp] theorem noteGlobal_freeCtr (s : State) (ts : Nat) : (s.noteGlobal ts).freeCtr = s.freeCtr := rfl

/-! ## onRegion -/

@[simp] theorem onRegion_mem (s : State) (r : Nat) (f : Region → Region) : (s.onRegion r f).mem = s.mem := rfl
@[simp] theorem onRegion_cores (s : State) (r : Nat) (f : Region → Region) : (s.onRegion r f).cores = s.cores := rfl
@[simp] theorem onRegion_spires (s : State) (r : Nat) (f : Region → Region) : (s.onRegion r f).spires = s.spires := rfl
@[simp] theorem onRegion_domes (s : State) (r : Nat) (f : Region → Region) : (s.onRegion r f).domes = s.domes := rfl
@[simp] theorem onRegion_slices (s : State) (r : Nat) (f : Region → Region) : (s.onRegion r f).slices = s.slices := rfl
@[simp] theorem onRegion_lines (s : State) (r : Nat) (f : Region → Region) : (s.onRegion r f).lines = s.lines := rfl
@[simp] theorem onRegion_split (s : State) (r : Nat) (f : Region → Region) : (s.onRegion r f).split = s.split := rfl
@[simp] theorem onRegion_poison (s : State) (r : Nat) (f : Region → Region) : (s.onRegion r f).poison = s.poison := rfl
@[simp] theorem onRegion_hbm (s : State) (r : Nat) (f : Region → Region) : (s.onRegion r f).hbm = s.hbm := rfl
@[simp] theorem onRegion_packets (s : State) (r : Nat) (f : Region → Region) : (s.onRegion r f).packets = s.packets := rfl
@[simp] theorem onRegion_acks (s : State) (r : Nat) (f : Region → Region) : (s.onRegion r f).acks = s.acks := rfl
@[simp] theorem onRegion_landings (s : State) (r : Nat) (f : Region → Region) : (s.onRegion r f).landings = s.landings := rfl
@[simp] theorem onRegion_fifos (s : State) (r : Nat) (f : Region → Region) : (s.onRegion r f).fifos = s.fifos := rfl
@[simp] theorem onRegion_lstat (s : State) (r : Nat) (f : Region → Region) : (s.onRegion r f).lstat = s.lstat := rfl
@[simp] theorem onRegion_regions (s : State) (r : Nat) (f : Region → Region) : (s.onRegion r f).regions = s.regions.map fun x => if x.id == r then f x else x := rfl
@[simp] theorem onRegion_regNext (s : State) (r : Nat) (f : Region → Region) : (s.onRegion r f).regNext = s.regNext := rfl
@[simp] theorem onRegion_seqNext (s : State) (r : Nat) (f : Region → Region) : (s.onRegion r f).seqNext = s.seqNext := rfl
@[simp] theorem onRegion_vtime (s : State) (r : Nat) (f : Region → Region) : (s.onRegion r f).vtime = s.vtime := rfl
@[simp] theorem onRegion_slotTable (s : State) (r : Nat) (f : Region → Region) : (s.onRegion r f).slotTable = s.slotTable := rfl
@[simp] theorem onRegion_armed (s : State) (r : Nat) (f : Region → Region) : (s.onRegion r f).armed = s.armed := rfl
@[simp] theorem onRegion_saved (s : State) (r : Nat) (f : Region → Region) : (s.onRegion r f).saved = s.saved := rfl
@[simp] theorem onRegion_semaphores (s : State) (r : Nat) (f : Region → Region) : (s.onRegion r f).semaphores = s.semaphores := rfl
@[simp] theorem onRegion_lastTie (s : State) (r : Nat) (f : Region → Region) : (s.onRegion r f).lastTie = s.lastTie := rfl
@[simp] theorem onRegion_msix (s : State) (r : Nat) (f : Region → Region) : (s.onRegion r f).msix = s.msix := rfl
@[simp] theorem onRegion_counters (s : State) (r : Nat) (f : Region → Region) : (s.onRegion r f).counters = s.counters := rfl
@[simp] theorem onRegion_trace (s : State) (r : Nat) (f : Region → Region) : (s.onRegion r f).trace = s.trace := rfl
@[simp] theorem onRegion_replies (s : State) (r : Nat) (f : Region → Region) : (s.onRegion r f).replies = s.replies := rfl
@[simp] theorem onRegion_commands (s : State) (r : Nat) (f : Region → Region) : (s.onRegion r f).commands = s.commands := rfl
@[simp] theorem onRegion_rejected (s : State) (r : Nat) (f : Region → Region) : (s.onRegion r f).rejected = s.rejected := rfl
@[simp] theorem onRegion_tenants (s : State) (r : Nat) (f : Region → Region) : (s.onRegion r f).tenants = s.tenants := rfl
@[simp] theorem onRegion_keepTable (s : State) (r : Nat) (f : Region → Region) : (s.onRegion r f).keepTable = s.keepTable := rfl
@[simp] theorem onRegion_masks (s : State) (r : Nat) (f : Region → Region) : (s.onRegion r f).masks = s.masks := rfl
@[simp] theorem onRegion_maskGrants (s : State) (r : Nat) (f : Region → Region) : (s.onRegion r f).maskGrants = s.maskGrants := rfl
@[simp] theorem onRegion_sysctl (s : State) (r : Nat) (f : Region → Region) : (s.onRegion r f).sysctl = s.sysctl := rfl
@[simp] theorem onRegion_config (s : State) (r : Nat) (f : Region → Region) : (s.onRegion r f).config = s.config := rfl
@[simp] theorem onRegion_flashVersion (s : State) (r : Nat) (f : Region → Region) : (s.onRegion r f).flashVersion = s.flashVersion := rfl
@[simp] theorem onRegion_ownerHash (s : State) (r : Nat) (f : Region → Region) : (s.onRegion r f).ownerHash = s.ownerHash := rfl
@[simp] theorem onRegion_faultQueue (s : State) (r : Nat) (f : Region → Region) : (s.onRegion r f).faultQueue = s.faultQueue := rfl
@[simp] theorem onRegion_badPages (s : State) (r : Nat) (f : Region → Region) : (s.onRegion r f).badPages = s.badPages := rfl
@[simp] theorem onRegion_badListOk (s : State) (r : Nat) (f : Region → Region) : (s.onRegion r f).badListOk = s.badListOk := rfl
@[simp] theorem onRegion_excluded (s : State) (r : Nat) (f : Region → Region) : (s.onRegion r f).excluded = s.excluded := rfl
@[simp] theorem onRegion_mcLog (s : State) (r : Nat) (f : Region → Region) : (s.onRegion r f).mcLog = s.mcLog := rfl
@[simp] theorem onRegion_objects (s : State) (r : Nat) (f : Region → Region) : (s.onRegion r f).objects = s.objects := rfl
@[simp] theorem onRegion_globalTs (s : State) (r : Nat) (f : Region → Region) : (s.onRegion r f).globalTs = s.globalTs := rfl
@[simp] theorem onRegion_acting (s : State) (r : Nat) (f : Region → Region) : (s.onRegion r f).acting = s.acting := rfl
@[simp] theorem onRegion_evals (s : State) (r : Nat) (f : Region → Region) : (s.onRegion r f).evals = s.evals := rfl
@[simp] theorem onRegion_bstats (s : State) (r : Nat) (f : Region → Region) : (s.onRegion r f).bstats = s.bstats := rfl
@[simp] theorem onRegion_boot (s : State) (r : Nat) (f : Region → Region) : (s.onRegion r f).boot = s.boot := rfl
@[simp] theorem onRegion_power (s : State) (r : Nat) (f : Region → Region) : (s.onRegion r f).power = s.power := rfl
@[simp] theorem onRegion_cycle (s : State) (r : Nat) (f : Region → Region) : (s.onRegion r f).cycle = s.cycle := rfl
@[simp] theorem onRegion_sched (s : State) (r : Nat) (f : Region → Region) : (s.onRegion r f).sched = s.sched := rfl
@[simp] theorem onRegion_cur (s : State) (r : Nat) (f : Region → Region) : (s.onRegion r f).cur = s.cur := rfl
@[simp] theorem onRegion_freeCtr (s : State) (r : Nat) (f : Region → Region) : (s.onRegion r f).freeCtr = s.freeCtr := rfl

/-! ## setLt -/

@[simp] theorem setLt_mem (s : State) (ts : Nat) : (s.setLt ts).mem = s.mem := rfl
@[simp] theorem setLt_spires (s : State) (ts : Nat) : (s.setLt ts).spires = s.spires := rfl
@[simp] theorem setLt_domes (s : State) (ts : Nat) : (s.setLt ts).domes = s.domes := rfl
@[simp] theorem setLt_slices (s : State) (ts : Nat) : (s.setLt ts).slices = s.slices := rfl
@[simp] theorem setLt_lines (s : State) (ts : Nat) : (s.setLt ts).lines = s.lines := rfl
@[simp] theorem setLt_split (s : State) (ts : Nat) : (s.setLt ts).split = s.split := rfl
@[simp] theorem setLt_poison (s : State) (ts : Nat) : (s.setLt ts).poison = s.poison := rfl
@[simp] theorem setLt_hbm (s : State) (ts : Nat) : (s.setLt ts).hbm = s.hbm := rfl
@[simp] theorem setLt_packets (s : State) (ts : Nat) : (s.setLt ts).packets = s.packets := rfl
@[simp] theorem setLt_acks (s : State) (ts : Nat) : (s.setLt ts).acks = s.acks := rfl
@[simp] theorem setLt_landings (s : State) (ts : Nat) : (s.setLt ts).landings = s.landings := rfl
@[simp] theorem setLt_fifos (s : State) (ts : Nat) : (s.setLt ts).fifos = s.fifos := rfl
@[simp] theorem setLt_lstat (s : State) (ts : Nat) : (s.setLt ts).lstat = s.lstat := rfl
@[simp] theorem setLt_regions (s : State) (ts : Nat) : (s.setLt ts).regions = s.regions := rfl
@[simp] theorem setLt_regNext (s : State) (ts : Nat) : (s.setLt ts).regNext = s.regNext := rfl
@[simp] theorem setLt_seqNext (s : State) (ts : Nat) : (s.setLt ts).seqNext = s.seqNext := rfl
@[simp] theorem setLt_vtime (s : State) (ts : Nat) : (s.setLt ts).vtime = s.vtime := rfl
@[simp] theorem setLt_slotTable (s : State) (ts : Nat) : (s.setLt ts).slotTable = s.slotTable := rfl
@[simp] theorem setLt_armed (s : State) (ts : Nat) : (s.setLt ts).armed = s.armed := rfl
@[simp] theorem setLt_saved (s : State) (ts : Nat) : (s.setLt ts).saved = s.saved := rfl
@[simp] theorem setLt_semaphores (s : State) (ts : Nat) : (s.setLt ts).semaphores = s.semaphores := rfl
@[simp] theorem setLt_lastTie (s : State) (ts : Nat) : (s.setLt ts).lastTie = s.lastTie := rfl
@[simp] theorem setLt_msix (s : State) (ts : Nat) : (s.setLt ts).msix = s.msix := rfl
@[simp] theorem setLt_counters (s : State) (ts : Nat) : (s.setLt ts).counters = s.counters := rfl
@[simp] theorem setLt_trace (s : State) (ts : Nat) : (s.setLt ts).trace = s.trace := rfl
@[simp] theorem setLt_replies (s : State) (ts : Nat) : (s.setLt ts).replies = s.replies := rfl
@[simp] theorem setLt_commands (s : State) (ts : Nat) : (s.setLt ts).commands = s.commands := rfl
@[simp] theorem setLt_rejected (s : State) (ts : Nat) : (s.setLt ts).rejected = s.rejected := rfl
@[simp] theorem setLt_tenants (s : State) (ts : Nat) : (s.setLt ts).tenants = s.tenants := rfl
@[simp] theorem setLt_keepTable (s : State) (ts : Nat) : (s.setLt ts).keepTable = s.keepTable := rfl
@[simp] theorem setLt_masks (s : State) (ts : Nat) : (s.setLt ts).masks = s.masks := rfl
@[simp] theorem setLt_maskGrants (s : State) (ts : Nat) : (s.setLt ts).maskGrants = s.maskGrants := rfl
@[simp] theorem setLt_sysctl (s : State) (ts : Nat) : (s.setLt ts).sysctl = s.sysctl := rfl
@[simp] theorem setLt_config (s : State) (ts : Nat) : (s.setLt ts).config = s.config := rfl
@[simp] theorem setLt_flashVersion (s : State) (ts : Nat) : (s.setLt ts).flashVersion = s.flashVersion := rfl
@[simp] theorem setLt_ownerHash (s : State) (ts : Nat) : (s.setLt ts).ownerHash = s.ownerHash := rfl
@[simp] theorem setLt_faultQueue (s : State) (ts : Nat) : (s.setLt ts).faultQueue = s.faultQueue := rfl
@[simp] theorem setLt_badPages (s : State) (ts : Nat) : (s.setLt ts).badPages = s.badPages := rfl
@[simp] theorem setLt_badListOk (s : State) (ts : Nat) : (s.setLt ts).badListOk = s.badListOk := rfl
@[simp] theorem setLt_excluded (s : State) (ts : Nat) : (s.setLt ts).excluded = s.excluded := rfl
@[simp] theorem setLt_mcLog (s : State) (ts : Nat) : (s.setLt ts).mcLog = s.mcLog := rfl
@[simp] theorem setLt_objects (s : State) (ts : Nat) : (s.setLt ts).objects = s.objects := rfl
@[simp] theorem setLt_globalTs (s : State) (ts : Nat) : (s.setLt ts).globalTs = s.globalTs := rfl
@[simp] theorem setLt_acting (s : State) (ts : Nat) : (s.setLt ts).acting = s.acting := rfl
@[simp] theorem setLt_evals (s : State) (ts : Nat) : (s.setLt ts).evals = s.evals := rfl
@[simp] theorem setLt_bstats (s : State) (ts : Nat) : (s.setLt ts).bstats = s.bstats := rfl
@[simp] theorem setLt_boot (s : State) (ts : Nat) : (s.setLt ts).boot = s.boot := rfl
@[simp] theorem setLt_power (s : State) (ts : Nat) : (s.setLt ts).power = s.power := rfl
@[simp] theorem setLt_cycle (s : State) (ts : Nat) : (s.setLt ts).cycle = s.cycle := rfl
@[simp] theorem setLt_sched (s : State) (ts : Nat) : (s.setLt ts).sched = s.sched := rfl
@[simp] theorem setLt_cur (s : State) (ts : Nat) : (s.setLt ts).cur = s.cur := rfl
@[simp] theorem setLt_freeCtr (s : State) (ts : Nat) : (s.setLt ts).freeCtr = s.freeCtr := rfl

/-! ## acquire -/

@[simp] theorem acquire_mem (s : State) (ts : Nat) : (s.acquire ts).mem = s.mem := rfl
@[simp] theorem acquire_spires (s : State) (ts : Nat) : (s.acquire ts).spires = s.spires := rfl
@[simp] theorem acquire_domes (s : State) (ts : Nat) : (s.acquire ts).domes = s.domes := rfl
@[simp] theorem acquire_slices (s : State) (ts : Nat) : (s.acquire ts).slices = s.slices := rfl
@[simp] theorem acquire_lines (s : State) (ts : Nat) : (s.acquire ts).lines = s.lines := rfl
@[simp] theorem acquire_split (s : State) (ts : Nat) : (s.acquire ts).split = s.split := rfl
@[simp] theorem acquire_poison (s : State) (ts : Nat) : (s.acquire ts).poison = s.poison := rfl
@[simp] theorem acquire_hbm (s : State) (ts : Nat) : (s.acquire ts).hbm = s.hbm := rfl
@[simp] theorem acquire_packets (s : State) (ts : Nat) : (s.acquire ts).packets = s.packets := rfl
@[simp] theorem acquire_acks (s : State) (ts : Nat) : (s.acquire ts).acks = s.acks := rfl
@[simp] theorem acquire_landings (s : State) (ts : Nat) : (s.acquire ts).landings = s.landings := rfl
@[simp] theorem acquire_fifos (s : State) (ts : Nat) : (s.acquire ts).fifos = s.fifos := rfl
@[simp] theorem acquire_lstat (s : State) (ts : Nat) : (s.acquire ts).lstat = s.lstat := rfl
@[simp] theorem acquire_regions (s : State) (ts : Nat) : (s.acquire ts).regions = s.regions := rfl
@[simp] theorem acquire_regNext (s : State) (ts : Nat) : (s.acquire ts).regNext = s.regNext := rfl
@[simp] theorem acquire_seqNext (s : State) (ts : Nat) : (s.acquire ts).seqNext = s.seqNext := rfl
@[simp] theorem acquire_vtime (s : State) (ts : Nat) : (s.acquire ts).vtime = s.vtime := rfl
@[simp] theorem acquire_slotTable (s : State) (ts : Nat) : (s.acquire ts).slotTable = s.slotTable := rfl
@[simp] theorem acquire_armed (s : State) (ts : Nat) : (s.acquire ts).armed = s.armed := rfl
@[simp] theorem acquire_saved (s : State) (ts : Nat) : (s.acquire ts).saved = s.saved := rfl
@[simp] theorem acquire_semaphores (s : State) (ts : Nat) : (s.acquire ts).semaphores = s.semaphores := rfl
@[simp] theorem acquire_lastTie (s : State) (ts : Nat) : (s.acquire ts).lastTie = s.lastTie := rfl
@[simp] theorem acquire_msix (s : State) (ts : Nat) : (s.acquire ts).msix = s.msix := rfl
@[simp] theorem acquire_counters (s : State) (ts : Nat) : (s.acquire ts).counters = s.counters := rfl
@[simp] theorem acquire_trace (s : State) (ts : Nat) : (s.acquire ts).trace = s.trace := rfl
@[simp] theorem acquire_replies (s : State) (ts : Nat) : (s.acquire ts).replies = s.replies := rfl
@[simp] theorem acquire_commands (s : State) (ts : Nat) : (s.acquire ts).commands = s.commands := rfl
@[simp] theorem acquire_rejected (s : State) (ts : Nat) : (s.acquire ts).rejected = s.rejected := rfl
@[simp] theorem acquire_tenants (s : State) (ts : Nat) : (s.acquire ts).tenants = s.tenants := rfl
@[simp] theorem acquire_keepTable (s : State) (ts : Nat) : (s.acquire ts).keepTable = s.keepTable := rfl
@[simp] theorem acquire_masks (s : State) (ts : Nat) : (s.acquire ts).masks = s.masks := rfl
@[simp] theorem acquire_maskGrants (s : State) (ts : Nat) : (s.acquire ts).maskGrants = s.maskGrants := rfl
@[simp] theorem acquire_sysctl (s : State) (ts : Nat) : (s.acquire ts).sysctl = s.sysctl := rfl
@[simp] theorem acquire_config (s : State) (ts : Nat) : (s.acquire ts).config = s.config := rfl
@[simp] theorem acquire_flashVersion (s : State) (ts : Nat) : (s.acquire ts).flashVersion = s.flashVersion := rfl
@[simp] theorem acquire_ownerHash (s : State) (ts : Nat) : (s.acquire ts).ownerHash = s.ownerHash := rfl
@[simp] theorem acquire_faultQueue (s : State) (ts : Nat) : (s.acquire ts).faultQueue = s.faultQueue := rfl
@[simp] theorem acquire_badPages (s : State) (ts : Nat) : (s.acquire ts).badPages = s.badPages := rfl
@[simp] theorem acquire_badListOk (s : State) (ts : Nat) : (s.acquire ts).badListOk = s.badListOk := rfl
@[simp] theorem acquire_excluded (s : State) (ts : Nat) : (s.acquire ts).excluded = s.excluded := rfl
@[simp] theorem acquire_mcLog (s : State) (ts : Nat) : (s.acquire ts).mcLog = s.mcLog := rfl
@[simp] theorem acquire_objects (s : State) (ts : Nat) : (s.acquire ts).objects = s.objects := rfl
@[simp] theorem acquire_globalTs (s : State) (ts : Nat) : (s.acquire ts).globalTs = s.globalTs := rfl
@[simp] theorem acquire_acting (s : State) (ts : Nat) : (s.acquire ts).acting = s.acting := rfl
@[simp] theorem acquire_evals (s : State) (ts : Nat) : (s.acquire ts).evals = s.evals := rfl
@[simp] theorem acquire_bstats (s : State) (ts : Nat) : (s.acquire ts).bstats = s.bstats := rfl
@[simp] theorem acquire_boot (s : State) (ts : Nat) : (s.acquire ts).boot = s.boot := rfl
@[simp] theorem acquire_power (s : State) (ts : Nat) : (s.acquire ts).power = s.power := rfl
@[simp] theorem acquire_cycle (s : State) (ts : Nat) : (s.acquire ts).cycle = s.cycle := rfl
@[simp] theorem acquire_sched (s : State) (ts : Nat) : (s.acquire ts).sched = s.sched := rfl
@[simp] theorem acquire_cur (s : State) (ts : Nat) : (s.acquire ts).cur = s.cur := rfl
@[simp] theorem acquire_freeCtr (s : State) (ts : Nat) : (s.acquire ts).freeCtr = s.freeCtr := rfl

/-! ## waitOn -/

@[simp] theorem waitOn_mem (s : State) (w : WaitCond) : (s.waitOn w).mem = s.mem := rfl
@[simp] theorem waitOn_spires (s : State) (w : WaitCond) : (s.waitOn w).spires = s.spires := rfl
@[simp] theorem waitOn_domes (s : State) (w : WaitCond) : (s.waitOn w).domes = s.domes := rfl
@[simp] theorem waitOn_slices (s : State) (w : WaitCond) : (s.waitOn w).slices = s.slices := rfl
@[simp] theorem waitOn_lines (s : State) (w : WaitCond) : (s.waitOn w).lines = s.lines := rfl
@[simp] theorem waitOn_split (s : State) (w : WaitCond) : (s.waitOn w).split = s.split := rfl
@[simp] theorem waitOn_poison (s : State) (w : WaitCond) : (s.waitOn w).poison = s.poison := rfl
@[simp] theorem waitOn_hbm (s : State) (w : WaitCond) : (s.waitOn w).hbm = s.hbm := rfl
@[simp] theorem waitOn_packets (s : State) (w : WaitCond) : (s.waitOn w).packets = s.packets := rfl
@[simp] theorem waitOn_acks (s : State) (w : WaitCond) : (s.waitOn w).acks = s.acks := rfl
@[simp] theorem waitOn_landings (s : State) (w : WaitCond) : (s.waitOn w).landings = s.landings := rfl
@[simp] theorem waitOn_fifos (s : State) (w : WaitCond) : (s.waitOn w).fifos = s.fifos := rfl
@[simp] theorem waitOn_lstat (s : State) (w : WaitCond) : (s.waitOn w).lstat = s.lstat := rfl
@[simp] theorem waitOn_regions (s : State) (w : WaitCond) : (s.waitOn w).regions = s.regions := rfl
@[simp] theorem waitOn_regNext (s : State) (w : WaitCond) : (s.waitOn w).regNext = s.regNext := rfl
@[simp] theorem waitOn_seqNext (s : State) (w : WaitCond) : (s.waitOn w).seqNext = s.seqNext := rfl
@[simp] theorem waitOn_vtime (s : State) (w : WaitCond) : (s.waitOn w).vtime = s.vtime := rfl
@[simp] theorem waitOn_slotTable (s : State) (w : WaitCond) : (s.waitOn w).slotTable = s.slotTable := rfl
@[simp] theorem waitOn_armed (s : State) (w : WaitCond) : (s.waitOn w).armed = s.armed := rfl
@[simp] theorem waitOn_saved (s : State) (w : WaitCond) : (s.waitOn w).saved = s.saved := rfl
@[simp] theorem waitOn_semaphores (s : State) (w : WaitCond) : (s.waitOn w).semaphores = s.semaphores := rfl
@[simp] theorem waitOn_lastTie (s : State) (w : WaitCond) : (s.waitOn w).lastTie = s.lastTie := rfl
@[simp] theorem waitOn_msix (s : State) (w : WaitCond) : (s.waitOn w).msix = s.msix := rfl
@[simp] theorem waitOn_counters (s : State) (w : WaitCond) : (s.waitOn w).counters = s.counters := rfl
@[simp] theorem waitOn_trace (s : State) (w : WaitCond) : (s.waitOn w).trace = s.trace := rfl
@[simp] theorem waitOn_replies (s : State) (w : WaitCond) : (s.waitOn w).replies = s.replies := rfl
@[simp] theorem waitOn_commands (s : State) (w : WaitCond) : (s.waitOn w).commands = s.commands := rfl
@[simp] theorem waitOn_rejected (s : State) (w : WaitCond) : (s.waitOn w).rejected = s.rejected := rfl
@[simp] theorem waitOn_tenants (s : State) (w : WaitCond) : (s.waitOn w).tenants = s.tenants := rfl
@[simp] theorem waitOn_keepTable (s : State) (w : WaitCond) : (s.waitOn w).keepTable = s.keepTable := rfl
@[simp] theorem waitOn_masks (s : State) (w : WaitCond) : (s.waitOn w).masks = s.masks := rfl
@[simp] theorem waitOn_maskGrants (s : State) (w : WaitCond) : (s.waitOn w).maskGrants = s.maskGrants := rfl
@[simp] theorem waitOn_sysctl (s : State) (w : WaitCond) : (s.waitOn w).sysctl = s.sysctl := rfl
@[simp] theorem waitOn_config (s : State) (w : WaitCond) : (s.waitOn w).config = s.config := rfl
@[simp] theorem waitOn_flashVersion (s : State) (w : WaitCond) : (s.waitOn w).flashVersion = s.flashVersion := rfl
@[simp] theorem waitOn_ownerHash (s : State) (w : WaitCond) : (s.waitOn w).ownerHash = s.ownerHash := rfl
@[simp] theorem waitOn_faultQueue (s : State) (w : WaitCond) : (s.waitOn w).faultQueue = s.faultQueue := rfl
@[simp] theorem waitOn_badPages (s : State) (w : WaitCond) : (s.waitOn w).badPages = s.badPages := rfl
@[simp] theorem waitOn_badListOk (s : State) (w : WaitCond) : (s.waitOn w).badListOk = s.badListOk := rfl
@[simp] theorem waitOn_excluded (s : State) (w : WaitCond) : (s.waitOn w).excluded = s.excluded := rfl
@[simp] theorem waitOn_mcLog (s : State) (w : WaitCond) : (s.waitOn w).mcLog = s.mcLog := rfl
@[simp] theorem waitOn_objects (s : State) (w : WaitCond) : (s.waitOn w).objects = s.objects := rfl
@[simp] theorem waitOn_globalTs (s : State) (w : WaitCond) : (s.waitOn w).globalTs = s.globalTs := rfl
@[simp] theorem waitOn_acting (s : State) (w : WaitCond) : (s.waitOn w).acting = s.acting := rfl
@[simp] theorem waitOn_evals (s : State) (w : WaitCond) : (s.waitOn w).evals = s.evals := rfl
@[simp] theorem waitOn_bstats (s : State) (w : WaitCond) : (s.waitOn w).bstats = s.bstats := rfl
@[simp] theorem waitOn_boot (s : State) (w : WaitCond) : (s.waitOn w).boot = s.boot := rfl
@[simp] theorem waitOn_power (s : State) (w : WaitCond) : (s.waitOn w).power = s.power := rfl
@[simp] theorem waitOn_cycle (s : State) (w : WaitCond) : (s.waitOn w).cycle = s.cycle := rfl
@[simp] theorem waitOn_sched (s : State) (w : WaitCond) : (s.waitOn w).sched = s.sched := rfl
@[simp] theorem waitOn_cur (s : State) (w : WaitCond) : (s.waitOn w).cur = s.cur := rfl
@[simp] theorem waitOn_freeCtr (s : State) (w : WaitCond) : (s.waitOn w).freeCtr = s.freeCtr := rfl

/-! ## setReg -/

@[simp] theorem setReg_cores (s : State) (r : SReg) (x : Word) : (s.setReg r x).cores = s.cores := by unfold setReg; split <;> rfl
@[simp] theorem setReg_spires (s : State) (r : SReg) (x : Word) : (s.setReg r x).spires = s.spires := by unfold setReg; split <;> rfl
@[simp] theorem setReg_domes (s : State) (r : SReg) (x : Word) : (s.setReg r x).domes = s.domes := by unfold setReg; split <;> rfl
@[simp] theorem setReg_slices (s : State) (r : SReg) (x : Word) : (s.setReg r x).slices = s.slices := by unfold setReg; split <;> rfl
@[simp] theorem setReg_lines (s : State) (r : SReg) (x : Word) : (s.setReg r x).lines = s.lines := by unfold setReg; split <;> rfl
@[simp] theorem setReg_split (s : State) (r : SReg) (x : Word) : (s.setReg r x).split = s.split := by unfold setReg; split <;> rfl
@[simp] theorem setReg_poison (s : State) (r : SReg) (x : Word) : (s.setReg r x).poison = s.poison := by unfold setReg; split <;> rfl
@[simp] theorem setReg_hbm (s : State) (r : SReg) (x : Word) : (s.setReg r x).hbm = s.hbm := by unfold setReg; split <;> rfl
@[simp] theorem setReg_packets (s : State) (r : SReg) (x : Word) : (s.setReg r x).packets = s.packets := by unfold setReg; split <;> rfl
@[simp] theorem setReg_acks (s : State) (r : SReg) (x : Word) : (s.setReg r x).acks = s.acks := by unfold setReg; split <;> rfl
@[simp] theorem setReg_landings (s : State) (r : SReg) (x : Word) : (s.setReg r x).landings = s.landings := by unfold setReg; split <;> rfl
@[simp] theorem setReg_fifos (s : State) (r : SReg) (x : Word) : (s.setReg r x).fifos = s.fifos := by unfold setReg; split <;> rfl
@[simp] theorem setReg_lstat (s : State) (r : SReg) (x : Word) : (s.setReg r x).lstat = s.lstat := by unfold setReg; split <;> rfl
@[simp] theorem setReg_regions (s : State) (r : SReg) (x : Word) : (s.setReg r x).regions = s.regions := by unfold setReg; split <;> rfl
@[simp] theorem setReg_regNext (s : State) (r : SReg) (x : Word) : (s.setReg r x).regNext = s.regNext := by unfold setReg; split <;> rfl
@[simp] theorem setReg_seqNext (s : State) (r : SReg) (x : Word) : (s.setReg r x).seqNext = s.seqNext := by unfold setReg; split <;> rfl
@[simp] theorem setReg_vtime (s : State) (r : SReg) (x : Word) : (s.setReg r x).vtime = s.vtime := by unfold setReg; split <;> rfl
@[simp] theorem setReg_slotTable (s : State) (r : SReg) (x : Word) : (s.setReg r x).slotTable = s.slotTable := by unfold setReg; split <;> rfl
@[simp] theorem setReg_armed (s : State) (r : SReg) (x : Word) : (s.setReg r x).armed = s.armed := by unfold setReg; split <;> rfl
@[simp] theorem setReg_saved (s : State) (r : SReg) (x : Word) : (s.setReg r x).saved = s.saved := by unfold setReg; split <;> rfl
@[simp] theorem setReg_semaphores (s : State) (r : SReg) (x : Word) : (s.setReg r x).semaphores = s.semaphores := by unfold setReg; split <;> rfl
@[simp] theorem setReg_lastTie (s : State) (r : SReg) (x : Word) : (s.setReg r x).lastTie = s.lastTie := by unfold setReg; split <;> rfl
@[simp] theorem setReg_msix (s : State) (r : SReg) (x : Word) : (s.setReg r x).msix = s.msix := by unfold setReg; split <;> rfl
@[simp] theorem setReg_counters (s : State) (r : SReg) (x : Word) : (s.setReg r x).counters = s.counters := by unfold setReg; split <;> rfl
@[simp] theorem setReg_trace (s : State) (r : SReg) (x : Word) : (s.setReg r x).trace = s.trace := by unfold setReg; split <;> rfl
@[simp] theorem setReg_replies (s : State) (r : SReg) (x : Word) : (s.setReg r x).replies = s.replies := by unfold setReg; split <;> rfl
@[simp] theorem setReg_commands (s : State) (r : SReg) (x : Word) : (s.setReg r x).commands = s.commands := by unfold setReg; split <;> rfl
@[simp] theorem setReg_rejected (s : State) (r : SReg) (x : Word) : (s.setReg r x).rejected = s.rejected := by unfold setReg; split <;> rfl
@[simp] theorem setReg_tenants (s : State) (r : SReg) (x : Word) : (s.setReg r x).tenants = s.tenants := by unfold setReg; split <;> rfl
@[simp] theorem setReg_keepTable (s : State) (r : SReg) (x : Word) : (s.setReg r x).keepTable = s.keepTable := by unfold setReg; split <;> rfl
@[simp] theorem setReg_masks (s : State) (r : SReg) (x : Word) : (s.setReg r x).masks = s.masks := by unfold setReg; split <;> rfl
@[simp] theorem setReg_maskGrants (s : State) (r : SReg) (x : Word) : (s.setReg r x).maskGrants = s.maskGrants := by unfold setReg; split <;> rfl
@[simp] theorem setReg_sysctl (s : State) (r : SReg) (x : Word) : (s.setReg r x).sysctl = s.sysctl := by unfold setReg; split <;> rfl
@[simp] theorem setReg_config (s : State) (r : SReg) (x : Word) : (s.setReg r x).config = s.config := by unfold setReg; split <;> rfl
@[simp] theorem setReg_flashVersion (s : State) (r : SReg) (x : Word) : (s.setReg r x).flashVersion = s.flashVersion := by unfold setReg; split <;> rfl
@[simp] theorem setReg_ownerHash (s : State) (r : SReg) (x : Word) : (s.setReg r x).ownerHash = s.ownerHash := by unfold setReg; split <;> rfl
@[simp] theorem setReg_faultQueue (s : State) (r : SReg) (x : Word) : (s.setReg r x).faultQueue = s.faultQueue := by unfold setReg; split <;> rfl
@[simp] theorem setReg_badPages (s : State) (r : SReg) (x : Word) : (s.setReg r x).badPages = s.badPages := by unfold setReg; split <;> rfl
@[simp] theorem setReg_badListOk (s : State) (r : SReg) (x : Word) : (s.setReg r x).badListOk = s.badListOk := by unfold setReg; split <;> rfl
@[simp] theorem setReg_excluded (s : State) (r : SReg) (x : Word) : (s.setReg r x).excluded = s.excluded := by unfold setReg; split <;> rfl
@[simp] theorem setReg_mcLog (s : State) (r : SReg) (x : Word) : (s.setReg r x).mcLog = s.mcLog := by unfold setReg; split <;> rfl
@[simp] theorem setReg_objects (s : State) (r : SReg) (x : Word) : (s.setReg r x).objects = s.objects := by unfold setReg; split <;> rfl
@[simp] theorem setReg_globalTs (s : State) (r : SReg) (x : Word) : (s.setReg r x).globalTs = s.globalTs := by unfold setReg; split <;> rfl
@[simp] theorem setReg_acting (s : State) (r : SReg) (x : Word) : (s.setReg r x).acting = s.acting := by unfold setReg; split <;> rfl
@[simp] theorem setReg_evals (s : State) (r : SReg) (x : Word) : (s.setReg r x).evals = s.evals := by unfold setReg; split <;> rfl
@[simp] theorem setReg_bstats (s : State) (r : SReg) (x : Word) : (s.setReg r x).bstats = s.bstats := by unfold setReg; split <;> rfl
@[simp] theorem setReg_boot (s : State) (r : SReg) (x : Word) : (s.setReg r x).boot = s.boot := by unfold setReg; split <;> rfl
@[simp] theorem setReg_power (s : State) (r : SReg) (x : Word) : (s.setReg r x).power = s.power := by unfold setReg; split <;> rfl
@[simp] theorem setReg_cycle (s : State) (r : SReg) (x : Word) : (s.setReg r x).cycle = s.cycle := by unfold setReg; split <;> rfl
@[simp] theorem setReg_sched (s : State) (r : SReg) (x : Word) : (s.setReg r x).sched = s.sched := by unfold setReg; split <;> rfl
@[simp] theorem setReg_cur (s : State) (r : SReg) (x : Word) : (s.setReg r x).cur = s.cur := by unfold setReg; split <;> rfl
@[simp] theorem setReg_freeCtr (s : State) (r : SReg) (x : Word) : (s.setReg r x).freeCtr = s.freeCtr := by unfold setReg; split <;> rfl

/-! ## setPred -/

@[simp] theorem setPred_cores (s : State) (r : PReg) (x : BitVec 32) : (s.setPred r x).cores = s.cores := by unfold setPred; split <;> simp only
@[simp] theorem setPred_spires (s : State) (r : PReg) (x : BitVec 32) : (s.setPred r x).spires = s.spires := by unfold setPred; split <;> simp only
@[simp] theorem setPred_domes (s : State) (r : PReg) (x : BitVec 32) : (s.setPred r x).domes = s.domes := by unfold setPred; split <;> simp only
@[simp] theorem setPred_slices (s : State) (r : PReg) (x : BitVec 32) : (s.setPred r x).slices = s.slices := by unfold setPred; split <;> simp only
@[simp] theorem setPred_lines (s : State) (r : PReg) (x : BitVec 32) : (s.setPred r x).lines = s.lines := by unfold setPred; split <;> simp only
@[simp] theorem setPred_split (s : State) (r : PReg) (x : BitVec 32) : (s.setPred r x).split = s.split := by unfold setPred; split <;> simp only
@[simp] theorem setPred_poison (s : State) (r : PReg) (x : BitVec 32) : (s.setPred r x).poison = s.poison := by unfold setPred; split <;> simp only
@[simp] theorem setPred_hbm (s : State) (r : PReg) (x : BitVec 32) : (s.setPred r x).hbm = s.hbm := by unfold setPred; split <;> simp only
@[simp] theorem setPred_packets (s : State) (r : PReg) (x : BitVec 32) : (s.setPred r x).packets = s.packets := by unfold setPred; split <;> simp only
@[simp] theorem setPred_acks (s : State) (r : PReg) (x : BitVec 32) : (s.setPred r x).acks = s.acks := by unfold setPred; split <;> simp only
@[simp] theorem setPred_landings (s : State) (r : PReg) (x : BitVec 32) : (s.setPred r x).landings = s.landings := by unfold setPred; split <;> simp only
@[simp] theorem setPred_fifos (s : State) (r : PReg) (x : BitVec 32) : (s.setPred r x).fifos = s.fifos := by unfold setPred; split <;> simp only
@[simp] theorem setPred_lstat (s : State) (r : PReg) (x : BitVec 32) : (s.setPred r x).lstat = s.lstat := by unfold setPred; split <;> simp only
@[simp] theorem setPred_regions (s : State) (r : PReg) (x : BitVec 32) : (s.setPred r x).regions = s.regions := by unfold setPred; split <;> simp only
@[simp] theorem setPred_regNext (s : State) (r : PReg) (x : BitVec 32) : (s.setPred r x).regNext = s.regNext := by unfold setPred; split <;> simp only
@[simp] theorem setPred_seqNext (s : State) (r : PReg) (x : BitVec 32) : (s.setPred r x).seqNext = s.seqNext := by unfold setPred; split <;> simp only
@[simp] theorem setPred_vtime (s : State) (r : PReg) (x : BitVec 32) : (s.setPred r x).vtime = s.vtime := by unfold setPred; split <;> simp only
@[simp] theorem setPred_slotTable (s : State) (r : PReg) (x : BitVec 32) : (s.setPred r x).slotTable = s.slotTable := by unfold setPred; split <;> simp only
@[simp] theorem setPred_armed (s : State) (r : PReg) (x : BitVec 32) : (s.setPred r x).armed = s.armed := by unfold setPred; split <;> simp only
@[simp] theorem setPred_saved (s : State) (r : PReg) (x : BitVec 32) : (s.setPred r x).saved = s.saved := by unfold setPred; split <;> simp only
@[simp] theorem setPred_semaphores (s : State) (r : PReg) (x : BitVec 32) : (s.setPred r x).semaphores = s.semaphores := by unfold setPred; split <;> simp only
@[simp] theorem setPred_lastTie (s : State) (r : PReg) (x : BitVec 32) : (s.setPred r x).lastTie = s.lastTie := by unfold setPred; split <;> simp only
@[simp] theorem setPred_msix (s : State) (r : PReg) (x : BitVec 32) : (s.setPred r x).msix = s.msix := by unfold setPred; split <;> simp only
@[simp] theorem setPred_counters (s : State) (r : PReg) (x : BitVec 32) : (s.setPred r x).counters = s.counters := by unfold setPred; split <;> simp only
@[simp] theorem setPred_trace (s : State) (r : PReg) (x : BitVec 32) : (s.setPred r x).trace = s.trace := by unfold setPred; split <;> simp only
@[simp] theorem setPred_replies (s : State) (r : PReg) (x : BitVec 32) : (s.setPred r x).replies = s.replies := by unfold setPred; split <;> simp only
@[simp] theorem setPred_commands (s : State) (r : PReg) (x : BitVec 32) : (s.setPred r x).commands = s.commands := by unfold setPred; split <;> simp only
@[simp] theorem setPred_rejected (s : State) (r : PReg) (x : BitVec 32) : (s.setPred r x).rejected = s.rejected := by unfold setPred; split <;> simp only
@[simp] theorem setPred_tenants (s : State) (r : PReg) (x : BitVec 32) : (s.setPred r x).tenants = s.tenants := by unfold setPred; split <;> simp only
@[simp] theorem setPred_keepTable (s : State) (r : PReg) (x : BitVec 32) : (s.setPred r x).keepTable = s.keepTable := by unfold setPred; split <;> simp only
@[simp] theorem setPred_masks (s : State) (r : PReg) (x : BitVec 32) : (s.setPred r x).masks = s.masks := by unfold setPred; split <;> simp only
@[simp] theorem setPred_maskGrants (s : State) (r : PReg) (x : BitVec 32) : (s.setPred r x).maskGrants = s.maskGrants := by unfold setPred; split <;> simp only
@[simp] theorem setPred_sysctl (s : State) (r : PReg) (x : BitVec 32) : (s.setPred r x).sysctl = s.sysctl := by unfold setPred; split <;> simp only
@[simp] theorem setPred_config (s : State) (r : PReg) (x : BitVec 32) : (s.setPred r x).config = s.config := by unfold setPred; split <;> simp only
@[simp] theorem setPred_flashVersion (s : State) (r : PReg) (x : BitVec 32) : (s.setPred r x).flashVersion = s.flashVersion := by unfold setPred; split <;> simp only
@[simp] theorem setPred_ownerHash (s : State) (r : PReg) (x : BitVec 32) : (s.setPred r x).ownerHash = s.ownerHash := by unfold setPred; split <;> simp only
@[simp] theorem setPred_faultQueue (s : State) (r : PReg) (x : BitVec 32) : (s.setPred r x).faultQueue = s.faultQueue := by unfold setPred; split <;> simp only
@[simp] theorem setPred_badPages (s : State) (r : PReg) (x : BitVec 32) : (s.setPred r x).badPages = s.badPages := by unfold setPred; split <;> simp only
@[simp] theorem setPred_badListOk (s : State) (r : PReg) (x : BitVec 32) : (s.setPred r x).badListOk = s.badListOk := by unfold setPred; split <;> simp only
@[simp] theorem setPred_excluded (s : State) (r : PReg) (x : BitVec 32) : (s.setPred r x).excluded = s.excluded := by unfold setPred; split <;> simp only
@[simp] theorem setPred_mcLog (s : State) (r : PReg) (x : BitVec 32) : (s.setPred r x).mcLog = s.mcLog := by unfold setPred; split <;> simp only
@[simp] theorem setPred_objects (s : State) (r : PReg) (x : BitVec 32) : (s.setPred r x).objects = s.objects := by unfold setPred; split <;> simp only
@[simp] theorem setPred_globalTs (s : State) (r : PReg) (x : BitVec 32) : (s.setPred r x).globalTs = s.globalTs := by unfold setPred; split <;> simp only
@[simp] theorem setPred_acting (s : State) (r : PReg) (x : BitVec 32) : (s.setPred r x).acting = s.acting := by unfold setPred; split <;> simp only
@[simp] theorem setPred_evals (s : State) (r : PReg) (x : BitVec 32) : (s.setPred r x).evals = s.evals := by unfold setPred; split <;> simp only
@[simp] theorem setPred_bstats (s : State) (r : PReg) (x : BitVec 32) : (s.setPred r x).bstats = s.bstats := by unfold setPred; split <;> simp only
@[simp] theorem setPred_boot (s : State) (r : PReg) (x : BitVec 32) : (s.setPred r x).boot = s.boot := by unfold setPred; split <;> simp only
@[simp] theorem setPred_power (s : State) (r : PReg) (x : BitVec 32) : (s.setPred r x).power = s.power := by unfold setPred; split <;> simp only
@[simp] theorem setPred_cycle (s : State) (r : PReg) (x : BitVec 32) : (s.setPred r x).cycle = s.cycle := by unfold setPred; split <;> simp only
@[simp] theorem setPred_sched (s : State) (r : PReg) (x : BitVec 32) : (s.setPred r x).sched = s.sched := by unfold setPred; split <;> simp only
@[simp] theorem setPred_cur (s : State) (r : PReg) (x : BitVec 32) : (s.setPred r x).cur = s.cur := by unfold setPred; split <;> simp only
@[simp] theorem setPred_freeCtr (s : State) (r : PReg) (x : BitVec 32) : (s.setPred r x).freeCtr = s.freeCtr := by unfold setPred; split <;> simp only

/-! ## countFor -/

@[simp] theorem countFor_mem (s : State) (t i n : Nat) : (s.countFor t i n).mem = s.mem := rfl
@[simp] theorem countFor_cores (s : State) (t i n : Nat) : (s.countFor t i n).cores = s.cores := rfl
@[simp] theorem countFor_spires (s : State) (t i n : Nat) : (s.countFor t i n).spires = s.spires := rfl
@[simp] theorem countFor_domes (s : State) (t i n : Nat) : (s.countFor t i n).domes = s.domes := rfl
@[simp] theorem countFor_slices (s : State) (t i n : Nat) : (s.countFor t i n).slices = s.slices := rfl
@[simp] theorem countFor_lines (s : State) (t i n : Nat) : (s.countFor t i n).lines = s.lines := rfl
@[simp] theorem countFor_split (s : State) (t i n : Nat) : (s.countFor t i n).split = s.split := rfl
@[simp] theorem countFor_poison (s : State) (t i n : Nat) : (s.countFor t i n).poison = s.poison := rfl
@[simp] theorem countFor_hbm (s : State) (t i n : Nat) : (s.countFor t i n).hbm = s.hbm := rfl
@[simp] theorem countFor_packets (s : State) (t i n : Nat) : (s.countFor t i n).packets = s.packets := rfl
@[simp] theorem countFor_acks (s : State) (t i n : Nat) : (s.countFor t i n).acks = s.acks := rfl
@[simp] theorem countFor_landings (s : State) (t i n : Nat) : (s.countFor t i n).landings = s.landings := rfl
@[simp] theorem countFor_fifos (s : State) (t i n : Nat) : (s.countFor t i n).fifos = s.fifos := rfl
@[simp] theorem countFor_lstat (s : State) (t i n : Nat) : (s.countFor t i n).lstat = s.lstat := rfl
@[simp] theorem countFor_regions (s : State) (t i n : Nat) : (s.countFor t i n).regions = s.regions := rfl
@[simp] theorem countFor_regNext (s : State) (t i n : Nat) : (s.countFor t i n).regNext = s.regNext := rfl
@[simp] theorem countFor_seqNext (s : State) (t i n : Nat) : (s.countFor t i n).seqNext = s.seqNext := rfl
@[simp] theorem countFor_vtime (s : State) (t i n : Nat) : (s.countFor t i n).vtime = s.vtime := rfl
@[simp] theorem countFor_slotTable (s : State) (t i n : Nat) : (s.countFor t i n).slotTable = s.slotTable := rfl
@[simp] theorem countFor_armed (s : State) (t i n : Nat) : (s.countFor t i n).armed = s.armed := rfl
@[simp] theorem countFor_saved (s : State) (t i n : Nat) : (s.countFor t i n).saved = s.saved := rfl
@[simp] theorem countFor_semaphores (s : State) (t i n : Nat) : (s.countFor t i n).semaphores = s.semaphores := rfl
@[simp] theorem countFor_lastTie (s : State) (t i n : Nat) : (s.countFor t i n).lastTie = s.lastTie := rfl
@[simp] theorem countFor_msix (s : State) (t i n : Nat) : (s.countFor t i n).msix = s.msix := rfl
@[simp] theorem countFor_trace (s : State) (t i n : Nat) : (s.countFor t i n).trace = s.trace := rfl
@[simp] theorem countFor_replies (s : State) (t i n : Nat) : (s.countFor t i n).replies = s.replies := rfl
@[simp] theorem countFor_commands (s : State) (t i n : Nat) : (s.countFor t i n).commands = s.commands := rfl
@[simp] theorem countFor_rejected (s : State) (t i n : Nat) : (s.countFor t i n).rejected = s.rejected := rfl
@[simp] theorem countFor_tenants (s : State) (t i n : Nat) : (s.countFor t i n).tenants = s.tenants := rfl
@[simp] theorem countFor_keepTable (s : State) (t i n : Nat) : (s.countFor t i n).keepTable = s.keepTable := rfl
@[simp] theorem countFor_masks (s : State) (t i n : Nat) : (s.countFor t i n).masks = s.masks := rfl
@[simp] theorem countFor_maskGrants (s : State) (t i n : Nat) : (s.countFor t i n).maskGrants = s.maskGrants := rfl
@[simp] theorem countFor_sysctl (s : State) (t i n : Nat) : (s.countFor t i n).sysctl = s.sysctl := rfl
@[simp] theorem countFor_config (s : State) (t i n : Nat) : (s.countFor t i n).config = s.config := rfl
@[simp] theorem countFor_flashVersion (s : State) (t i n : Nat) : (s.countFor t i n).flashVersion = s.flashVersion := rfl
@[simp] theorem countFor_ownerHash (s : State) (t i n : Nat) : (s.countFor t i n).ownerHash = s.ownerHash := rfl
@[simp] theorem countFor_faultQueue (s : State) (t i n : Nat) : (s.countFor t i n).faultQueue = s.faultQueue := rfl
@[simp] theorem countFor_badPages (s : State) (t i n : Nat) : (s.countFor t i n).badPages = s.badPages := rfl
@[simp] theorem countFor_badListOk (s : State) (t i n : Nat) : (s.countFor t i n).badListOk = s.badListOk := rfl
@[simp] theorem countFor_excluded (s : State) (t i n : Nat) : (s.countFor t i n).excluded = s.excluded := rfl
@[simp] theorem countFor_mcLog (s : State) (t i n : Nat) : (s.countFor t i n).mcLog = s.mcLog := rfl
@[simp] theorem countFor_objects (s : State) (t i n : Nat) : (s.countFor t i n).objects = s.objects := rfl
@[simp] theorem countFor_globalTs (s : State) (t i n : Nat) : (s.countFor t i n).globalTs = s.globalTs := rfl
@[simp] theorem countFor_acting (s : State) (t i n : Nat) : (s.countFor t i n).acting = s.acting := rfl
@[simp] theorem countFor_evals (s : State) (t i n : Nat) : (s.countFor t i n).evals = s.evals := rfl
@[simp] theorem countFor_bstats (s : State) (t i n : Nat) : (s.countFor t i n).bstats = s.bstats := rfl
@[simp] theorem countFor_boot (s : State) (t i n : Nat) : (s.countFor t i n).boot = s.boot := rfl
@[simp] theorem countFor_power (s : State) (t i n : Nat) : (s.countFor t i n).power = s.power := rfl
@[simp] theorem countFor_cycle (s : State) (t i n : Nat) : (s.countFor t i n).cycle = s.cycle := rfl
@[simp] theorem countFor_sched (s : State) (t i n : Nat) : (s.countFor t i n).sched = s.sched := rfl
@[simp] theorem countFor_cur (s : State) (t i n : Nat) : (s.countFor t i n).cur = s.cur := rfl
@[simp] theorem countFor_freeCtr (s : State) (t i n : Nat) : (s.countFor t i n).freeCtr = s.freeCtr := rfl

/-! ## count -/

@[simp] theorem count_mem (s : State) (i n : Nat) : (s.count i n).mem = s.mem := rfl
@[simp] theorem count_cores (s : State) (i n : Nat) : (s.count i n).cores = s.cores := rfl
@[simp] theorem count_spires (s : State) (i n : Nat) : (s.count i n).spires = s.spires := rfl
@[simp] theorem count_domes (s : State) (i n : Nat) : (s.count i n).domes = s.domes := rfl
@[simp] theorem count_slices (s : State) (i n : Nat) : (s.count i n).slices = s.slices := rfl
@[simp] theorem count_lines (s : State) (i n : Nat) : (s.count i n).lines = s.lines := rfl
@[simp] theorem count_split (s : State) (i n : Nat) : (s.count i n).split = s.split := rfl
@[simp] theorem count_poison (s : State) (i n : Nat) : (s.count i n).poison = s.poison := rfl
@[simp] theorem count_hbm (s : State) (i n : Nat) : (s.count i n).hbm = s.hbm := rfl
@[simp] theorem count_packets (s : State) (i n : Nat) : (s.count i n).packets = s.packets := rfl
@[simp] theorem count_acks (s : State) (i n : Nat) : (s.count i n).acks = s.acks := rfl
@[simp] theorem count_landings (s : State) (i n : Nat) : (s.count i n).landings = s.landings := rfl
@[simp] theorem count_fifos (s : State) (i n : Nat) : (s.count i n).fifos = s.fifos := rfl
@[simp] theorem count_lstat (s : State) (i n : Nat) : (s.count i n).lstat = s.lstat := rfl
@[simp] theorem count_regions (s : State) (i n : Nat) : (s.count i n).regions = s.regions := rfl
@[simp] theorem count_regNext (s : State) (i n : Nat) : (s.count i n).regNext = s.regNext := rfl
@[simp] theorem count_seqNext (s : State) (i n : Nat) : (s.count i n).seqNext = s.seqNext := rfl
@[simp] theorem count_vtime (s : State) (i n : Nat) : (s.count i n).vtime = s.vtime := rfl
@[simp] theorem count_slotTable (s : State) (i n : Nat) : (s.count i n).slotTable = s.slotTable := rfl
@[simp] theorem count_armed (s : State) (i n : Nat) : (s.count i n).armed = s.armed := rfl
@[simp] theorem count_saved (s : State) (i n : Nat) : (s.count i n).saved = s.saved := rfl
@[simp] theorem count_semaphores (s : State) (i n : Nat) : (s.count i n).semaphores = s.semaphores := rfl
@[simp] theorem count_lastTie (s : State) (i n : Nat) : (s.count i n).lastTie = s.lastTie := rfl
@[simp] theorem count_msix (s : State) (i n : Nat) : (s.count i n).msix = s.msix := rfl
@[simp] theorem count_trace (s : State) (i n : Nat) : (s.count i n).trace = s.trace := rfl
@[simp] theorem count_replies (s : State) (i n : Nat) : (s.count i n).replies = s.replies := rfl
@[simp] theorem count_commands (s : State) (i n : Nat) : (s.count i n).commands = s.commands := rfl
@[simp] theorem count_rejected (s : State) (i n : Nat) : (s.count i n).rejected = s.rejected := rfl
@[simp] theorem count_tenants (s : State) (i n : Nat) : (s.count i n).tenants = s.tenants := rfl
@[simp] theorem count_keepTable (s : State) (i n : Nat) : (s.count i n).keepTable = s.keepTable := rfl
@[simp] theorem count_masks (s : State) (i n : Nat) : (s.count i n).masks = s.masks := rfl
@[simp] theorem count_maskGrants (s : State) (i n : Nat) : (s.count i n).maskGrants = s.maskGrants := rfl
@[simp] theorem count_sysctl (s : State) (i n : Nat) : (s.count i n).sysctl = s.sysctl := rfl
@[simp] theorem count_config (s : State) (i n : Nat) : (s.count i n).config = s.config := rfl
@[simp] theorem count_flashVersion (s : State) (i n : Nat) : (s.count i n).flashVersion = s.flashVersion := rfl
@[simp] theorem count_ownerHash (s : State) (i n : Nat) : (s.count i n).ownerHash = s.ownerHash := rfl
@[simp] theorem count_faultQueue (s : State) (i n : Nat) : (s.count i n).faultQueue = s.faultQueue := rfl
@[simp] theorem count_badPages (s : State) (i n : Nat) : (s.count i n).badPages = s.badPages := rfl
@[simp] theorem count_badListOk (s : State) (i n : Nat) : (s.count i n).badListOk = s.badListOk := rfl
@[simp] theorem count_excluded (s : State) (i n : Nat) : (s.count i n).excluded = s.excluded := rfl
@[simp] theorem count_mcLog (s : State) (i n : Nat) : (s.count i n).mcLog = s.mcLog := rfl
@[simp] theorem count_objects (s : State) (i n : Nat) : (s.count i n).objects = s.objects := rfl
@[simp] theorem count_globalTs (s : State) (i n : Nat) : (s.count i n).globalTs = s.globalTs := rfl
@[simp] theorem count_acting (s : State) (i n : Nat) : (s.count i n).acting = s.acting := rfl
@[simp] theorem count_evals (s : State) (i n : Nat) : (s.count i n).evals = s.evals := rfl
@[simp] theorem count_bstats (s : State) (i n : Nat) : (s.count i n).bstats = s.bstats := rfl
@[simp] theorem count_boot (s : State) (i n : Nat) : (s.count i n).boot = s.boot := rfl
@[simp] theorem count_power (s : State) (i n : Nat) : (s.count i n).power = s.power := rfl
@[simp] theorem count_cycle (s : State) (i n : Nat) : (s.count i n).cycle = s.cycle := rfl
@[simp] theorem count_sched (s : State) (i n : Nat) : (s.count i n).sched = s.sched := rfl
@[simp] theorem count_cur (s : State) (i n : Nat) : (s.count i n).cur = s.cur := rfl
@[simp] theorem count_freeCtr (s : State) (i n : Nat) : (s.count i n).freeCtr = s.freeCtr := rfl

end Sys2Proof.Machine.State
end

