-- ==== Sys2Proof/Laws/Tab.lean ====
section
/-!
SUPPORT. Tables: what is read after a write, and the record of the current core after each way of changing it. Storage
stays in canonical form under the writes to registers, workspace words and bytes.
-/

namespace Sys2Proof.Machine

open Sys2Proof

namespace Tab

theorem find_put_same {α : Type} (t : Tab α) (k : Nat) (x : α) : Tab.find? (Tab.put t k x) k = some x := by
  induction t with
  | nil => simp [Tab.put, Tab.find?]
  | cons h t ih =>
    obtain ⟨k', y⟩ := h
    simp only [Tab.put]
    split_ifs with h1 h2
    · simp [Tab.find?]
    · simp [Tab.find?]
    · simp [Tab.find?, h1, h2, ih]

theorem find_put_other {α : Type} (t : Tab α) {k k' : Nat} (x : α) (h : k' ≠ k) : Tab.find? (Tab.put t k x) k' = Tab.find? t k' := by
  induction t with
  | nil => simp [Tab.put, Tab.find?, h]
  | cons y t ih =>
    obtain ⟨j, y⟩ := y
    simp only [Tab.put]
    split_ifs with h1 h2
    · simp only [Tab.find?]
      split_ifs <;> first | rfl | omega
    · subst h2
      simp [Tab.find?, h]
    · simp only [Tab.find?, ih]

@[simp] theorem get_put_same {α : Type} (t : Tab α) (k : Nat) (x d : α) : Tab.get (Tab.put t k x) k d = x := by
  simp [Tab.get, find_put_same]

theorem get_put_other {α : Type} (t : Tab α) {k k' : Nat} (x d : α) (h : k' ≠ k) : Tab.get (Tab.put t k x) k' d = Tab.get t k' d := by
  simp [Tab.get, find_put_other t x h]

end Tab

namespace State

@[simp] theorem coreAt_setCoreAt_same (s : State) (c : Nat) (k : Core) : (s.setCoreAt c k).coreAt c = k := by simp [coreAt, setCoreAt]

theorem coreAt_setCoreAt_other (s : State) {c c' : Nat} (k : Core) (h : c' ≠ c) : (s.setCoreAt c k).coreAt c' = s.coreAt c' := by
  simp [coreAt, setCoreAt, Tab.get_put_other _ _ _ h]

@[simp] theorem spireAt_setSpireAt_same (s : State) (n : Nat) (x : Spire) : (s.setSpireAt n x).spireAt n = x := by simp [spireAt, setSpireAt]

theorem spireAt_setSpireAt_other (s : State) {n n' : Nat} (x : Spire) (h : n' ≠ n) : (s.setSpireAt n x).spireAt n' = s.spireAt n' := by
  simp [spireAt, setSpireAt, Tab.get_put_other _ _ _ h]

@[simp] theorem domeAt_setDomeAt_same (s : State) (d : Nat) (x : Dome) : (s.setDomeAt d x).domeAt d = x := by simp [domeAt, setDomeAt]

theorem domeAt_setDomeAt_other (s : State) {d d' : Nat} (x : Dome) (h : d' ≠ d) : (s.setDomeAt d x).domeAt d' = s.domeAt d' := by
  simp [domeAt, setDomeAt, Tab.get_put_other _ _ _ h]

@[simp] theorem sliceAt_setSliceAt_same (s : State) (n : Nat) (x : Slice) : (s.setSliceAt n x).sliceAt n = x := by simp [sliceAt, setSliceAt]

@[simp] theorem core_onCore (s : State) (f : Core → Core) : (s.onCore f).core = f s.core := by
  simp [core, onCore, setCore]

theorem coreAt_onCore_other (s : State) (f : Core → Core) {c : Nat} (h : c ≠ s.cur) : (s.onCore f).coreAt c = s.coreAt c :=
  s.coreAt_setCoreAt_other _ h

@[simp] theorem core_setLt (s : State) (ts : Nat) : (s.setLt ts).core = { s.core with lt := ts } := by simp [setLt]

/-- What reading landed tokens changes: the logical time and the list of tokens (15_consistency R299). -/
theorem acquireTokens_core (s : State) (i : Instr) :
    (s.acquireTokens i).core = { s.core with landed := (s.acquireTokens i).core.landed, lt := (s.acquireTokens i).core.lt } := by
  unfold acquireTokens
  dsimp only
  split <;> simp [acquire]

theorem acquireTokens_frame (s : State) (i : Instr) : s.acquireTokens i = { s with cores := (s.acquireTokens i).cores } := by
  unfold acquireTokens
  dsimp only
  split <;> rfl

theorem acquireTokens_other (s : State) (i : Instr) {c : Nat} (h : c ≠ s.cur) : (s.acquireTokens i).coreAt c = s.coreAt c := by
  unfold acquireTokens
  dsimp only
  split
  · rfl
  · exact (coreAt_onCore_other (s.onCore _) _ h).trans (coreAt_onCore_other s _ h)

/-- An instruction that names no landed token acquires nothing. -/
theorem acquireTokens_none {s : State} (i : Instr) (h : s.core.landed = []) : s.acquireTokens i = s := by
  simp [acquireTokens, h]

@[simp] theorem acquireTokens_follower (s : State) (i : Instr) : (s.acquireTokens i).core.follower = s.core.follower := by
  rw [acquireTokens_core]
  rfl

/-! ## Storage stays in canonical form -/

theorem wf_setWord {s : State} (h : Mem.wf s.mem = true) (off : Nat) (x : Word) : Mem.wf (s.setWord off x).mem = true := Mem.wf_store h _ _ _

theorem wf_setReg {s : State} (h : Mem.wf s.mem = true) (r : SReg) (x : Word) : Mem.wf (s.setReg r x).mem = true := by
  unfold setReg
  split
  · exact h
  · exact wf_setWord h _ _

theorem wf_setVreg {s : State} (h : Mem.wf s.mem = true) (r : VReg) (x : VWord) : Mem.wf (s.setVreg r x).mem = true := by
  simp only [setVreg]
  exact Mem.wf_store h _ _ _

theorem wf_setPred {s : State} (h : Mem.wf s.mem = true) (r : PReg) (x : BitVec 32) : Mem.wf (s.setPred r x).mem = true := by
  unfold setPred
  split
  · exact h
  · exact Mem.wf_store h _ _ _

@[simp] theorem touchRow_mem (s : State) (loc : Nat) : (s.touchRow loc).mem = s.mem := by
  unfold touchRow
  split <;> rfl

@[simp] theorem touch_mem (s : State) (loc : Nat) : (s.touch loc).mem = s.mem := by
  unfold touch
  split
  · split
    · split <;> rfl
    · rfl
  · exact touchRow_mem s loc

@[simp] theorem clean_mem (s : State) (loc n : Nat) : (s.clean loc n).mem = s.mem := by
  simp only [clean, apply_ite State.mem, ite_self]

theorem foldl_mem {α : Type} (f : State → α → State) (hf : ∀ s x, (f s x).mem = s.mem) : ∀ (xs : List α) (s : State), (xs.foldl f s).mem = s.mem
  | [], _ => rfl
  | x :: xs, s => by rw [List.foldl_cons, foldl_mem f hf xs, hf]

@[simp] theorem cleanSpans_mem (s : State) (xs : List (Nat × Nat)) : (s.cleanSpans xs).mem = s.mem := by
  unfold cleanSpans
  split
  · rfl
  · refine foldl_mem _ (fun s x => ?_) xs s
    simp only [apply_ite State.mem, clean_mem, ite_self]

@[simp] theorem cleanRange_mem (s : State) (base len : Nat) : (s.cleanRange base len).mem = s.mem := by
  unfold cleanRange
  refine foldl_mem _ (fun s x => ?_) _ s
  dsimp only
  split
  · exact clean_mem _ _ _
  · rfl

theorem poke_mem {w : Nat} (s : State) (loc n : Nat) (x : BitVec w) :
    (s.poke loc n x).mem = Mem.store s.mem (((s.touch loc).clean loc n).storeLoc loc) n x := by simp [poke]

theorem wf_poke {w : Nat} {s : State} (h : Mem.wf s.mem = true) (loc n : Nat) (x : BitVec w) : Mem.wf (s.poke loc n x).mem = true := by
  rw [poke_mem]
  exact Mem.wf_store h _ _ _

theorem wf_traceHeader {s : State} (h : Mem.wf s.mem = true) : Mem.wf s.traceHeader.mem = true := wf_poke (wf_poke h _ _ _) _ _ _

theorem wf_traceRec {s : State} (h : Mem.wf s.mem = true) (ty tenant level region lcore : Nat) (arg : Word) :
    Mem.wf (s.traceRec ty tenant level region lcore arg).mem = true := by
  unfold traceRec
  split
  · split
    · dsimp only
      refine wf_traceHeader ?_
      rw [cleanRange_mem]
      exact wf_poke (wf_poke (wf_poke (wf_poke h _ _ _) _ _ _) _ _ _) _ _ _
    · exact wf_traceHeader h
  · exact h

theorem wf_retire {s : State} (h : Mem.wf s.mem = true) (size : Nat) : Mem.wf (s.retire size).mem = true := by
  unfold retire
  dsimp only
  split
  · exact wf_setWord h _ _
  · exact h

theorem wf_retireAt {s : State} (h : Mem.wf s.mem = true) (t : Word) : Mem.wf (s.retireAt t).mem = true := h

end State

end Sys2Proof.Machine
end

