-- ==== Sys2Proof/Laws/Access.lean ====
section
/-!
SUPPORT. What the shared operations of accesses, of matrix instructions and of control transfers answer when nothing stops
them.
-/

namespace Sys2Proof.Machine

open Sys2Proof

theorem run_of_passes {α : Type} {c : Chk α} {x : α} (h : Passes c x) (s : State) (f : α → Res) : c.run s f = f x := by
  simp only [Passes] at h
  subst h
  rfl

theorem aligned_of_mod {va : Word} {n : Nat} (h : va.toNat % n = 0) : State.aligned va n = .ok () := by simp [State.aligned, h]

/-- The low two bits of a word are 0 if it is a multiple of 4. -/
theorem low2_eq_zero (x : Word) : (x &&& 3 = 0) ↔ x.toNat % 4 = 0 := by
  constructor
  · intro h
    have := congrArg BitVec.toNat h
    simp at this
    rw [show (3 : Nat) = 2 ^ 2 - 1 from rfl, Nat.and_two_pow_sub_one_eq_mod] at this
    simpa using this
  · intro h
    apply BitVec.eq_of_toNat_eq
    simp
    rw [show (3 : Nat) = 2 ^ 2 - 1 from rfl, Nat.and_two_pow_sub_one_eq_mod]
    simpa using h

theorem misaligned_none {n : Nat} {es : List (Nat × Nat × Word)} (h : ∀ e ∈ es, e.2.2.toNat % (n / 8) = 0) : misaligned n es = none := by
  simp [misaligned]
  intro a b c hc
  exact h _ hc

theorem rule_ok {b : Bool} {e : Stop} (h : b = true) : rule b e = .ok () := by simp [rule, h]

namespace State

theorem coreLoad_ok {s s' : State} {va : Word} {n : Nat} {x : Word} (h : va.toNat % n = 0)
    (hl : Passes (s.loadElems [{ va := va, n := n }]) ([x], s')) : s.coreLoad va n = .ok (x, s') := by
  simp only [Passes] at hl
  simp only [coreLoad, aligned_of_mod h]
  rw [hl]
  rfl

/-- A store whose elements can be made is made. -/
theorem storeElems_done {s t : State} {es : List Elem} (h : s.stores es t) (f : State → Res) : s.storeElems es f = f t := by
  obtain ⟨xs, s', h1, rfl⟩ := h
  simp only [storeElems, h1]
  rfl

/-- An ST that nothing stops is made. -/
theorem coreStore_done {s t : State} {op : BitVec 6} {ty : BitVec 4} {e : Elem} (ha : e.va.toNat % e.n = 0)
    (h : s.storesOrPosts op ty e t) (f : State → Res) : s.coreStore op ty e f = f t := by
  simp only [coreStore, aligned_of_mod ha]
  rcases h with ⟨h1, h2, rfl⟩ | ⟨h1, h2⟩
  · simp [h1, h2]
  · simp only [h1, Bool.false_eq_true, if_false]
    exact storeElems_done h2 f

/-- Where every element of a store has a place that finding it does not change. -/
theorem placesAux_of {s : State} {acc : Acc} (f : Elem → Place) : ∀ {es : List Elem}, (∀ e ∈ es, s.place acc e.va = some (f e, s)) →
    placesAux acc s (es.map (·.va)) = (es.map f, none, s)
  | [], _ => rfl
  | e :: es, h => by
    have ih := placesAux_of (acc := acc) f fun x (hx : x ∈ es) => h x (List.mem_cons_of_mem _ hx)
    simp [placesAux, h e (by simp), ih]

theorem guardStores_of {s : State} (f : Elem → Place) : ∀ {es : List Elem},
    (∀ e ∈ es, s.noToken (f e) e.n = .ok () ∧ s.portFree (f e) = .ok () ∧ s.handleGuard (f e).loc e.n e.x = .ok e.x) →
      s.guardStores (es.map fun e => (e, f e)) = .ok (es.map fun e => (e, f e))
  | [], _ => rfl
  | e :: es, h => by
    have ih := guardStores_of f fun x (hx : x ∈ es) => h x (List.mem_cons_of_mem _ hx)
    simp [guardStores, h e (by simp), ih]

/-- A store of elements with places of their own, no pending status and no pinned handle among them can be made. -/
theorem stores_of {s : State} (f : Elem → Place) {es : List Elem} (h : ∀ e ∈ es, s.place .store e.va = some (f e, s))
    (hg : ∀ e ∈ es, s.noToken (f e) e.n = .ok () ∧ s.portFree (f e) = .ok () ∧ s.handleGuard (f e).loc e.n e.x = .ok e.x) :
    ∃ t, s.stores es t := by
  refine ⟨_, es.map fun e => (e, f e), s, ?_, rfl⟩
  have hz : es.zip (es.map f) = es.map fun e => (e, f e) := by
    rw [List.zip_map_right, List.zip_eq_zipWith]
    induction es with
    | nil => rfl
    | cons e es ih => simp
  simp only [toStore, places, placesAux_of f h, hz, guardStores_of f hg]

/-- The place of an address of the own dome's linear view whose bank the core's tenant owns (05_memory_isa R135, R136). -/
theorem place_linear {s : State} {va : Word} (acc : Acc) (h1 : 0x1800000 ≤ va.toNat) (h2 : va.toNat < 0x2000000) (hb : s.isBelfry = false)
    (ht : s.bankTenant s.myDome (locBank (Config.domeBase + s.myDome * 2 ^ 23 + (va.toNat - 0x1800000))) = some s.core.tenant) :
    s.place acc va = some ({ loc := Config.domeBase + s.myDome * 2 ^ 23 + (va.toNat - 0x1800000) }, s) := by
  have e1 : ¬ va.toNat < 0x4000 := by omega
  have e2 : ¬ (0x1000000 ≤ va.toNat ∧ va.toNat < 0x1800000) := by omega
  unfold place outer
  rw [if_neg e1, if_neg e2, if_pos ⟨h1, h2⟩, hb]
  simp only [Bool.false_eq_true, if_false]
  exact if_pos ht

/-- Storage that is not workspace memory holds no token register. -/
theorem noToken_dome {s : State} {p : Place} (h : isWs p.loc = false) (n : Nat) : s.noToken p n = .ok () := by simp [noToken, h]

/-- An access of a dome's own core through its own port waits for no other. -/
theorem portFree_own {s : State} {p : Place} (h : p.mesh = false) (hb : s.isBelfry = false) : s.portFree p = .ok () := by simp [portFree, h, hb]

/-- Storage that is not HBM4E holds no handle entry. -/
theorem handleGuard_dome {s : State} {loc : Nat} (h : isHbm loc = false) (n : Nat) (x : Word) : s.handleGuard loc n x = .ok x := by
  simp [handleGuard, handleEntryAt, h]

/-- A SEND that finds space reserves it (05_memory_isa R162). -/
theorem sendMessage_reserves {s u : State} {d a b c : SReg} (h : s.sendReserves a b c u) (nb : Bool) :
    s.sendMessage nb d (s.reg a) (s.reg b) (s.reg c) = .asIs u := by
  obtain ⟨hr, cap, head, hd, tl, v, w, ⟨p1, p2, s', ho, hcap, hml, hn, hx, hy⟩, hle, hal, hst, rfl⟩ := h
  have hc : s.sendChecks (s.reg a) (s.reg b) (s.reg c) = .ok (cap, head, hd, tl, w) := by
    simp only [State.sendChecks, aligned_of_mod p1, aligned_of_mod p2, ho, bind, Except.bind, Nat.not_lt.2 hcap, if_false, hml, hn, hx, hy,
      Bool.false_eq_true, Nat.not_lt.2 hle, aligned_of_mod hal, hst]
  simp only [State.sendMessage, hr, State.reserve, hc, Chk.run, Nat.not_lt.2 hle, if_false]

/-- A RECV that finds a published message, which it can read, takes it (R163). -/
theorem recvMessage_takes {s x : State} {d a b : SReg} {cap : Word} {head : Nat} {hd m : Word} (h : s.recvFinds a b cap head hd m x) (nb : Bool) :
    s.recvMessage nb d (s.reg a) (s.reg b) =
      (let r := (x.headerLoads (s.reg a)).2.2.quietLoad (Chan.byte (s.reg a) cap hd) 8
       r.2.2.take d (s.reg a) (s.reg b) cap hd m r.2.1 head) := by
  obtain ⟨hm, w', ⟨p1, v0, w, ho, rfl, hne, hal, hml, rfl, hst⟩, hw⟩ := h
  have hc : s.recvChecks (s.reg a) (s.reg b) = .ok (cap, head, (v0.glance (s.reg a + Chan.head)).1,
      (w.glance (Chan.byte (s.reg a) cap (v0.glance (s.reg a + Chan.head)).1)).1, x) := by
    simp only [State.recvChecks, aligned_of_mod p1, ho, bind, Except.bind, hne, if_false, aligned_of_mod hal, hml, hst, hm, if_true, hw]
  simp only [State.recvMessage, hc, Chk.run, hm, if_true]

/-- A RECV.NB that finds no published message goes on with 0x8000000000000000 (R163). -/
theorem recvMessage_finds_none {s x : State} {d a b : SReg} {cap : Word} {head : Nat} {hd : Word}
    (h : s.recvFindsNone a b cap head hd x) : s.recvMessage true d (s.reg a) (s.reg b) =
      .done (((x.loadsNothing (s.reg a) cap hd).releaseLock (s.reg a) head).setReg d 0x8000000000000000) := by
  rcases h with ⟨p1, v0, ho, rfl, he, hst⟩ | ⟨m, hm, p1, v0, w, ho, rfl, hne, hal, hml, rfl, hst⟩
  · have hc : s.recvChecks (s.reg a) (s.reg b) = .ok (cap, head, (v0.glance (s.reg a + Chan.head)).1, 0, x) := by
      simp only [State.recvChecks, aligned_of_mod p1, ho, bind, Except.bind, he, if_true, hst]
    have h0 : (0 : Word).getLsbD 63 = false := by decide
    simp only [State.recvMessage, hc, Chk.run, h0, Bool.false_eq_true, if_false, if_true]
  · have hc : s.recvChecks (s.reg a) (s.reg b) = .ok (cap, head, (v0.glance (s.reg a + Chan.head)).1,
        (w.glance (Chan.byte (s.reg a) cap (v0.glance (s.reg a + Chan.head)).1)).1, x) := by
      simp only [State.recvChecks, aligned_of_mod p1, ho, bind, Except.bind, hne, if_false, aligned_of_mod hal, hml, hst, hm,
        Bool.false_eq_true]
    simp only [State.recvMessage, hc, Chk.run, hm, Bool.false_eq_true, if_false, if_true]

end State

/-- A matrix instruction that the port takes does what its body says (06_matrix_isa R167, 11_matrix_engine R256). -/
theorem matrix_done {i : Instr} {g : Guard} {q : Nat} {body : State → Res} {s u : State} (h : s.issues i (State.whole g s) = true)
    (hp : (s.acquireTokens i).portTurn (s.acquireTokens i).mySpire q = true)
    (hb : body (((s.acquireTokens i).setGraver { (s.acquireTokens i).graver with
        portLast := coreInSpire (s.acquireTokens i).cur, acceptAt := some (s.acquireTokens i).clock }).count 5 1) = .done u) : matrix i g q body s = .next (u.completed i) := by
  unfold matrix instr
  refine instrIf_done (g := s.guardLane g 0) h ?_
  rw [if_pos hp]
  exact hb

/-- A transfer of a core that decides for itself runs its own decision (02_scalar R72). -/
theorem control_alone {i : Instr} {g : Guard} {w : State → State} {dec : State → Res} {s : State}
    (h : s.issues i (State.wholeAlone g s) = true) : s.issues i true = true ∧ Machine.control i g w dec s = instrIf i true dec s := by
  have h1 : s.clear i = true ∧ s.core.follower = false ∧ s.guardLane g 0 = true := by
    simpa [State.issues, State.wholeAlone, State.alone, and_assoc] using h
  obtain ⟨hc, hf, hg⟩ := h1
  refine ⟨by simp [State.issues, hc], ?_⟩
  unfold Machine.control
  simp only [hf, hg, Bool.false_and, Bool.true_or, Bool.false_eq_true, if_false]
  rw [instrIf_clear hc, instrIf_clear hc]
  simp [hf]

/-- A transfer whose guard is off here and where it is decided only retires (01_encoding R29, 02_scalar R72). -/
theorem control_off {i : Instr} {g : Guard} {w : State → State} {dec : State → Res} {s : State} (hc : s.clear i = true)
    (hg : s.guardLane g 0 = false) (h1 : s.decider.guardLane g 0 = false)
    (h2 : s.core.follower = true → (s.coreAt s.leaderIdx).done = true) :
    Machine.control i g w dec s = .next ((s.count 6 1).retire i.size) := by
  have h : (s.core.follower && !(s.coreAt s.leaderIdx).done) = false := by
    cases hf : s.core.follower
    · rfl
    · rw [h2 hf]; rfl
  unfold Machine.control
  dsimp only
  rw [h, if_neg Bool.false_ne_true]
  exact instrIf_off hc (by rw [hg, h1]; rfl)

/-- The lowest address without a place is the one that the places of a list stop at (05_memory_isa R138 step 2). -/
theorem placesAux_fault {s : State} {acc : Acc} {va : Word} (hn : s.place acc va = none) (f : Word → Place) (post : List Word)
   : ∀ pre : List Word, (∀ x ∈ pre, s.place acc x = some (f x, s)) → (∀ x ∈ pre ++ va :: post, va.toNat ≤ x.toNat) →
    ∃ ps u, State.placesAux acc s (pre ++ va :: post) = (ps, some va, u)
  | [], _, hm => by
    have low : ∀ (vs : List Word) (s : State), (∀ x ∈ vs, va.toNat ≤ x.toNat) → ∀ a, (State.placesAux acc s vs).2.1 = some a → va.toNat ≤ a.toNat := by
      intro vs
      induction vs with
      | nil => intro s _ a h; simp [State.placesAux] at h
      | cons v vs ih =>
        intro s h a
        have h1 := h v (by simp)
        have h2 : ∀ x ∈ vs, va.toNat ≤ x.toNat := fun x hx => h x (by simp [hx])
        unfold State.placesAux
        split
        · exact ih _ h2 a
        · simp only [Option.some.injEq]
          rintro rfl
          split
          · split
            · exact ih _ h2 _ ‹_›
            · exact h1
          · exact h1
    have h0 : (State.placesAux acc s (va :: post)).2.1 = some va := by
      unfold State.placesAux
      rw [hn]
      dsimp only
      split
      · next a ha =>
        have := low post s (fun x hx => hm x (by simp [hx])) a ha
        rw [if_neg (by omega)]
      · rfl
    exact ⟨(State.placesAux acc s (va :: post)).1, (State.placesAux acc s (va :: post)).2.2, by
      rw [List.nil_append, ← h0]⟩
  | p :: pre, hf, hm => by
    obtain ⟨ps, u, h⟩ := placesAux_fault hn f post pre (fun x hx => hf x (by simp [hx])) (fun x hx => hm x (by simp only [List.cons_append, List.mem_cons]; exact Or.inr hx))
    refine ⟨f p :: ps, u, ?_⟩
    rw [List.cons_append]
    unfold State.placesAux
    rw [hf p (by simp)]
    dsimp only
    rw [h]

/-- An access whose first faulting element is at `va` traps there (R138 step 2). -/
theorem places_fault {s : State} {acc : Acc} {vas : List Word} {va : Word} (h : s.firstFault acc vas va) :
    s.places acc vas = trapWith (State.faultOf acc) va := by
  obtain ⟨pre, post, f, rfl, hf, hn, hm⟩ := h
  obtain ⟨ps, u, h⟩ := placesAux_fault hn f post pre hf hm
  simp only [State.places, h]

/-- The first misaligned element of a gather or a scatter is the one it traps at (R138 step 1). -/
theorem misaligned_first {n : Nat} {es : List (Nat × Nat × Word)} {va : Word} (h : State.firstMisaligned (n / 8) (es.map (·.2.2)) va) :
    misaligned n es = some va := by
  obtain ⟨pre, post, h, hp, hv⟩ := h
  induction es generalizing pre with
  | nil => simp at h
  | cons e es ih =>
    cases pre with
    | nil => simp only [List.map_cons, List.nil_append, List.cons.injEq] at h; obtain ⟨rfl, h⟩ := h; simp [misaligned, hv]
    | cons p pre =>
      simp only [List.map_cons, List.cons_append, List.cons.injEq] at h
      obtain ⟨rfl, h⟩ := h
      have h1 := hp e.2.2 (by simp)
      have := ih pre h (fun x hx => hp x (by simp [hx]))
      simp only [misaligned] at this ⊢
      rw [List.find?_cons_of_neg (by simp [h1])]
      exact this

end Sys2Proof.Machine
end

