-- ==== Sys2Proof/Laws/Dispatch.lean ====
section
/-!
SUPPORT. Which meaning `exec` calls for each instruction.
-/

namespace Sys2Proof.Machine

open Sys2Proof

variable (s : State)

theorem exec_fill : exec (.fill) s = execFill s := rfl
theorem exec_add (g : Guard) (t : Ty) (d a : SReg) (b : OpB) : exec (.add g t d a b) s = execAdd g t d a b s := rfl
theorem exec_sub (g : Guard) (t : Ty) (d a : SReg) (b : OpB) : exec (.sub g t d a b) s = execSub g t d a b s := rfl
theorem exec_and (g : Guard) (t : Ty) (d a : SReg) (b : OpB) : exec (.and g t d a b) s = execAnd g t d a b s := rfl
theorem exec_or (g : Guard) (t : Ty) (d a : SReg) (b : OpB) : exec (.or g t d a b) s = execOr g t d a b s := rfl
theorem exec_xor (g : Guard) (t : Ty) (d a : SReg) (b : OpB) : exec (.xor g t d a b) s = execXor g t d a b s := rfl
theorem exec_andn (g : Guard) (t : Ty) (d a : SReg) (b : OpB) : exec (.andn g t d a b) s = execAndn g t d a b s := rfl
theorem exec_shl (g : Guard) (t : Ty) (d a : SReg) (b : OpB) : exec (.shl g t d a b) s = execShl g t d a b s := rfl
theorem exec_shr (g : Guard) (t : Ty) (d a : SReg) (b : OpB) : exec (.shr g t d a b) s = execShr g t d a b s := rfl
theorem exec_sar (g : Guard) (t : Ty) (d a : SReg) (b : OpB) : exec (.sar g t d a b) s = execSar g t d a b s := rfl
theorem exec_ror (g : Guard) (t : Ty) (d a : SReg) (b : OpB) : exec (.ror g t d a b) s = execRor g t d a b s := rfl
theorem exec_min (g : Guard) (t : Ty) (d a : SReg) (b : OpB) : exec (.min g t d a b) s = execMin g t d a b s := rfl
theorem exec_max (g : Guard) (t : Ty) (d a : SReg) (b : OpB) : exec (.max g t d a b) s = execMax g t d a b s := rfl
theorem exec_mul (g : Guard) (t : Ty) (d a : SReg) (b : OpB) : exec (.mul g t d a b) s = execMul g t d a b s := rfl
theorem exec_mulh (g : Guard) (t : Ty) (d a : SReg) (b : OpB) : exec (.mulh g t d a b) s = execMulh g t d a b s := rfl
theorem exec_div (g : Guard) (t : Ty) (d a : SReg) (b : OpB) : exec (.div g t d a b) s = execDiv g t d a b s := rfl
theorem exec_rem (g : Guard) (t : Ty) (d a : SReg) (b : OpB) : exec (.rem g t d a b) s = execRem g t d a b s := rfl
theorem exec_clz (g : Guard) (t : Ty) (d a : SReg) : exec (.clz g t d a) s = execClz g t d a s := rfl
theorem exec_ctz (g : Guard) (t : Ty) (d a : SReg) : exec (.ctz g t d a) s = execCtz g t d a s := rfl
theorem exec_popc (g : Guard) (t : Ty) (d a : SReg) : exec (.popc g t d a) s = execPopc g t d a s := rfl
theorem exec_brev (g : Guard) (t : Ty) (d a : SReg) : exec (.brev g t d a) s = execBrev g t d a s := rfl
theorem exec_bswap (g : Guard) (t : Ty) (d a : SReg) : exec (.bswap g t d a) s = execBswap g t d a s := rfl
theorem exec_bext (g : Guard) (t : Ty) (d a : SReg) (pos lenM1 : BitVec 6) : exec (.bext g t d a pos lenM1) s = execBext g t d a pos lenM1 s := rfl
theorem exec_bins (g : Guard) (t : Ty) (d a : SReg) (pos lenM1 : BitVec 6) : exec (.bins g t d a pos lenM1) s = execBins g t d a pos lenM1 s := rfl
theorem exec_sext (g : Guard) (t : Ty) (d a : SReg) : exec (.sext g t d a) s = execSext g t d a s := rfl
theorem exec_zext (g : Guard) (t : Ty) (d a : SReg) : exec (.zext g t d a) s = execZext g t d a s := rfl
theorem exec_cmpEq (g : Guard) (t : Ty) (d : PReg) (a : SReg) (b : OpB) : exec (.cmpEq g t d a b) s = execCmpEq g t d a b s := rfl
theorem exec_cmpNe (g : Guard) (t : Ty) (d : PReg) (a : SReg) (b : OpB) : exec (.cmpNe g t d a b) s = execCmpNe g t d a b s := rfl
theorem exec_cmpLt (g : Guard) (t : Ty) (d : PReg) (a : SReg) (b : OpB) : exec (.cmpLt g t d a b) s = execCmpLt g t d a b s := rfl
theorem exec_cmpLe (g : Guard) (t : Ty) (d : PReg) (a : SReg) (b : OpB) : exec (.cmpLe g t d a b) s = execCmpLe g t d a b s := rfl
theorem exec_cmpGt (g : Guard) (t : Ty) (d : PReg) (a : SReg) (b : OpB) : exec (.cmpGt g t d a b) s = execCmpGt g t d a b s := rfl
theorem exec_cmpGe (g : Guard) (t : Ty) (d : PReg) (a : SReg) (b : OpB) : exec (.cmpGe g t d a b) s = execCmpGe g t d a b s := rfl
theorem exec_pand (g : Guard) (d a b : PReg) : exec (.pand g d a b) s = execPand g d a b s := rfl
theorem exec_por (g : Guard) (d a b : PReg) : exec (.por g d a b) s = execPor g d a b s := rfl
theorem exec_pxor (g : Guard) (d a b : PReg) : exec (.pxor g d a b) s = execPxor g d a b s := rfl
theorem exec_pandn (g : Guard) (d a b : PReg) : exec (.pandn g d a b) s = execPandn g d a b s := rfl
theorem exec_pnot (g : Guard) (d a : PReg) : exec (.pnot g d a) s = execPnot g d a s := rfl
theorem exec_pmov (g : Guard) (d a : PReg) : exec (.pmov g d a) s = execPmov g d a s := rfl
theorem exec_pset (g : Guard) (d : PReg) (imm : BitVec 32) : exec (.pset g d imm) s = execPset g d imm s := rfl
theorem exec_movi (g : Guard) (d : SReg) (imm : MoviImm) : exec (.movi g d imm) s = execMovi g d imm s := rfl
theorem exec_mov (g : Guard) (d a : SReg) : exec (.mov g d a) s = execMov g d a s := rfl
theorem exec_lea (g : Guard) (d a : SReg) (b : LeaB) : exec (.lea g d a b) s = execLea g d a b s := rfl
theorem exec_sel (g : Guard) (d a b : SReg) (c : PReg) : exec (.sel g d a b c) s = execSel g d a b c s := rfl
theorem exec_qcap (g : Guard) (d : SReg) (b : OpB64) : exec (.qcap g d b) s = execQcap g d b s := rfl
theorem exec_rndc (g : Guard) (d a b : SReg) : exec (.rndc g d a b) s = execRndc g d a b s := rfl
theorem exec_mfs (g : Guard) (d : SReg) (idx : BitVec 10) : exec (.mfs g d idx) s = execMfs g d idx s := rfl
theorem exec_mts (g : Guard) (a : SReg) (idx : BitVec 10) : exec (.mts g a idx) s = execMts g a idx s := rfl
theorem exec_mtsWp (g : Guard) (a : SReg) : exec (.mtsWp g a) s = execMtsWp g a s := rfl
theorem exec_pushm (g : Guard) (r : RegRange) : exec (.pushm g r) s = execPushm g r s := rfl
theorem exec_popm (g : Guard) (r : RegRange) : exec (.popm g r) s = execPopm g r s := rfl
theorem exec_fadd (g : Guard) (t : Ty) (d a b : SReg) : exec (.fadd g t d a b) s = execFadd g t d a b s := rfl
theorem exec_fsub (g : Guard) (t : Ty) (d a b : SReg) : exec (.fsub g t d a b) s = execFsub g t d a b s := rfl
theorem exec_fmul (g : Guard) (t : Ty) (d a b : SReg) : exec (.fmul g t d a b) s = execFmul g t d a b s := rfl
theorem exec_fdiv (g : Guard) (t : Ty) (d a b : SReg) : exec (.fdiv g t d a b) s = execFdiv g t d a b s := rfl
theorem exec_fsqrt (g : Guard) (t : Ty) (d a : SReg) : exec (.fsqrt g t d a) s = execFsqrt g t d a s := rfl
theorem exec_fmin (g : Guard) (t : Ty) (d a b : SReg) : exec (.fmin g t d a b) s = execFmin g t d a b s := rfl
theorem exec_fmax (g : Guard) (t : Ty) (d a b : SReg) : exec (.fmax g t d a b) s = execFmax g t d a b s := rfl
theorem exec_fneg (g : Guard) (t : Ty) (d a : SReg) : exec (.fneg g t d a) s = execFneg g t d a s := rfl
theorem exec_fabs (g : Guard) (t : Ty) (d a : SReg) : exec (.fabs g t d a) s = execFabs g t d a s := rfl
theorem exec_fma (g : Guard) (t : Ty) (d a b c : SReg) : exec (.fma g t d a b c) s = execFma g t d a b c s := rfl
theorem exec_fms (g : Guard) (t : Ty) (d a b c : SReg) : exec (.fms g t d a b c) s = execFms g t d a b c s := rfl
theorem exec_fnma (g : Guard) (t : Ty) (d a b c : SReg) : exec (.fnma g t d a b c) s = execFnma g t d a b c s := rfl
theorem exec_fnms (g : Guard) (t : Ty) (d a b c : SReg) : exec (.fnms g t d a b c) s = execFnms g t d a b c s := rfl
theorem exec_fcmpEq (g : Guard) (t : Ty) (d : PReg) (a b : SReg) : exec (.fcmpEq g t d a b) s = execFcmpEq g t d a b s := rfl
theorem exec_fcmpLt (g : Guard) (t : Ty) (d : PReg) (a b : SReg) : exec (.fcmpLt g t d a b) s = execFcmpLt g t d a b s := rfl
theorem exec_fcmpLe (g : Guard) (t : Ty) (d : PReg) (a b : SReg) : exec (.fcmpLe g t d a b) s = execFcmpLe g t d a b s := rfl
theorem exec_fcmpUn (g : Guard) (t : Ty) (d : PReg) (a b : SReg) : exec (.fcmpUn g t d a b) s = execFcmpUn g t d a b s := rfl
theorem exec_fcvt (g : Guard) (t : Ty) (d a : SReg) (src : Ty) (rm : BitVec 4) : exec (.fcvt g t d a src rm) s = execFcvt g t d a src rm s := rfl
theorem exec_fclass (g : Guard) (t : Ty) (d a : SReg) : exec (.fclass g t d a) s = execFclass g t d a s := rfl
theorem exec_br (g : Guard) (off : Offset) : exec (.br g off) s = execBr g off s := rfl
theorem exec_call (g : Guard) (d : SReg) (off : Offset) : exec (.call g d off) s = execCall g d off s := rfl
theorem exec_jmp (g : Guard) (d a : SReg) : exec (.jmp g d a) s = execJmp g d a s := rfl
theorem exec_ret (g : Guard) (a : SReg) : exec (.ret g a) s = execRet g a s := rfl
theorem exec_brx (g : Guard) (a b : SReg) (count : BitVec 16) : exec (.brx g a b count) s = execBrx g a b count s := rfl
theorem exec_loop (g : Guard) (a : SReg) (off : BitVec 16) : exec (.loop g a off) s = execLoop g a off s := rfl
theorem exec_rep (a : SReg) (lenM1 : BitVec 4) (stride : BitVec 5) (mask : BitVec 4) : exec (.rep a lenM1 stride mask) s = execRep a lenM1 stride mask s := rfl
theorem exec_nop (g : Guard) : exec (.nop g) s = execNop g s := rfl
theorem exec_hint (g : Guard) (code : BitVec 16) : exec (.hint g code) s = execHint g code s := rfl
theorem exec_unchain : exec (.unchain) s = execUnchain s := rfl
theorem exec_rechain (slot : BitVec 8) : exec (.rechain slot) s = execRechain slot s := rfl
theorem exec_vadd (g : Guard) (t : Ty) (d a b : VReg) : exec (.vadd g t d a b) s = execVadd g t d a b s := rfl
theorem exec_vsub (g : Guard) (t : Ty) (d a b : VReg) : exec (.vsub g t d a b) s = execVsub g t d a b s := rfl
theorem exec_vmul (g : Guard) (t : Ty) (d a b : VReg) : exec (.vmul g t d a b) s = execVmul g t d a b s := rfl
theorem exec_vmin (g : Guard) (t : Ty) (d a b : VReg) : exec (.vmin g t d a b) s = execVmin g t d a b s := rfl
theorem exec_vmax (g : Guard) (t : Ty) (d a b : VReg) : exec (.vmax g t d a b) s = execVmax g t d a b s := rfl
theorem exec_vneg (g : Guard) (t : Ty) (d a : VReg) : exec (.vneg g t d a) s = execVneg g t d a s := rfl
theorem exec_vabs (g : Guard) (t : Ty) (d a : VReg) : exec (.vabs g t d a) s = execVabs g t d a s := rfl
theorem exec_vfma (g : Guard) (t : Ty) (d a b c : VReg) : exec (.vfma g t d a b c) s = execVfma g t d a b c s := rfl
theorem exec_vfms (g : Guard) (t : Ty) (d a b c : VReg) : exec (.vfms g t d a b c) s = execVfms g t d a b c s := rfl
theorem exec_vfnma (g : Guard) (t : Ty) (d a b c : VReg) : exec (.vfnma g t d a b c) s = execVfnma g t d a b c s := rfl
theorem exec_vfnms (g : Guard) (t : Ty) (d a b c : VReg) : exec (.vfnms g t d a b c) s = execVfnms g t d a b c s := rfl
theorem exec_vdiv (g : Guard) (t : Ty) (d a b : VReg) : exec (.vdiv g t d a b) s = execVdiv g t d a b s := rfl
theorem exec_vrcp (g : Guard) (t : Ty) (d a : VReg) : exec (.vrcp g t d a) s = execVrcp g t d a s := rfl
theorem exec_vsqrt (g : Guard) (t : Ty) (d a : VReg) : exec (.vsqrt g t d a) s = execVsqrt g t d a s := rfl
theorem exec_vrsqrt (g : Guard) (t : Ty) (d a : VReg) : exec (.vrsqrt g t d a) s = execVrsqrt g t d a s := rfl
theorem exec_vexp (g : Guard) (t : Ty) (d a : VReg) : exec (.vexp g t d a) s = execVexp g t d a s := rfl
theorem exec_vlog (g : Guard) (t : Ty) (d a : VReg) : exec (.vlog g t d a) s = execVlog g t d a s := rfl
theorem exec_vsincos (g : Guard) (t : Ty) (d a : VReg) : exec (.vsincos g t d a) s = execVsincos g t d a s := rfl
theorem exec_vtanh (g : Guard) (t : Ty) (d a : VReg) : exec (.vtanh g t d a) s = execVtanh g t d a s := rfl
theorem exec_vsigm (g : Guard) (t : Ty) (d a : VReg) : exec (.vsigm g t d a) s = execVsigm g t d a s := rfl
theorem exec_vcmpEq (g : Guard) (t : Ty) (d : PReg) (a b : VReg) : exec (.vcmpEq g t d a b) s = execVcmpEq g t d a b s := rfl
theorem exec_vcmpNe (g : Guard) (t : Ty) (d : PReg) (a b : VReg) : exec (.vcmpNe g t d a b) s = execVcmpNe g t d a b s := rfl
theorem exec_vcmpLt (g : Guard) (t : Ty) (d : PReg) (a b : VReg) : exec (.vcmpLt g t d a b) s = execVcmpLt g t d a b s := rfl
theorem exec_vcmpLe (g : Guard) (t : Ty) (d : PReg) (a b : VReg) : exec (.vcmpLe g t d a b) s = execVcmpLe g t d a b s := rfl
theorem exec_vsel (g : Guard) (d a b : VReg) (c : PReg) (width : BitVec 2) : exec (.vsel g d a b c width) s = execVsel g d a b c width s := rfl
theorem exec_vcvt (g : Guard) (t : Ty) (d a : VReg) (src : Ty) (q : BitVec 2) (rm : BitVec 3) : exec (.vcvt g t d a src q rm) s = execVcvt g t d a src q rm s := rfl
theorem exec_vqmx (g : Guard) (d a : VReg) (b : SReg) (fmt : BitVec 3) : exec (.vqmx g d a b fmt) s = execVqmx g d a b fmt s := rfl
theorem exec_vdqmx (g : Guard) (d a : VReg) (b : SReg) (fmt : BitVec 3) : exec (.vdqmx g d a b fmt) s = execVdqmx g d a b fmt s := rfl
theorem exec_vredAdd (g : Guard) (t : Ty) (d a : VReg) : exec (.vredAdd g t d a) s = execVredAdd g t d a s := rfl
theorem exec_vredMin (g : Guard) (t : Ty) (d a : VReg) : exec (.vredMin g t d a) s = execVredMin g t d a s := rfl
theorem exec_vredMax (g : Guard) (t : Ty) (d a : VReg) : exec (.vredMax g t d a) s = execVredMax g t d a s := rfl
theorem exec_vaddInt (g : Guard) (t : Ty) (d a : VReg) (b : OpBV) : exec (.vaddInt g t d a b) s = execVaddInt g t d a b s := rfl
theorem exec_vsubInt (g : Guard) (t : Ty) (d a : VReg) (b : OpBV) : exec (.vsubInt g t d a b) s = execVsubInt g t d a b s := rfl
theorem exec_vand (g : Guard) (t : Ty) (d a : VReg) (b : OpBV) : exec (.vand g t d a b) s = execVand g t d a b s := rfl
theorem exec_vor (g : Guard) (t : Ty) (d a : VReg) (b : OpBV) : exec (.vor g t d a b) s = execVor g t d a b s := rfl
theorem exec_vxor (g : Guard) (t : Ty) (d a : VReg) (b : OpBV) : exec (.vxor g t d a b) s = execVxor g t d a b s := rfl
theorem exec_vshl (g : Guard) (t : Ty) (d a : VReg) (b : OpBV) : exec (.vshl g t d a b) s = execVshl g t d a b s := rfl
theorem exec_vshr (g : Guard) (t : Ty) (d a : VReg) (b : OpBV) : exec (.vshr g t d a b) s = execVshr g t d a b s := rfl
theorem exec_vsar (g : Guard) (t : Ty) (d a : VReg) (b : OpBV) : exec (.vsar g t d a b) s = execVsar g t d a b s := rfl
theorem exec_vminInt (g : Guard) (t : Ty) (d a : VReg) (b : OpBV) : exec (.vminInt g t d a b) s = execVminInt g t d a b s := rfl
theorem exec_vmaxInt (g : Guard) (t : Ty) (d a : VReg) (b : OpBV) : exec (.vmaxInt g t d a b) s = execVmaxInt g t d a b s := rfl
theorem exec_vadds (g : Guard) (t : Ty) (d a : VReg) (b : OpBV) : exec (.vadds g t d a b) s = execVadds g t d a b s := rfl
theorem exec_vsubs (g : Guard) (t : Ty) (d a : VReg) (b : OpBV) : exec (.vsubs g t d a b) s = execVsubs g t d a b s := rfl
theorem exec_vcmpEqInt (g : Guard) (t : Ty) (d : PReg) (a : VReg) (b : OpBV) : exec (.vcmpEqInt g t d a b) s = execVcmpEqInt g t d a b s := rfl
theorem exec_vcmpNeInt (g : Guard) (t : Ty) (d : PReg) (a : VReg) (b : OpBV) : exec (.vcmpNeInt g t d a b) s = execVcmpNeInt g t d a b s := rfl
theorem exec_vcmpLtInt (g : Guard) (t : Ty) (d : PReg) (a : VReg) (b : OpBV) : exec (.vcmpLtInt g t d a b) s = execVcmpLtInt g t d a b s := rfl
theorem exec_vcmpLeInt (g : Guard) (t : Ty) (d : PReg) (a : VReg) (b : OpBV) : exec (.vcmpLeInt g t d a b) s = execVcmpLeInt g t d a b s := rfl
theorem exec_vmulInt (g : Guard) (t : Ty) (d a b : VReg) : exec (.vmulInt g t d a b) s = execVmulInt g t d a b s := rfl
theorem exec_vmulh (g : Guard) (t : Ty) (d a b : VReg) : exec (.vmulh g t d a b) s = execVmulh g t d a b s := rfl
theorem exec_vmac (g : Guard) (t : Ty) (d a b : VReg) : exec (.vmac g t d a b) s = execVmac g t d a b s := rfl
theorem exec_vsat (g : Guard) (t : Ty) (d a : VReg) (m : BitVec 6) : exec (.vsat g t d a m) s = execVsat g t d a m s := rfl
theorem exec_vdot4 (g : Guard) (t : Ty) (d a b : VReg) : exec (.vdot4 g t d a b) s = execVdot4 g t d a b s := rfl
theorem exec_vdot2 (g : Guard) (t : Ty) (d a b : VReg) : exec (.vdot2 g t d a b) s = execVdot2 g t d a b s := rfl
theorem exec_vcmul (g : Guard) (t : Ty) (d a b : VReg) (sh : BitVec 4) : exec (.vcmul g t d a b sh) s = execVcmul g t d a b sh s := rfl
theorem exec_vcmac (g : Guard) (t : Ty) (d a b : VReg) (sh : BitVec 4) : exec (.vcmac g t d a b sh) s = execVcmac g t d a b sh s := rfl
theorem exec_vconj (g : Guard) (t : Ty) (d a : VReg) : exec (.vconj g t d a) s = execVconj g t d a s := rfl
theorem exec_vbfly (g : Guard) (t : Ty) (d a b c : VReg) : exec (.vbfly g t d a b c) s = execVbfly g t d a b c s := rfl
theorem exec_vbflys (g : Guard) (t : Ty) (d a b c : VReg) : exec (.vbflys g t d a b c) s = execVbflys g t d a b c s := rfl
theorem exec_vperm (g : Guard) (t : Ty) (d a b : VReg) : exec (.vperm g t d a b) s = execVperm g t d a b s := rfl
theorem exec_vshuf (g : Guard) (t : Ty) (d a b c : VReg) : exec (.vshuf g t d a b c) s = execVshuf g t d a b c s := rfl
theorem exec_vrot (g : Guard) (t : Ty) (d a : VReg) (b : OpB64) : exec (.vrot g t d a b) s = execVrot g t d a b s := rfl
theorem exec_vbcast (g : Guard) (t : Ty) (d a : VReg) (j : BitVec 5) : exec (.vbcast g t d a j) s = execVbcast g t d a j s := rfl
theorem exec_vmov (g : Guard) (d a : VReg) (width : BitVec 2) : exec (.vmov g d a width) s = execVmov g d a width s := rfl
theorem exec_vins (g : Guard) (t : Ty) (d : VReg) (a : SReg) (j : BitVec 5) : exec (.vins g t d a j) s = execVins g t d a j s := rfl
theorem exec_vext (g : Guard) (t : Ty) (d : SReg) (a : VReg) (j : BitVec 5) : exec (.vext g t d a j) s = execVext g t d a j s := rfl
theorem exec_vsplat (g : Guard) (t : Ty) (d : VReg) (a : SReg) : exec (.vsplat g t d a) s = execVsplat g t d a s := rfl
theorem exec_jseed (g : Guard) (t : Ty) (d : VReg) (a : SVReg) : exec (.jseed g t d a) s = execJseed g t d a s := rfl
theorem exec_jext (g : Guard) (t : Ty) (d a : VReg) (k : BitVec 3) : exec (.jext g t d a k) s = execJext g t d a k s := rfl
theorem exec_jplane (g : Guard) (t : Ty) (d a : VReg) (k m : BitVec 3) : exec (.jplane g t d a k m) s = execJplane g t d a k m s := rfl
theorem exec_jclr (g : Guard) (mask : BitVec 8) : exec (.jclr g mask) s = execJclr g mask s := rfl
theorem exec_ld (g : Guard) (t : Ty) (d a : SReg) (b : OpB) : exec (.ld g t d a b) s = execLd g t d a b s := rfl
theorem exec_st (g : Guard) (t : Ty) (a : SReg) (b : OpB) (c : SReg) : exec (.st g t a b c) s = execSt g t a b c s := rfl
theorem exec_vld (g : Guard) (d : VReg) (a : SReg) (b : OpB) : exec (.vld g d a b) s = execVld g d a b s := rfl
theorem exec_vst (g : Guard) (a : SReg) (b : OpB) (c : VReg) : exec (.vst g a b c) s = execVst g a b c s := rfl
theorem exec_vgather (g : Guard) (t : Ty) (d : VReg) (a : SReg) (b : VReg) (stride : BitVec 16) : exec (.vgather g t d a b stride) s = execVgather g t d a b stride s := rfl
theorem exec_vscatter (g : Guard) (t : Ty) (a : SReg) (b c : VReg) (stride : BitVec 16) : exec (.vscatter g t a b c stride) s = execVscatter g t a b c stride s := rfl
theorem exec_ldb (g : Guard) (d : VReg) (a : SReg) (nM1 : BitVec 3) : exec (.ldb g d a nM1) s = execLdb g d a nM1 s := rfl
theorem exec_amoAdd (g : Guard) (t : Ty) (d a b : SReg) : exec (.amoAdd g t d a b) s = execAmoAdd g t d a b s := rfl
theorem exec_amoAnd (g : Guard) (t : Ty) (d a b : SReg) : exec (.amoAnd g t d a b) s = execAmoAnd g t d a b s := rfl
theorem exec_amoOr (g : Guard) (t : Ty) (d a b : SReg) : exec (.amoOr g t d a b) s = execAmoOr g t d a b s := rfl
theorem exec_amoXor (g : Guard) (t : Ty) (d a b : SReg) : exec (.amoXor g t d a b) s = execAmoXor g t d a b s := rfl
theorem exec_amoMin (g : Guard) (t : Ty) (d a b : SReg) : exec (.amoMin g t d a b) s = execAmoMin g t d a b s := rfl
theorem exec_amoMax (g : Guard) (t : Ty) (d a b : SReg) : exec (.amoMax g t d a b) s = execAmoMax g t d a b s := rfl
theorem exec_amoSwap (g : Guard) (t : Ty) (d a b : SReg) : exec (.amoSwap g t d a b) s = execAmoSwap g t d a b s := rfl
theorem exec_amoCas (g : Guard) (t : Ty) (d a b c : SReg) : exec (.amoCas g t d a b c) s = execAmoCas g t d a b c s := rfl
theorem exec_amoFadd (g : Guard) (t : Ty) (d a b : SReg) : exec (.amoFadd g t d a b) s = execAmoFadd g t d a b s := rfl
theorem exec_amoFaddOrd (g : Guard) (t : Ty) (d a b c : SReg) (last : BitVec 1) : exec (.amoFaddOrd g t d a b c last) s = execAmoFaddOrd g t d a b c last s := rfl
theorem exec_redAdd (g : Guard) (t : Ty) (a b : SReg) : exec (.redAdd g t a b) s = execRedAdd g t a b s := rfl
theorem exec_redMin (g : Guard) (t : Ty) (a b : SReg) : exec (.redMin g t a b) s = execRedMin g t a b s := rfl
theorem exec_redMax (g : Guard) (t : Ty) (a b : SReg) : exec (.redMax g t a b) s = execRedMax g t a b s := rfl
theorem exec_redAddOrd (g : Guard) (t : Ty) (a b c : SReg) (last : BitVec 1) : exec (.redAddOrd g t a b c last) s = execRedAddOrd g t a b c last s := rfl
theorem exec_redMinOrd (g : Guard) (t : Ty) (a b c : SReg) (last : BitVec 1) : exec (.redMinOrd g t a b c last) s = execRedMinOrd g t a b c last s := rfl
theorem exec_redMaxOrd (g : Guard) (t : Ty) (a b c : SReg) (last : BitVec 1) : exec (.redMaxOrd g t a b c last) s = execRedMaxOrd g t a b c last s := rfl
theorem exec_pref (g : Guard) (a : SReg) (level : BitVec 2) : exec (.pref g a level) s = execPref g a level s := rfl
theorem exec_chint (g : Guard) (a : SReg) (hop : BitVec 2) : exec (.chint g a hop) s = execChint g a hop s := rfl
theorem exec_copy (g : Guard) (d a b c : SReg) (bslot : BitVec 8) (bar : BitVec 1) (tlk : BitVec 3) (tls : BitVec 1) : exec (.copy g d a b c bslot bar tlk tls) s = execCopy g d a b c bslot bar tlk tls s := rfl
theorem exec_copyh (g : Guard) (d a b c : SReg) (bslot : BitVec 8) (bar : BitVec 1) (tlk : BitVec 3) (tls hfrom : BitVec 1) : exec (.copyh g d a b c bslot bar tlk tls hfrom) s = execCopyh g d a b c bslot bar tlk tls hfrom s := rfl
theorem exec_binit (g : Guard) (a : SReg) (slot : BitVec 8) : exec (.binit g a slot) s = execBinit g a slot s := rfl
theorem exec_barrive (g : Guard) (d : SReg) (slot : BitVec 8) : exec (.barrive g d slot) s = execBarrive g d slot s := rfl
theorem exec_bwait (g : Guard) (a : SReg) (slot : BitVec 8) : exec (.bwait g a slot) s = execBwait g a slot s := rfl
theorem exec_bsync (g : Guard) (slot : BitVec 8) : exec (.bsync g slot) s = execBsync g slot s := rfl
theorem exec_bstat (g : Guard) (d : SReg) (slot : BitVec 8) : exec (.bstat g d slot) s = execBstat g d slot s := rfl
theorem exec_tlwait (g : Guard) (a : BitVec 3) (b : OpB) : exec (.tlwait g a b) s = execTlwait g a b s := rfl
theorem exec_tlread (g : Guard) (d : SReg) (a : BitVec 3) (wide : Bool) (selr : BitVec 2) : exec (.tlread g d a wide selr) s = execTlread g d a wide selr s := rfl
theorem exec_fence (g : Guard) (a : SReg) (kinds : BitVec 5) : exec (.fence g a kinds) s = execFence g a kinds s := rfl
theorem exec_wake (g : Guard) (a : SReg) (b : OpB64) : exec (.wake g a b) s = execWake g a b s := rfl
theorem exec_wait (g : Guard) (d : SReg) (b : OpB64) : exec (.wait g d b) s = execWait g d b s := rfl
theorem exec_chinit (g : Guard) (a b c : SReg) : exec (.chinit g a b c) s = execChinit g a b c s := rfl
theorem exec_send (g : Guard) (d a b c : SReg) : exec (.send g d a b c) s = execSend g d a b c s := rfl
theorem exec_sendNb (g : Guard) (d a b c : SReg) : exec (.sendNb g d a b c) s = execSendNb g d a b c s := rfl
theorem exec_recv (g : Guard) (d a b : SReg) : exec (.recv g d a b) s = execRecv g d a b s := rfl
theorem exec_recvNb (g : Guard) (d a b : SReg) : exec (.recvNb g d a b) s = execRecvNb g d a b s := rfl
theorem exec_mshl (g : Guard) (d : BitVec 4) (a : SReg) (q : BitVec 2) : exec (.mshl g d a q) s = execMshl g d a q s := rfl
theorem exec_mshf (g : Guard) (d : BitVec 4) (a : SReg) (field : BitVec 5) (q : BitVec 2) : exec (.mshf g d a field q) s = execMshf g d a field q s := rfl
theorem exec_mshs (g : Guard) (a : SReg) (b : BitVec 4) (q : BitVec 2) : exec (.mshs g a b q) s = execMshs g a b q s := rfl
theorem exec_mclaim (g : Guard) (d : SReg) (countM1 : BitVec 7) (log2a : BitVec 3) : exec (.mclaim g d countM1 log2a) s = execMclaim g d countM1 log2a s := rfl
theorem exec_mrel (g : Guard) (a : SReg) (countM1 : BitVec 7) : exec (.mrel g a countM1) s = execMrel g a countM1 s := rfl
theorem exec_mld (g : Guard) (d : SReg) (a : BitVec 4) (slot : BitVec 7) (tr : BitVec 1) (q : BitVec 2) : exec (.mld g d a slot tr q) s = execMld g d a slot tr q s := rfl
theorem exec_mldx (g : Guard) (d : SReg) (a : BitVec 4) (slot : BitVec 7) (tr : BitVec 1) (q : BitVec 2) : exec (.mldx g d a slot tr q) s = execMldx g d a slot tr q s := rfl
theorem exec_mma (g : Guard) (d : BitVec 3) (c : SReg) (slotA slotB : BitVec 7) (q : BitVec 2) : exec (.mma g d c slotA slotB q) s = execMma g d c slotA slotB q s := rfl
theorem exec_mmaS (g : Guard) (d : BitVec 3) (c : SReg) (slotA slotB : BitVec 7) (q : BitVec 2) : exec (.mmaS g d c slotA slotB q) s = execMmaS g d c slotA slotB q s := rfl
theorem exec_mzero (g : Guard) (d : BitVec 3) (q : BitVec 2) : exec (.mzero g d q) s = execMzero g d q s := rfl
theorem exec_mmov (g : Guard) (d : VReg) (a : BitVec 3) (row : BitVec 4) (sh intf : BitVec 1) (q : BitVec 2) : exec (.mmov g d a row sh intf q) s = execMmov g d a row sh intf q s := rfl
theorem exec_mmovr (g : Guard) (d : BitVec 3) (a : VReg) (row : BitVec 4) (q : BitVec 2) : exec (.mmovr g d a row q) s = execMmovr g d a row q s := rfl
theorem exec_mst (g : Guard) (d : SReg) (a : BitVec 4) (b : BitVec 3) (c : SReg) (sc : BitVec 4) (cplx : BitVec 1) (q : BitVec 2) : exec (.mst g d a b c sc cplx q) s = execMst g d a b c sc cplx q s := rfl
theorem exec_mspec (g : Guard) (mask : BitVec 8) (q : BitVec 2) : exec (.mspec g mask q) s = execMspec g mask q s := rfl
theorem exec_mresolve (g : Guard) (c : PReg) (q : BitVec 2) : exec (.mresolve g c q) s = execMresolve g c q s := rfl
theorem exec_mcommit (g : Guard) (q : BitVec 2) : exec (.mcommit g q) s = execMcommit g q s := rfl
theorem exec_mdiscard (g : Guard) (q : BitVec 2) : exec (.mdiscard g q) s = execMdiscard g q s := rfl
theorem exec_tgemm (g : Guard) (d : SReg) (a b c : BitVec 4) (acc : BitVec 3) (addc : BitVec 1) (slot : BitVec 7) (q : BitVec 2) : exec (.tgemm g d a b c acc addc slot q) s = execTgemm g d a b c acc addc slot q s := rfl
theorem exec_tfact (g : Guard) (d : SReg) (a : BitVec 3) (srci ptrap : BitVec 1) (q : BitVec 2) : exec (.tfact g d a srci ptrap q) s = execTfact g d a srci ptrap q s := rfl
theorem exec_tsolve (g : Guard) (d a : BitVec 3) (b : SReg) (q : BitVec 2) : exec (.tsolve g d a b q) s = execTsolve g d a b q s := rfl
theorem exec_mqpri (g : Guard) (cq pri : BitVec 2) : exec (.mqpri g cq pri) s = execMqpri g cq pri s := rfl
theorem exec_mqsync (g : Guard) (d : SReg) (cq : BitVec 2) : exec (.mqsync g d cq) s = execMqsync g d cq s := rfl
theorem exec_launch (d a : SReg) (pwake : BitVec 6) (pwen : BitVec 1) : exec (.launch d a pwake pwen) s = execLaunch d a pwake pwen s := rfl
theorem exec_exit : exec (.exit) s = execExit s := rfl
theorem exec_yield (d : SReg) : exec (.yield d) s = execYield d s := rfl
theorem exec_halt : exec (.halt) s = execHalt s := rfl
theorem exec_gcall (gate : BitVec 12) : exec (.gcall gate) s = execGcall gate s := rfl
theorem exec_gret (a : SReg) (abort : BitVec 1) : exec (.gret a abort) s = execGret a abort s := rfl
theorem exec_trap (code : BitVec 16) : exec (.trap code) s = execTrap code s := rfl
theorem exec_eret : exec (.eret) s = execEret s := rfl
theorem exec_sysr (g : Guard) (d : SReg) (idx : BitVec 12) : exec (.sysr g d idx) s = execSysr g d idx s := rfl
theorem exec_sysw (g : Guard) (a : SReg) (idx : BitVec 12) : exec (.sysw g a idx) s = execSysw g a idx s := rfl
theorem exec_publish (d a c : SReg) : exec (.publish d a c) s = execPublish d a c s := rfl
theorem exec_tlbinv (g : Guard) (a b : SReg) (kind reach : BitVec 2) : exec (.tlbinv g a b kind reach) s = execTlbinv g a b kind reach s := rfl
theorem exec_lflush (g : Guard) (a b : SReg) (inv : BitVec 1) (reach : BitVec 2) : exec (.lflush g a b inv reach) s = execLflush g a b inv reach s := rfl
theorem exec_l2cfg (g : Guard) (d a b : SReg) (dir : BitVec 1) : exec (.l2cfg g d a b dir) s = execL2cfg g d a b dir s := rfl
theorem exec_mscrub (g : Guard) (d a b : SReg) : exec (.mscrub g d a b) s = execMscrub g d a b s := rfl
theorem exec_mspare (g : Guard) (d a b : SReg) : exec (.mspare g d a b) s = execMspare g d a b s := rfl
theorem exec_mrmapRead (g : Guard) (d a b c : SReg) : exec (.mrmapRead g d a b c) s = execMrmapRead g d a b c s := rfl
theorem exec_mrmapWrite (g : Guard) (d a b c : SReg) : exec (.mrmapWrite g d a b c) s = execMrmapWrite g d a b c s := rfl
theorem exec_mrmapInvalidate (g : Guard) (d a b c : SReg) : exec (.mrmapInvalidate g d a b c) s = execMrmapInvalidate g d a b c s := rfl
theorem exec_mrmapSpareBitmap (g : Guard) (d a b c : SReg) : exec (.mrmapSpareBitmap g d a b c) s = execMrmapSpareBitmap g d a b c s := rfl
theorem exec_mliveNotLive (g : Guard) (d a b : SReg) : exec (.mliveNotLive g d a b) s = execMliveNotLive g d a b s := rfl
theorem exec_mliveLive (g : Guard) (d a b : SReg) : exec (.mliveLive g d a b) s = execMliveLive g d a b s := rfl
theorem exec_jrnl (g : Guard) (d a : SReg) (word : BitVec 2) (clear : BitVec 1) : exec (.jrnl g d a word clear) s = execJrnl g d a word clear s := rfl
theorem exec_msave (g : Guard) (d a : SReg) : exec (.msave g d a) s = execMsave g d a s := rfl
theorem exec_bind (g : Guard) (d a b : SReg) : exec (.bind g d a b) s = execBind g d a b s := rfl
theorem exec_gswitchCancel (g : Guard) (d a b : SReg) : exec (.gswitchCancel g d a b) s = execGswitchCancel g d a b s := rfl
theorem exec_gswitchArm (g : Guard) (d a b : SReg) : exec (.gswitchArm g d a b) s = execGswitchArm g d a b s := rfl
theorem exec_asyncTrapTaken (core : Nat) : exec (.asyncTrapTaken core) s = execAsyncTrapTaken core s := rfl
theorem exec_waitConditionMet (core : Nat) : exec (.waitConditionMet core) s = execWaitConditionMet core s := rfl
theorem exec_coprocessorPortAccept (spire : Nat) : exec (.coprocessorPortAccept spire) s = execCoprocessorPortAccept spire s := rfl
theorem exec_graverOpStart (spire : Nat) : exec (.graverOpStart spire) s = execGraverOpStart spire s := rfl
theorem exec_graverOpComplete (spire ctx : Nat) : exec (.graverOpComplete spire ctx) s = execGraverOpComplete spire ctx s := rfl
theorem exec_bankGrant (dome bank : Nat) : exec (.bankGrant dome bank) s = execBankGrant dome bank s := rfl
theorem exec_postedStoreArrival (k : Nat) : exec (.postedStoreArrival k) s = execPostedStoreArrival k s := rfl
theorem exec_redPacketArrival (k : Nat) : exec (.redPacketArrival k) s = execRedPacketArrival k s := rfl
theorem exec_wakeDelivery (k : Nat) : exec (.wakeDelivery k) s = execWakeDelivery k s := rfl
theorem exec_postedAcknowledge (k : Nat) : exec (.postedAcknowledge k) s = execPostedAcknowledge k s := rfl
theorem exec_postedRefusal (k : Nat) : exec (.postedRefusal k) s = execPostedRefusal k s := rfl
theorem exec_streamerPiece (unit : Nat) : exec (.streamerPiece unit) s = execStreamerPiece unit s := rfl
theorem exec_copyStatusLanding (k : Nat) : exec (.copyStatusLanding k) s = execCopyStatusLanding k s := rfl
theorem exec_channelRetry (core : Nat) : exec (.channelRetry core) s = execChannelRetry core s := rfl
theorem exec_tlbWalkComplete (spire tenant : Nat) (ctx : BitVec 16) (va : Word) : exec (.tlbWalkComplete spire tenant ctx va) s = execTlbWalkComplete spire tenant ctx va s := rfl
theorem exec_sliceRetryHint (spire : Nat) : exec (.sliceRetryHint spire) s = execSliceRetryHint spire s := rfl
theorem exec_linkRetrain (link : Nat) (failures : Nat) (held : List Nat) : exec (.linkRetrain link failures held) s = execLinkRetrain link failures held s := rfl
theorem exec_hbmDemandAccess (pa : Nat) (data : Option (BitVec 256)) : exec (.hbmDemandAccess pa data) s = execHbmDemandAccess pa data s := rfl
theorem exec_trackerLeak : exec (.trackerLeak) s = execTrackerLeak s := rfl
theorem exec_mspareCopyEnd (channel : Nat) : exec (.mspareCopyEnd channel) s = execMspareCopyEnd channel s := rfl
theorem exec_launchRegisterWrite (port : Bool) (tenant n : Nat) (value : Word) : exec (.launchRegisterWrite port tenant n value) s = execLaunchRegisterWrite port tenant n value s := rfl
theorem exec_lstatWrite (port : Bool) (tenant : Nat) (value : Word) : exec (.lstatWrite port tenant value) s = execLstatWrite port tenant value s := rfl
theorem exec_belfryAdmission (order : List Nat) : exec (.belfryAdmission order) s = execBelfryAdmission order s := rfl
theorem exec_ageingStep (region : Nat) : exec (.ageingStep region) s = execAgeingStep region s := rfl
theorem exec_dispatchFreshStart (part : Nat) : exec (.dispatchFreshStart part) s = execDispatchFreshStart part s := rfl
theorem exec_partitionResume (part : Nat) : exec (.partitionResume part) s = execPartitionResume part s := rfl
theorem exec_gangSwitch (part : Nat) : exec (.gangSwitch part) s = execGangSwitch part s := rfl
theorem exec_regionRetire (region : Nat) : exec (.regionRetire region) s = execRegionRetire region s := rfl
theorem exec_maxrunExpiry (region : Nat) : exec (.maxrunExpiry region) s = execMaxrunExpiry region s := rfl
theorem exec_gstepsExpiry (region : Nat) : exec (.gstepsExpiry region) s = execGstepsExpiry region s := rfl
theorem exec_watchdogTimeout (region : Nat) : exec (.watchdogTimeout region) s = execWatchdogTimeout region s := rfl
theorem exec_watchdogSwitchTimeout (region : Nat) : exec (.watchdogSwitchTimeout region) s = execWatchdogSwitchTimeout region s := rfl
theorem exec_yieldTimeout (core : Nat) : exec (.yieldTimeout core) s = execYieldTimeout core s := rfl
theorem exec_semaphoreTake (port : Bool) (n : Nat) (tie : Bool) : exec (.semaphoreTake port n tie) s = execSemaphoreTake port n tie s := rfl
theorem exec_semaphoreRelease (port : Bool) (n : Nat) (value : Word) : exec (.semaphoreRelease port n value) s = execSemaphoreRelease port n value s := rfl
theorem exec_setshare (port : Bool) (tenant : Nat) (share : BitVec 8) : exec (.setshare port tenant share) s = execSetshare port tenant share s := rfl
theorem exec_setwdcfg (port : Bool) (tenant n : Nat) (value : Word) : exec (.setwdcfg port tenant n value) s = execSetwdcfg port tenant n value s := rfl
theorem exec_traceCommand (port : Bool) (enable : Bool) (base log2 : Nat) : exec (.traceCommand port enable base log2) s = execTraceCommand port enable base log2 s := rfl
theorem exec_attest (port : Bool) (nonce : BitVec 256) : exec (.attest port nonce) s = execAttest port nonce s := rfl
theorem exec_msixVectorUnmask (tenant vector : Nat) : exec (.msixVectorUnmask tenant vector) s = execMsixVectorUnmask tenant vector s := rfl
theorem exec_hostBar4Access (port : Bool) (pa len : Nat) (data : Option (List Byte)) : exec (.hostBar4Access port pa len data) s = execHostBar4Access port pa len data s := rfl
theorem exec_functionLevelReset (port : Bool) : exec (.functionLevelReset port) s = execFunctionLevelReset port s := rfl
theorem exec_registerWrite (port : Bool) (bar offset : Nat) (value : Word) : exec (.registerWrite port bar offset value) s = execRegisterWrite port bar offset value s := rfl
theorem exec_thaturLoad (tenant : Nat) (ctx : BitVec 16) (container : Word) : exec (.thaturLoad tenant ctx container) s = execThaturLoad tenant ctx container s := rfl
theorem exec_deviceReset : exec (.deviceReset) s = execDeviceReset s := rfl
theorem exec_powerCap (dome : Nat) (stop : Bool) : exec (.powerCap dome stop) s = execPowerCap dome stop s := rfl
theorem exec_thermalAlarm : exec (.thermalAlarm) s = execThermalAlarm s := rfl
theorem exec_thermalShutdown : exec (.thermalShutdown) s = execThermalShutdown s := rfl
theorem exec_spirePortSend (spire : Nat) : exec (.spirePortSend spire) s = execSpirePortSend spire s := rfl
theorem exec_softError (unit : Nat) (where_ : Nat) : exec (.softError unit where_) s = execSoftError unit where_ s := rfl

end Sys2Proof.Machine
end

