-- ==== Sys2Proof/Laws/PerInstr.lean ====
section
/-!
SUPPORT. For every instruction: the fields its encoder writes name it again (01_encoding R23-R33).
-/

namespace Sys2Proof.Laws

open Sys2Proof

set_option linter.unusedSimpArgs false
set_option Elab.async false

/-! ## Fields -/

@[simp] theorem fld5 (r : BitVec 5) : (fld r).setWidth 5 = r := by simp [fld]
@[simp] theorem fld3 (r : BitVec 3) : (fld r).setWidth 3 = r := by simp [fld]
@[simp] theorem fld4 (r : BitVec 4) : (fld r).setWidth 4 = r := by simp [fld]
@[simp] theorem fld2 (r : BitVec 2) : (fld r).setWidth 2 = r := by simp [fld]
@[simp] theorem vfld5 (r : VReg) : (vfld r).setWidth 5 = r := by
  ext i hi
  rw [BitVec.getElem_setWidth]
  unfold vfld
  rw [BitVec.getLsbD_append]
  simp [hi]
@[simp] theorem fld5_msb (r : BitVec 5) : (fld r).getLsbD 5 = false := by simp [fld]
@[simp] theorem vfld_msb (r : VReg) : (vfld r).getLsbD 5 = true := by
  unfold vfld
  rw [BitVec.getLsbD_append]
  simp
@[simp] theorem fld5_bit (r : BitVec 5) : (fld r)[5] = false := by simp [fld]
@[simp] theorem vfld_bit (r : VReg) : (vfld r)[5] = true := by rw [← BitVec.getLsbD_eq_getElem]; exact vfld_msb r
@[simp] theorem ofCode_code (t : Ty) : Ty.ofCode t.code = t := by cases t <;> rfl

/-- A subfield of I16 is read back from its place. -/
@[simp] theorem at16_same {n k : Nat} (x : BitVec n) (h : k + n ≤ 16) : (at16 x k).extractLsb' k n = x := by
  ext i hi
  have h1 : k + i < 16 := by omega
  simp [at16, BitVec.getElem_extractLsb', BitVec.getLsbD_shiftLeft, BitVec.getLsbD_setWidth, h1, BitVec.getLsbD_eq_getElem hi]

/-- A subfield of I16 leaves the bits above and below it zero. -/
@[simp] theorem at16_above {n k k' n' : Nat} (x : BitVec n) (h : k + n ≤ k') : (at16 x k).extractLsb' k' n' = 0#n' := by
  ext i hi
  simp [at16, BitVec.getElem_extractLsb', BitVec.getLsbD_shiftLeft, BitVec.getLsbD_setWidth]
  intros
  exact BitVec.getLsbD_of_ge _ _ (by omega)

@[simp] theorem at16_below {n k k' n' : Nat} (x : BitVec n) (h : k' + n' ≤ k) : (at16 x k).extractLsb' k' n' = 0#n' := by
  ext i hi
  simp [at16, BitVec.getElem_extractLsb', BitVec.getLsbD_shiftLeft, BitVec.getLsbD_setWidth]
  omega

/-- A subfield of I64 is read back from its place. -/
@[simp] theorem at64_same {n k : Nat} (x : BitVec n) (h : k + n ≤ 64) : (at64 x k).extractLsb' k n = x := by
  ext i hi
  have h1 : k + i < 64 := by omega
  simp [at64, h1, BitVec.getLsbD_eq_getElem hi]

@[simp] theorem at64_above {n k k' n' : Nat} (x : BitVec n) (h : k + n ≤ k') : (at64 x k).extractLsb' k' n' = 0#n' := by
  ext i hi
  simp [at64, BitVec.getElem_extractLsb', BitVec.getLsbD_shiftLeft, BitVec.getLsbD_setWidth]
  intros
  exact BitVec.getLsbD_of_ge _ _ (by omega)

@[simp] theorem at64_below {n k k' n' : Nat} (x : BitVec n) (h : k' + n' ≤ k) : (at64 x k).extractLsb' k' n' = 0#n' := by
  ext i hi
  simp [at64, BitVec.getElem_extractLsb', BitVec.getLsbD_shiftLeft, BitVec.getLsbD_setWidth]
  omega

/-- The fields a well-formed instruction is encoded in name it again. -/
def Encoding.Statement (i : Instr) : Prop := ∀ x, i.toRaw = some x → i.wf = true → x.candidate = .ok i

theorem Encoding.fill : Encoding.Statement .fill := by
  intro x h
  have h2 : (none : Option Raw) = some x := h
  simp at h2

theorem Encoding.add (g : Guard) (t : Ty) (d a : SReg) (b : OpB) : Encoding.Statement (.add g t d a b) := by
  intro x h _
  obtain rfl := Option.some.inj h
  cases b <;> (change (Except.ok (.add _ _ _ _ _) : Except Reject Instr) = _; simp (disch := omega) [Raw.guard, BitVec.extractLsb'_or, Raw.maj00, OpB.ofRaw, OpB.fld, OpB.isImm, OpB.len, OpB.i16, OpB.ext])

theorem Encoding.sub (g : Guard) (t : Ty) (d a : SReg) (b : OpB) : Encoding.Statement (.sub g t d a b) := by
  intro x h _
  obtain rfl := Option.some.inj h
  cases b <;> (change (Except.ok (.sub _ _ _ _ _) : Except Reject Instr) = _; simp (disch := omega) [Raw.guard, BitVec.extractLsb'_or, Raw.maj00, OpB.ofRaw, OpB.fld, OpB.isImm, OpB.len, OpB.i16, OpB.ext])

theorem Encoding.and (g : Guard) (t : Ty) (d a : SReg) (b : OpB) : Encoding.Statement (.and g t d a b) := by
  intro x h _
  obtain rfl := Option.some.inj h
  cases b <;> (change (Except.ok (.and _ _ _ _ _) : Except Reject Instr) = _; simp (disch := omega) [Raw.guard, BitVec.extractLsb'_or, Raw.maj00, OpB.ofRaw, OpB.fld, OpB.isImm, OpB.len, OpB.i16, OpB.ext])

theorem Encoding.or (g : Guard) (t : Ty) (d a : SReg) (b : OpB) : Encoding.Statement (.or g t d a b) := by
  intro x h _
  obtain rfl := Option.some.inj h
  cases b <;> (change (Except.ok (.or _ _ _ _ _) : Except Reject Instr) = _; simp (disch := omega) [Raw.guard, BitVec.extractLsb'_or, Raw.maj00, OpB.ofRaw, OpB.fld, OpB.isImm, OpB.len, OpB.i16, OpB.ext])

theorem Encoding.xor (g : Guard) (t : Ty) (d a : SReg) (b : OpB) : Encoding.Statement (.xor g t d a b) := by
  intro x h _
  obtain rfl := Option.some.inj h
  cases b <;> (change (Except.ok (.xor _ _ _ _ _) : Except Reject Instr) = _; simp (disch := omega) [Raw.guard, BitVec.extractLsb'_or, Raw.maj00, OpB.ofRaw, OpB.fld, OpB.isImm, OpB.len, OpB.i16, OpB.ext])

theorem Encoding.andn (g : Guard) (t : Ty) (d a : SReg) (b : OpB) : Encoding.Statement (.andn g t d a b) := by
  intro x h _
  obtain rfl := Option.some.inj h
  cases b <;> (change (Except.ok (.andn _ _ _ _ _) : Except Reject Instr) = _; simp (disch := omega) [Raw.guard, BitVec.extractLsb'_or, Raw.maj00, OpB.ofRaw, OpB.fld, OpB.isImm, OpB.len, OpB.i16, OpB.ext])

theorem Encoding.shl (g : Guard) (t : Ty) (d a : SReg) (b : OpB) : Encoding.Statement (.shl g t d a b) := by
  intro x h _
  obtain rfl := Option.some.inj h
  cases b <;> (change (Except.ok (.shl _ _ _ _ _) : Except Reject Instr) = _; simp (disch := omega) [Raw.guard, BitVec.extractLsb'_or, Raw.maj00, OpB.ofRaw, OpB.fld, OpB.isImm, OpB.len, OpB.i16, OpB.ext])

theorem Encoding.shr (g : Guard) (t : Ty) (d a : SReg) (b : OpB) : Encoding.Statement (.shr g t d a b) := by
  intro x h _
  obtain rfl := Option.some.inj h
  cases b <;> (change (Except.ok (.shr _ _ _ _ _) : Except Reject Instr) = _; simp (disch := omega) [Raw.guard, BitVec.extractLsb'_or, Raw.maj00, OpB.ofRaw, OpB.fld, OpB.isImm, OpB.len, OpB.i16, OpB.ext])

theorem Encoding.sar (g : Guard) (t : Ty) (d a : SReg) (b : OpB) : Encoding.Statement (.sar g t d a b) := by
  intro x h _
  obtain rfl := Option.some.inj h
  cases b <;> (change (Except.ok (.sar _ _ _ _ _) : Except Reject Instr) = _; simp (disch := omega) [Raw.guard, BitVec.extractLsb'_or, Raw.maj00, OpB.ofRaw, OpB.fld, OpB.isImm, OpB.len, OpB.i16, OpB.ext])

theorem Encoding.ror (g : Guard) (t : Ty) (d a : SReg) (b : OpB) : Encoding.Statement (.ror g t d a b) := by
  intro x h _
  obtain rfl := Option.some.inj h
  cases b <;> (change (Except.ok (.ror _ _ _ _ _) : Except Reject Instr) = _; simp (disch := omega) [Raw.guard, BitVec.extractLsb'_or, Raw.maj00, OpB.ofRaw, OpB.fld, OpB.isImm, OpB.len, OpB.i16, OpB.ext])

theorem Encoding.min (g : Guard) (t : Ty) (d a : SReg) (b : OpB) : Encoding.Statement (.min g t d a b) := by
  intro x h _
  obtain rfl := Option.some.inj h
  cases b <;> (change (Except.ok (.min _ _ _ _ _) : Except Reject Instr) = _; simp (disch := omega) [Raw.guard, BitVec.extractLsb'_or, Raw.maj00, OpB.ofRaw, OpB.fld, OpB.isImm, OpB.len, OpB.i16, OpB.ext])

theorem Encoding.max (g : Guard) (t : Ty) (d a : SReg) (b : OpB) : Encoding.Statement (.max g t d a b) := by
  intro x h _
  obtain rfl := Option.some.inj h
  cases b <;> (change (Except.ok (.max _ _ _ _ _) : Except Reject Instr) = _; simp (disch := omega) [Raw.guard, BitVec.extractLsb'_or, Raw.maj00, OpB.ofRaw, OpB.fld, OpB.isImm, OpB.len, OpB.i16, OpB.ext])

theorem Encoding.mul (g : Guard) (t : Ty) (d a : SReg) (b : OpB) : Encoding.Statement (.mul g t d a b) := by
  intro x h _
  obtain rfl := Option.some.inj h
  cases b <;> (change (Except.ok (.mul _ _ _ _ _) : Except Reject Instr) = _; simp (disch := omega) [Raw.guard, BitVec.extractLsb'_or, Raw.maj01, OpB.ofRaw, OpB.fld, OpB.isImm, OpB.len, OpB.i16, OpB.ext])

theorem Encoding.mulh (g : Guard) (t : Ty) (d a : SReg) (b : OpB) : Encoding.Statement (.mulh g t d a b) := by
  intro x h _
  obtain rfl := Option.some.inj h
  cases b <;> (change (Except.ok (.mulh _ _ _ _ _) : Except Reject Instr) = _; simp (disch := omega) [Raw.guard, BitVec.extractLsb'_or, Raw.maj01, OpB.ofRaw, OpB.fld, OpB.isImm, OpB.len, OpB.i16, OpB.ext])

theorem Encoding.div (g : Guard) (t : Ty) (d a : SReg) (b : OpB) : Encoding.Statement (.div g t d a b) := by
  intro x h _
  obtain rfl := Option.some.inj h
  cases b <;> (change (Except.ok (.div _ _ _ _ _) : Except Reject Instr) = _; simp (disch := omega) [Raw.guard, BitVec.extractLsb'_or, Raw.maj01, OpB.ofRaw, OpB.fld, OpB.isImm, OpB.len, OpB.i16, OpB.ext])

theorem Encoding.rem (g : Guard) (t : Ty) (d a : SReg) (b : OpB) : Encoding.Statement (.rem g t d a b) := by
  intro x h _
  obtain rfl := Option.some.inj h
  cases b <;> (change (Except.ok (.rem _ _ _ _ _) : Except Reject Instr) = _; simp (disch := omega) [Raw.guard, BitVec.extractLsb'_or, Raw.maj01, OpB.ofRaw, OpB.fld, OpB.isImm, OpB.len, OpB.i16, OpB.ext])

theorem Encoding.clz (g : Guard) (t : Ty) (d a : SReg) : Encoding.Statement (.clz g t d a) := by
  intro x h _
  obtain rfl := Option.some.inj h
  change (Except.ok (.clz _ _ _ _) : Except Reject Instr) = _
  simp (disch := omega) [Raw.guard, BitVec.extractLsb'_or, Raw.maj02]

theorem Encoding.ctz (g : Guard) (t : Ty) (d a : SReg) : Encoding.Statement (.ctz g t d a) := by
  intro x h _
  obtain rfl := Option.some.inj h
  change (Except.ok (.ctz _ _ _ _) : Except Reject Instr) = _
  simp (disch := omega) [Raw.guard, BitVec.extractLsb'_or, Raw.maj02]

theorem Encoding.popc (g : Guard) (t : Ty) (d a : SReg) : Encoding.Statement (.popc g t d a) := by
  intro x h _
  obtain rfl := Option.some.inj h
  change (Except.ok (.popc _ _ _ _) : Except Reject Instr) = _
  simp (disch := omega) [Raw.guard, BitVec.extractLsb'_or, Raw.maj02]

theorem Encoding.brev (g : Guard) (t : Ty) (d a : SReg) : Encoding.Statement (.brev g t d a) := by
  intro x h _
  obtain rfl := Option.some.inj h
  change (Except.ok (.brev _ _ _ _) : Except Reject Instr) = _
  simp (disch := omega) [Raw.guard, BitVec.extractLsb'_or, Raw.maj02]

theorem Encoding.bswap (g : Guard) (t : Ty) (d a : SReg) : Encoding.Statement (.bswap g t d a) := by
  intro x h _
  obtain rfl := Option.some.inj h
  change (Except.ok (.bswap _ _ _ _) : Except Reject Instr) = _
  simp (disch := omega) [Raw.guard, BitVec.extractLsb'_or, Raw.maj02]

theorem Encoding.bext (g : Guard) (t : Ty) (d a : SReg) (pos lenM1 : BitVec 6) : Encoding.Statement (.bext g t d a pos lenM1) := by
  intro x h _
  obtain rfl := Option.some.inj h
  change (Except.ok (.bext _ _ _ _ _ _) : Except Reject Instr) = _
  simp (disch := omega) [Raw.guard, BitVec.extractLsb'_or, Raw.maj02]

theorem Encoding.bins (g : Guard) (t : Ty) (d a : SReg) (pos lenM1 : BitVec 6) : Encoding.Statement (.bins g t d a pos lenM1) := by
  intro x h _
  obtain rfl := Option.some.inj h
  change (Except.ok (.bins _ _ _ _ _ _) : Except Reject Instr) = _
  simp (disch := omega) [Raw.guard, BitVec.extractLsb'_or, Raw.maj02]

theorem Encoding.sext (g : Guard) (t : Ty) (d a : SReg) : Encoding.Statement (.sext g t d a) := by
  intro x h _
  obtain rfl := Option.some.inj h
  change (Except.ok (.sext _ _ _ _) : Except Reject Instr) = _
  simp (disch := omega) [Raw.guard, BitVec.extractLsb'_or, Raw.maj09]

theorem Encoding.zext (g : Guard) (t : Ty) (d a : SReg) : Encoding.Statement (.zext g t d a) := by
  intro x h _
  obtain rfl := Option.some.inj h
  change (Except.ok (.zext _ _ _ _) : Except Reject Instr) = _
  simp (disch := omega) [Raw.guard, BitVec.extractLsb'_or, Raw.maj09]

theorem Encoding.cmpEq (g : Guard) (t : Ty) (d : PReg) (a : SReg) (b : OpB) : Encoding.Statement (.cmpEq g t d a b) := by
  intro x h _
  obtain rfl := Option.some.inj h
  cases b <;> (change (Except.ok (.cmpEq _ _ _ _ _) : Except Reject Instr) = _; simp (disch := omega) [Raw.guard, BitVec.extractLsb'_or, Raw.maj03, OpB.ofRaw, OpB.fld, OpB.isImm, OpB.len, OpB.i16, OpB.ext])

theorem Encoding.cmpNe (g : Guard) (t : Ty) (d : PReg) (a : SReg) (b : OpB) : Encoding.Statement (.cmpNe g t d a b) := by
  intro x h _
  obtain rfl := Option.some.inj h
  cases b <;> (change (Except.ok (.cmpNe _ _ _ _ _) : Except Reject Instr) = _; simp (disch := omega) [Raw.guard, BitVec.extractLsb'_or, Raw.maj03, OpB.ofRaw, OpB.fld, OpB.isImm, OpB.len, OpB.i16, OpB.ext])

theorem Encoding.cmpLt (g : Guard) (t : Ty) (d : PReg) (a : SReg) (b : OpB) : Encoding.Statement (.cmpLt g t d a b) := by
  intro x h _
  obtain rfl := Option.some.inj h
  cases b <;> (change (Except.ok (.cmpLt _ _ _ _ _) : Except Reject Instr) = _; simp (disch := omega) [Raw.guard, BitVec.extractLsb'_or, Raw.maj03, OpB.ofRaw, OpB.fld, OpB.isImm, OpB.len, OpB.i16, OpB.ext])

theorem Encoding.cmpLe (g : Guard) (t : Ty) (d : PReg) (a : SReg) (b : OpB) : Encoding.Statement (.cmpLe g t d a b) := by
  intro x h _
  obtain rfl := Option.some.inj h
  cases b <;> (change (Except.ok (.cmpLe _ _ _ _ _) : Except Reject Instr) = _; simp (disch := omega) [Raw.guard, BitVec.extractLsb'_or, Raw.maj03, OpB.ofRaw, OpB.fld, OpB.isImm, OpB.len, OpB.i16, OpB.ext])

theorem Encoding.cmpGt (g : Guard) (t : Ty) (d : PReg) (a : SReg) (b : OpB) : Encoding.Statement (.cmpGt g t d a b) := by
  intro x h _
  obtain rfl := Option.some.inj h
  cases b <;> (change (Except.ok (.cmpGt _ _ _ _ _) : Except Reject Instr) = _; simp (disch := omega) [Raw.guard, BitVec.extractLsb'_or, Raw.maj03, OpB.ofRaw, OpB.fld, OpB.isImm, OpB.len, OpB.i16, OpB.ext])

theorem Encoding.cmpGe (g : Guard) (t : Ty) (d : PReg) (a : SReg) (b : OpB) : Encoding.Statement (.cmpGe g t d a b) := by
  intro x h _
  obtain rfl := Option.some.inj h
  cases b <;> (change (Except.ok (.cmpGe _ _ _ _ _) : Except Reject Instr) = _; simp (disch := omega) [Raw.guard, BitVec.extractLsb'_or, Raw.maj03, OpB.ofRaw, OpB.fld, OpB.isImm, OpB.len, OpB.i16, OpB.ext])

theorem Encoding.pand (g : Guard) (d a b : PReg) : Encoding.Statement (.pand g d a b) := by
  intro x h _
  obtain rfl := Option.some.inj h
  change (Except.ok (.pand _ _ _ _) : Except Reject Instr) = _
  simp (disch := omega) [Raw.guard, BitVec.extractLsb'_or, Raw.maj04]

theorem Encoding.por (g : Guard) (d a b : PReg) : Encoding.Statement (.por g d a b) := by
  intro x h _
  obtain rfl := Option.some.inj h
  change (Except.ok (.por _ _ _ _) : Except Reject Instr) = _
  simp (disch := omega) [Raw.guard, BitVec.extractLsb'_or, Raw.maj04]

theorem Encoding.pxor (g : Guard) (d a b : PReg) : Encoding.Statement (.pxor g d a b) := by
  intro x h _
  obtain rfl := Option.some.inj h
  change (Except.ok (.pxor _ _ _ _) : Except Reject Instr) = _
  simp (disch := omega) [Raw.guard, BitVec.extractLsb'_or, Raw.maj04]

theorem Encoding.pandn (g : Guard) (d a b : PReg) : Encoding.Statement (.pandn g d a b) := by
  intro x h _
  obtain rfl := Option.some.inj h
  change (Except.ok (.pandn _ _ _ _) : Except Reject Instr) = _
  simp (disch := omega) [Raw.guard, BitVec.extractLsb'_or, Raw.maj04]

theorem Encoding.pnot (g : Guard) (d a : PReg) : Encoding.Statement (.pnot g d a) := by
  intro x h _
  obtain rfl := Option.some.inj h
  change (Except.ok (.pnot _ _ _) : Except Reject Instr) = _
  simp (disch := omega) [Raw.guard, BitVec.extractLsb'_or, Raw.maj04]

theorem Encoding.pmov (g : Guard) (d a : PReg) : Encoding.Statement (.pmov g d a) := by
  intro x h _
  obtain rfl := Option.some.inj h
  change (Except.ok (.pmov _ _ _) : Except Reject Instr) = _
  simp (disch := omega) [Raw.guard, BitVec.extractLsb'_or, Raw.maj04]

theorem Encoding.pset (g : Guard) (d : PReg) (imm : BitVec 32) : Encoding.Statement (.pset g d imm) := by
  intro x h _
  obtain rfl := Option.some.inj h
  change (Except.ok (.pset _ _ _) : Except Reject Instr) = _
  simp (disch := omega) [Raw.guard, BitVec.extractLsb'_or, Raw.maj04]

theorem Encoding.movi (g : Guard) (d : SReg) (imm : MoviImm) : Encoding.Statement (.movi g d imm) := by
  intro x h _
  obtain rfl := Option.some.inj h
  cases imm <;> (change (Except.ok (.movi _ _ _) : Except Reject Instr) = _; simp (disch := omega) [Raw.guard, BitVec.extractLsb'_or, Raw.maj05, MoviImm.ofRaw, MoviImm.len, MoviImm.i16, MoviImm.ext])

theorem Encoding.mov (g : Guard) (d a : SReg) : Encoding.Statement (.mov g d a) := by
  intro x h _
  obtain rfl := Option.some.inj h
  change (Except.ok (.mov _ _ _) : Except Reject Instr) = _
  simp (disch := omega) [Raw.guard, BitVec.extractLsb'_or, Raw.maj05]

theorem Encoding.lea (g : Guard) (d a : SReg) (b : LeaB) : Encoding.Statement (.lea g d a b) := by
  intro x h _
  obtain rfl := Option.some.inj h
  cases b <;> (change (Except.ok (.lea _ _ _ _) : Except Reject Instr) = _; simp (disch := omega) [Raw.guard, BitVec.extractLsb'_or, Raw.maj05, LeaB.ofRaw, LeaB.fld, LeaB.isImm, LeaB.len, LeaB.i16, LeaB.ext])

theorem Encoding.sel (g : Guard) (d a b : SReg) (c : PReg) : Encoding.Statement (.sel g d a b c) := by
  intro x h _
  obtain rfl := Option.some.inj h
  change (Except.ok (.sel _ _ _ _ _) : Except Reject Instr) = _
  simp (disch := omega) [Raw.guard, BitVec.extractLsb'_or, Raw.maj05]

theorem Encoding.qcap (g : Guard) (d : SReg) (b : OpB64) : Encoding.Statement (.qcap g d b) := by
  intro x h _
  obtain rfl := Option.some.inj h
  cases b <;> (change (Except.ok (.qcap _ _ _) : Except Reject Instr) = _; simp (disch := omega) [Raw.guard, BitVec.extractLsb'_or, Raw.maj06, OpB64.ofRaw, OpB64.fld, OpB64.isImm, OpB64.i16])

theorem Encoding.rndc (g : Guard) (d a b : SReg) : Encoding.Statement (.rndc g d a b) := by
  intro x h _
  obtain rfl := Option.some.inj h
  change (Except.ok (.rndc _ _ _ _) : Except Reject Instr) = _
  simp (disch := omega) [Raw.guard, BitVec.extractLsb'_or, Raw.maj06]

theorem Encoding.mfs (g : Guard) (d : SReg) (idx : BitVec 10) : Encoding.Statement (.mfs g d idx) := by
  intro x h _
  obtain rfl := Option.some.inj h
  change (Except.ok (.mfs _ _ _) : Except Reject Instr) = _
  simp (disch := omega) [Raw.guard, BitVec.extractLsb'_or, Raw.maj07]

theorem Encoding.mts (g : Guard) (a : SReg) (idx : BitVec 10) : Encoding.Statement (.mts g a idx) := by
  intro x h hw
  obtain rfl := Option.some.inj h
  have hne : idx ≠ 0#10 := by
    rintro rfl
    simp [Instr.wf, Instr.check, Check.first, Check.mtsIndex] at hw
  have h0 : at16 idx 0 ≠ 0#16 := by
    intro h0
    have h1 := at16_same (k := 0) idx (by omega)
    rw [h0] at h1
    exact hne (by simpa using h1.symm)
  change (match Raw.maj07 _ with | some i => Except.ok i | none => Except.error Reject.unassignedOp) = _
  simp [Raw.guard, Raw.maj07, h0]

theorem Encoding.mtsWp (g : Guard) (a : SReg) : Encoding.Statement (.mtsWp g a) := by
  intro x h _
  obtain rfl := Option.some.inj h
  change (Except.ok (.mtsWp _ _) : Except Reject Instr) = _
  simp (disch := omega) [Raw.guard, BitVec.extractLsb'_or, Raw.maj07]

theorem Encoding.pushm (g : Guard) (r : RegRange) : Encoding.Statement (.pushm g r) := by
  intro x h _
  obtain rfl := Option.some.inj h
  cases r <;> (change (Except.ok (.pushm _ _) : Except Reject Instr) = _; simp (disch := omega) [Raw.guard, BitVec.extractLsb'_or, Raw.maj08, RegRange.ofRaw, RegRange.first, RegRange.last])

theorem Encoding.popm (g : Guard) (r : RegRange) : Encoding.Statement (.popm g r) := by
  intro x h _
  obtain rfl := Option.some.inj h
  cases r <;> (change (Except.ok (.popm _ _) : Except Reject Instr) = _; simp (disch := omega) [Raw.guard, BitVec.extractLsb'_or, Raw.maj08, RegRange.ofRaw, RegRange.first, RegRange.last])

theorem Encoding.fadd (g : Guard) (t : Ty) (d a b : SReg) : Encoding.Statement (.fadd g t d a b) := by
  intro x h _
  obtain rfl := Option.some.inj h
  change (Except.ok (.fadd _ _ _ _ _) : Except Reject Instr) = _
  simp (disch := omega) [Raw.guard, BitVec.extractLsb'_or, Raw.maj10]

theorem Encoding.fsub (g : Guard) (t : Ty) (d a b : SReg) : Encoding.Statement (.fsub g t d a b) := by
  intro x h _
  obtain rfl := Option.some.inj h
  change (Except.ok (.fsub _ _ _ _ _) : Except Reject Instr) = _
  simp (disch := omega) [Raw.guard, BitVec.extractLsb'_or, Raw.maj10]

theorem Encoding.fmul (g : Guard) (t : Ty) (d a b : SReg) : Encoding.Statement (.fmul g t d a b) := by
  intro x h _
  obtain rfl := Option.some.inj h
  change (Except.ok (.fmul _ _ _ _ _) : Except Reject Instr) = _
  simp (disch := omega) [Raw.guard, BitVec.extractLsb'_or, Raw.maj10]

theorem Encoding.fdiv (g : Guard) (t : Ty) (d a b : SReg) : Encoding.Statement (.fdiv g t d a b) := by
  intro x h _
  obtain rfl := Option.some.inj h
  change (Except.ok (.fdiv _ _ _ _ _) : Except Reject Instr) = _
  simp (disch := omega) [Raw.guard, BitVec.extractLsb'_or, Raw.maj10]

theorem Encoding.fsqrt (g : Guard) (t : Ty) (d a : SReg) : Encoding.Statement (.fsqrt g t d a) := by
  intro x h _
  obtain rfl := Option.some.inj h
  change (Except.ok (.fsqrt _ _ _ _) : Except Reject Instr) = _
  simp (disch := omega) [Raw.guard, BitVec.extractLsb'_or, Raw.maj10]

theorem Encoding.fmin (g : Guard) (t : Ty) (d a b : SReg) : Encoding.Statement (.fmin g t d a b) := by
  intro x h _
  obtain rfl := Option.some.inj h
  change (Except.ok (.fmin _ _ _ _ _) : Except Reject Instr) = _
  simp (disch := omega) [Raw.guard, BitVec.extractLsb'_or, Raw.maj10]

theorem Encoding.fmax (g : Guard) (t : Ty) (d a b : SReg) : Encoding.Statement (.fmax g t d a b) := by
  intro x h _
  obtain rfl := Option.some.inj h
  change (Except.ok (.fmax _ _ _ _ _) : Except Reject Instr) = _
  simp (disch := omega) [Raw.guard, BitVec.extractLsb'_or, Raw.maj10]

theorem Encoding.fneg (g : Guard) (t : Ty) (d a : SReg) : Encoding.Statement (.fneg g t d a) := by
  intro x h _
  obtain rfl := Option.some.inj h
  change (Except.ok (.fneg _ _ _ _) : Except Reject Instr) = _
  simp (disch := omega) [Raw.guard, BitVec.extractLsb'_or, Raw.maj10]

theorem Encoding.fabs (g : Guard) (t : Ty) (d a : SReg) : Encoding.Statement (.fabs g t d a) := by
  intro x h _
  obtain rfl := Option.some.inj h
  change (Except.ok (.fabs _ _ _ _) : Except Reject Instr) = _
  simp (disch := omega) [Raw.guard, BitVec.extractLsb'_or, Raw.maj10]

theorem Encoding.fma (g : Guard) (t : Ty) (d a b c : SReg) : Encoding.Statement (.fma g t d a b c) := by
  intro x h _
  obtain rfl := Option.some.inj h
  change (Except.ok (.fma _ _ _ _ _ _) : Except Reject Instr) = _
  simp (disch := omega) [Raw.guard, BitVec.extractLsb'_or, Raw.maj11]

theorem Encoding.fms (g : Guard) (t : Ty) (d a b c : SReg) : Encoding.Statement (.fms g t d a b c) := by
  intro x h _
  obtain rfl := Option.some.inj h
  change (Except.ok (.fms _ _ _ _ _ _) : Except Reject Instr) = _
  simp (disch := omega) [Raw.guard, BitVec.extractLsb'_or, Raw.maj11]

theorem Encoding.fnma (g : Guard) (t : Ty) (d a b c : SReg) : Encoding.Statement (.fnma g t d a b c) := by
  intro x h _
  obtain rfl := Option.some.inj h
  change (Except.ok (.fnma _ _ _ _ _ _) : Except Reject Instr) = _
  simp (disch := omega) [Raw.guard, BitVec.extractLsb'_or, Raw.maj11]

theorem Encoding.fnms (g : Guard) (t : Ty) (d a b c : SReg) : Encoding.Statement (.fnms g t d a b c) := by
  intro x h _
  obtain rfl := Option.some.inj h
  change (Except.ok (.fnms _ _ _ _ _ _) : Except Reject Instr) = _
  simp (disch := omega) [Raw.guard, BitVec.extractLsb'_or, Raw.maj11]

theorem Encoding.fcmpEq (g : Guard) (t : Ty) (d : PReg) (a b : SReg) : Encoding.Statement (.fcmpEq g t d a b) := by
  intro x h _
  obtain rfl := Option.some.inj h
  change (Except.ok (.fcmpEq _ _ _ _ _) : Except Reject Instr) = _
  simp (disch := omega) [Raw.guard, BitVec.extractLsb'_or, Raw.maj12]

theorem Encoding.fcmpLt (g : Guard) (t : Ty) (d : PReg) (a b : SReg) : Encoding.Statement (.fcmpLt g t d a b) := by
  intro x h _
  obtain rfl := Option.some.inj h
  change (Except.ok (.fcmpLt _ _ _ _ _) : Except Reject Instr) = _
  simp (disch := omega) [Raw.guard, BitVec.extractLsb'_or, Raw.maj12]

theorem Encoding.fcmpLe (g : Guard) (t : Ty) (d : PReg) (a b : SReg) : Encoding.Statement (.fcmpLe g t d a b) := by
  intro x h _
  obtain rfl := Option.some.inj h
  change (Except.ok (.fcmpLe _ _ _ _ _) : Except Reject Instr) = _
  simp (disch := omega) [Raw.guard, BitVec.extractLsb'_or, Raw.maj12]

theorem Encoding.fcmpUn (g : Guard) (t : Ty) (d : PReg) (a b : SReg) : Encoding.Statement (.fcmpUn g t d a b) := by
  intro x h _
  obtain rfl := Option.some.inj h
  change (Except.ok (.fcmpUn _ _ _ _ _) : Except Reject Instr) = _
  simp (disch := omega) [Raw.guard, BitVec.extractLsb'_or, Raw.maj12]

theorem Encoding.fcvt (g : Guard) (t : Ty) (d a : SReg) (src : Ty) (rm : BitVec 4) : Encoding.Statement (.fcvt g t d a src rm) := by
  intro x h _
  obtain rfl := Option.some.inj h
  change (Except.ok (.fcvt _ _ _ _ _ _) : Except Reject Instr) = _
  simp (disch := omega) [Raw.guard, BitVec.extractLsb'_or, Raw.maj13]

theorem Encoding.fclass (g : Guard) (t : Ty) (d a : SReg) : Encoding.Statement (.fclass g t d a) := by
  intro x h _
  obtain rfl := Option.some.inj h
  change (Except.ok (.fclass _ _ _ _) : Except Reject Instr) = _
  simp (disch := omega) [Raw.guard, BitVec.extractLsb'_or, Raw.maj13]

theorem Encoding.br (g : Guard) (off : Offset) : Encoding.Statement (.br g off) := by
  intro x h _
  obtain rfl := Option.some.inj h
  cases off <;> (change (Except.ok (.br _ _) : Except Reject Instr) = _; simp (disch := omega) [Raw.guard, BitVec.extractLsb'_or, Raw.maj18, Offset.ofRaw, Offset.len, Offset.i16, Offset.ext])

theorem Encoding.call (g : Guard) (d : SReg) (off : Offset) : Encoding.Statement (.call g d off) := by
  intro x h _
  obtain rfl := Option.some.inj h
  cases off <;> (change (Except.ok (.call _ _ _) : Except Reject Instr) = _; simp (disch := omega) [Raw.guard, BitVec.extractLsb'_or, Raw.maj19, Offset.ofRaw, Offset.len, Offset.i16, Offset.ext])

theorem Encoding.jmp (g : Guard) (d a : SReg) : Encoding.Statement (.jmp g d a) := by
  intro x h _
  obtain rfl := Option.some.inj h
  change (Except.ok (.jmp _ _ _) : Except Reject Instr) = _
  simp (disch := omega) [Raw.guard, BitVec.extractLsb'_or, Raw.maj1A]

theorem Encoding.ret (g : Guard) (a : SReg) : Encoding.Statement (.ret g a) := by
  intro x h _
  obtain rfl := Option.some.inj h
  change (Except.ok (.ret _ _) : Except Reject Instr) = _
  simp (disch := omega) [Raw.guard, BitVec.extractLsb'_or, Raw.maj1A]

theorem Encoding.brx (g : Guard) (a b : SReg) (count : BitVec 16) : Encoding.Statement (.brx g a b count) := by
  intro x h _
  obtain rfl := Option.some.inj h
  change (Except.ok (.brx _ _ _ _) : Except Reject Instr) = _
  simp (disch := omega) [Raw.guard, BitVec.extractLsb'_or, Raw.maj1B]

theorem Encoding.loop (g : Guard) (a : SReg) (off : BitVec 16) : Encoding.Statement (.loop g a off) := by
  intro x h _
  obtain rfl := Option.some.inj h
  change (Except.ok (.loop _ _ _) : Except Reject Instr) = _
  simp (disch := omega) [Raw.guard, BitVec.extractLsb'_or, Raw.maj1C]

theorem Encoding.rep (a : SReg) (lenM1 : BitVec 4) (stride : BitVec 5) (mask : BitVec 4) : Encoding.Statement (.rep a lenM1 stride mask) := by
  intro x h _
  obtain rfl := Option.some.inj h
  change (Except.ok (.rep _ _ _ _) : Except Reject Instr) = _
  simp (disch := omega) [Raw.guard, BitVec.extractLsb'_or, Raw.maj1D]

theorem Encoding.nop (g : Guard) : Encoding.Statement (.nop g) := by
  intro x h _
  obtain rfl := Option.some.inj h
  change (Except.ok (.nop _) : Except Reject Instr) = _
  simp (disch := omega) [Raw.guard, BitVec.extractLsb'_or, Raw.maj1E]

theorem Encoding.hint (g : Guard) (code : BitVec 16) : Encoding.Statement (.hint g code) := by
  intro x h _
  obtain rfl := Option.some.inj h
  change (Except.ok (.hint _ _) : Except Reject Instr) = _
  simp (disch := omega) [Raw.guard, BitVec.extractLsb'_or, Raw.maj1E]

theorem Encoding.unchain : Encoding.Statement .unchain := by
  intro x h _
  obtain rfl := Option.some.inj h
  rfl

theorem Encoding.rechain (slot : BitVec 8) : Encoding.Statement (.rechain slot) := by
  intro x h _
  obtain rfl := Option.some.inj h
  change (Except.ok (.rechain _) : Except Reject Instr) = _
  simp (disch := omega) [Raw.guard, BitVec.extractLsb'_or, Raw.maj1F]

theorem Encoding.vadd (g : Guard) (t : Ty) (d a b : VReg) : Encoding.Statement (.vadd g t d a b) := by
  intro x h _
  obtain rfl := Option.some.inj h
  change (Except.ok (.vadd _ _ _ _ _) : Except Reject Instr) = _
  simp (disch := omega) [Raw.guard, BitVec.extractLsb'_or, Raw.maj20]

theorem Encoding.vsub (g : Guard) (t : Ty) (d a b : VReg) : Encoding.Statement (.vsub g t d a b) := by
  intro x h _
  obtain rfl := Option.some.inj h
  change (Except.ok (.vsub _ _ _ _ _) : Except Reject Instr) = _
  simp (disch := omega) [Raw.guard, BitVec.extractLsb'_or, Raw.maj20]

theorem Encoding.vmul (g : Guard) (t : Ty) (d a b : VReg) : Encoding.Statement (.vmul g t d a b) := by
  intro x h _
  obtain rfl := Option.some.inj h
  change (Except.ok (.vmul _ _ _ _ _) : Except Reject Instr) = _
  simp (disch := omega) [Raw.guard, BitVec.extractLsb'_or, Raw.maj20]

theorem Encoding.vmin (g : Guard) (t : Ty) (d a b : VReg) : Encoding.Statement (.vmin g t d a b) := by
  intro x h _
  obtain rfl := Option.some.inj h
  change (Except.ok (.vmin _ _ _ _ _) : Except Reject Instr) = _
  simp (disch := omega) [Raw.guard, BitVec.extractLsb'_or, Raw.maj20]

theorem Encoding.vmax (g : Guard) (t : Ty) (d a b : VReg) : Encoding.Statement (.vmax g t d a b) := by
  intro x h _
  obtain rfl := Option.some.inj h
  change (Except.ok (.vmax _ _ _ _ _) : Except Reject Instr) = _
  simp (disch := omega) [Raw.guard, BitVec.extractLsb'_or, Raw.maj20]

theorem Encoding.vneg (g : Guard) (t : Ty) (d a : VReg) : Encoding.Statement (.vneg g t d a) := by
  intro x h _
  obtain rfl := Option.some.inj h
  change (Except.ok (.vneg _ _ _ _) : Except Reject Instr) = _
  simp (disch := omega) [Raw.guard, BitVec.extractLsb'_or, Raw.maj20]

theorem Encoding.vabs (g : Guard) (t : Ty) (d a : VReg) : Encoding.Statement (.vabs g t d a) := by
  intro x h _
  obtain rfl := Option.some.inj h
  change (Except.ok (.vabs _ _ _ _) : Except Reject Instr) = _
  simp (disch := omega) [Raw.guard, BitVec.extractLsb'_or, Raw.maj20]

theorem Encoding.vfma (g : Guard) (t : Ty) (d a b c : VReg) : Encoding.Statement (.vfma g t d a b c) := by
  intro x h _
  obtain rfl := Option.some.inj h
  change (Except.ok (.vfma _ _ _ _ _ _) : Except Reject Instr) = _
  simp (disch := omega) [Raw.guard, BitVec.extractLsb'_or, Raw.maj21]

theorem Encoding.vfms (g : Guard) (t : Ty) (d a b c : VReg) : Encoding.Statement (.vfms g t d a b c) := by
  intro x h _
  obtain rfl := Option.some.inj h
  change (Except.ok (.vfms _ _ _ _ _ _) : Except Reject Instr) = _
  simp (disch := omega) [Raw.guard, BitVec.extractLsb'_or, Raw.maj21]

theorem Encoding.vfnma (g : Guard) (t : Ty) (d a b c : VReg) : Encoding.Statement (.vfnma g t d a b c) := by
  intro x h _
  obtain rfl := Option.some.inj h
  change (Except.ok (.vfnma _ _ _ _ _ _) : Except Reject Instr) = _
  simp (disch := omega) [Raw.guard, BitVec.extractLsb'_or, Raw.maj21]

theorem Encoding.vfnms (g : Guard) (t : Ty) (d a b c : VReg) : Encoding.Statement (.vfnms g t d a b c) := by
  intro x h _
  obtain rfl := Option.some.inj h
  change (Except.ok (.vfnms _ _ _ _ _ _) : Except Reject Instr) = _
  simp (disch := omega) [Raw.guard, BitVec.extractLsb'_or, Raw.maj21]

theorem Encoding.vdiv (g : Guard) (t : Ty) (d a b : VReg) : Encoding.Statement (.vdiv g t d a b) := by
  intro x h _
  obtain rfl := Option.some.inj h
  change (Except.ok (.vdiv _ _ _ _ _) : Except Reject Instr) = _
  simp (disch := omega) [Raw.guard, BitVec.extractLsb'_or, Raw.maj22]

theorem Encoding.vrcp (g : Guard) (t : Ty) (d a : VReg) : Encoding.Statement (.vrcp g t d a) := by
  intro x h _
  obtain rfl := Option.some.inj h
  change (Except.ok (.vrcp _ _ _ _) : Except Reject Instr) = _
  simp (disch := omega) [Raw.guard, BitVec.extractLsb'_or, Raw.maj22]

theorem Encoding.vsqrt (g : Guard) (t : Ty) (d a : VReg) : Encoding.Statement (.vsqrt g t d a) := by
  intro x h _
  obtain rfl := Option.some.inj h
  change (Except.ok (.vsqrt _ _ _ _) : Except Reject Instr) = _
  simp (disch := omega) [Raw.guard, BitVec.extractLsb'_or, Raw.maj22]

theorem Encoding.vrsqrt (g : Guard) (t : Ty) (d a : VReg) : Encoding.Statement (.vrsqrt g t d a) := by
  intro x h _
  obtain rfl := Option.some.inj h
  change (Except.ok (.vrsqrt _ _ _ _) : Except Reject Instr) = _
  simp (disch := omega) [Raw.guard, BitVec.extractLsb'_or, Raw.maj22]

theorem Encoding.vexp (g : Guard) (t : Ty) (d a : VReg) : Encoding.Statement (.vexp g t d a) := by
  intro x h _
  obtain rfl := Option.some.inj h
  change (Except.ok (.vexp _ _ _ _) : Except Reject Instr) = _
  simp (disch := omega) [Raw.guard, BitVec.extractLsb'_or, Raw.maj23]

theorem Encoding.vlog (g : Guard) (t : Ty) (d a : VReg) : Encoding.Statement (.vlog g t d a) := by
  intro x h _
  obtain rfl := Option.some.inj h
  change (Except.ok (.vlog _ _ _ _) : Except Reject Instr) = _
  simp (disch := omega) [Raw.guard, BitVec.extractLsb'_or, Raw.maj23]

theorem Encoding.vsincos (g : Guard) (t : Ty) (d a : VReg) : Encoding.Statement (.vsincos g t d a) := by
  intro x h _
  obtain rfl := Option.some.inj h
  change (Except.ok (.vsincos _ _ _ _) : Except Reject Instr) = _
  simp (disch := omega) [Raw.guard, BitVec.extractLsb'_or, Raw.maj23]

theorem Encoding.vtanh (g : Guard) (t : Ty) (d a : VReg) : Encoding.Statement (.vtanh g t d a) := by
  intro x h _
  obtain rfl := Option.some.inj h
  change (Except.ok (.vtanh _ _ _ _) : Except Reject Instr) = _
  simp (disch := omega) [Raw.guard, BitVec.extractLsb'_or, Raw.maj23]

theorem Encoding.vsigm (g : Guard) (t : Ty) (d a : VReg) : Encoding.Statement (.vsigm g t d a) := by
  intro x h _
  obtain rfl := Option.some.inj h
  change (Except.ok (.vsigm _ _ _ _) : Except Reject Instr) = _
  simp (disch := omega) [Raw.guard, BitVec.extractLsb'_or, Raw.maj23]

theorem Encoding.vcmpEq (g : Guard) (t : Ty) (d : PReg) (a b : VReg) : Encoding.Statement (.vcmpEq g t d a b) := by
  intro x h _
  obtain rfl := Option.some.inj h
  change (Except.ok (.vcmpEq _ _ _ _ _) : Except Reject Instr) = _
  simp (disch := omega) [Raw.guard, BitVec.extractLsb'_or, Raw.maj24]

theorem Encoding.vcmpNe (g : Guard) (t : Ty) (d : PReg) (a b : VReg) : Encoding.Statement (.vcmpNe g t d a b) := by
  intro x h _
  obtain rfl := Option.some.inj h
  change (Except.ok (.vcmpNe _ _ _ _ _) : Except Reject Instr) = _
  simp (disch := omega) [Raw.guard, BitVec.extractLsb'_or, Raw.maj24]

theorem Encoding.vcmpLt (g : Guard) (t : Ty) (d : PReg) (a b : VReg) : Encoding.Statement (.vcmpLt g t d a b) := by
  intro x h _
  obtain rfl := Option.some.inj h
  change (Except.ok (.vcmpLt _ _ _ _ _) : Except Reject Instr) = _
  simp (disch := omega) [Raw.guard, BitVec.extractLsb'_or, Raw.maj24]

theorem Encoding.vcmpLe (g : Guard) (t : Ty) (d : PReg) (a b : VReg) : Encoding.Statement (.vcmpLe g t d a b) := by
  intro x h _
  obtain rfl := Option.some.inj h
  change (Except.ok (.vcmpLe _ _ _ _ _) : Except Reject Instr) = _
  simp (disch := omega) [Raw.guard, BitVec.extractLsb'_or, Raw.maj24]

theorem Encoding.vsel (g : Guard) (d a b : VReg) (c : PReg) (width : BitVec 2) : Encoding.Statement (.vsel g d a b c width) := by
  intro x h _
  obtain rfl := Option.some.inj h
  change (Except.ok (.vsel _ _ _ _ _ _) : Except Reject Instr) = _
  simp (disch := omega) [Raw.guard, BitVec.extractLsb'_or, Raw.maj24]

theorem Encoding.vcvt (g : Guard) (t : Ty) (d a : VReg) (src : Ty) (q : BitVec 2) (rm : BitVec 3) : Encoding.Statement (.vcvt g t d a src q rm) := by
  intro x h _
  obtain rfl := Option.some.inj h
  change (Except.ok (.vcvt _ _ _ _ _ _ _) : Except Reject Instr) = _
  simp (disch := omega) [Raw.guard, BitVec.extractLsb'_or, Raw.maj25]

theorem Encoding.vqmx (g : Guard) (d a : VReg) (b : SReg) (fmt : BitVec 3) : Encoding.Statement (.vqmx g d a b fmt) := by
  intro x h _
  obtain rfl := Option.some.inj h
  change (Except.ok (.vqmx _ _ _ _ _) : Except Reject Instr) = _
  simp (disch := omega) [Raw.guard, BitVec.extractLsb'_or, Raw.maj25]

theorem Encoding.vdqmx (g : Guard) (d a : VReg) (b : SReg) (fmt : BitVec 3) : Encoding.Statement (.vdqmx g d a b fmt) := by
  intro x h _
  obtain rfl := Option.some.inj h
  change (Except.ok (.vdqmx _ _ _ _ _) : Except Reject Instr) = _
  simp (disch := omega) [Raw.guard, BitVec.extractLsb'_or, Raw.maj25]

theorem Encoding.vredAdd (g : Guard) (t : Ty) (d a : VReg) : Encoding.Statement (.vredAdd g t d a) := by
  intro x h _
  obtain rfl := Option.some.inj h
  change (Except.ok (.vredAdd _ _ _ _) : Except Reject Instr) = _
  simp (disch := omega) [Raw.guard, BitVec.extractLsb'_or, Raw.maj26]

theorem Encoding.vredMin (g : Guard) (t : Ty) (d a : VReg) : Encoding.Statement (.vredMin g t d a) := by
  intro x h _
  obtain rfl := Option.some.inj h
  change (Except.ok (.vredMin _ _ _ _) : Except Reject Instr) = _
  simp (disch := omega) [Raw.guard, BitVec.extractLsb'_or, Raw.maj26]

theorem Encoding.vredMax (g : Guard) (t : Ty) (d a : VReg) : Encoding.Statement (.vredMax g t d a) := by
  intro x h _
  obtain rfl := Option.some.inj h
  change (Except.ok (.vredMax _ _ _ _) : Except Reject Instr) = _
  simp (disch := omega) [Raw.guard, BitVec.extractLsb'_or, Raw.maj26]

theorem Encoding.vaddInt (g : Guard) (t : Ty) (d a : VReg) (b : OpBV) : Encoding.Statement (.vaddInt g t d a b) := by
  intro x h _
  obtain rfl := Option.some.inj h
  cases b <;> (change (Except.ok (.vaddInt _ _ _ _ _) : Except Reject Instr) = _; simp (disch := omega) [Raw.guard, BitVec.extractLsb'_or, Raw.maj27, OpBV.ofRaw, OpBV.fld, OpBV.isImm, OpBV.i16])

theorem Encoding.vsubInt (g : Guard) (t : Ty) (d a : VReg) (b : OpBV) : Encoding.Statement (.vsubInt g t d a b) := by
  intro x h _
  obtain rfl := Option.some.inj h
  cases b <;> (change (Except.ok (.vsubInt _ _ _ _ _) : Except Reject Instr) = _; simp (disch := omega) [Raw.guard, BitVec.extractLsb'_or, Raw.maj27, OpBV.ofRaw, OpBV.fld, OpBV.isImm, OpBV.i16])

theorem Encoding.vand (g : Guard) (t : Ty) (d a : VReg) (b : OpBV) : Encoding.Statement (.vand g t d a b) := by
  intro x h _
  obtain rfl := Option.some.inj h
  cases b <;> (change (Except.ok (.vand _ _ _ _ _) : Except Reject Instr) = _; simp (disch := omega) [Raw.guard, BitVec.extractLsb'_or, Raw.maj27, OpBV.ofRaw, OpBV.fld, OpBV.isImm, OpBV.i16])

theorem Encoding.vor (g : Guard) (t : Ty) (d a : VReg) (b : OpBV) : Encoding.Statement (.vor g t d a b) := by
  intro x h _
  obtain rfl := Option.some.inj h
  cases b <;> (change (Except.ok (.vor _ _ _ _ _) : Except Reject Instr) = _; simp (disch := omega) [Raw.guard, BitVec.extractLsb'_or, Raw.maj27, OpBV.ofRaw, OpBV.fld, OpBV.isImm, OpBV.i16])

theorem Encoding.vxor (g : Guard) (t : Ty) (d a : VReg) (b : OpBV) : Encoding.Statement (.vxor g t d a b) := by
  intro x h _
  obtain rfl := Option.some.inj h
  cases b <;> (change (Except.ok (.vxor _ _ _ _ _) : Except Reject Instr) = _; simp (disch := omega) [Raw.guard, BitVec.extractLsb'_or, Raw.maj27, OpBV.ofRaw, OpBV.fld, OpBV.isImm, OpBV.i16])

theorem Encoding.vshl (g : Guard) (t : Ty) (d a : VReg) (b : OpBV) : Encoding.Statement (.vshl g t d a b) := by
  intro x h _
  obtain rfl := Option.some.inj h
  cases b <;> (change (Except.ok (.vshl _ _ _ _ _) : Except Reject Instr) = _; simp (disch := omega) [Raw.guard, BitVec.extractLsb'_or, Raw.maj27, OpBV.ofRaw, OpBV.fld, OpBV.isImm, OpBV.i16])

theorem Encoding.vshr (g : Guard) (t : Ty) (d a : VReg) (b : OpBV) : Encoding.Statement (.vshr g t d a b) := by
  intro x h _
  obtain rfl := Option.some.inj h
  cases b <;> (change (Except.ok (.vshr _ _ _ _ _) : Except Reject Instr) = _; simp (disch := omega) [Raw.guard, BitVec.extractLsb'_or, Raw.maj27, OpBV.ofRaw, OpBV.fld, OpBV.isImm, OpBV.i16])

theorem Encoding.vsar (g : Guard) (t : Ty) (d a : VReg) (b : OpBV) : Encoding.Statement (.vsar g t d a b) := by
  intro x h _
  obtain rfl := Option.some.inj h
  cases b <;> (change (Except.ok (.vsar _ _ _ _ _) : Except Reject Instr) = _; simp (disch := omega) [Raw.guard, BitVec.extractLsb'_or, Raw.maj27, OpBV.ofRaw, OpBV.fld, OpBV.isImm, OpBV.i16])

theorem Encoding.vminInt (g : Guard) (t : Ty) (d a : VReg) (b : OpBV) : Encoding.Statement (.vminInt g t d a b) := by
  intro x h _
  obtain rfl := Option.some.inj h
  cases b <;> (change (Except.ok (.vminInt _ _ _ _ _) : Except Reject Instr) = _; simp (disch := omega) [Raw.guard, BitVec.extractLsb'_or, Raw.maj27, OpBV.ofRaw, OpBV.fld, OpBV.isImm, OpBV.i16])

theorem Encoding.vmaxInt (g : Guard) (t : Ty) (d a : VReg) (b : OpBV) : Encoding.Statement (.vmaxInt g t d a b) := by
  intro x h _
  obtain rfl := Option.some.inj h
  cases b <;> (change (Except.ok (.vmaxInt _ _ _ _ _) : Except Reject Instr) = _; simp (disch := omega) [Raw.guard, BitVec.extractLsb'_or, Raw.maj27, OpBV.ofRaw, OpBV.fld, OpBV.isImm, OpBV.i16])

theorem Encoding.vadds (g : Guard) (t : Ty) (d a : VReg) (b : OpBV) : Encoding.Statement (.vadds g t d a b) := by
  intro x h _
  obtain rfl := Option.some.inj h
  cases b <;> (change (Except.ok (.vadds _ _ _ _ _) : Except Reject Instr) = _; simp (disch := omega) [Raw.guard, BitVec.extractLsb'_or, Raw.maj27, OpBV.ofRaw, OpBV.fld, OpBV.isImm, OpBV.i16])

theorem Encoding.vsubs (g : Guard) (t : Ty) (d a : VReg) (b : OpBV) : Encoding.Statement (.vsubs g t d a b) := by
  intro x h _
  obtain rfl := Option.some.inj h
  cases b <;> (change (Except.ok (.vsubs _ _ _ _ _) : Except Reject Instr) = _; simp (disch := omega) [Raw.guard, BitVec.extractLsb'_or, Raw.maj27, OpBV.ofRaw, OpBV.fld, OpBV.isImm, OpBV.i16])

theorem Encoding.vcmpEqInt (g : Guard) (t : Ty) (d : PReg) (a : VReg) (b : OpBV) : Encoding.Statement (.vcmpEqInt g t d a b) := by
  intro x h _
  obtain rfl := Option.some.inj h
  cases b <;> (change (Except.ok (.vcmpEqInt _ _ _ _ _) : Except Reject Instr) = _; simp (disch := omega) [Raw.guard, BitVec.extractLsb'_or, Raw.maj27, OpBV.ofRaw, OpBV.fld, OpBV.isImm, OpBV.i16])

theorem Encoding.vcmpNeInt (g : Guard) (t : Ty) (d : PReg) (a : VReg) (b : OpBV) : Encoding.Statement (.vcmpNeInt g t d a b) := by
  intro x h _
  obtain rfl := Option.some.inj h
  cases b <;> (change (Except.ok (.vcmpNeInt _ _ _ _ _) : Except Reject Instr) = _; simp (disch := omega) [Raw.guard, BitVec.extractLsb'_or, Raw.maj27, OpBV.ofRaw, OpBV.fld, OpBV.isImm, OpBV.i16])

theorem Encoding.vcmpLtInt (g : Guard) (t : Ty) (d : PReg) (a : VReg) (b : OpBV) : Encoding.Statement (.vcmpLtInt g t d a b) := by
  intro x h _
  obtain rfl := Option.some.inj h
  cases b <;> (change (Except.ok (.vcmpLtInt _ _ _ _ _) : Except Reject Instr) = _; simp (disch := omega) [Raw.guard, BitVec.extractLsb'_or, Raw.maj27, OpBV.ofRaw, OpBV.fld, OpBV.isImm, OpBV.i16])

theorem Encoding.vcmpLeInt (g : Guard) (t : Ty) (d : PReg) (a : VReg) (b : OpBV) : Encoding.Statement (.vcmpLeInt g t d a b) := by
  intro x h _
  obtain rfl := Option.some.inj h
  cases b <;> (change (Except.ok (.vcmpLeInt _ _ _ _ _) : Except Reject Instr) = _; simp (disch := omega) [Raw.guard, BitVec.extractLsb'_or, Raw.maj27, OpBV.ofRaw, OpBV.fld, OpBV.isImm, OpBV.i16])

theorem Encoding.vmulInt (g : Guard) (t : Ty) (d a b : VReg) : Encoding.Statement (.vmulInt g t d a b) := by
  intro x h _
  obtain rfl := Option.some.inj h
  change (Except.ok (.vmulInt _ _ _ _ _) : Except Reject Instr) = _
  simp (disch := omega) [Raw.guard, BitVec.extractLsb'_or, Raw.maj28]

theorem Encoding.vmulh (g : Guard) (t : Ty) (d a b : VReg) : Encoding.Statement (.vmulh g t d a b) := by
  intro x h _
  obtain rfl := Option.some.inj h
  change (Except.ok (.vmulh _ _ _ _ _) : Except Reject Instr) = _
  simp (disch := omega) [Raw.guard, BitVec.extractLsb'_or, Raw.maj28]

theorem Encoding.vmac (g : Guard) (t : Ty) (d a b : VReg) : Encoding.Statement (.vmac g t d a b) := by
  intro x h _
  obtain rfl := Option.some.inj h
  change (Except.ok (.vmac _ _ _ _ _) : Except Reject Instr) = _
  simp (disch := omega) [Raw.guard, BitVec.extractLsb'_or, Raw.maj28]

theorem Encoding.vsat (g : Guard) (t : Ty) (d a : VReg) (m : BitVec 6) : Encoding.Statement (.vsat g t d a m) := by
  intro x h _
  obtain rfl := Option.some.inj h
  change (Except.ok (.vsat _ _ _ _ _) : Except Reject Instr) = _
  simp (disch := omega) [Raw.guard, BitVec.extractLsb'_or, Raw.maj28]

theorem Encoding.vdot4 (g : Guard) (t : Ty) (d a b : VReg) : Encoding.Statement (.vdot4 g t d a b) := by
  intro x h _
  obtain rfl := Option.some.inj h
  change (Except.ok (.vdot4 _ _ _ _ _) : Except Reject Instr) = _
  simp (disch := omega) [Raw.guard, BitVec.extractLsb'_or, Raw.maj29]

theorem Encoding.vdot2 (g : Guard) (t : Ty) (d a b : VReg) : Encoding.Statement (.vdot2 g t d a b) := by
  intro x h _
  obtain rfl := Option.some.inj h
  change (Except.ok (.vdot2 _ _ _ _ _) : Except Reject Instr) = _
  simp (disch := omega) [Raw.guard, BitVec.extractLsb'_or, Raw.maj29]

theorem Encoding.vcmul (g : Guard) (t : Ty) (d a b : VReg) (sh : BitVec 4) : Encoding.Statement (.vcmul g t d a b sh) := by
  intro x h _
  obtain rfl := Option.some.inj h
  change (Except.ok (.vcmul _ _ _ _ _ _) : Except Reject Instr) = _
  simp (disch := omega) [Raw.guard, BitVec.extractLsb'_or, Raw.maj2A]

theorem Encoding.vcmac (g : Guard) (t : Ty) (d a b : VReg) (sh : BitVec 4) : Encoding.Statement (.vcmac g t d a b sh) := by
  intro x h _
  obtain rfl := Option.some.inj h
  change (Except.ok (.vcmac _ _ _ _ _ _) : Except Reject Instr) = _
  simp (disch := omega) [Raw.guard, BitVec.extractLsb'_or, Raw.maj2A]

theorem Encoding.vconj (g : Guard) (t : Ty) (d a : VReg) : Encoding.Statement (.vconj g t d a) := by
  intro x h _
  obtain rfl := Option.some.inj h
  change (Except.ok (.vconj _ _ _ _) : Except Reject Instr) = _
  simp (disch := omega) [Raw.guard, BitVec.extractLsb'_or, Raw.maj2A]

theorem Encoding.vbfly (g : Guard) (t : Ty) (d a b c : VReg) : Encoding.Statement (.vbfly g t d a b c) := by
  intro x h _
  obtain rfl := Option.some.inj h
  change (Except.ok (.vbfly _ _ _ _ _ _) : Except Reject Instr) = _
  simp (disch := omega) [Raw.guard, BitVec.extractLsb'_or, Raw.maj2B]

theorem Encoding.vbflys (g : Guard) (t : Ty) (d a b c : VReg) : Encoding.Statement (.vbflys g t d a b c) := by
  intro x h _
  obtain rfl := Option.some.inj h
  change (Except.ok (.vbflys _ _ _ _ _ _) : Except Reject Instr) = _
  simp (disch := omega) [Raw.guard, BitVec.extractLsb'_or, Raw.maj2B]

theorem Encoding.vperm (g : Guard) (t : Ty) (d a b : VReg) : Encoding.Statement (.vperm g t d a b) := by
  intro x h _
  obtain rfl := Option.some.inj h
  change (Except.ok (.vperm _ _ _ _ _) : Except Reject Instr) = _
  simp (disch := omega) [Raw.guard, BitVec.extractLsb'_or, Raw.maj2C]

theorem Encoding.vshuf (g : Guard) (t : Ty) (d a b c : VReg) : Encoding.Statement (.vshuf g t d a b c) := by
  intro x h _
  obtain rfl := Option.some.inj h
  change (Except.ok (.vshuf _ _ _ _ _ _) : Except Reject Instr) = _
  simp (disch := omega) [Raw.guard, BitVec.extractLsb'_or, Raw.maj2C]

theorem Encoding.vrot (g : Guard) (t : Ty) (d a : VReg) (b : OpB64) : Encoding.Statement (.vrot g t d a b) := by
  intro x h _
  obtain rfl := Option.some.inj h
  cases b <;> (change (Except.ok (.vrot _ _ _ _ _) : Except Reject Instr) = _; simp (disch := omega) [Raw.guard, BitVec.extractLsb'_or, Raw.maj2C, OpB64.ofRaw, OpB64.fld, OpB64.isImm, OpB64.i16])

theorem Encoding.vbcast (g : Guard) (t : Ty) (d a : VReg) (j : BitVec 5) : Encoding.Statement (.vbcast g t d a j) := by
  intro x h _
  obtain rfl := Option.some.inj h
  change (Except.ok (.vbcast _ _ _ _ _) : Except Reject Instr) = _
  simp (disch := omega) [Raw.guard, BitVec.extractLsb'_or, Raw.maj2C]

theorem Encoding.vmov (g : Guard) (d a : VReg) (width : BitVec 2) : Encoding.Statement (.vmov g d a width) := by
  intro x h _
  obtain rfl := Option.some.inj h
  change (Except.ok (.vmov _ _ _ _) : Except Reject Instr) = _
  simp (disch := omega) [Raw.guard, BitVec.extractLsb'_or, Raw.maj2D]

theorem Encoding.vins (g : Guard) (t : Ty) (d : VReg) (a : SReg) (j : BitVec 5) : Encoding.Statement (.vins g t d a j) := by
  intro x h _
  obtain rfl := Option.some.inj h
  change (Except.ok (.vins _ _ _ _ _) : Except Reject Instr) = _
  simp (disch := omega) [Raw.guard, BitVec.extractLsb'_or, Raw.maj2D]

theorem Encoding.vext (g : Guard) (t : Ty) (d : SReg) (a : VReg) (j : BitVec 5) : Encoding.Statement (.vext g t d a j) := by
  intro x h _
  obtain rfl := Option.some.inj h
  change (Except.ok (.vext _ _ _ _ _) : Except Reject Instr) = _
  simp (disch := omega) [Raw.guard, BitVec.extractLsb'_or, Raw.maj2D]

theorem Encoding.vsplat (g : Guard) (t : Ty) (d : VReg) (a : SReg) : Encoding.Statement (.vsplat g t d a) := by
  intro x h _
  obtain rfl := Option.some.inj h
  change (Except.ok (.vsplat _ _ _ _) : Except Reject Instr) = _
  simp (disch := omega) [Raw.guard, BitVec.extractLsb'_or, Raw.maj2D]

theorem Encoding.jseed (g : Guard) (t : Ty) (d : VReg) (a : SVReg) : Encoding.Statement (.jseed g t d a) := by
  intro x h _
  obtain rfl := Option.some.inj h
  cases a <;> (change (Except.ok (.jseed _ _ _ _) : Except Reject Instr) = _; simp (disch := omega) [Raw.guard, BitVec.extractLsb'_or, Raw.maj2E, SVReg.ofRaw, SVReg.fld])

theorem Encoding.jext (g : Guard) (t : Ty) (d a : VReg) (k : BitVec 3) : Encoding.Statement (.jext g t d a k) := by
  intro x h _
  obtain rfl := Option.some.inj h
  change (Except.ok (.jext _ _ _ _ _) : Except Reject Instr) = _
  simp (disch := omega) [Raw.guard, BitVec.extractLsb'_or, Raw.maj2E]

theorem Encoding.jplane (g : Guard) (t : Ty) (d a : VReg) (k m : BitVec 3) : Encoding.Statement (.jplane g t d a k m) := by
  intro x h _
  obtain rfl := Option.some.inj h
  change (Except.ok (.jplane _ _ _ _ _ _) : Except Reject Instr) = _
  simp (disch := omega) [Raw.guard, BitVec.extractLsb'_or, Raw.maj2E]

theorem Encoding.jclr (g : Guard) (mask : BitVec 8) : Encoding.Statement (.jclr g mask) := by
  intro x h _
  obtain rfl := Option.some.inj h
  change (Except.ok (.jclr _ _) : Except Reject Instr) = _
  simp (disch := omega) [Raw.guard, BitVec.extractLsb'_or, Raw.maj2E]

theorem Encoding.ld (g : Guard) (t : Ty) (d a : SReg) (b : OpB) : Encoding.Statement (.ld g t d a b) := by
  intro x h _
  obtain rfl := Option.some.inj h
  cases b <;> (change (Except.ok (.ld _ _ _ _ _) : Except Reject Instr) = _; simp (disch := omega) [Raw.guard, BitVec.extractLsb'_or, Raw.maj40, OpB.ofRaw, OpB.fld, OpB.isImm, OpB.len, OpB.i16, OpB.ext])

theorem Encoding.st (g : Guard) (t : Ty) (a : SReg) (b : OpB) (c : SReg) : Encoding.Statement (.st g t a b c) := by
  intro x h _
  obtain rfl := Option.some.inj h
  cases b <;> (change (Except.ok (.st _ _ _ _ _) : Except Reject Instr) = _; simp (disch := omega) [Raw.guard, BitVec.extractLsb'_or, Raw.maj41, OpB.ofRaw, OpB.fld, OpB.isImm, OpB.len, OpB.i16, OpB.ext])

theorem Encoding.vld (g : Guard) (d : VReg) (a : SReg) (b : OpB) : Encoding.Statement (.vld g d a b) := by
  intro x h _
  obtain rfl := Option.some.inj h
  cases b <;> (change (Except.ok (.vld _ _ _ _) : Except Reject Instr) = _; simp (disch := omega) [Raw.guard, BitVec.extractLsb'_or, Raw.maj42, OpB.ofRaw, OpB.fld, OpB.isImm, OpB.len, OpB.i16, OpB.ext])

theorem Encoding.vst (g : Guard) (a : SReg) (b : OpB) (c : VReg) : Encoding.Statement (.vst g a b c) := by
  intro x h _
  obtain rfl := Option.some.inj h
  cases b <;> (change (Except.ok (.vst _ _ _ _) : Except Reject Instr) = _; simp (disch := omega) [Raw.guard, BitVec.extractLsb'_or, Raw.maj43, OpB.ofRaw, OpB.fld, OpB.isImm, OpB.len, OpB.i16, OpB.ext])

theorem Encoding.vgather (g : Guard) (t : Ty) (d : VReg) (a : SReg) (b : VReg) (stride : BitVec 16) : Encoding.Statement (.vgather g t d a b stride) := by
  intro x h _
  obtain rfl := Option.some.inj h
  change (Except.ok (.vgather _ _ _ _ _ _) : Except Reject Instr) = _
  simp (disch := omega) [Raw.guard, BitVec.extractLsb'_or, Raw.maj44]

theorem Encoding.vscatter (g : Guard) (t : Ty) (a : SReg) (b c : VReg) (stride : BitVec 16) : Encoding.Statement (.vscatter g t a b c stride) := by
  intro x h _
  obtain rfl := Option.some.inj h
  change (Except.ok (.vscatter _ _ _ _ _ _) : Except Reject Instr) = _
  simp (disch := omega) [Raw.guard, BitVec.extractLsb'_or, Raw.maj44]

theorem Encoding.ldb (g : Guard) (d : VReg) (a : SReg) (nM1 : BitVec 3) : Encoding.Statement (.ldb g d a nM1) := by
  intro x h _
  obtain rfl := Option.some.inj h
  change (Except.ok (.ldb _ _ _ _) : Except Reject Instr) = _
  simp (disch := omega) [Raw.guard, BitVec.extractLsb'_or, Raw.maj45]

theorem Encoding.amoAdd (g : Guard) (t : Ty) (d a b : SReg) : Encoding.Statement (.amoAdd g t d a b) := by
  intro x h _
  obtain rfl := Option.some.inj h
  change (Except.ok (.amoAdd _ _ _ _ _) : Except Reject Instr) = _
  simp (disch := omega) [Raw.guard, BitVec.extractLsb'_or, Raw.maj46]

theorem Encoding.amoAnd (g : Guard) (t : Ty) (d a b : SReg) : Encoding.Statement (.amoAnd g t d a b) := by
  intro x h _
  obtain rfl := Option.some.inj h
  change (Except.ok (.amoAnd _ _ _ _ _) : Except Reject Instr) = _
  simp (disch := omega) [Raw.guard, BitVec.extractLsb'_or, Raw.maj46]

theorem Encoding.amoOr (g : Guard) (t : Ty) (d a b : SReg) : Encoding.Statement (.amoOr g t d a b) := by
  intro x h _
  obtain rfl := Option.some.inj h
  change (Except.ok (.amoOr _ _ _ _ _) : Except Reject Instr) = _
  simp (disch := omega) [Raw.guard, BitVec.extractLsb'_or, Raw.maj46]

theorem Encoding.amoXor (g : Guard) (t : Ty) (d a b : SReg) : Encoding.Statement (.amoXor g t d a b) := by
  intro x h _
  obtain rfl := Option.some.inj h
  change (Except.ok (.amoXor _ _ _ _ _) : Except Reject Instr) = _
  simp (disch := omega) [Raw.guard, BitVec.extractLsb'_or, Raw.maj46]

theorem Encoding.amoMin (g : Guard) (t : Ty) (d a b : SReg) : Encoding.Statement (.amoMin g t d a b) := by
  intro x h _
  obtain rfl := Option.some.inj h
  change (Except.ok (.amoMin _ _ _ _ _) : Except Reject Instr) = _
  simp (disch := omega) [Raw.guard, BitVec.extractLsb'_or, Raw.maj46]

theorem Encoding.amoMax (g : Guard) (t : Ty) (d a b : SReg) : Encoding.Statement (.amoMax g t d a b) := by
  intro x h _
  obtain rfl := Option.some.inj h
  change (Except.ok (.amoMax _ _ _ _ _) : Except Reject Instr) = _
  simp (disch := omega) [Raw.guard, BitVec.extractLsb'_or, Raw.maj46]

theorem Encoding.amoSwap (g : Guard) (t : Ty) (d a b : SReg) : Encoding.Statement (.amoSwap g t d a b) := by
  intro x h _
  obtain rfl := Option.some.inj h
  change (Except.ok (.amoSwap _ _ _ _ _) : Except Reject Instr) = _
  simp (disch := omega) [Raw.guard, BitVec.extractLsb'_or, Raw.maj46]

theorem Encoding.amoCas (g : Guard) (t : Ty) (d a b c : SReg) : Encoding.Statement (.amoCas g t d a b c) := by
  intro x h _
  obtain rfl := Option.some.inj h
  change (Except.ok (.amoCas _ _ _ _ _ _) : Except Reject Instr) = _
  simp (disch := omega) [Raw.guard, BitVec.extractLsb'_or, Raw.maj46]

theorem Encoding.amoFadd (g : Guard) (t : Ty) (d a b : SReg) : Encoding.Statement (.amoFadd g t d a b) := by
  intro x h _
  obtain rfl := Option.some.inj h
  change (Except.ok (.amoFadd _ _ _ _ _) : Except Reject Instr) = _
  simp (disch := omega) [Raw.guard, BitVec.extractLsb'_or, Raw.maj46]

theorem Encoding.amoFaddOrd (g : Guard) (t : Ty) (d a b c : SReg) (last : BitVec 1) : Encoding.Statement (.amoFaddOrd g t d a b c last) := by
  intro x h _
  obtain rfl := Option.some.inj h
  change (Except.ok (.amoFaddOrd _ _ _ _ _ _ _) : Except Reject Instr) = _
  simp (disch := omega) [Raw.guard, BitVec.extractLsb'_or, Raw.maj46]

theorem Encoding.redAdd (g : Guard) (t : Ty) (a b : SReg) : Encoding.Statement (.redAdd g t a b) := by
  intro x h _
  obtain rfl := Option.some.inj h
  change (Except.ok (.redAdd _ _ _ _) : Except Reject Instr) = _
  simp (disch := omega) [Raw.guard, BitVec.extractLsb'_or, Raw.maj47]

theorem Encoding.redMin (g : Guard) (t : Ty) (a b : SReg) : Encoding.Statement (.redMin g t a b) := by
  intro x h _
  obtain rfl := Option.some.inj h
  change (Except.ok (.redMin _ _ _ _) : Except Reject Instr) = _
  simp (disch := omega) [Raw.guard, BitVec.extractLsb'_or, Raw.maj47]

theorem Encoding.redMax (g : Guard) (t : Ty) (a b : SReg) : Encoding.Statement (.redMax g t a b) := by
  intro x h _
  obtain rfl := Option.some.inj h
  change (Except.ok (.redMax _ _ _ _) : Except Reject Instr) = _
  simp (disch := omega) [Raw.guard, BitVec.extractLsb'_or, Raw.maj47]

theorem Encoding.redAddOrd (g : Guard) (t : Ty) (a b c : SReg) (last : BitVec 1) : Encoding.Statement (.redAddOrd g t a b c last) := by
  intro x h _
  obtain rfl := Option.some.inj h
  change (Except.ok (.redAddOrd _ _ _ _ _ _) : Except Reject Instr) = _
  simp (disch := omega) [Raw.guard, BitVec.extractLsb'_or, Raw.maj47]

theorem Encoding.redMinOrd (g : Guard) (t : Ty) (a b c : SReg) (last : BitVec 1) : Encoding.Statement (.redMinOrd g t a b c last) := by
  intro x h _
  obtain rfl := Option.some.inj h
  change (Except.ok (.redMinOrd _ _ _ _ _ _) : Except Reject Instr) = _
  simp (disch := omega) [Raw.guard, BitVec.extractLsb'_or, Raw.maj47]

theorem Encoding.redMaxOrd (g : Guard) (t : Ty) (a b c : SReg) (last : BitVec 1) : Encoding.Statement (.redMaxOrd g t a b c last) := by
  intro x h _
  obtain rfl := Option.some.inj h
  change (Except.ok (.redMaxOrd _ _ _ _ _ _) : Except Reject Instr) = _
  simp (disch := omega) [Raw.guard, BitVec.extractLsb'_or, Raw.maj47]

theorem Encoding.pref (g : Guard) (a : SReg) (level : BitVec 2) : Encoding.Statement (.pref g a level) := by
  intro x h _
  obtain rfl := Option.some.inj h
  change (Except.ok (.pref _ _ _) : Except Reject Instr) = _
  simp (disch := omega) [Raw.guard, BitVec.extractLsb'_or, Raw.maj48]

theorem Encoding.chint (g : Guard) (a : SReg) (hop : BitVec 2) : Encoding.Statement (.chint g a hop) := by
  intro x h _
  obtain rfl := Option.some.inj h
  change (Except.ok (.chint _ _ _) : Except Reject Instr) = _
  simp (disch := omega) [Raw.guard, BitVec.extractLsb'_or, Raw.maj48]

theorem Encoding.copy (g : Guard) (d a b c : SReg) (bslot : BitVec 8) (bar : BitVec 1) (tlk : BitVec 3) (tls : BitVec 1) : Encoding.Statement (.copy g d a b c bslot bar tlk tls) := by
  intro x h _
  obtain rfl := Option.some.inj h
  change (Except.ok (.copy _ _ _ _ _ _ _ _ _) : Except Reject Instr) = _
  simp (disch := omega) [Raw.guard, BitVec.extractLsb'_or, Raw.maj50]

theorem Encoding.copyh (g : Guard) (d a b c : SReg) (bslot : BitVec 8) (bar : BitVec 1) (tlk : BitVec 3) (tls hfrom : BitVec 1) : Encoding.Statement (.copyh g d a b c bslot bar tlk tls hfrom) := by
  intro x h _
  obtain rfl := Option.some.inj h
  change (Except.ok (.copyh _ _ _ _ _ _ _ _ _ _) : Except Reject Instr) = _
  simp (disch := omega) [Raw.guard, BitVec.extractLsb'_or, Raw.maj51]

theorem Encoding.binit (g : Guard) (a : SReg) (slot : BitVec 8) : Encoding.Statement (.binit g a slot) := by
  intro x h _
  obtain rfl := Option.some.inj h
  change (Except.ok (.binit _ _ _) : Except Reject Instr) = _
  simp (disch := omega) [Raw.guard, BitVec.extractLsb'_or, Raw.maj52]

theorem Encoding.barrive (g : Guard) (d : SReg) (slot : BitVec 8) : Encoding.Statement (.barrive g d slot) := by
  intro x h _
  obtain rfl := Option.some.inj h
  change (Except.ok (.barrive _ _ _) : Except Reject Instr) = _
  simp (disch := omega) [Raw.guard, BitVec.extractLsb'_or, Raw.maj52]

theorem Encoding.bwait (g : Guard) (a : SReg) (slot : BitVec 8) : Encoding.Statement (.bwait g a slot) := by
  intro x h _
  obtain rfl := Option.some.inj h
  change (Except.ok (.bwait _ _ _) : Except Reject Instr) = _
  simp (disch := omega) [Raw.guard, BitVec.extractLsb'_or, Raw.maj52]

theorem Encoding.bsync (g : Guard) (slot : BitVec 8) : Encoding.Statement (.bsync g slot) := by
  intro x h _
  obtain rfl := Option.some.inj h
  change (Except.ok (.bsync _ _) : Except Reject Instr) = _
  simp (disch := omega) [Raw.guard, BitVec.extractLsb'_or, Raw.maj52]

theorem Encoding.bstat (g : Guard) (d : SReg) (slot : BitVec 8) : Encoding.Statement (.bstat g d slot) := by
  intro x h _
  obtain rfl := Option.some.inj h
  change (Except.ok (.bstat _ _ _) : Except Reject Instr) = _
  simp (disch := omega) [Raw.guard, BitVec.extractLsb'_or, Raw.maj52]

theorem Encoding.tlwait (g : Guard) (a : BitVec 3) (b : OpB) : Encoding.Statement (.tlwait g a b) := by
  intro x h _
  obtain rfl := Option.some.inj h
  cases b <;> (change (Except.ok (.tlwait _ _ _) : Except Reject Instr) = _; simp (disch := omega) [Raw.guard, BitVec.extractLsb'_or, Raw.maj53, OpB.ofRaw, OpB.fld, OpB.isImm, OpB.len, OpB.i16, OpB.ext])

theorem Encoding.tlread (g : Guard) (d : SReg) (a : BitVec 3) (wide : Bool) (selr : BitVec 2) : Encoding.Statement (.tlread g d a wide selr) := by
  intro x h _
  obtain rfl := Option.some.inj h
  cases wide <;> (change (Except.ok (.tlread _ _ _ _ _) : Except Reject Instr) = _; simp (disch := omega) [Raw.guard, BitVec.extractLsb'_or, Raw.maj53])

theorem Encoding.fence (g : Guard) (a : SReg) (kinds : BitVec 5) : Encoding.Statement (.fence g a kinds) := by
  intro x h _
  obtain rfl := Option.some.inj h
  change (Except.ok (.fence _ _ _) : Except Reject Instr) = _
  simp (disch := omega) [Raw.guard, BitVec.extractLsb'_or, Raw.maj54]

theorem Encoding.wake (g : Guard) (a : SReg) (b : OpB64) : Encoding.Statement (.wake g a b) := by
  intro x h _
  obtain rfl := Option.some.inj h
  cases b <;> (change (Except.ok (.wake _ _ _) : Except Reject Instr) = _; simp (disch := omega) [Raw.guard, BitVec.extractLsb'_or, Raw.maj55, OpB64.ofRaw, OpB64.fld, OpB64.isImm, OpB64.i16])

theorem Encoding.wait (g : Guard) (d : SReg) (b : OpB64) : Encoding.Statement (.wait g d b) := by
  intro x h _
  obtain rfl := Option.some.inj h
  cases b <;> (change (Except.ok (.wait _ _ _) : Except Reject Instr) = _; simp (disch := omega) [Raw.guard, BitVec.extractLsb'_or, Raw.maj55, OpB64.ofRaw, OpB64.fld, OpB64.isImm, OpB64.i16])

theorem Encoding.chinit (g : Guard) (a b c : SReg) : Encoding.Statement (.chinit g a b c) := by
  intro x h _
  obtain rfl := Option.some.inj h
  change (Except.ok (.chinit _ _ _ _) : Except Reject Instr) = _
  simp (disch := omega) [Raw.guard, BitVec.extractLsb'_or, Raw.maj56]

theorem Encoding.send (g : Guard) (d a b c : SReg) : Encoding.Statement (.send g d a b c) := by
  intro x h _
  obtain rfl := Option.some.inj h
  change (Except.ok (.send _ _ _ _ _) : Except Reject Instr) = _
  simp (disch := omega) [Raw.guard, BitVec.extractLsb'_or, Raw.maj56]

theorem Encoding.sendNb (g : Guard) (d a b c : SReg) : Encoding.Statement (.sendNb g d a b c) := by
  intro x h _
  obtain rfl := Option.some.inj h
  change (Except.ok (.sendNb _ _ _ _ _) : Except Reject Instr) = _
  simp (disch := omega) [Raw.guard, BitVec.extractLsb'_or, Raw.maj56]

theorem Encoding.recv (g : Guard) (d a b : SReg) : Encoding.Statement (.recv g d a b) := by
  intro x h _
  obtain rfl := Option.some.inj h
  change (Except.ok (.recv _ _ _ _) : Except Reject Instr) = _
  simp (disch := omega) [Raw.guard, BitVec.extractLsb'_or, Raw.maj56]

theorem Encoding.recvNb (g : Guard) (d a b : SReg) : Encoding.Statement (.recvNb g d a b) := by
  intro x h _
  obtain rfl := Option.some.inj h
  change (Except.ok (.recvNb _ _ _ _) : Except Reject Instr) = _
  simp (disch := omega) [Raw.guard, BitVec.extractLsb'_or, Raw.maj56]

theorem Encoding.mshl (g : Guard) (d : BitVec 4) (a : SReg) (q : BitVec 2) : Encoding.Statement (.mshl g d a q) := by
  intro x h _
  obtain rfl := Option.some.inj h
  change (Except.ok (.mshl _ _ _ _) : Except Reject Instr) = _
  simp (disch := omega) [Raw.guard, BitVec.extractLsb'_or, Raw.maj60]

theorem Encoding.mshf (g : Guard) (d : BitVec 4) (a : SReg) (field : BitVec 5) (q : BitVec 2) : Encoding.Statement (.mshf g d a field q) := by
  intro x h _
  obtain rfl := Option.some.inj h
  change (Except.ok (.mshf _ _ _ _ _) : Except Reject Instr) = _
  simp (disch := omega) [Raw.guard, BitVec.extractLsb'_or, Raw.maj60]

theorem Encoding.mshs (g : Guard) (a : SReg) (b : BitVec 4) (q : BitVec 2) : Encoding.Statement (.mshs g a b q) := by
  intro x h _
  obtain rfl := Option.some.inj h
  change (Except.ok (.mshs _ _ _ _) : Except Reject Instr) = _
  simp (disch := omega) [Raw.guard, BitVec.extractLsb'_or, Raw.maj60]

theorem Encoding.mclaim (g : Guard) (d : SReg) (countM1 : BitVec 7) (log2a : BitVec 3) : Encoding.Statement (.mclaim g d countM1 log2a) := by
  intro x h _
  obtain rfl := Option.some.inj h
  change (Except.ok (.mclaim _ _ _ _) : Except Reject Instr) = _
  simp (disch := omega) [Raw.guard, BitVec.extractLsb'_or, Raw.maj61]

theorem Encoding.mrel (g : Guard) (a : SReg) (countM1 : BitVec 7) : Encoding.Statement (.mrel g a countM1) := by
  intro x h _
  obtain rfl := Option.some.inj h
  change (Except.ok (.mrel _ _ _) : Except Reject Instr) = _
  simp (disch := omega) [Raw.guard, BitVec.extractLsb'_or, Raw.maj61]

theorem Encoding.mld (g : Guard) (d : SReg) (a : BitVec 4) (slot : BitVec 7) (tr : BitVec 1) (q : BitVec 2) : Encoding.Statement (.mld g d a slot tr q) := by
  intro x h _
  obtain rfl := Option.some.inj h
  change (Except.ok (.mld _ _ _ _ _ _) : Except Reject Instr) = _
  simp (disch := omega) [Raw.guard, BitVec.extractLsb'_or, Raw.maj62]

theorem Encoding.mldx (g : Guard) (d : SReg) (a : BitVec 4) (slot : BitVec 7) (tr : BitVec 1) (q : BitVec 2) : Encoding.Statement (.mldx g d a slot tr q) := by
  intro x h _
  obtain rfl := Option.some.inj h
  change (Except.ok (.mldx _ _ _ _ _ _) : Except Reject Instr) = _
  simp (disch := omega) [Raw.guard, BitVec.extractLsb'_or, Raw.maj62]

theorem Encoding.mma (g : Guard) (d : BitVec 3) (c : SReg) (slotA slotB : BitVec 7) (q : BitVec 2) : Encoding.Statement (.mma g d c slotA slotB q) := by
  intro x h _
  obtain rfl := Option.some.inj h
  change (Except.ok (.mma _ _ _ _ _ _) : Except Reject Instr) = _
  simp (disch := omega) [Raw.guard, BitVec.extractLsb'_or, Raw.maj63]

theorem Encoding.mmaS (g : Guard) (d : BitVec 3) (c : SReg) (slotA slotB : BitVec 7) (q : BitVec 2) : Encoding.Statement (.mmaS g d c slotA slotB q) := by
  intro x h _
  obtain rfl := Option.some.inj h
  change (Except.ok (.mmaS _ _ _ _ _ _) : Except Reject Instr) = _
  simp (disch := omega) [Raw.guard, BitVec.extractLsb'_or, Raw.maj63]

theorem Encoding.mzero (g : Guard) (d : BitVec 3) (q : BitVec 2) : Encoding.Statement (.mzero g d q) := by
  intro x h _
  obtain rfl := Option.some.inj h
  change (Except.ok (.mzero _ _ _) : Except Reject Instr) = _
  simp (disch := omega) [Raw.guard, BitVec.extractLsb'_or, Raw.maj64]

theorem Encoding.mmov (g : Guard) (d : VReg) (a : BitVec 3) (row : BitVec 4) (sh intf : BitVec 1) (q : BitVec 2) : Encoding.Statement (.mmov g d a row sh intf q) := by
  intro x h _
  obtain rfl := Option.some.inj h
  change (Except.ok (.mmov _ _ _ _ _ _ _) : Except Reject Instr) = _
  simp (disch := omega) [Raw.guard, BitVec.extractLsb'_or, Raw.maj64]

theorem Encoding.mmovr (g : Guard) (d : BitVec 3) (a : VReg) (row : BitVec 4) (q : BitVec 2) : Encoding.Statement (.mmovr g d a row q) := by
  intro x h _
  obtain rfl := Option.some.inj h
  change (Except.ok (.mmovr _ _ _ _ _) : Except Reject Instr) = _
  simp (disch := omega) [Raw.guard, BitVec.extractLsb'_or, Raw.maj64]

theorem Encoding.mst (g : Guard) (d : SReg) (a : BitVec 4) (b : BitVec 3) (c : SReg) (sc : BitVec 4) (cplx : BitVec 1) (q : BitVec 2) : Encoding.Statement (.mst g d a b c sc cplx q) := by
  intro x h _
  obtain rfl := Option.some.inj h
  change (Except.ok (.mst _ _ _ _ _ _ _ _) : Except Reject Instr) = _
  simp (disch := omega) [Raw.guard, BitVec.extractLsb'_or, Raw.maj64]

theorem Encoding.mspec (g : Guard) (mask : BitVec 8) (q : BitVec 2) : Encoding.Statement (.mspec g mask q) := by
  intro x h _
  obtain rfl := Option.some.inj h
  change (Except.ok (.mspec _ _ _) : Except Reject Instr) = _
  simp (disch := omega) [Raw.guard, BitVec.extractLsb'_or, Raw.maj65]

theorem Encoding.mresolve (g : Guard) (c : PReg) (q : BitVec 2) : Encoding.Statement (.mresolve g c q) := by
  intro x h _
  obtain rfl := Option.some.inj h
  change (Except.ok (.mresolve _ _ _) : Except Reject Instr) = _
  simp (disch := omega) [Raw.guard, BitVec.extractLsb'_or, Raw.maj65]

theorem Encoding.mcommit (g : Guard) (q : BitVec 2) : Encoding.Statement (.mcommit g q) := by
  intro x h _
  obtain rfl := Option.some.inj h
  change (Except.ok (.mcommit _ _) : Except Reject Instr) = _
  simp (disch := omega) [Raw.guard, BitVec.extractLsb'_or, Raw.maj65]

theorem Encoding.mdiscard (g : Guard) (q : BitVec 2) : Encoding.Statement (.mdiscard g q) := by
  intro x h _
  obtain rfl := Option.some.inj h
  change (Except.ok (.mdiscard _ _) : Except Reject Instr) = _
  simp (disch := omega) [Raw.guard, BitVec.extractLsb'_or, Raw.maj65]

theorem Encoding.tgemm (g : Guard) (d : SReg) (a b c : BitVec 4) (acc : BitVec 3) (addc : BitVec 1) (slot : BitVec 7) (q : BitVec 2) : Encoding.Statement (.tgemm g d a b c acc addc slot q) := by
  intro x h _
  obtain rfl := Option.some.inj h
  change (Except.ok (.tgemm _ _ _ _ _ _ _ _ _) : Except Reject Instr) = _
  simp (disch := omega) [Raw.guard, BitVec.extractLsb'_or, Raw.maj66]

theorem Encoding.tfact (g : Guard) (d : SReg) (a : BitVec 3) (srci ptrap : BitVec 1) (q : BitVec 2) : Encoding.Statement (.tfact g d a srci ptrap q) := by
  intro x h _
  obtain rfl := Option.some.inj h
  change (Except.ok (.tfact _ _ _ _ _ _) : Except Reject Instr) = _
  simp (disch := omega) [Raw.guard, BitVec.extractLsb'_or, Raw.maj67]

theorem Encoding.tsolve (g : Guard) (d a : BitVec 3) (b : SReg) (q : BitVec 2) : Encoding.Statement (.tsolve g d a b q) := by
  intro x h _
  obtain rfl := Option.some.inj h
  change (Except.ok (.tsolve _ _ _ _ _) : Except Reject Instr) = _
  simp (disch := omega) [Raw.guard, BitVec.extractLsb'_or, Raw.maj67]

theorem Encoding.mqpri (g : Guard) (cq pri : BitVec 2) : Encoding.Statement (.mqpri g cq pri) := by
  intro x h _
  obtain rfl := Option.some.inj h
  change (Except.ok (.mqpri _ _ _) : Except Reject Instr) = _
  simp (disch := omega) [Raw.guard, BitVec.extractLsb'_or, Raw.maj68]

theorem Encoding.mqsync (g : Guard) (d : SReg) (cq : BitVec 2) : Encoding.Statement (.mqsync g d cq) := by
  intro x h _
  obtain rfl := Option.some.inj h
  change (Except.ok (.mqsync _ _ _) : Except Reject Instr) = _
  simp (disch := omega) [Raw.guard, BitVec.extractLsb'_or, Raw.maj68]

theorem Encoding.launch (d a : SReg) (pwake : BitVec 6) (pwen : BitVec 1) : Encoding.Statement (.launch d a pwake pwen) := by
  intro x h _
  obtain rfl := Option.some.inj h
  change (Except.ok (.launch _ _ _ _) : Except Reject Instr) = _
  simp (disch := omega) [Raw.guard, BitVec.extractLsb'_or, Raw.maj70]

theorem Encoding.exit : Encoding.Statement .exit := by
  intro x h _
  obtain rfl := Option.some.inj h
  rfl

theorem Encoding.yield (d : SReg) : Encoding.Statement (.yield d) := by
  intro x h _
  obtain rfl := Option.some.inj h
  change (Except.ok (.yield _) : Except Reject Instr) = _
  simp (disch := omega) [Raw.guard, BitVec.extractLsb'_or, Raw.maj71]

theorem Encoding.halt : Encoding.Statement .halt := by
  intro x h _
  obtain rfl := Option.some.inj h
  rfl

theorem Encoding.gcall (gate : BitVec 12) : Encoding.Statement (.gcall gate) := by
  intro x h _
  obtain rfl := Option.some.inj h
  change (Except.ok (.gcall _) : Except Reject Instr) = _
  simp (disch := omega) [Raw.guard, BitVec.extractLsb'_or, Raw.maj72]

theorem Encoding.gret (a : SReg) (abort : BitVec 1) : Encoding.Statement (.gret a abort) := by
  intro x h _
  obtain rfl := Option.some.inj h
  change (Except.ok (.gret _ _) : Except Reject Instr) = _
  simp (disch := omega) [Raw.guard, BitVec.extractLsb'_or, Raw.maj72]

theorem Encoding.trap (code : BitVec 16) : Encoding.Statement (.trap code) := by
  intro x h _
  obtain rfl := Option.some.inj h
  change (Except.ok (.trap _) : Except Reject Instr) = _
  simp (disch := omega) [Raw.guard, BitVec.extractLsb'_or, Raw.maj73]

theorem Encoding.eret : Encoding.Statement .eret := by
  intro x h _
  obtain rfl := Option.some.inj h
  rfl

theorem Encoding.sysr (g : Guard) (d : SReg) (idx : BitVec 12) : Encoding.Statement (.sysr g d idx) := by
  intro x h _
  obtain rfl := Option.some.inj h
  change (Except.ok (.sysr _ _ _) : Except Reject Instr) = _
  simp (disch := omega) [Raw.guard, BitVec.extractLsb'_or, Raw.maj74]

theorem Encoding.sysw (g : Guard) (a : SReg) (idx : BitVec 12) : Encoding.Statement (.sysw g a idx) := by
  intro x h _
  obtain rfl := Option.some.inj h
  change (Except.ok (.sysw _ _ _) : Except Reject Instr) = _
  simp (disch := omega) [Raw.guard, BitVec.extractLsb'_or, Raw.maj74]

theorem Encoding.publish (d a c : SReg) : Encoding.Statement (.publish d a c) := by
  intro x h _
  obtain rfl := Option.some.inj h
  change (Except.ok (.publish _ _ _) : Except Reject Instr) = _
  simp (disch := omega) [Raw.guard, BitVec.extractLsb'_or, Raw.maj75]

theorem Encoding.tlbinv (g : Guard) (a b : SReg) (kind reach : BitVec 2) : Encoding.Statement (.tlbinv g a b kind reach) := by
  intro x h _
  obtain rfl := Option.some.inj h
  change (Except.ok (.tlbinv _ _ _ _ _) : Except Reject Instr) = _
  simp (disch := omega) [Raw.guard, BitVec.extractLsb'_or, Raw.maj76]

theorem Encoding.lflush (g : Guard) (a b : SReg) (inv : BitVec 1) (reach : BitVec 2) : Encoding.Statement (.lflush g a b inv reach) := by
  intro x h _
  obtain rfl := Option.some.inj h
  change (Except.ok (.lflush _ _ _ _ _) : Except Reject Instr) = _
  simp (disch := omega) [Raw.guard, BitVec.extractLsb'_or, Raw.maj76]

theorem Encoding.l2cfg (g : Guard) (d a b : SReg) (dir : BitVec 1) : Encoding.Statement (.l2cfg g d a b dir) := by
  intro x h _
  obtain rfl := Option.some.inj h
  change (Except.ok (.l2cfg _ _ _ _ _) : Except Reject Instr) = _
  simp (disch := omega) [Raw.guard, BitVec.extractLsb'_or, Raw.maj77]

theorem Encoding.mscrub (g : Guard) (d a b : SReg) : Encoding.Statement (.mscrub g d a b) := by
  intro x h _
  obtain rfl := Option.some.inj h
  change (Except.ok (.mscrub _ _ _ _) : Except Reject Instr) = _
  simp (disch := omega) [Raw.guard, BitVec.extractLsb'_or, Raw.maj78]

theorem Encoding.mspare (g : Guard) (d a b : SReg) : Encoding.Statement (.mspare g d a b) := by
  intro x h _
  obtain rfl := Option.some.inj h
  change (Except.ok (.mspare _ _ _ _) : Except Reject Instr) = _
  simp (disch := omega) [Raw.guard, BitVec.extractLsb'_or, Raw.maj78]

theorem Encoding.mrmapRead (g : Guard) (d a b c : SReg) : Encoding.Statement (.mrmapRead g d a b c) := by
  intro x h _
  obtain rfl := Option.some.inj h
  change (Except.ok (.mrmapRead _ _ _ _ _) : Except Reject Instr) = _
  simp (disch := omega) [Raw.guard, BitVec.extractLsb'_or, Raw.maj78]

theorem Encoding.mrmapWrite (g : Guard) (d a b c : SReg) : Encoding.Statement (.mrmapWrite g d a b c) := by
  intro x h _
  obtain rfl := Option.some.inj h
  change (Except.ok (.mrmapWrite _ _ _ _ _) : Except Reject Instr) = _
  simp (disch := omega) [Raw.guard, BitVec.extractLsb'_or, Raw.maj78]

theorem Encoding.mrmapInvalidate (g : Guard) (d a b c : SReg) : Encoding.Statement (.mrmapInvalidate g d a b c) := by
  intro x h _
  obtain rfl := Option.some.inj h
  change (Except.ok (.mrmapInvalidate _ _ _ _ _) : Except Reject Instr) = _
  simp (disch := omega) [Raw.guard, BitVec.extractLsb'_or, Raw.maj78]

theorem Encoding.mrmapSpareBitmap (g : Guard) (d a b c : SReg) : Encoding.Statement (.mrmapSpareBitmap g d a b c) := by
  intro x h _
  obtain rfl := Option.some.inj h
  change (Except.ok (.mrmapSpareBitmap _ _ _ _ _) : Except Reject Instr) = _
  simp (disch := omega) [Raw.guard, BitVec.extractLsb'_or, Raw.maj78]

theorem Encoding.mliveNotLive (g : Guard) (d a b : SReg) : Encoding.Statement (.mliveNotLive g d a b) := by
  intro x h _
  obtain rfl := Option.some.inj h
  change (Except.ok (.mliveNotLive _ _ _ _) : Except Reject Instr) = _
  simp (disch := omega) [Raw.guard, BitVec.extractLsb'_or, Raw.maj78]

theorem Encoding.mliveLive (g : Guard) (d a b : SReg) : Encoding.Statement (.mliveLive g d a b) := by
  intro x h _
  obtain rfl := Option.some.inj h
  change (Except.ok (.mliveLive _ _ _ _) : Except Reject Instr) = _
  simp (disch := omega) [Raw.guard, BitVec.extractLsb'_or, Raw.maj78]

theorem Encoding.jrnl (g : Guard) (d a : SReg) (word : BitVec 2) (clear : BitVec 1) : Encoding.Statement (.jrnl g d a word clear) := by
  intro x h _
  obtain rfl := Option.some.inj h
  change (Except.ok (.jrnl _ _ _ _ _) : Except Reject Instr) = _
  simp (disch := omega) [Raw.guard, BitVec.extractLsb'_or, Raw.maj79]

theorem Encoding.msave (g : Guard) (d a : SReg) : Encoding.Statement (.msave g d a) := by
  intro x h _
  obtain rfl := Option.some.inj h
  change (Except.ok (.msave _ _ _) : Except Reject Instr) = _
  simp (disch := omega) [Raw.guard, BitVec.extractLsb'_or, Raw.maj79]

theorem Encoding.bind (g : Guard) (d a b : SReg) : Encoding.Statement (.bind g d a b) := by
  intro x h _
  obtain rfl := Option.some.inj h
  change (Except.ok (.bind _ _ _ _) : Except Reject Instr) = _
  simp (disch := omega) [Raw.guard, BitVec.extractLsb'_or, Raw.maj7A]

theorem Encoding.gswitchCancel (g : Guard) (d a b : SReg) : Encoding.Statement (.gswitchCancel g d a b) := by
  intro x h _
  obtain rfl := Option.some.inj h
  change (Except.ok (.gswitchCancel _ _ _ _) : Except Reject Instr) = _
  simp (disch := omega) [Raw.guard, BitVec.extractLsb'_or, Raw.maj7A]

theorem Encoding.gswitchArm (g : Guard) (d a b : SReg) : Encoding.Statement (.gswitchArm g d a b) := by
  intro x h _
  obtain rfl := Option.some.inj h
  change (Except.ok (.gswitchArm _ _ _ _) : Except Reject Instr) = _
  simp (disch := omega) [Raw.guard, BitVec.extractLsb'_or, Raw.maj7A]

theorem Encoding.asyncTrapTaken (core : Nat) : Encoding.Statement (.asyncTrapTaken core) := by
  intro x h
  have h2 : (none : Option Raw) = some x := h
  simp at h2

theorem Encoding.waitConditionMet (core : Nat) : Encoding.Statement (.waitConditionMet core) := by
  intro x h
  have h2 : (none : Option Raw) = some x := h
  simp at h2

theorem Encoding.coprocessorPortAccept (spire : Nat) : Encoding.Statement (.coprocessorPortAccept spire) := by
  intro x h
  have h2 : (none : Option Raw) = some x := h
  simp at h2

theorem Encoding.graverOpStart (spire : Nat) : Encoding.Statement (.graverOpStart spire) := by
  intro x h
  have h2 : (none : Option Raw) = some x := h
  simp at h2

theorem Encoding.graverOpComplete (spire ctx : Nat) : Encoding.Statement (.graverOpComplete spire ctx) := by
  intro x h
  have h2 : (none : Option Raw) = some x := h
  simp at h2

theorem Encoding.bankGrant (dome bank : Nat) : Encoding.Statement (.bankGrant dome bank) := by
  intro x h
  have h2 : (none : Option Raw) = some x := h
  simp at h2

theorem Encoding.postedStoreArrival (k : Nat) : Encoding.Statement (.postedStoreArrival k) := by
  intro x h
  have h2 : (none : Option Raw) = some x := h
  simp at h2

theorem Encoding.redPacketArrival (k : Nat) : Encoding.Statement (.redPacketArrival k) := by
  intro x h
  have h2 : (none : Option Raw) = some x := h
  simp at h2

theorem Encoding.wakeDelivery (k : Nat) : Encoding.Statement (.wakeDelivery k) := by
  intro x h
  have h2 : (none : Option Raw) = some x := h
  simp at h2

theorem Encoding.postedAcknowledge (k : Nat) : Encoding.Statement (.postedAcknowledge k) := by
  intro x h
  have h2 : (none : Option Raw) = some x := h
  simp at h2

theorem Encoding.postedRefusal (k : Nat) : Encoding.Statement (.postedRefusal k) := by
  intro x h
  have h2 : (none : Option Raw) = some x := h
  simp at h2

theorem Encoding.streamerPiece (unit : Nat) : Encoding.Statement (.streamerPiece unit) := by
  intro x h
  have h2 : (none : Option Raw) = some x := h
  simp at h2

theorem Encoding.copyStatusLanding (k : Nat) : Encoding.Statement (.copyStatusLanding k) := by
  intro x h
  have h2 : (none : Option Raw) = some x := h
  simp at h2

theorem Encoding.channelRetry (core : Nat) : Encoding.Statement (.channelRetry core) := by
  intro x h
  have h2 : (none : Option Raw) = some x := h
  simp at h2

theorem Encoding.tlbWalkComplete (spire tenant : Nat) (ctx : BitVec 16) (va : Word) : Encoding.Statement (.tlbWalkComplete spire tenant ctx va) := by
  intro x h
  have h2 : (none : Option Raw) = some x := h
  simp at h2

theorem Encoding.sliceRetryHint (spire : Nat) : Encoding.Statement (.sliceRetryHint spire) := by
  intro x h
  have h2 : (none : Option Raw) = some x := h
  simp at h2

theorem Encoding.linkRetrain (link : Nat) (failures : Nat) (held : List Nat) : Encoding.Statement (.linkRetrain link failures held) := by
  intro x h
  have h2 : (none : Option Raw) = some x := h
  simp at h2

theorem Encoding.trackerLeak : Encoding.Statement .trackerLeak := by
  intro x h
  have h2 : (none : Option Raw) = some x := h
  simp at h2

theorem Encoding.mspareCopyEnd (channel : Nat) : Encoding.Statement (.mspareCopyEnd channel) := by
  intro x h
  have h2 : (none : Option Raw) = some x := h
  simp at h2

theorem Encoding.launchRegisterWrite (port : Bool) (tenant n : Nat) (value : Word) : Encoding.Statement (.launchRegisterWrite port tenant n value) := by
  intro x h
  have h2 : (none : Option Raw) = some x := h
  simp at h2

theorem Encoding.lstatWrite (port : Bool) (tenant : Nat) (value : Word) : Encoding.Statement (.lstatWrite port tenant value) := by
  intro x h
  have h2 : (none : Option Raw) = some x := h
  simp at h2

theorem Encoding.belfryAdmission (order : List Nat) : Encoding.Statement (.belfryAdmission order) := by
  intro x h
  have h2 : (none : Option Raw) = some x := h
  simp at h2

theorem Encoding.ageingStep (region : Nat) : Encoding.Statement (.ageingStep region) := by
  intro x h
  have h2 : (none : Option Raw) = some x := h
  simp at h2

theorem Encoding.dispatchFreshStart (part : Nat) : Encoding.Statement (.dispatchFreshStart part) := by
  intro x h
  have h2 : (none : Option Raw) = some x := h
  simp at h2

theorem Encoding.partitionResume (part : Nat) : Encoding.Statement (.partitionResume part) := by
  intro x h
  have h2 : (none : Option Raw) = some x := h
  simp at h2

theorem Encoding.gangSwitch (part : Nat) : Encoding.Statement (.gangSwitch part) := by
  intro x h
  have h2 : (none : Option Raw) = some x := h
  simp at h2

theorem Encoding.regionRetire (region : Nat) : Encoding.Statement (.regionRetire region) := by
  intro x h
  have h2 : (none : Option Raw) = some x := h
  simp at h2

theorem Encoding.maxrunExpiry (region : Nat) : Encoding.Statement (.maxrunExpiry region) := by
  intro x h
  have h2 : (none : Option Raw) = some x := h
  simp at h2

theorem Encoding.gstepsExpiry (region : Nat) : Encoding.Statement (.gstepsExpiry region) := by
  intro x h
  have h2 : (none : Option Raw) = some x := h
  simp at h2

theorem Encoding.watchdogTimeout (region : Nat) : Encoding.Statement (.watchdogTimeout region) := by
  intro x h
  have h2 : (none : Option Raw) = some x := h
  simp at h2

theorem Encoding.watchdogSwitchTimeout (region : Nat) : Encoding.Statement (.watchdogSwitchTimeout region) := by
  intro x h
  have h2 : (none : Option Raw) = some x := h
  simp at h2

theorem Encoding.yieldTimeout (core : Nat) : Encoding.Statement (.yieldTimeout core) := by
  intro x h
  have h2 : (none : Option Raw) = some x := h
  simp at h2

theorem Encoding.semaphoreTake (port : Bool) (n : Nat) (tie : Bool) : Encoding.Statement (.semaphoreTake port n tie) := by
  intro x h
  have h2 : (none : Option Raw) = some x := h
  simp at h2

theorem Encoding.semaphoreRelease (port : Bool) (n : Nat) (value : Word) : Encoding.Statement (.semaphoreRelease port n value) := by
  intro x h
  have h2 : (none : Option Raw) = some x := h
  simp at h2

theorem Encoding.setshare (port : Bool) (tenant : Nat) (share : BitVec 8) : Encoding.Statement (.setshare port tenant share) := by
  intro x h
  have h2 : (none : Option Raw) = some x := h
  simp at h2

theorem Encoding.setwdcfg (port : Bool) (tenant n : Nat) (value : Word) : Encoding.Statement (.setwdcfg port tenant n value) := by
  intro x h
  have h2 : (none : Option Raw) = some x := h
  simp at h2

theorem Encoding.traceCommand (port : Bool) (enable : Bool) (base log2 : Nat) : Encoding.Statement (.traceCommand port enable base log2) := by
  intro x h
  have h2 : (none : Option Raw) = some x := h
  simp at h2

theorem Encoding.attest (port : Bool) (nonce : BitVec 256) : Encoding.Statement (.attest port nonce) := by
  intro x h
  have h2 : (none : Option Raw) = some x := h
  simp at h2

theorem Encoding.msixVectorUnmask (tenant vector : Nat) : Encoding.Statement (.msixVectorUnmask tenant vector) := by
  intro x h
  have h2 : (none : Option Raw) = some x := h
  simp at h2

theorem Encoding.functionLevelReset (port : Bool) : Encoding.Statement (.functionLevelReset port) := by
  intro x h
  have h2 : (none : Option Raw) = some x := h
  simp at h2

theorem Encoding.registerWrite (port : Bool) (bar offset : Nat) (value : Word) : Encoding.Statement (.registerWrite port bar offset value) := by
  intro x h
  have h2 : (none : Option Raw) = some x := h
  simp at h2

theorem Encoding.thaturLoad (tenant : Nat) (ctx : BitVec 16) (container : Word) : Encoding.Statement (.thaturLoad tenant ctx container) := by
  intro x h
  have h2 : (none : Option Raw) = some x := h
  simp at h2

theorem Encoding.deviceReset : Encoding.Statement .deviceReset := by
  intro x h
  have h2 : (none : Option Raw) = some x := h
  simp at h2

theorem Encoding.powerCap (dome : Nat) (stop : Bool) : Encoding.Statement (.powerCap dome stop) := by
  intro x h
  have h2 : (none : Option Raw) = some x := h
  simp at h2

theorem Encoding.thermalAlarm : Encoding.Statement .thermalAlarm := by
  intro x h
  have h2 : (none : Option Raw) = some x := h
  simp at h2

theorem Encoding.thermalShutdown : Encoding.Statement .thermalShutdown := by
  intro x h
  have h2 : (none : Option Raw) = some x := h
  simp at h2

theorem Encoding.spirePortSend (spire : Nat) : Encoding.Statement (.spirePortSend spire) := by
  intro x h
  have h2 : (none : Option Raw) = some x := h
  simp at h2

theorem Encoding.softError (unit : Nat) (where_ : Nat) : Encoding.Statement (.softError unit where_) := by
  intro x h
  have h2 : (none : Option Raw) = some x := h
  simp at h2

end Sys2Proof.Laws
end

