-- ==== Sys2Proof/Laws/Shared.lean ====
section
/-!
SUPPORT. What shared operations of the device do, each in one lemma: rectangles of cores, the marks of corruption, the causer of an
event, the counting of cycles, and the port of an access.
-/

namespace Sys2Proof.Machine

open Sys2Proof

/-- A rectangle word contains some core of the mesh exactly when its corners, clipped to the mesh, leave one (00_scope R7). -/
theorem Rect.holdsCore_iff (w : Word) : Rect.holdsCore w = true ↔ ∃ x y, Rect.contains w x y = true := by
  simp only [Rect.holdsCore, Rect.contains, Bool.and_eq_true, decide_eq_true_eq]
  constructor
  · rintro ⟨h1, h2⟩
    exact ⟨_, _, ⟨⟨⟨⟨le_refl _, by omega⟩, by omega⟩, le_refl _⟩, by omega⟩, by omega⟩
  · rintro ⟨x, y, ⟨⟨⟨⟨h1, h2⟩, h3⟩, h4⟩, h5⟩, h6⟩
    omega

namespace State

/-- Wiping a range of the workspace memory touches the marks of corruption of the current core alone (07_system_isa R222). -/
theorem wipeRange_core (s : State) (lo n : Nat) : (s.wipeRange lo n).core =
    { s.core with soft := s.core.soft.filter fun x => !(x.1 == 1 && decide (lo ≤ x.2) && decide (x.2 < lo + n)) } := by
  unfold wipeRange
  split
  · next h => rw [h, List.filter_nil, ← h]
  · rw [core_onCore]

theorem wipeRange_frame (s : State) (lo n : Nat) : s.wipeRange lo n = { s with cores := (s.wipeRange lo n).cores } := by
  unfold wipeRange
  split <;> rfl

/-- Counting for whoever causes an event touches the counters alone (22_host_compat R381). -/
theorem countBy_frame (s : State) (i n : Nat) : s.countBy i n = { s with counters := (s.countBy i n).counters } := rfl

@[simp] theorem actFor_acting (s : State) (who : Nat) (f : State → State) : (s.actFor who f).acting = s.acting := rfl

@[simp] theorem actingFor_acting {α : Type} (s : State) (who : Nat) (f : State → α × State) : (s.actingFor who f).2.acting = s.acting := rfl

@[simp] theorem actingFor_fst {α : Type} (s : State) (who : Nat) (f : State → α × State) :
    (s.actingFor who f).1 = (f { s with acting := some who }).1 := rfl

theorem foldl_frame {α : Type} (f : State → α → State) (h : ∀ s x, f s x = { s with counters := (f s x).counters }) :
    ∀ (xs : List α) (s : State), xs.foldl f s = { s with counters := (xs.foldl f s).counters }
  | [], _ => rfl
  | x :: xs, s => by
    rw [List.foldl_cons, foldl_frame f h xs (f s x)]
    rw [h s x]

/-- Cycles that pass are counted, and nothing else changes (22_host_compat R381). -/
theorem countCycles_frame (s : State) (dt : Nat) : s.countCycles dt = { s with counters := (s.countCycles dt).counters } := by
  unfold countCycles
  split
  · rfl
  · dsimp only
    rw [foldl_frame (fun (t : State) w => t.countFor w 9 dt) (fun _ _ => rfl) _ (List.foldl _ s s.cores)]
    rw [foldl_frame _ (fun t ck => ?_) s.cores s]
    split
    · exact foldl_frame _ (fun _ _ => rfl) _ _
    · rfl

/-- BSTATs of some cores end early; nothing else changes. -/
theorem dropBstats_frame (s : State) (mine : Nat → Bool) : s.dropBstats mine = { s with bstats := (s.dropBstats mine).bstats } := rfl

/-- An access waits for its port only at a bank in dome memory that it reaches through the mesh, while a released operation stands
first there (13_dome_memory R277). -/
theorem portFree_iff (s : State) (p : Place) : s.portFree p = .ok () ↔
    ¬ (isDome p.loc = true ∧ (p.mesh = true ∨ s.isBelfry = true) ∧ s.meshHeld p.loc = true) := by
  simp only [portFree, Bool.and_eq_true, Bool.or_eq_true, and_assoc]
  split
  · next h => simp [h]
  · next h => simp [h]

/-- The loads of a header operation read HEAD and TAIL under the lock, which a grant at the header's bank has taken (13_dome_memory
R277, R279). -/
theorem headerLoads_eq (s : State) (h : Word) :
    s.headerLoads h = ((s.lockGrant h).quietLoad (h + Chan.head) 8).2.2.quietLoad (h + Chan.tail) 8 := rfl

end State

end Sys2Proof.Machine
end

