-- ==== Sys2Proof/Tests/Slice0.lean ====
section
/-!
SUPPORT. Tests of one step each on a small state: what the checks of WellFormed refuse, words written out from the
encodings of the spec, states that meet the hypotheses of the statements, and results the spec states or that follow from
it by hand.
-/

set_option Elab.async false

namespace Sys2Proof.Machine.Slice0

open Sys2Proof

/-! ## A small state -/

/-- Spire 0 belongs to tenant 0, and barrier objects 0 to 255 of dome 0 are granted (09_execution R239). -/
def small_entry : BitVec 512 := BitVec.ofNat 512 (2 ^ 63 + 256 * 2 ^ 16 * 2 ^ 256)

/-- No guard. -/
def always_ : Guard := ⟨0, false⟩

/-- A running region of one core. -/
def small_region : Region :=
  { id := 1, tenant := 0, prio := 0, fifo := 0, rcbAddr := 0x1000, ctx := 0
    rcb := BitVec.ofNat 2048 ((1 + 2 ^ 16 + 2 ^ 32) * 2 ^ 64), status := .running, spires := [0], begun := true }

/-- A page of 64 KiB at 0x1_0000_0000 that may be read, written and executed, at physical address 0x100000. -/
def small_leaf : TlbEntry :=
  { tenant := 0, ctx := 0, vpage := 0x10000, leaf := BitVec.ofNat 64 (2 ^ 63 + 2 ^ 62 + 7 * 2 ^ 57 + 0x100000), level := 3 }

/-- Core 0 runs alone at a level, with the page of `small_leaf` in the TLB and the banks of Spire 0; tenant 0 may use all of
HBM4E. -/
def small (priv : BitVec 2) : State :=
  { State.reset with
    boot := .up, slotTable := [(0, small_entry)], regions := [small_region], regNext := 2
    spires := [(0, { tlb := [small_leaf] })]
    tenants := [(0, BitVec.ofNat 2048 (2 ^ 63 + 2 ^ 39 * 2 ^ 1216))]
    cores := [(0, { status := .running, priv := priv, region := 1, pc := 0x100000000, tvec := 0x4600000100000000 })] }

/-- The same with registers set. -/
def small_with (priv : BitVec 2) (rs : List (SReg × Word)) : State := rs.foldl (fun s x => s.setReg x.1 x.2) (small priv)

/-- A result with no trap and no wait that a test holds of. -/
def passes {ε α : Type} (c : Except ε α) (p : α → Bool) : Bool :=
  match c with
  | .ok x => p x
  | .error _ => false

/-- The next state of a test, and what it holds. -/
def gives (o : Out) (p : State → Bool) : Bool :=
  match next? o with
  | some t => p t
  | none => false

/-! ## Ill-formed instructions -/

/-- Refused for a type the operation does not take (01_encoding R30 step 3). -/
theorem test_wf_badType : ([.add always_ .f32 1 2 (.reg 3), .clz always_ .s32 1 2,
    .fadd always_ .s32 1 2 3, .vdot2 always_ .s8 1 2 3, .vcmul always_ .f32 1 2 3 0, .vredAdd always_ .f64 1 2,
    .ld always_ .f32 1 2 (.reg 3), .amoFadd always_ .s32 1 2 3] : List Instr).all (fun i => i.check == some .badType) = true := by
  decide +kernel

/-- Refused for PG = 0 with PN = 1 (01_encoding R29). -/
theorem test_wf_badGuard : ([.add ⟨0, true⟩ .s32 1 2 (.reg 3), .vmov ⟨0, true⟩ 1 2 0,
    .nop ⟨0, true⟩] : List Instr).all (fun i => i.check == some .badGuard) = true := by
  decide +kernel

/-- Refused for a descending range of registers (02_scalar R63). -/
theorem test_wf_operandKind : ([.pushm always_ (.scalar 2 1), .popm always_ (.vector 31 0)] : List Instr).all (fun i => i.check == some .operandKind) = true := by
  decide +kernel

/-- Refused for a value its field does not have. -/
theorem test_wf_reservedValue : ([.bext always_ .z32 1 2 31 1, .bins always_ .z64 1 2 63 1,
    .mfs always_ 1 6, .mts always_ 1 8, .mts always_ 1 0, .fcvt always_ .s32 1 2 .z64 0, .fcvt always_ .f32 1 2 .f32 0,
    .fcvt always_ .f32 1 2 .s32 6, .brx always_ 1 2 0, .loop always_ 0 4, .hint always_ 0, .hint always_ 3,
    .vsel always_ 1 2 3 4 3, .vcvt always_ .f32 1 2 .f32 0 0, .vcvt always_ .f16 1 2 .f32 2 0, .vqmx always_ 1 4 2 6,
    .vqmx always_ 1 5 2 0, .vdqmx always_ 6 1 2 0, .vsat always_ .s8 1 2 0, .vsat always_ .s8 1 2 9,
    .vbcast always_ .s32 1 2 8, .vins always_ .s16 1 2 16, .vmov always_ 1 2 3, .vgather always_ .s32 1 2 3 2,
    .vscatter always_ .s16 1 2 3 1, .ldb always_ 1 2 4, .pref always_ 1 2, .chint always_ 1 3,
    .copy always_ 0 1 2 3 0 0 0 0, .copyh always_ 0 1 2 3 0 0 7 0 1, .fence always_ 1 0, .mshf always_ 0 1 15 0,
    .mmov always_ 2 0 0 0 0 0, .mmovr always_ 0 1 0 0, .mspec always_ 0 0, .tgemm always_ 1 0 1 2 0 0 4 0,
    .tfact always_ 1 3 0 0 0, .tsolve always_ 2 2 3 0, .tsolve always_ 1 2 3 0, .gret 1 0, .sysr always_ 1 6,
    .sysw always_ 1 1, .tlbinv always_ 1 2 3 0, .lflush always_ 1 2 0 3, .jrnl always_ 1 2 3 0] : List Instr).all (fun i => i.check == some .reservedValue) = true := by
  decide +kernel

/-! ## Words the decoder refuses -/

/-- Why the decoder refuses the word. -/
def refuses (w : Nat) : Option Reject :=
  match decode (toBytes 16 (BitVec.ofNat 128 w)) with
  | .ok _ => none
  | .error e => some e

/-- Refused for an unassigned MAJ (01_encoding R30 step 3). -/
theorem test_decode_unassignedMajor : ([0x38, 0x1fc] : List Nat).all (fun w => refuses w == some .unassignedMajor) = true := by
  decide +kernel

/-- Refused for an unassigned OP (01_encoding R30 step 3). -/
theorem test_decode_unassignedOp : ([0x18000000000, 0x400000007c] : List Nat).all (fun w => refuses w == some .unassignedOp) = true := by
  decide +kernel

/-- Refused for a T the operation does not take, 15 included (01_encoding R30 step 3). -/
theorem test_decode_badType : ([0x780000000000, 0x80000000060, 0x80000000040] : List Nat).all (fun w => refuses w == some .badType) = true := by
  decide +kernel

/-- Refused for a length the operation does not have (01_encoding R30 step 3). -/
theorem test_decode_badLength : ([0x9, 0x800000000002, 0x1c5] : List Nat).all (fun w => refuses w == some .badLength) = true := by
  decide +kernel

/-- Refused for I where the operation takes none (01_encoding R30 step 3). -/
theorem test_decode_badImmediate : ([0x800000000008, 0xd80000000040] : List Nat).all (fun w => refuses w == some .badImmediate) = true := by
  decide +kernel

/-- Refused for a register in field B beside an immediate (01_encoding R30 step 3). -/
theorem test_decode_operandB : ([0x800002000000] : List Nat).all (fun w => refuses w == some .operandB) = true := by
  decide +kernel

/-- Refused for a field outside its kind (01_encoding R30 step 3). -/
theorem test_decode_operandKind : ([0x40000, 0x45082080, 0x10010, 0x8007c] : List Nat).all (fun w => refuses w == some .operandKind) = true := by
  decide +kernel

/-- Refused for bits that must be zero (01_encoding R30 step 3). -/
theorem test_decode_reservedBits : ([0x1000000000000, 0x10001800000000001, 0x10000000001c4] : List Nat).all (fun w => refuses w == some .reservedBits) = true := by
  decide +kernel

/-- Refused for a guard of an instruction that takes none, and PG = 0 with PN = 1 (01_encoding R30 step 3). -/
theorem test_decode_badGuard : ([0x3c4, 0x20000011cc, 0x1000] : List Nat).all (fun w => refuses w == some .badGuard) = true := by
  decide +kernel

/-- Refused for LEN = 3 in any word but FILL (01_encoding R20) (01_encoding R30 step 3). -/
theorem test_decode_badFill : ([0x7, 0x80000003] : List Nat).all (fun w => refuses w == some .badFill) = true := by
  decide +kernel

/-- Refused where the bytes end within the instruction. -/
theorem test_decode_truncated : ([[], [3, 0, 0], [0, 0, 0, 0, 0, 0, 0], [1, 0, 0, 0, 0, 0, 0, 0, 0, 0, 0]] : List (List Byte)).all
    (fun bs => match decode bs with | .error e => e == .truncated | .ok _ => false) = true := by decide +kernel
/-- Words of the fill family, from 01_encoding R18-R31 and its operand tables. -/
theorem test_words_fill :
    decodeTableWord 32 0x00000003 = some (.fill) := by
  decide +kernel

/-- Words of the arith family, from 01_encoding R18-R31 and its operand tables. -/
theorem test_words_arith :
    decodeTableWord 64 0x0000000008102600 = some (.add ⟨3, false⟩ .dflt 1 2 (.reg 4)) ∧
    decodeTableWord 96 0xFFFFFFFE0000992000F3FA01 = some (.ror ⟨5, true⟩ .s32 31 30 (.imm32 0xFFFFFFFE)) := by
  decide +kernel

/-- Words of the mul family, from 01_encoding R18-R31 and its operand tables. -/
theorem test_words_mul :
    decodeTableWord 64 0x8001B84000206004 = some (.div ⟨0, false⟩ .z32 3 4 (.imm16 0x8001)) := by
  decide +kernel

/-- Words of the bits family, from 01_encoding R18-R31 and its operand tables. -/
theorem test_words_bits :
    decodeTableWord 64 0x04CC40A00040E008 = some (.bext ⟨0, false⟩ .z64 7 8 12 19) := by
  decide +kernel

/-- Words of the cmp family, from 01_encoding R18-R31 and its operand tables. -/
theorem test_words_cmp :
    decodeTableWord 64 0x000020801448C00C = some (.cmpGt ⟨0, false⟩ .s64 6 9 (.reg 10)) := by
  decide +kernel

/-- Words of the pred family, from 01_encoding R18-R31 and its operand tables. -/
theorem test_words_pred :
    decodeTableWord 96 0xF0F0F0F0000080C000004011 = some (.pset ⟨0, false⟩ 2 0xF0F0F0F0) ∧
    decodeTableWord 64 0x000000600E102010 = some (.pandn ⟨0, false⟩ 1 2 7) := by
  decide +kernel

/-- Words of the move family, from 01_encoding R18-R31 and its operand tables. -/
theorem test_words_move :
    decodeTableWord 128 0x0123456789ABCDEF0000800000022016 = some (.movi ⟨0, false⟩ 17 (.imm64 0x0123456789ABCDEF)) ∧
    decodeTableWord 64 0x0000006206102014 = some (.sel ⟨0, false⟩ 1 2 3 4) := by
  decide +kernel

/-- Words of the qcap family, from 01_encoding R18-R31 and its operand tables. -/
theorem test_words_qcap :
    decodeTableWord 64 0x010280000000A018 = some (.qcap ⟨0, false⟩ 5 (.imm16 0x0102)) := by
  decide +kernel

/-- Words of the special family, from 01_encoding R18-R31 and its operand tables. -/
theorem test_words_special :
    decodeTableWord 64 0x000500200048001C = some (.mts ⟨0, false⟩ 9 5) ∧
    decodeTableWord 64 0x000000200048001C = some (.mtsWp ⟨0, false⟩ 9) := by
  decide +kernel

/-- Words of the spill family, from 01_encoding R18-R31 and its operand tables. -/
theorem test_words_spill :
    decodeTableWord 64 0x0000000063180020 = some (.pushm ⟨0, false⟩ (.vector 3 17)) := by
  decide +kernel

/-- Words of the ext family, from 01_encoding R18-R31 and its operand tables. -/
theorem test_words_ext :
    decodeTableWord 64 0x0000100000102024 = some (.sext ⟨0, false⟩ .s16 1 2) := by
  decide +kernel

/-- Words of the float family, from 01_encoding R18-R31 and its operand tables. -/
theorem test_words_float :
    decodeTableWord 64 0x0000586006102040 = some (.fdiv ⟨0, false⟩ .f32 1 2 3) ∧
    decodeTableWord 64 0x0000602A06102044 = some (.fms ⟨0, false⟩ .f64 1 2 3 20) ∧
    decodeTableWord 64 0x000000600610E048 = some (.fcmpUn ⟨0, false⟩ .dflt 7 2 3) ∧
    decodeTableWord 64 0x003458000010204C = some (.fcvt ⟨0, false⟩ .f32 1 2 .s64 3) := by
  decide +kernel

/-- Words of the control family, from 01_encoding R18-R31 and its operand tables. -/
theorem test_words_control :
    decodeTableWord 64 0xFFF0000000000060 = some (.br ⟨0, false⟩ (.off16 0xFFF0)) ∧
    decodeTableWord 96 0x00010000000000000003C065 = some (.call ⟨0, false⟩ 30 (.off32 0x10000)) ∧
    decodeTableWord 64 0x0000002000F00068 = some (.ret ⟨0, false⟩ 30) ∧
    decodeTableWord 64 0x000900000A20006C = some (.brx ⟨0, false⟩ 4 5 9) ∧
    decodeTableWord 64 0xFFFC000000300070 = some (.loop ⟨0, false⟩ 6 0xFFFC) ∧
    decodeTableWord 64 0x3010000000200074 = some (.rep 4 0 1 3) ∧
    decodeTableWord 64 0x0002002000000078 = some (.hint ⟨0, false⟩ 2) ∧
    decodeTableWord 64 0x000000000000007C = some (.unchain) ∧
    decodeTableWord 64 0x008500200000007C = some (.rechain 0x85) := by
  decide +kernel

/-- Words of the vfloat family, from 01_encoding R18-R31 and its operand tables. -/
theorem test_words_vfloat :
    decodeTableWord 64 0x0000504061050080 = some (.vmul ⟨0, false⟩ .bf16 8 0 16) ∧
    decodeTableWord 64 0x0000485247142084 = some (.vfnma ⟨0, false⟩ .f16 1 2 3 4) ∧
    decodeTableWord 64 0x0000004001142088 = some (.vrcp ⟨0, false⟩ .dflt 1 2) ∧
    decodeTableWord 64 0x000000400134408C = some (.vsincos ⟨0, false⟩ .dflt 2 6) ∧
    decodeTableWord 64 0x0000004047102090 = some (.vcmpLt ⟨0, false⟩ .dflt 1 2 3) ∧
    decodeTableWord 64 0x00010082C7142090 = some (.vsel ⟨0, false⟩ 1 2 3 5 1) ∧
    decodeTableWord 64 0x0004702013242094 = some (.vqmx ⟨0, false⟩ 1 4 9 4) ∧
    decodeTableWord 64 0x0000580001FC2098 = some (.vredAdd ⟨0, false⟩ .f32 1 31) := by
  decide +kernel

/-- Words of the vint family, from 01_encoding R18-R31 and its operand tables. -/
theorem test_words_vint :
    decodeTableWord 64 0x0003B0C00114209C = some (.vshr ⟨0, false⟩ .z16 1 2 (.imm16 3)) ∧
    decodeTableWord 64 0x00091060011420A0 = some (.vsat ⟨0, false⟩ .s16 1 2 9) ∧
    decodeTableWord 64 0x00001020471420A4 = some (.vdot2 ⟨0, false⟩ .s16 1 2 3) ∧
    decodeTableWord 64 0x000F6800471420A8 = some (.vcmul ⟨0, false⟩ .ci16 1 2 3 15) ∧
    decodeTableWord 64 0x000000334B2440AC = some (.vbflys ⟨0, false⟩ .dflt 2 4 5 6) := by
  decide +kernel

/-- Words of the vmove family, from 01_encoding R18-R31 and its operand tables. -/
theorem test_words_vmove :
    decodeTableWord 64 0x001F0860011420B0 = some (.vbcast ⟨0, false⟩ .s8 1 2 31) ∧
    decodeTableWord 64 0x00075840011020B4 = some (.vext ⟨0, false⟩ .f32 1 2 7) ∧
    decodeTableWord 64 0x002B0040011420B8 = some (.jplane ⟨0, false⟩ .dflt 1 2 3 5) := by
  decide +kernel

/-- Words of the memory family, from 01_encoding R18-R31 and its operand tables. -/
theorem test_words_memory :
    decodeTableWord 64 0xFFF8880000206100 = some (.ld ⟨0, false⟩ .s8 3 4 (.imm16 0xFFF8)) ∧
    decodeTableWord 64 0x000040030A200104 = some (.st ⟨0, false⟩ .z64 4 (.reg 5) 6) ∧
    decodeTableWord 96 0x000001000000800000150109 = some (.vld ⟨0, false⟩ 8 2 (.imm32 0x100)) ∧
    decodeTableWord 64 0x000000140610010C = some (.vst ⟨0, false⟩ 2 (.reg 3) 8) ∧
    decodeTableWord 64 0x0010003246100110 = some (.vscatter ⟨0, false⟩ .dflt 2 3 4 16) ∧
    decodeTableWord 64 0x00070000003C4114 = some (.ldb ⟨0, false⟩ 2 7 7) ∧
    decodeTableWord 64 0x000018E206102118 = some (.amoCas ⟨0, false⟩ .s32 1 2 3 4) ∧
    decodeTableWord 64 0x000162420610011C = some (.redMaxOrd ⟨0, false⟩ .f64 2 3 4 1) ∧
    decodeTableWord 64 0x0001000000100120 = some (.pref ⟨0, false⟩ 2 1) := by
  decide +kernel

/-- Words of the sync family, from 01_encoding R18-R31 and its operand tables. -/
theorem test_words_sync :
    decodeTableWord 128 0x0000000000001D050000000206102142 = some (.copy ⟨0, false⟩ 1 2 3 4 5 1 6 1) ∧
    decodeTableWord 64 0x00FF00200000A148 = some (.barrive ⟨0, false⟩ 5 0xFF) ∧
    decodeTableWord 64 0x006480000038014C = some (.tlwait ⟨0, false⟩ 7 (.imm16 100)) ∧
    decodeTableWord 64 0x001F000000180150 = some (.fence ⟨0, false⟩ 3 0x1F) ∧
    decodeTableWord 64 0x0032802000004154 = some (.wait ⟨0, false⟩ 2 (.imm16 50)) ∧
    decodeTableWord 64 0x0000004206102158 = some (.sendNb ⟨0, false⟩ 1 2 3 4) := by
  decide +kernel

/-- Words of the matrix family, from 01_encoding R18-R31 and its operand tables. -/
theorem test_words_matrix :
    decodeTableWord 64 0x800600200019E180 = some (.mshf ⟨0, false⟩ 15 3 6 2) ∧
    decodeTableWord 64 0x0188000000002184 = some (.mclaim ⟨0, false⟩ 1 8 3) ∧
    decodeTableWord 64 0x40FF002000782188 = some (.mldx ⟨0, false⟩ 1 15 0x7F 1 1) ∧
    decodeTableWord 64 0xC48500018000E18C = some (.mma ⟨0, false⟩ 7 3 5 9 3) ∧
    decodeTableWord 64 0x0015006206102190 = some (.mst ⟨0, false⟩ 1 2 3 4 5 1 0) ∧
    decodeTableWord 64 0x4000002300000194 = some (.mresolve ⟨0, false⟩ 6 1) ∧
    decodeTableWord 64 0x010D000206102198 = some (.tgemm ⟨0, false⟩ 1 2 3 4 5 1 16 0) ∧
    decodeTableWord 64 0x000200000030219C = some (.tfact ⟨0, false⟩ 1 6 0 1 0) ∧
    decodeTableWord 64 0x00020020000061A0 = some (.mqsync ⟨0, false⟩ 3 2) := by
  decide +kernel

/-- Words of the system family, from 01_encoding R18-R31 and its operand tables. -/
theorem test_words_system :
    decodeTableWord 128 0x000000000000004500000000001021C2 = some (.launch 1 2 5 1) ∧
    decodeTableWord 64 0x00000020000081C4 = some (.yield 4) ∧
    decodeTableWord 64 0x00010020001801C8 = some (.gret 3 1) ∧
    decodeTableWord 64 0xBEEF0000000001CC = some (.trap 0xBEEF) ∧
    decodeTableWord 64 0x00050000000021D0 = some (.sysr ⟨0, false⟩ 1 5) ∧
    decodeTableWord 64 0x00000001801021D4 = some (.publish 1 2 3) ∧
    decodeTableWord 64 0x00060000061001D8 = some (.tlbinv ⟨0, false⟩ 2 3 2 1) ∧
    decodeTableWord 64 0x00010000061021DC = some (.l2cfg ⟨0, false⟩ 1 2 3 1) ∧
    decodeTableWord 64 0x00010042061021E0 = some (.mrmapWrite ⟨0, false⟩ 1 2 3 4) ∧
    decodeTableWord 64 0x00050000001021E4 = some (.jrnl ⟨0, false⟩ 1 2 1 1) ∧
    decodeTableWord 64 0x00010020061021E8 = some (.gswitchArm ⟨0, false⟩ 1 2 3) := by
  decide +kernel
/-! ## States that meet the hypotheses of the statements

A statement that an instruction completes assumes `State.issues`; these states issue the instructions named. -/

theorem witness_whole : State.whole always_ (small 0) = true ∧ State.whole ⟨3, true⟩ (small 0) = true ∧
    State.wholeAlone always_ (small 0) = true ∧ State.always (small 0) = true ∧ State.alone (small 0) = true := by decide +kernel

theorem witness_ScalarArithmeticCompletes : ([.add always_ .s32 1 2 (.reg 3), .sub always_ .dflt 0 0 (.imm16 0xFFFF),
    .and always_ .z32 31 31 (.imm32 0x80000000), .or always_ .z64 1 2 (.reg 31), .xor ⟨3, true⟩ .s64 1 2 (.reg 3),
    .andn always_ .s32 1 2 (.reg 3), .shl always_ .s32 1 2 (.imm16 32), .shr always_ .s32 1 2 (.imm16 31),
    .sar always_ .z32 1 2 (.imm16 63), .ror always_ .s64 1 2 (.imm16 64), .min always_ .s32 1 2 (.reg 3),
    .max always_ .z32 1 2 (.reg 3), .mul always_ .s64 1 2 (.reg 3), .mulh always_ .z64 1 2 (.reg 3),
    .div always_ .s32 1 2 (.reg 0), .rem always_ .s64 1 2 (.reg 0)] : List Instr).all ((small 0).issues · true) = true := by
  decide +kernel

theorem witness_BitOperationsComplete : ([.clz always_ .z32 1 0, .ctz always_ .dflt 1 0, .popc always_ .z64 1 31,
    .brev always_ .z32 0 1, .bswap always_ .z64 1 2, .bext always_ .z64 1 2 63 0, .bins always_ .z32 1 2 0 31,
    .sext always_ .s8 1 2, .zext always_ .z32 1 2] : List Instr).all ((small 0).issues · true) = true := by decide +kernel

theorem witness_ComparesAndPredicatesComplete : ([.cmpEq always_ .s32 0 1 (.reg 2), .cmpNe always_ .z32 7 1 (.reg 2),
    .cmpLt always_ .dflt 1 1 (.imm16 0x8000), .cmpLe always_ .s64 1 1 (.reg 2), .cmpGt always_ .z64 1 1 (.reg 2),
    .cmpGe always_ .s64 1 1 (.reg 2), .pand always_ 1 2 3, .por always_ 0 2 3, .pxor always_ 1 0 3, .pandn always_ 1 2 0,
    .pnot always_ 1 2, .pmov always_ 7 0, .pset always_ 1 0xFFFFFFFF] : List Instr).all ((small 0).issues · true) = true := by
  decide +kernel

theorem witness_MovesComplete : ([.movi always_ 1 (.imm16 0x8000), .movi always_ 0 (.imm32 1), .movi always_ 31 (.imm64 0),
    .mov always_ 1 2, .lea always_ 1 2 (.idx 3 7), .lea always_ 1 2 (.idxDisp 3 0 0x80000000), .lea always_ 1 2 (.imm16 0),
    .lea always_ 1 2 (.imm32 0), .sel always_ 1 2 3 0, .qcap always_ 1 (.reg 2), .qcap always_ 1 (.imm16 1),
    .rndc always_ 1 2 3] : List Instr).all ((small 0).issues · true) = true := by decide +kernel

theorem witness_SpecialRegistersComplete : ((small 0).issues (.mfs always_ 1 3) true && (small 0).issues (.mts always_ 1 5) true &&
    (small 2).issues (.mtsWp always_ 1) true &&
    ((small_with 2 [(1, 0x3A00)]).reg 1).toNat % 256 == 0 && decide (((small_with 2 [(1, 0x3A00)]).reg 1).toNat ≤ 0x3A00)) = true := by
  decide +kernel

/-- SSP = 0x3800 with one word to spill, and with a range at the limit SSL. -/
theorem witness_SpillStackCompletes :
    (let s := (small 0).setWord Ws.ssp 0x3800
     let t := ((small 0).setWord Ws.ssp 0x3800).setWord Ws.ssl 0x37F8
     s.issues (.pushm always_ (.scalar 1 1)) true && s.issues (.popm always_ (.vector 0 1)) true &&
      (s.word Ws.ssp == 0x3800) && meetsWorkspace s 0x37F8 8 == false && decide ((t.word Ws.ssl).toNat ≤ (0x37F8 : Word).toNat) &&
      (rangeWait s .store ((List.range 1).map (pushElem (.scalar 1 1) s 0x37F8))).isNone &&
      (rangeWait s .load ((List.range 8).map (pushElem (.vector 0 1) s 0x3800))).isNone &&
      (match pushWords (.scalar 1 1) 0x37F8 [0] s with | .done _ => true | _ => false) &&
      (match popWords (.vector 0 1) 0x3800 (List.range 8) s (fun u => .done u) with | .done _ => true | _ => false)) = true := by
  decide +kernel

theorem witness_ScalarFloatArithmeticCompletes : ([.fadd always_ .f32 1 2 3, .fsub always_ .f64 1 2 3, .fmul always_ .dflt 1 2 3,
    .fdiv always_ .f64 1 2 0, .fsqrt always_ .f32 1 2, .fmin always_ .f32 1 2 3, .fmax always_ .f64 1 2 3, .fneg always_ .f32 1 2,
    .fabs always_ .f64 1 2, .fma always_ .f32 1 2 3 4, .fms always_ .f32 1 2 3 4, .fnma always_ .f64 1 2 3 4,
    .fnms always_ .f64 1 2 3 4] : List Instr).all ((small 0).issues · true) = true := by decide +kernel

theorem witness_ScalarFloatComparesComplete : ([.fcmpEq always_ .f32 1 2 3, .fcmpLt always_ .f64 1 2 3, .fcmpLe always_ .f64 0 2 3,
    .fcmpUn always_ .dflt 1 2 3, .fcvt always_ .s32 1 2 .f64 0, .fcvt always_ .f32 1 2 .f64 5, .fclass always_ .f32 1 2] :
    List Instr).all ((small 0).issues · true) = true := by decide +kernel

/-- Registers for the transfers: w1 a target, w2 a table index, w3 a table in memory; LOOP with a counter of 0, 1 and 2. -/
theorem witness_TransfersComplete :
    (let s := small_with 0 [(1, 0x100000040), (2, 3), (3, 0x100001000), (4, 1), (5, 2)]
     ([.br always_ (.off16 0xFFFF), .call always_ 30 (.off32 1), .jmp always_ 0 1, .ret always_ 1, .brx always_ 3 2 4,
       .loop always_ 4 1, .loop always_ 5 1, .loop always_ 6 1] : List Instr).all (fun i => s.issues i (State.wholeAlone always_ s)) &&
      (s.reg 1).toNat % 4 == 0 && decide ((s.reg 2).toNat < (4 : BitVec 16).toNat) && s.reg 4 == 1 && s.reg 6 != 1 && s.reg 5 != 1 &&
      passes (s.coreLoad (s.reg 3 + 8 * s.reg 2) 8) (fun x => x.1.toNat % 4 == 0)) = true := by decide +kernel

/-- Core 1 follows core 0, which has completed a transfer. -/
def small_follower : State :=
  { small 0 with
    cur := 1
    cores := [(0, { status := .running, region := 1, pc := 0x100000080, widthM1 := 1, done := true }),
              (1, { status := .running, region := 1, pc := 0x100000000, widthM1 := 1, pos := 1, leader := 0 })] }

theorem witness_FollowersFollowTheLeader :
    ([.br always_ (.off16 4), .call always_ 1 (.off16 4), .jmp always_ 1 2, .ret always_ 2, .brx always_ 1 2 0, .loop always_ 1 4] :
      List Instr).all (fun i => small_follower.clear i && (small_follower.acquireTokens i).core.follower &&
        ((small_follower.acquireTokens i).coreAt (small_follower.acquireTokens i).leaderIdx).done) = true ∧
    small_follower.core.follower = true ∧ (small_follower.coreAt small_follower.leaderIdx).done = true ∧
    (small_follower.guardLane always_ 0 || small_follower.decider.guardLane always_ 0) = true := by decide +kernel

/-- REP with a body of one ADD, NOP, and HINT of 8. -/
theorem witness_RepetitionAndHintsComplete :
    (let s := { small 0 with mem := Mem.store (small 0).mem 0x100008 8 (0x0000000008102000 : Word) }
     s.issues (.rep 1 0 0 0) (State.alone s) && s.issues (.nop always_) true && s.issues (.hint always_ 1) true &&
      s.issues .unchain true && s.on &&
      (match scanBody 1 (s.core.pc + 8) none s with | .ok _ => true | .error _ => false)) = true := by decide +kernel

theorem witness_VectorArithmeticCompletes : ([.vadd always_ .f16 1 2 3, .vsub always_ .bf16 1 2 3, .vmul always_ .f32 31 30 29,
    .vmin always_ .dflt 1 2 3, .vmax always_ .f32 1 2 3, .vneg always_ .f32 1 2, .vabs always_ .f32 1 2, .vfma always_ .f32 1 2 3 4,
    .vfms always_ .f32 1 2 3 4, .vfnma always_ .f16 1 2 3 4, .vfnms always_ .f32 1 2 3 4] : List Instr).all
      ((small 0).issues · true) = true := by decide +kernel

theorem witness_VectorRecurrencesComplete : ([.vdiv always_ .f32 1 2 3, .vrcp always_ .f16 1 2, .vsqrt always_ .f32 1 2,
    .vrsqrt always_ .f32 1 2, .vexp always_ .f32 1 2, .vlog always_ .bf16 1 2, .vsincos always_ .f32 2 4, .vtanh always_ .f32 1 2,
    .vsigm always_ .f32 1 2] : List Instr).all ((small 0).issues · true) = true := by decide +kernel

theorem witness_VectorComparesAndReductionsComplete : ([.vcmpEq always_ .f32 1 2 3, .vcmpNe always_ .f16 0 2 3,
    .vcmpLt always_ .bf16 7 2 3, .vcmpLe always_ .f32 1 2 3, .vsel always_ 1 2 3 4 0, .vcvt always_ .f16 1 2 .f32 1 0,
    .vcvt always_ .s8 1 2 .f32 3 5, .vqmx always_ 1 4 2 5, .vdqmx always_ 4 1 2 0, .vredAdd always_ .f32 1 2, .vredMin always_ .s8 1 2,
    .vredMax always_ .z32 1 2] : List Instr).all ((small 0).issues · true) = true := by decide +kernel

theorem witness_PackedIntegersComplete : ([.vaddInt always_ .s8 1 2 (.reg 3), .vsubInt always_ .z16 1 2 (.imm16 1),
    .vand always_ .s32 1 2 (.reg 3), .vor always_ .dflt 1 2 (.reg 3), .vxor always_ .s32 1 2 (.reg 3), .vshl always_ .s32 1 2 (.reg 3),
    .vshr always_ .s32 1 2 (.imm16 32), .vsar always_ .s32 1 2 (.reg 3), .vminInt always_ .z8 1 2 (.reg 3),
    .vmaxInt always_ .s8 1 2 (.reg 3), .vadds always_ .s8 1 2 (.reg 3), .vsubs always_ .z8 1 2 (.reg 3),
    .vcmpEqInt always_ .s32 1 2 (.reg 3), .vcmpNeInt always_ .s8 0 2 (.reg 3), .vcmpLtInt always_ .z16 1 2 (.imm16 0x8000),
    .vcmpLeInt always_ .s32 7 2 (.reg 3)] : List Instr).all ((small 0).issues · true) = true := by decide +kernel

theorem witness_PackedProductsComplete : ([.vmulInt always_ .s8 1 2 3, .vmulh always_ .z32 1 2 3, .vmac always_ .s16 1 2 3,
    .vsat always_ .s16 1 2 16, .vdot4 always_ .s8 1 2 3, .vdot2 always_ .s16 1 2 3, .vcmul always_ .ci16 1 2 3 15,
    .vcmac always_ .dflt 1 2 3 0, .vconj always_ .ci16 1 2, .vbfly always_ .ci16 2 4 5 6, .vbflys always_ .ci16 2 4 5 6] :
    List Instr).all ((small 0).issues · true) = true := by decide +kernel

theorem witness_PermutesAndJetsComplete : ([.vperm always_ .f32 1 2 3, .vshuf always_ .s8 1 2 3 4, .vrot always_ .s32 1 2 (.imm16 9),
    .vbcast always_ .s8 1 2 31, .vmov always_ 1 2 0, .vins always_ .bf16 1 2 15, .vext always_ .s8 1 2 31, .vsplat always_ .f32 1 2,
    .jseed always_ .f32 1 (.s 2), .jseed always_ .s16 1 (.v 2), .jext always_ .f32 1 2 0, .jplane always_ .f32 1 2 0 0,
    .jclr always_ 0xFF] : List Instr).all ((small 0).issues · true) = true ∧
    (small 0).guardLane always_ 31 = true := by decide +kernel

/-! ### Memory -/

/-- w2: a word of dome memory; w3: a page of global memory; w4: a remote window; w5: a handle. -/
def small_mem (priv : BitVec 2) : State :=
  small_with priv [(2, 0x1800000), (3, 0x100001000), (4, 0x10000000), (6, 0x1800040), (7, 64)]

/-- Loads from dome memory, global memory and the workspace window; LDB at the last word of a bank, and a vector load under
a guard that is off in every lane. -/
theorem witness_LoadsComplete :
    (let s := small_mem 0
     let one (va : Word) (n : Nat) : Bool := passes (s.loadElems [{ va := va, n := n }]) (fun r => r.1.length == 1)
     s.issues (.ld always_ .z64 1 2 (.imm16 0)) true && s.issues (.vld always_ 1 3 (.imm16 32)) true &&
      s.issues (.vgather always_ .s32 1 2 3 0) true && s.issues (.ldb always_ 2 2 7) true &&
      s.issues (.vld ⟨3, false⟩ 1 3 (.reg 0)) true && (jetWords s ⟨3, false⟩).isEmpty &&
      one (s.reg 2) 8 && one (s.reg 3) 1 && one 0x3FF8 8 && !(jetWords s always_).isEmpty &&
      (s.reg 3 + 32).toNat % 32 == 0 &&
      passes (s.loadElems ((jetWords s always_).map fun x => jetElem (s.reg 3 + 32) x 0)) (fun r => r.1.length == 4) &&
      (gatherElems s always_ 32 2 3 0).all (fun e => e.2.2.toNat % 4 == 0) &&
      passes (s.loadElems ((gatherElems s always_ 32 2 3 0).map fun e => { va := e.2.2, n := 4 })) (fun r => r.1.length == 8) &&
      (0x18007C0 : Word).toNat % 2048 + 8 * 8 == 2048 &&
      passes (s.loadElems ((List.range 8).map fun j => { va := 0x18007C0 + BitVec.ofNat 64 (8 * j), n := 8 })) (fun r => r.1.length == 8)) =
      true := by decide +kernel

/-- The elements of a store can be made. -/
def can_store (s : State) (es : List Elem) : Bool := passes (s.toStore es) fun x => x.1.length == es.length

/-- Stores to dome memory, to global memory and, posted, through a remote window. -/
theorem witness_StoresComplete :
    (let s := small_mem 0
     s.issues (.st always_ .z64 2 (.imm16 0) 1) true && s.issues (.vst always_ 3 (.imm16 32) 1) true &&
      s.issues (.vscatter always_ .s16 2 3 4 0) true && s.issues (.vst ⟨3, false⟩ 3 (.reg 0) 1) true &&
      can_store s [{ va := s.reg 2, n := 8 }] && can_store s [{ va := s.reg 3, n := 1 }] &&
      State.isRemote (s.reg 4) && s.freeEntries != 0 && !State.isRemote (s.reg 2) &&
      can_store s [{ va := s.reg 4, n := 8 }, { va := s.reg 4 + 8, n := 8 }] &&
      can_store s ((jetWords s always_).map fun x => jetElem (s.reg 3 + 32) x 0) &&
      can_store s ((gatherElems s always_ 16 2 3 0).map fun e => { va := e.2.2, n := 2 })) = true := by decide +kernel

theorem witness_AtomicsComplete :
    (let s := small_mem 0
     let place (ord : Bool) (va : Word) : Bool := passes (s.atomPlace va 8 ord) fun r =>
      (r.2.handleEntryAt r.1.loc).isNone && !(r.2.stampAmo r.1).isPoisoned r.1.loc && !r.1.outside &&
        ((r.2.stampAmo r.1).handleEntryAt r.1.loc).isNone && !r.2.isPoisoned r.1.loc && (r.2.holdsOf r.1.loc).isEmpty &&
        (r.2.streamsOf r.1.loc).isEmpty
     ([.amoAdd always_ .s64 1 2 3, .amoAnd always_ .s64 1 2 3, .amoOr always_ .s64 1 2 3, .amoXor always_ .s64 1 2 3,
       .amoMin always_ .s64 1 2 3, .amoMax always_ .z64 1 2 3, .amoSwap always_ .dflt 1 2 3, .amoCas always_ .s64 1 2 3 4,
       .amoFadd always_ .f64 1 2 3, .amoFaddOrd always_ .f64 1 2 3 0 1] : List Instr).all (s.issues · true) &&
      place false (s.reg 2) && place false (s.reg 3) && place true (s.reg 2) && s.core.amo.isNone && (s.reg 0).setWidth 32 == (0 : BitVec 32) &&
      (s.onCore fun k => { k with amo := some 0 }).issues (.amoFaddOrd always_ .f64 1 2 3 0 1) true) = true := by decide +kernel

theorem witness_ReducePacketsAndHintsComplete :
    (let s := small_mem 0
     ([.redAdd always_ .s64 2 1, .redMin always_ .f64 2 1, .redMax always_ .z64 2 1, .redAddOrd always_ .s64 2 1 0 1,
       .redMinOrd always_ .s64 2 1 0 0, .redMaxOrd always_ .s64 4 1 0 0, .pref always_ 3 0, .chint always_ 3 1] : List Instr).all
        (s.issues · true) &&
      passes (redCheck s (s.reg 2) 8) (fun _ => true) && passes (redCheck s (s.reg 4) 8) (fun _ => true) &&
      decide (2 ≤ s.freeEntries)) = true := by decide +kernel

/-- A handle of 1 MiB at physical address 0x200000 that may be read and written, in entry 0 of the table of tenant 0. -/
def small_handle (priv : BitVec 2) : State :=
  { small_mem priv with
    mem := Mem.store (Mem.store (small_mem priv).mem 0 8 (BitVec.ofNat 64 (2 ^ 63 + 2 ^ 62 + 2 ^ 61 + 0x200000) : Word)) 8 8
      (0x100000 : Word) }

/-- COPY with a token and without; COPYH of a live handle, and at KEEP level of one that is not. -/
theorem witness_CopiesComplete :
    (let s := small_handle 0
     let k := small_handle 1
     let op := s.newCopy (s.reg 3) (s.reg 2) (s.reg 7).toNat
     s.issues (.copy always_ 1 2 3 7 0 0 0 0) true && s.issues (.copyh always_ 1 2 0 7 0 0 0 0 1) true &&
      k.issues (.copyh always_ 1 2 7 7 0 0 0 0 0) true &&
      passes (State.copyRanges op (s.reg 7)) (fun _ => true) && passes (s.copyTimeline 0 0) (fun x => x.isNone) &&
      passes (s.copyBarrier 0 0) (fun x => x.isNone) && passes (s.copyBarrier 1 5) (fun x => x == some (0, 5)) && s.core.tokens.contains none &&
      (s.reg 0 == 0) && passes (State.copyRanges (s.newCopy (s.reg 3) (s.reg 2) 0) (s.reg 0)) (fun _ => true) &&
      s.issues (.copy always_ 1 2 3 0 0 0 0 0) true &&
      passes (s.copyHandle (s.reg 0) (s.reg 7) true) (fun x => match x.1 with
        | .ok e => e == 0 && passes (x.2.copyTimeline 0 0) (fun t => t.isNone) && passes (x.2.copyBarrier 0 0) (fun t => t.isNone) &&
            (x.2.pin e).core.tokens.contains none &&
            passes (State.copyRanges { x.2.newCopy (s.reg 2) (s.reg 2) 64 with srcObj := some (x.2.handleBase e), pin := some e } (s.reg 7)) (fun _ => true)
        | .error _ => false) &&
      passes (k.copyHandle 0x7000 (k.reg 7) false) (fun x => match x.1 with
        | .ok _ => false
        | .error c => c == 1 && passes (x.2.copyTimeline 0 0) (fun t => t.isNone) && passes (x.2.copyBarrier 0 0) (fun t => t.isNone))) = true := by decide +kernel

/-! ### Synchronisation -/

/-- Barrier object 5 of dome 0, with one arrival expected. -/
def small_barrier : State := (small_mem 0).setBarrier 0 5 { expect := 1 }

theorem witness_BarriersComplete :
    (let s := small_barrier
     let w := s.onCore fun k => { k with bsync := [{ wp := k.wp, pc := k.pc, phase := true }] }
     let v := s.onCore fun k => { k with bsync := [{ wp := k.wp, pc := k.pc, phase := false, ended := true }] }
     ([.binit always_ 1 5, .barrive always_ 1 5, .bwait always_ 1 5, .bsync always_ 5, .bstat always_ 1 5, .rechain 5] : List Instr).all
        (fun i => s.issues i true && w.issues i true) &&
      passes (s.barrierSlot 5) (fun x => x == (0, 5)) && passes (s.barrierSlot 255) (fun x => x == (0, 255)) && s.storesSettled &&
      s.counted.isNone && w.counted.any (fun a => (s.barrierAt 0 5).phase != a.phase) && v.counted.any (·.ended) &&
      !s.core.released && (s.onCore fun k => { k with released := true }).core.released &&
      -- the arrival of the last of the phase, which its core cycle ends
      ((s.arrive 0 5).evals == [(0, 5)])) = true := by decide +kernel

/-- TL0 names timeline 3 of the Graver, TL1 copy context 15; a wake is pending. -/
def small_timelines : State :=
  (((small_mem 0).setWord (Ws.tl 0) 0x43).setWord (Ws.tl 1) 0x8F).setWord Ws.wake 0x10

theorem witness_TimelinesAndWakesComplete :
    (let s := small_timelines
     ([.tlwait always_ 0 (.imm16 0), .tlread always_ 1 1 false 3, .fence always_ 0 0x1F, .wake always_ 0 (.imm16 1),
       .wait always_ 1 (.imm16 0x10), .wait always_ 1 (.imm16 0)] : List Instr).all (s.issues · true) &&
      s.binding 0 == some (true, 3) && s.binding 1 == some (false, 15) && decide (0 ≤ (s.timeline true s.mySpire 3).comp) &&
      s.fenced 0x1F && decide ((s.reg 0).toNat % 2 ^ 32 < s.coreCount) && decide (0 < s.freeEntries) &&
      s.word Ws.wake &&& s.opB64 (.imm16 0x10) != 0 && s.opB64 (.imm16 0) == 0) = true := by decide +kernel

/-- A channel of 64 bytes at 0x1800100 with a message of one word in it, and one at 0x1800200 without. -/
def small_channels : State :=
  let s := small_with 0 [(2, 0x1800100), (3, 0x1800200), (4, 0x1800400), (5, 8), (6, 64)]
  let m : Mem := ([(0x100, 64), (0x200, 64), (0x100 + Chan.tail.toNat, 16), (0x140, 0x8000000000000008)] : List (Nat × Nat)).foldl
    (fun m x => Mem.store m (Config.domeBase + x.1) 8 (BitVec.ofNat 64 x.2 : Word)) s.mem
  { s with mem := m }

/-- What `State.sendFinds` and `State.sendReserves` ask of a state, as a test; `full` when there is no space instead. -/
def can_send (s : State) (a b c : SReg) (full : Bool) : Bool :=
  let len := s.reg c
  (s.reg b).toNat % 8 == 0 && len.toNat % 8 == 0 && s.core.resv.isNone && passes (s.openChannel (s.reg a) .store true) fun o =>
    decide (8 + len.toNat ≤ o.1.toNat) && passes (o.2.2.mayLoad (Chan.range (s.reg b) len.toNat)) fun v =>
      let x := v.glance (s.reg a + Chan.head)
      let y := v.glance (s.reg a + Chan.tail)
      !v.notifyWaits (s.reg a) && !x.2 && !y.2 &&
        (if full then decide (o.1.toNat < (y.1 - x.1).toNat + 8 + len.toNat)
         else decide ((y.1 - x.1).toNat + 8 + len.toNat ≤ o.1.toNat) && (Chan.byte (s.reg a) o.1 y.1).toNat % 8 == 0 &&
          passes (v.mayStore (Chan.words (s.reg a) o.1 y.1 (8 + len.toNat))) fun _ => true)

/-- What `State.recvMeets` asks of a state, as a test, with a header word whose READY is `ready`, and that the message can be read. -/
def can_recv (s : State) (a b : SReg) (ready : Bool) : Bool :=
  (s.reg b).toNat % 8 == 0 && passes (s.openChannel (s.reg a) .load false) fun o =>
    let v := o.2.2
    let hd := (v.glance (s.reg a + Chan.head)).1
    let p := Chan.byte (s.reg a) o.1 hd
    hd != (v.glance (s.reg a + Chan.tail)).1 && p.toNat % 8 == 0 && passes (v.mayLoad [{ va := p, n := 8 }]) fun w =>
      let m := (w.glance p).1
      m.getLsbD 63 == ready && passes (w.mayStore (State.recvPages (s.reg b) m)) fun x =>
        !ready || passes (x.mayLoad (Chan.words (s.reg a) o.1 (hd + 8) (m &&& 0xFFFFFFFF).toNat)) fun y =>
          let r := (y.headerLoads (s.reg a)).2.2.quietLoad p 8
          match r.2.2.take 1 (s.reg a) (s.reg b) o.1 hd m r.2.1 o.2.1 with
          | .done _ => true
          | _ => false

theorem witness_ChannelsComplete :
    (let s := small_channels
     let opened (h : SReg) (acc : Acc) : Bool := passes (s.openChannel (s.reg h) acc false) (fun x => x.1 == 64)
     ([.chinit always_ 4 6 0, .send always_ 1 3 4 5, .sendNb always_ 1 3 4 5, .recv always_ 1 2 4, .recvNb always_ 1 3 4] : List Instr).all
        (s.issues · true) &&
      Chan.capOk (s.reg 6) && State.isDomeWindow (s.reg 4) && decide ((s.reg 4).toNat + 64 + 64 ≤ (windowEnd (s.reg 4).toNat).getD 0) &&
      can_store s ((List.range 8).map fun k => { va := s.reg 4 + BitVec.ofNat 64 (8 * k), n := 8 }) &&
      opened 2 .load && can_send s 3 4 5 false && can_recv s 2 4 true && opened 3 .load &&
      (s.glance (s.reg 3 + Chan.head)).1 == (s.glance (s.reg 3 + Chan.tail)).1 &&
      passes (s.mayStore (State.recvPages (s.reg 4) 0)) (fun _ => true) && can_recv { s with mem := Mem.store s.mem (Config.domeBase + 0x140) 8 (8 : Word) } 2 4 false && (s.reg 4).toNat % 8 == 0 && (s.reg 5).toNat % 8 == 0 &&
      (let m := s.onCore fun k => { k with resv := some { head := Config.domeBase + 0x200, cap := 64, at_ := 0 } }
       m.issues (.send always_ 1 3 4 5) true && decide (0 < (m.reg 5).toNat / 8)) &&
      (let m := s.onCore fun k => { k with resv := some { head := Config.domeBase + 0x200, cap := 64, at_ := 0, sent := 1 } }
       let n : State := { m with mem := Mem.store m.mem (Config.domeBase + 0x200 + Chan.notify.toNat) 8 (0x8000000000000000 : Word) }
       let full := n.onCore fun k => { k with journal := List.replicate 16 { st := 1 } }
       m.issues (.sendNb always_ 1 3 4 5) true && decide ((m.reg 5).toNat / 8 ≤ 1) && !(m.glance (m.reg 3 + Chan.notify)).1.getLsbD 63 &&
        (n.glance (n.reg 3 + Chan.notify)).1.getLsbD 63 && n.freeEntries != 0 && full.issues (.send always_ 1 3 4 5) true &&
        full.freeEntries == 0 && (full.glance (full.reg 3 + Chan.notify)).1.getLsbD 63) &&
      -- a full channel: a message of one word does not fit beside 56 bytes
      can_send { s with mem := Mem.store s.mem (Config.domeBase + 0x200 + Chan.tail.toNat) 8 (56 : Word) } 3 4 5 true) = true := by
  decide +kernel

/-! ### Matrix -/

/-- A shape of one element in a format, at an address. -/
def small_shape (fmt base : Nat) : BitVec 512 :=
  [(0, base), (2, 1), (3, 1), (4, 1), (5, fmt), (7, 64), (8, 64), (9, 0x1800300)].foldl (fun x f => Shape.setField x f.1 f.2) 0

/-- Every slot claimed for FP32; shape registers 0 to 2 of queue 0 name elements of dome memory. -/
def small_matrix (fmt : Nat) : State :=
  let s := small_with 0 [(2, 0x1800000), (3, 2)]
  let s := s.setGraver { s.graver with slots := s.graver.slots.map fun _ => { claimed := true, fmt := BitVec.ofNat 4 fmt } }
  [(0, 0x1800000), (1, 0x1800100), (2, 0x1800200)].foldl (fun (s : State) x => s.setShape 0 x.1 (small_shape fmt x.2)) s

/-- The core has presented an instruction of queue `q` to the port since core cycle 0. -/
def small_queued (s : State) (q : Nat) : State :=
  { s.onCore fun k => { k with status := .waiting (.queue 0 q 0) } with cycle := 8 }

theorem witness_ShapesAndSlotsComplete :
    (let s := small_queued (small_matrix 11) 4
     let p := small_matrix 11
     let t := s.setGraver { s.graver with ctx := s.graver.ctx.modify 0 fun c => { c with tl := { c.tl with sub := 1 } } }
     let w := s.onCore fun k => { k with status := .waiting (.timeline true 0 0 0) }
     ([.mshl always_ 15 2 0, .mshf always_ 0 3 2 0, .mshs always_ 2 0 0, .mclaim always_ 1 0 0, .mrel always_ 3 0, .mqpri always_ 3 3,
       .mqsync always_ 1 0] : List Instr).all (fun i => s.issues i true && p.issues i true) &&
      s.portTurn s.mySpire 4 && p.core.status == .running && (s.reg 2).toNat % 64 == 0 &&
      passes (s.loadElems (shapeElems (s.reg 2) 0)) (fun _ => Shape.legal 0) && can_store s (shapeElems (s.reg 2) (s.shapeReg 0 0)) &&
      decide ((s.reg 3).toNat < 2 ^ (nth Shape.fields 2 (0, 0)).2) && Shape.fieldAssigned 2 (s.reg 3).toNat && (s.slotAt 2).claimed &&
      (let t := s.timeline true s.mySpire 0
       decide (t.sub ≤ t.comp)) &&
      -- MQSYNC of a context with an operation to come, and the end of its wait
      t.issues (.mqsync always_ 1 0) true && t.portTurn t.mySpire 4 && (let x := t.timeline true t.mySpire 0; decide (x.comp < x.sub)) &&
      w.issues (.mqsync always_ 1 0) true && decide (0 ≤ (w.timeline true w.mySpire 0).comp)) = true := by decide +kernel

/-- The bytes can be reached. -/
def can_reach (s : State) (acc : Acc) (bs : List (Nat × Bool)) : Bool :=
  passes (State.reachAll acc none bs { st := s }).check fun _ => true

/-- The shape can be captured without a handle. -/
def can_capture (s : State) (x : BitVec 512) : Bool := passes (s.captureShape x) fun r => r == (0, none, s)

theorem witness_MatrixOperationsComplete_loads :
    (let s := small_queued (small_matrix 11) 0
     let x := s.shapeReg 0 0
     let m := small_queued (small_matrix 14) 0
     let y := m.shapeReg 0 0
     s.issues (.mld always_ 1 0 0 0 0) true && m.issues (.mldx always_ 1 0 0 1 0) true && s.portTurn s.mySpire 0 &&
      passes (s.checkSlots [0, 1]) (fun _ => true) && Shape.legal x && Shape.legal y && decide (Shape.layer x < Shape.depth x) &&
      Shape.alignedTo x (alignUnit 11) && Shape.alignedTo y (alignUnit 14) && Shape.fmt x == 11 && Shape.fmt y == 14 &&
      Shape.operand 11 && Shape.operand 14 && Shape.row0 y % 32 == 0 && can_capture s x && can_capture m y &&
      m.portTurn m.mySpire 0 && can_reach s .load (loadBytes x 0 false false 0 0 0) && can_reach m .load (loadBytes y 0 false true 0 0 0)) = true := by decide +kernel

theorem witness_MatrixOperationsComplete_stores :
    (let s := small_queued (small_matrix 11) 0
     let x := s.shapeReg 0 0
     s.portTurn s.mySpire 0 && s.issues (.mst always_ 1 0 7 3 0 0 0) true && Shape.legal x && decide (Shape.layer x < Shape.depth x) && can_capture s x &&
      [9, 10, 11, 13, 15].contains (Shape.fmt x) && s.reg 3 >>> 32 == 0 && passes (s.checkPoison [7]) (fun _ => true) &&
      can_reach s .store ((storeList x 0 64 ((s.reg 3).setWidth 32) 0 0 0).flatMap fun e => e.2.2.all)) = true := by decide +kernel

theorem witness_MatrixOperationsComplete_tiles :
    (let s := small_queued (small_matrix 11) 0
     let p := small_matrix 11
     let o := s.setQctx 0 { s.qctx 0 with isOpen := true, sel := 0x80 }
     let done (r : GResult) : State := s.onCore fun k => { k with gop := some 1, gres := some r }
     ([.mma always_ 7 0 0 2 0, .mmaS always_ 7 0 0 2 0, .mzero always_ 7 0, .mmovr always_ 7 4 15 0, .mspec always_ 0x80 0,
       .mresolve always_ 1 0, .mcommit always_ 0, .mdiscard always_ 0, .tsolve always_ 0 2 3 0] : List Instr).all
        (fun i => s.issues i true && o.issues i true && p.issues i true) && p.pivotHere.isNone && p.core.gop.isNone &&
      p.core.status == .running && (done (.row 0)).issues (.mmov always_ 4 7 15 1 1 0) true && (done (.fact 0)).issues (.tfact always_ 1 6 0 1 0) true && (done (.fact 0)).pivotHere.isNone &&
      s.portTurn s.mySpire 0 && o.portTurn o.mySpire 0 && (s.slotAt 0).fmt == (s.slotAt 2).fmt && (s.slotAt 0).fmt != 0 &&
      passes (s.checkSlots (slotKeys 11 0 ++ slotKeys 11 2)) (fun _ => true) && s.reg 0 >>> 48 == 0 &&
      passes (s.checkSoft (slotKeys 11 0 ++ slotKeys 11 2)) (fun _ => true) && passes (s.checkProtected [7]) (fun _ => true) &&
      passes (s.checkProtected [0, 1]) (fun _ => true) && (o.qctx 0).isOpen && (o.qctx 0).sel.getLsbD 7 && !(s.qctx 0).isOpen &&
      (s.graver.ctx.all fun c => !c.isOpen) && decide ((s.reg 3).toNat < 2 ^ 16)) = true := by decide +kernel

theorem witness_MatrixOperationsComplete_whole :
    (let s := small_queued (small_matrix 11) 0
     let a := s.shapeReg 0 0
     let b := s.shapeReg 0 1
     let c := s.shapeReg 0 2
     s.portTurn s.mySpire 0 && s.issues (.tgemm always_ 1 0 1 2 7 1 0 0) true && passes (s.checkSlots ((List.range 8).map (0 + ·))) (fun _ => true) &&
      ([a, b, c].all fun x => Shape.legal x && Shape.depth x != 0 && Shape.alignedTo x (alignUnit (Shape.fmt x)) && can_capture s x) &&
      Shape.operand (Shape.fmt a) && Shape.fmt b == Shape.fmt a && [9, 10, 11, 15].contains (Shape.fmt c) &&
      passes (s.checkProtected [7]) (fun _ => true) && Shape.rows a == Shape.rows c && Shape.rows b == Shape.cols a &&
      Shape.cols b == Shape.cols c && Shape.depth a == Shape.depth c && Shape.depth b == Shape.depth c &&
      !shareByte s (wholeList c 0 64) (wholeList a 0 64 ++ wholeList b 0 64) && passes (pinsFit s [none, none, none]) (fun _ => true) &&
      can_reach s .load ((wholeList a 0 64 ++ wholeList b 0 64 ++ wholeList c 0 64).flatMap MElem.all) &&
      can_reach s .store ((wholeList c 0 64).flatMap MElem.all)) = true := by
  decide +kernel

/-! ### System -/

/-- w1: an RCB in global memory; a wake is pending. -/
def small_system (priv : BitVec 2) : State := (small_with priv [(1, 0x100001000), (2, 0x1800000), (3, 8)]).setWord Ws.wake 1

theorem witness_LaunchingAndLeavingComplete :
    (let s := small_system 0
     let r := small_region
     s.issues (.launch 1 1 5 1) (State.alone s) && s.issues .exit true && s.issues (.yield 1) true && (small_system 2).issues .halt true &&
      !s.core.follower && s.inCall.isNone && (s.reg 1).toNat % 256 == 0 && s.fenced 0x1F && s.drained && s.lowestRefused.isNone &&
      (let es : List Elem := (List.range 32).map fun k => { va := s.reg 1 + BitVec.ofNat 64 (8 * k), n := 8 }
       passes (s.places .load (es.map (·.va))) fun x => x.2.fenced 0x1F &&
        passes ((x.2.acquire (x.2.fenceTs 0x1F)).loadElems es) fun y => y.1.length == 32) &&
      s.myRegion == some r && !s.core.yielded && s.core.yieldAt.isNone && !Rcb.preempt r.rcb && s.word Ws.wake != 0 &&
      (s.onCore fun k => { k with yielded := true }).issues (.yield 1) true &&
      (let t : State := { s.onCore (fun k => { k with yieldAt := some 0 }) with cycle := 2 ^ 20 }
       t.issues (.yield 1) true && decide (64000 ≤ t.time) && (t.armedAt r).isNone)) = true := by decide +kernel

/-- Keep 1, whose gate 0 leads to 0x1_0000_0040 at level KEEP with the workspace at 0x3100 and the handler's at 0x3800; KRES
names a frame area at 0x3000. -/
def small_gate : State :=
  let s := small_mem 0
  let e : BitVec 512 := BitVec.ofNat 512 (2 ^ 63 + (0x100000080 + 0x3800 * 2 ^ 48) * 2 ^ 64)
  let words : List Word := [0x8000000100000040, 0x0000000100003100, 0x0000000000000001, 0x3800000100000080]
  { s.onCore (fun k => { k with gatetab := 0x200000, kres := 0x31003000 }) with
    keepTable := some 0x300000
    mem := Mem.store (words.zipIdx.foldl (fun m x => Mem.store m (0x200000 + 8 * x.2) 8 x.1) s.mem) 0x300040 64 e }

/-- The same inside a call. -/
def small_called : State := small_gate.onCore fun k => { k with priv := 1, gdepth := 1 }

theorem witness_GatesAndTrapsComplete : small_gate.issues (.gcall 0) (State.alone small_gate) = true ∧
    small_gate.core.follower = false ∧ small_gate.gateCheck 0 = none ∧ small_called.issues (.gret 0 0) (State.alone small_called) = true ∧
    small_called.core.follower = false ∧ small_called.core.gdepth ≠ 0 ∧ small_called.inKeepHandler = false ∧
    small_gate.issues (.trap 0xFFFF) true = true ∧ (small 2).issues .eret true = true :=
  ⟨by decide +kernel, by decide +kernel, by decide +kernel, by decide +kernel, by decide +kernel, by decide +kernel, by decide +kernel,
    by decide +kernel, by decide +kernel⟩

theorem witness_SystemRegistersComplete :
    (let s := small_system 2
     ([.sysr always_ 1 0, .sysr always_ 1 1, .sysr always_ 1 2, .sysr always_ 1 3, .sysr always_ 1 4, .sysr always_ 1 5, .sysw always_ 1 0,
       .jrnl always_ 1 3 0 1, .jrnl always_ 1 3 1 0, .jrnl always_ 1 3 2 0, .msave always_ 4 2] : List Instr).all (s.issues · true) &&
      decide ((s.reg 3).toNat < 16) && (s.reg 2).toNat % 256 == 0 && s.graverIdle s.mySpire) = true := by decide +kernel

/-- MSAVE to the linear view of dome memory: each of its words has a place there. -/
theorem witness_SystemRegistersComplete_msave :
    ∃ v, (small_system 2).stores ((small_system 2).msaveElems ((small_system 2).reg 2)) v := by
  have key : (((small_system 2).msaveElems ((small_system 2).reg 2)).all fun e => !State.isRemote e.va && decide (0x1800000 ≤ e.va.toNat) &&
      decide (e.va.toNat < 0x2000000) && !isWs (Config.domeBase + (small_system 2).myDome * 2 ^ 23 + (e.va.toNat - 0x1800000)) &&
      !isHbm (Config.domeBase + (small_system 2).myDome * 2 ^ 23 + (e.va.toNat - 0x1800000)) &&
      ((small_system 2).bankTenant (small_system 2).myDome
        (locBank (Config.domeBase + (small_system 2).myDome * 2 ^ 23 + (e.va.toNat - 0x1800000))) == some (small_system 2).core.tenant)) = true := by
    decide +kernel
  refine State.stores_of (fun e => { loc := Config.domeBase + (small_system 2).myDome * 2 ^ 23 + (e.va.toNat - 0x1800000) })
    (fun e he => ?_) (fun e he => ?_)
  all_goals
    have h := List.all_eq_true.1 key e he
    simp only [Bool.and_eq_true, Bool.not_eq_true', decide_eq_true_eq, beq_iff_eq] at h
  · exact State.place_linear .store h.1.1.1.1.2 h.1.1.1.2 rfl h.2
  · generalize Config.domeBase + (small_system 2).myDome * 2 ^ 23 + (e.va.toNat - 0x1800000) = x at h ⊢
    exact ⟨State.noToken_dome h.1.1.2 _, State.portFree_own rfl (by decide +kernel), State.handleGuard_dome h.1.2 _ _⟩

/-- A staging descriptor of one fetch block for an owner: a core at TENANT level may publish for its tenant, and not for Keep 1. -/
def small_staging (owner : Word) : State :=
  let s := small_system 0
  let words : List Word := [32, 0, 0, owner]
  { s with mem := words.zipIdx.foldl (fun m x => Mem.store m (0x101000 + 8 * x.2) 8 x.1) s.mem }

/-- What PUBLISH finds in a staging buffer. -/
def staged (s : State) (p : State → Image → Bool) : Bool :=
  s.issues (.publish 4 1 0) true && (s.reg 1).toNat % 64 == 0 && s.fenced 0x1F &&
    passes ((s.acquire (s.fenceTs 0x1F)).loadElems (State.stagingElems (s.reg 1) 0 64)) fun x => sizesOk x.1 &&
      passes (x.2.loadElems (State.stagingElems (s.reg 1) 64 32)) fun y => p y.2 (Image.of x.1 (y.1.flatMap (toBytes 8)))

/-- The first published object always finds room (07_system_isa R208, R209), so an image that passes its checks is published. -/
theorem witness_published {s : State} {t : Nat} {im : Image} (h : s.objects = []) (hr : im.reserved = true) (hc : im.check = none) :
    ∃ x, s.publishImage t true im = .ok x := by
  simp [State.publishImage, hr, hc, State.objectRoom, h]

/-- An image that is rejected, and one that is published, with a measurement to store in dome memory. -/
theorem witness_SystemRegistersComplete_publish :
    staged (small_staging 1) (fun w im => match w.publishImage w.core.tenant (w.mayOwn im.owner) im with
      | .error _ => true
      | .ok _ => false) = true ∧
    staged (small_staging 0) (fun w im => w.mayOwn im.owner && im.reserved && im.check.isNone && w.objects.isEmpty && (w.reg 2).toNat % 8 == 0 &&
      can_store w ((List.range 4).map fun k => { va := w.reg 2 + BitVec.ofNat 64 (8 * k), n := 8 })) = true := by decide +kernel

theorem witness_MaintenanceCompletes :
    (let s := small_system 2
     let m := s.onCore fun k => { k with spare := some (0, some 0), status := .waiting (.translation 0 0 none none) }
     ([.tlbinv always_ 1 3 0 0, .tlbinv always_ 1 3 2 2, .lflush always_ 1 3 1 2, .l2cfg always_ 1 3 3 1, .mscrub always_ 1 0 3,
       .mspare always_ 1 0 3, .mrmapRead always_ 1 0 3 0, .mrmapWrite always_ 1 0 3 0, .mrmapInvalidate always_ 1 0 3 0,
       .mrmapSpareBitmap always_ 1 0 3 0, .mliveNotLive always_ 1 0 3, .mliveLive always_ 1 0 3] : List Instr).all
        (fun i => s.issues i true && m.issues i true) &&
      (let t := s.dropTlb (some ((s.reg 1).setWidth 16)) (some (s.reg 3).toNat) 0
       !t.usesTranslation 0 t.core.tenant (some ((s.reg 1).setWidth 16)) (some (s.reg 3).toNat) && s.core.status == .running) &&
      locatorPa (s.reg 0) == some 0 && (s.core.scrub.getD (0, 0, 0)).1 == (s.reg 0).toNat % 65536 &&
      (s.core.scrub.getD (0, 0, 0)).1 != (s.reg 3).toNat % 65536 && decide ((s.scrubRow 0).2.2.counterOf 0 < 8) && s.core.spare.isNone &&
      (match s.spareCheck 0 8 with | .ok e => e == 0 | .error _ => false) && !s.rowLive 0 && (s.reserved 0).isNone &&
      m.core.spare == some (0, some 0) && (s.reg 0).extractLsb' 54 9 == 0) = true := by decide +kernel

/-- The ends of MSCRUB at a due trap and at the threshold, and a row between; the refusal of MSPARE, and its start on a live row. -/
theorem witness_MaintenanceCompletes_ends :
    (let s := small_system 2
     let part := s.onCore fun k => { k with scrub := some (1, 0, 0), mcDue := [0] }
     let near : State := { s with hbm := { live := [(0, ())], errs := [(0, .correctable)], track := [(0, [(0, 0, 7)])] } }
     part.issues (.mscrub always_ 1 0 3) true && (part.core.scrub.getD (0, 0, 0)).1 != (part.reg 3).toNat % 65536 && part.trapDue &&
      near.issues (.mscrub always_ 1 0 3) true && near.issues (.mspare always_ 1 0 3) true && near.counterOf 0 == 7 &&
      decide (8 ≤ (near.scrubRow 0).2.2.counterOf 0) && decide ((s.scrubRow 0).2.2.counterOf 0 < 8) && near.rowLive 0 &&
      (match near.spareCheck 0 8 with | .ok e => e == 0 | .error _ => false) &&
      (let used : State := { near with hbm := { near.hbm with spareUse := [(0, 0x100)] } }
       used.issues (.mspare always_ 1 0 3) true && (match used.spareCheck 0 8 with | .ok _ => false | .error c => c == 1))) = true := by
  decide +kernel

theorem witness_BindingAndSwitchingComplete :
    (let s := small_system 2
     s.issues (.bind always_ 1 3 2) true && s.issues (.gswitchArm always_ 1 3 3) true && s.issues (.gswitchCancel always_ 1 3 3) true &&
      (s.reg 2).toNat % 8 == 0 &&
      passes (s.loadElems ((List.range 8).map fun k => { va := s.reg 2 + BitVec.ofNat 64 (8 * k), n := 8 })) (fun _ => true)) = true := by
  decide +kernel

/-! ### Events -/

/-- Core 0 with an instruction at its PC and a status. -/
def small_at (i : Instr) (st : Status) : State :=
  let s := small_channels.onCore fun k => { k with status := st }
  { s with mem := Mem.store s.mem 0x100000 16 (ofBytes 128 (encode i)) }

/-- The instruction at the PC is this one, it may issue, and what must hold of it there does. -/
def acts (s : State) (i : Instr) (p : State → Bool) : Bool :=
  s.on && s.mayIssue && !s.asyncNow && !s.killedNow &&
    (match s.fetchNext with
     | .instr pc j u => decide (j = i) && (u.setPc pc).issues i true && p ((u.setPc pc).acquireTokens i)
     | _ => false)

/-- A machine check is due, and the watchdog's forced trap, which a fatal cause does not make. -/
theorem witness_CoreEventsHappen_trap :
    ([(small 0).onCore fun k => { k with mcDue := [0] }, (small 0).onCore fun k => { k with wdDue := some 5 }] : List State).all
      (fun s => s.on && s.asyncNow && !s.killedNow && s.asyncDue.isSome) = true := by decide +kernel

theorem witness_CoreEventsHappen_wait :
    (let s := small_timelines.onCore fun k => { k with status := .waiting (.wake 0x10) }
     s.on && s.condHolds (.wake 0x10) && !State.keepsStatus (.wake 0x10)) = true := by decide +kernel

/-- A SEND that finds space and a RECV that finds a message. -/
theorem witness_CoreEventsHappen_channel :
    acts (small_at (.send ⟨0, false⟩ 1 3 4 5) (.waiting (.channel 0 0))) (.send ⟨0, false⟩ 1 3 4 5) (fun v => can_send v 3 4 5 false) = true ∧
    acts (small_at (.recv ⟨0, false⟩ 1 2 4) (.waiting (.channel 0 0))) (.recv ⟨0, false⟩ 1 2 4) (fun v => can_recv v 2 4 true) = true := by
  decide +kernel

/-- A YIELD answered by a switch, and one at 64,000 ticks. -/
theorem witness_CoreEventsHappen_yield :
    (let s := small_at (.yield 1) (.waiting .yield)
     let a : State := s.onCore fun k => { k with yielded := true }
     let b : State := { s.onCore fun k => { k with yieldAt := some 0 } with cycle := 2 ^ 20 }
     acts a (.yield 1) (fun v => v.inCall.isNone && v.myRegion == some small_region && v.core.yielded) &&
      acts b (.yield 1) (fun v => v.inCall.isNone && v.myRegion == some small_region && !v.core.yielded && v.core.yieldAt == some 0 &&
        decide (64000 ≤ v.time) && (v.armedAt small_region).isNone)) = true := by decide +kernel

theorem witness_CoreEventsHappen_port :
    (let s : State := { small_at (.mzero ⟨0, false⟩ 7 0) (.waiting (.queue 0 0 0)) with cycle := 8 }
     let t : State := { small_at (.mqpri ⟨0, false⟩ 3 3) (.waiting (.queue 0 4 0)) with cycle := 8 }
     s.portPick 0 == some 0 && t.portPick 0 == some 0 &&
      acts s (.mzero ⟨0, false⟩ 7 0) (fun v => v.portTurn v.mySpire 0 && passes (v.checkProtected [7]) (fun _ => true) &&
        gives (exec (.mzero ⟨0, false⟩ 7 0) v) fun _ => true) &&
      acts t (.mqpri ⟨0, false⟩ 3 3) (fun v => v.portTurn v.mySpire 4)) = true := by decide +kernel

/-- A packet of core 0 to dome memory. -/
def small_packet (k : PktKind) : State :=
  { small_mem 0 with packets := [{ src := 0, region := 1, lcore := 0, entry := 0, dest := 8, kind := k }] }

/-- A packet arrives at its bank and does not find it closed to it. -/
def arrives (k : PktKind) (p : Packet → State → Bool) : Bool :=
  match (small_packet k).takePacket 0 with
  | some (x, u) => p x u
  | none => false

/-- The ordered operation of a packet. -/
def small_ordered (q : BitVec 32) (p : Packet) : HeldOp :=
  { loc := Config.domeBase, q := q, last := false, port := 1057, pkt := some p, op := 0x10, ty := .s64, n := 8, data := 0 }

/-- A posted store, a reduce packet in arrival order, in turn, ahead of its turn and repeated, and a wake. -/
theorem witness_MeshEventsHappen_packets :
    (arrives (.store Config.domeBase 8 0 0) (fun p u => !u.bankRefuses p Config.domeBase) &&
      arrives (.store Config.domeBase 8 0 0) (fun p u => (u.setDomeAt 0 { u.domeAt 0 with contained := true }).bankRefuses p Config.domeBase) &&
      arrives (.red Config.domeBase 8 0 .s64 0 none) (fun _ _ => true) &&
      arrives (.red Config.domeBase 8 0x10 .s64 0 (some (0, false))) (fun p u => !u.bankRefuses p Config.domeBase &&
        (match u.orderedArrive (small_ordered 0 p) with | .applied _ _ => true | _ => false)) &&
      arrives (.red Config.domeBase 8 0x10 .s64 0 (some (1, false))) (fun p u => !u.bankRefuses p Config.domeBase &&
        (match u.orderedArrive (small_ordered 1 p) with
         | .held v => (match v.orderedArrive (small_ordered 1 p) with | .refused => true | _ => false)
         | _ => false)) &&
      arrives (.wake 0 1 0) (fun _ _ => true)) = true := by decide +kernel

/-- A request at a port, an acknowledgement, a refusal, a landing, a refused request, and a copy onto itself. -/
theorem witness_MeshEventsHappen_others :
    (let s : State := { small 0 with
      acks := [{ region := 1, lcore := 0, entry := 0, refused := false }, { region := 1, lcore := 0, entry := 15, refused := true }]
      landings := [{ region := 1, lcore := 0, addr := some 8, status := 0, tl := none, ts := 0 }] }
     let p : Packet := { src := 0, region := 1, lcore := 0, entry := 0, dest := 8, kind := .wake 0 1 0 }
     let q : State := ({ small 0 with slotTable := [(0, small_entry ||| BitVec.ofNat 512 (2 ^ (8 * 0x28)))] } : State)
     let q := q.setSpireAt 0 { q.spireAt 0 with port := [{ core := 0, flits := 2, pkt := p }] }
     let op : CopyOp := (small 0).newCopy 0x1800000 0x1800008 64
     s.on && (match s.acks[0]? with | some a => !a.refused | none => false) && (match s.acks[1]? with | some a => a.refused | none => false) &&
      s.landings[0]?.isSome && q.portWeight 0 0 == 1 &&
      State.cyclic (q.spireAt 0).visit (fun c => ((q.spireAt 0).port.any fun r => r.core == c) && decide (1 ≤ q.portWeight 0 c)) == some 0 &&
      op.len != 0 && op.moved == 0 && State.copyOverlaps op && op.bar.isNone &&
      (((small 0).setStreamer 0 { active := [op] }).streamerAt 0).active == [op]) = true := by decide +kernel

/-- A port without requests, one whose only core has no share, a copy with a code, and one whose bytes lie in one unit. -/
theorem witness_MeshEventsHappen_pieces :
    (let s := small 0
     let p : Packet := { src := 0, region := 1, lcore := 0, entry := 0, dest := 8, kind := .wake 0 1 0 }
     let q := s.setSpireAt 0 { s.spireAt 0 with port := [{ core := 0, flits := 2, pkt := p }] }
     let op := s.newCopy 0x1800000 0x1800100 8
     let z : State := { s with acting := some op.tenant }
     (s.spireAt 0).port.isEmpty && q.portWeight 0 0 == 0 &&
      (State.cyclic (q.spireAt 0).visit fun c => ((q.spireAt 0).port.any fun r => r.core == c) && decide (1 ≤ q.portWeight 0 c)).isNone &&
      State.cyclic (q.spireAt 0).visit0 (fun c => (q.spireAt 0).port.any fun r => r.core == c) == some 0 &&
      (q.spireAt 0).port.findIdx? (fun r => r.core == 0) == some 0 &&
      ((s.setStreamer 0 { active := [{ op with code := 2 }] }).streamerAt 0).active == [{ op with code := 2 }] &&
      op.moved == 0 && op.was.isEmpty && !State.copyOverlaps op && !z.foreignBank op op.dst op.dstObj 0 8 && !z.foreignBank op op.src op.srcObj 0 8 &&
      (match z.copyPlace op .load op.src op.srcObj 0, z.copyPlace op .store op.dst op.dstObj 0 with
       | some a, some b => !a.outside && !b.outside && decide (8 ≤ State.unitBytes a.loc - a.loc % State.unitBytes a.loc) &&
          decide (8 ≤ State.unitBytes b.loc - b.loc % State.unitBytes b.loc) && isDome b.loc && locDome b.loc == 0 &&
          !(z.engineRead op.region none a.home a.kind 256 a.loc 8).1.2
       | _, _ => false)) = true := by decide +kernel

theorem witness_MeshEventsHappen_retry :
    (let s := (small 0).setSpireAt 0 { (small 0).spireAt 0 with
      retries := [{ unit := 0, op := (small 0).newCopy 0x1800000 0x1800100 64, dueCycle := 0 }] }
     (s.spireAt 0).retries.findIdx? (fun r => decide (r.dueCycle ≤ s.cycle)) == some 0 && (s.spireAt 0).retries[0]?.isSome) = true := by
  decide +kernel

/-! #### The Graver, the banks, the walker and the memory -/

/-- An operation of context 0 of the Graver of Spire 0. -/
def small_op (e : GEntry) : State :=
  let s := small_mem 0
  s.setGraver { s.graver with ctx := s.graver.ctx.modify 0 fun c => { c with queue := [e] } }

/-- An MZERO accepted, started, and an MLD with a burst at bank 0. -/
theorem witness_MemoryEventsHappen_graver :
    (let z : GEntry := { num := 1, core := 0, op := .mzero 7 }
     let s := small_op z
     let t := small_op { z with started := true }
     let b : Burst := { bank := 0, word := Config.domeBase, beats := 8, items := 1, out := false }
     let u := small_op { z with op := .mld false false 0 0, started := true, bursts := [b] }
     s.on && !s.spireStopping 0 && (s.domeAt 0).stopAt.isNone && (s.graverAt 0).startAt != some (s.domeClock 0) &&
      (s.graverAt 0).choose 0 (s.gclock 0 (s.graverAt 0)) == some (0, z) &&
      ((nth (t.graverAt 0).ctx 0 {}).queue.find? GEntry.finished).isSome &&
      (match u.chooseGrant 0 0 with | some (.burst 0 0 _ x) => x == b | _ => false)) = true := by decide +kernel

/-- Released ordered operations of a core and of a packet at bank 0. -/
theorem witness_MemoryEventsHappen_held :
    (let p : Packet := { src := 0, region := 1, lcore := 0, entry := 0, dest := 8, kind := .wake 0 1 0 }
     let held (h : HeldOp) : Bool := match ((small_mem 0).setHolds Config.domeBase [h]).chooseGrant 0 0 with
      | some (.held x) => x == h
      | _ => false
     let bad : State := { small_mem 0 with poison := [(Config.domeBase, ())] }
     held { small_ordered 1 p with ready := true } && held { small_ordered 1 p with ready := true, pkt := none, port := 0 } &&
      !(small_mem 0).isPoisoned Config.domeBase && bad.isPoisoned Config.domeBase &&
      (match (bad.setHolds Config.domeBase [{ small_ordered 1 p with ready := true, pkt := none, port := 0 }]).chooseGrant 0 0 with
       | some (.held x) => x.pkt.isNone && x.loc == Config.domeBase
       | _ => false) &&
      -- a dome whose clock stands
      ((small 0).setDomeAt 7 { (small 0).domeAt 7 with stopAt := some 5 } |>.domeAt 7).stopAt.isSome) = true := by
  decide +kernel

/-- A page table that maps 0x1_0001_0000 for tenant 0 to physical address 0x200000, and nothing at 0x1_0002_0000. -/
def small_tables : State :=
  let words : List (Nat × Word) := [(0, 0x8000000000010000), (0x10000, 0x8000000000011000), (0x11020, 0x8000000000012000),
    (0x12000, 0x8000000000013000), (0x13008, 0xCC00000000200000)]
  { small 0 with mem := words.foldl (fun m x => Mem.store m x.1 8 x.2) [] }

theorem witness_MemoryEventsHappen_tables : (small_tables.tlbHit 0 0 0 0x100010000).isNone = true ∧
    (small_tables.walk 0 0 0x100010000).1 = some (0xCC00000000200000, 3) ∧ (small_tables.tlbHit 0 0 0 0x100020000).isNone = true ∧
    (small_tables.walk 0 0 0x100020000).1 = none := by decide +kernel

/-- A beat of a row that is not live, and of a live row without an error and with one of each kind. -/
theorem witness_MemoryEventsHappen_beats :
    (let live (errs : Tab BeatErr) : State := { small 0 with hbm := { live := [(0, ())], errs := errs } }
     let loc (s : State) : Nat := s.hbmLoc (32 % Config.hbmSize / 32 * 32)
     let kind (e : BeatErr) : Bool := Tab.find? (live [(1, e)]).hbm.errs (loc (live [(1, e)]) / 32) == some e
     (Tab.find? (small 0).hbm.live (loc (small 0) / 1024)).isNone && Tab.find? (live []).hbm.live (loc (live []) / 1024) == some () &&
      (Tab.find? (live []).hbm.errs (loc (live []) / 32)).isNone && kind .correctable && kind .uncorrectable && kind .stuck && kind .mark) =
      true := by decide +kernel

/-- No leak due, one due with a counter, and one with a counter held by a copy. -/
theorem witness_MemoryEventsHappen_leaks : (small 0).time / 16800000 ≤ (small 0).hbm.leaks ∧
    (let c : SpareCopy := { row := 7, spare := 0, entry := 0, endTick := 0, core := 8192 }
     let s : State := { small 0 with cycle := 100000000, hbm := { track := [(0, [(0, 5, 2), (1, 7, 3)])], copies := [(0, c)] } }
     decide (s.hbm.leaks < s.time / 16800000) && (s.reserved 0 == some c) && Tab.get s.hbm.track 0 [] == [(0, 5, 2), (1, 7, 3)]) = true := by
  decide +kernel

/-- A copy to a spare row whose core waits for it. -/
theorem witness_MemoryEventsHappen_spare :
    (let s := (small 0).setCoreAt 8192 { status := .running, priv := 2, spare := some (0, none) }
     let s : State := { s with hbm := { copies := [(0, { row := 0, spare := 3, entry := 1, endTick := 0, core := 8192 })] } }
     let a := State.spareLoc 0 3
     let v := (s.spareBeats 0).2.untrack 0
     let m : State := { v with
       mem := (List.range 8).foldl (fun m k => Mem.store m (a + 128 * k) 128 (v.hbmLine k)) v.mem
       hbm := { v.hbm with copies := Tab.del v.hbm.copies 0, errs := State.spareErrs v.hbm.errs a (s.spareBeats 0).1
                           live := Tab.put v.hbm.live (a / 1024) () } }
     (s.reserved 0).isSome &&
      (((m.setRemap 0 1 (State.remapWord 0 3)).countFor State.deviceTenant 46 1).coreAt 8192).spare == some (0, none)) = true := by
  decide +kernel

theorem witness_MemoryEventsHappen_strikes : isDome Config.domeBase = true ∧ isHbm 0 = true ∧ (16376 < 16384 ∧ 16376 % 8 = 0) ∧
    (127 < 128 ∧ 511 < 512) := by decide +kernel

/-! #### Scheduling -/

/-- Host launches: BAD, a full FIFO, and an accepted one. -/
theorem witness_SchedulingEventsHappen_launches :
    (let s := small 0
     let full : State := { s with fifos := [(State.fifoKey 0 11, List.replicate 64 { rcb := 0, ctx := 0 })] }
     s.on && s.pageLive false 0 && decide ((11 : Nat) ≤ 11) && (0x101 : Word) &&& 0xFF != 0 && (0x100 : Word) &&& 0xFF == 0 &&
      full.pageLive false 0 && decide (64 ≤ (full.fifoOf 0 11).length) && decide ((s.fifoOf 0 11).length < 64)) = true := by decide +kernel

/-- A queue without regions, and one whose only region is switched out and fits. -/
theorem witness_SchedulingEventsHappen_admission :
    (let free : State := { small 0 with slotTable := [], regions := [] }
     let r : Region := { small_region with rcb := BitVec.ofNat 2048 ((1 + 2 ^ 16 + 2 ^ 32 + 2 ^ 64) * 2 ^ 64), status := .switched, spires := [] }
     let one : State := { small 0 with slotTable := [], regions := [r] }
     let v (s : State) : State := (s.applyCommands.takeAll.refuseCodeless).countFor State.deviceTenant 93 1
     (State.admitRanked [] (v free).ranked none (v free)).1.isNone && (v one).ranked == [r] && (v one).budgetOk r.id (Rcb.need r.rcb) &&
      ((v one).fitting r ((v one).freeSpires [])).isSome) = true := by decide +kernel

/-- A blocked head: the only Spires a region could take are held. -/
theorem witness_SchedulingEventsHappen_head :
    (let r : Region := { small_region with id := 2, rcb := BitVec.ofNat 2048 ((8 + 32 * 2 ^ 16 + 2 ^ 32 + 256 * 2 ^ 64) * 2 ^ 64), status := .switched, spires := [] }
     let s : State := { small 0 with regions := [small_region, r] }
     let v : State := (s.applyCommands.takeAll.refuseCodeless).countFor State.deviceTenant 93 1
     (State.admitRanked [] v.ranked none v).1.isSome) = true := by decide +kernel

/-- Regions in the queue that have aged, at level 1 and above. -/
theorem witness_SchedulingEventsHappen_ageing :
    (let waits (l : Nat) : Region := { small_region with status := .waiting, level := l }
     let s (l : Nat) : State := { small 0 with cycle := 2 ^ 20, regions := [waits l] }
     ([1, 2] : List Nat).all fun l => (s l).region? 1 == some (waits l) && State.inQueue (waits l) &&
      decide ((waits l).waitFrom + 64000 ≤ (s l).time)) = true := by decide +kernel

/-- The start of a placed region, and the resumption of one switched out: partition 0 is Spire 0. -/
theorem witness_SchedulingEventsHappen_starts :
    (let r : Region := { small_region with status := .placed }
     let s : State := { small 0 with regions := [r] }
     let t : State := { s with
       slotTable := [(0, small_entry ||| BitVec.ofNat 512 (2 ^ 511))]
       saved := [{ part := 9, region := 1, tick := 0, spires := [{}] }] }
     s.boundSpires 0 false == some [0] && (s.placedRegion 0 [0]).isSome && t.boundSpires 0 true == some [0] &&
      t.partRegion 0 .placed == some r && (t.savedOf 1).isSome) = true := by decide +kernel

/-- A partition whose agreed time has come, its one core between two instructions. -/
theorem witness_SchedulingEventsHappen_switch :
    (let s : State := { small 0 with cycle := 2 ^ 10, armed := [(0, 5)] }
     s.partRegion 0 .running == some small_region && Tab.find? s.armed 0 == some 5 && decide (5 ≤ s.time) &&
      (small_region.spires.foldl (fun (u : State) sp => u.withdrawOps sp) s).switchReady small_region) = true := by decide +kernel

/-- A region whose core has exited: without a successor, and with one in reach of its tables; and one killed in the queue. -/
theorem witness_SchedulingEventsHappen_retirement :
    (let r : Region := { small_region with rcbAddr := 0x100010000 }
     let s : State := { small_tables with regions := [r], cores := [(0, { status := .exited, region := 1 })] }
     let t : State := { s with mem := Mem.store s.mem 0x200060 8 (0x100010100 : Word) }
     let q : Region := { r with status := .killed, begun := false, spires := [] }
     let u : State := { s with regions := [q] }
     let ready (s : State) : Bool := s.region? 1 == some r && s.allExited r && s.operationsOver r
     ready s && (match (s.releaseEngines r).successor r with | (0, none, _) => true | _ => false) &&
      ready t && (match (t.releaseEngines r).successor r with | (0, some _, _) => true | _ => false) &&
      u.region? 1 == some q && ((u.flushChain q.successorOf).readRcb q.tenant q.ctx q.rcbAddr).isSome) = true := by decide +kernel

/-- A region over its running time, over its k-steps, forced out too late, and at the end of a watchdog period. -/
theorem witness_SchedulingEventsHappen_budgets :
    (let long : Region := { small_region with rcb := small_region.rcb ||| BitVec.ofNat 2048 (2 ^ 2048 - 1), ksteps := 2 ^ 100, runTicks := 2 ^ 70 }
     let forced : Region := { small_region with wdForced := true, part := 3 }
     let s : State := { small 0 with cycle := 2 ^ 21 }
     let late : State := { s with armed := [(3, 0)], regions := [forced] }
     let watched : State := { s with tenants := [(0, BitVec.ofNat 2048 ((2 ^ 63 + 1) * 2 ^ (8 * 0x30)))] }
     ({ s with regions := [long] } : State).region? 1 == some long && s.overMaxrun long && State.overGsteps long &&
      late.region? 1 == some forced && late.switchLate forced &&
      watched.watchdogPeriod small_region == some 1000 && watched.periodOver small_region) = true := by decide +kernel

/-! #### The host -/

/-- Semaphore 63 free and held, and semaphore 0 held by port 1; registers of the tenant page; clocks that run and stand. -/
theorem witness_HostEventsHappen_ports :
    (let s : State := { small 0 with semaphores := [(0, Sem.taken 0 true), (62, Sem.taken 0 false)] }
     s.on && s.barOpen && !Sem.held (Tab.get s.semaphores 63 0) && Sem.held (Tab.get s.semaphores 0 0) &&
      Sem.owner (Tab.get s.semaphores 0 0) == true && Sem.owner (Tab.get s.semaphores 62 0) == false && s.holdsZero true &&
      (s.domeAt 7).stopAt.isNone && ((s.setDomeAt 7 { s.domeAt 7 with stopAt := some 5 }).domeAt 7).stopAt == some 5 &&
      !((0 : Word).getLsbD 63) && s.pageLive false 0 && s.boot == .up && s.hostWindow false 0 128 && !s.hostWindow true 0 128) = true := by
  decide +kernel

/-- Containers at 0x1_0001_0000: an image of sizes that the loader refuses, and one of a fetch block. -/
def small_container (codelen : Nat) (first : Word) : State :=
  let words : List (Nat × Word) := [(0, 0x31464854), (16, 64), (64, BitVec.ofNat 64 codelen), (128, first), (136, first), (144, first), (152, first)]
  { small_tables with mem := words.foldl (fun m x => Mem.store m (0x200000 + x.1) 8 x.2) small_tables.mem }

theorem witness_HostEventsHappen_loader :
    ((match (small_container 8 3).containerImage 0 0 0x100010000 with | some (ws, _) => !sizesOk ws | none => false) &&
      (match (small_container 32 7).containerImage 0 0 0x100010000 with
       | some (ws, bs) => sizesOk ws && (Image.of ws bs).reserved && (Image.of ws bs).owner == 0 && (Image.of ws bs).check.isSome
       | none => false)) = true := by decide +kernel

/-- An image of one fetch block whose entry is its first instruction. -/
theorem witness_HostEventsHappen_image :
    (match (small_container 32 0).containerImage 0 0 0x100010000 with
     | some (ws, bs) => sizesOk ws && (Image.of ws bs).reserved && (Image.of ws bs).owner == 0 && (Image.of ws bs).check.isNone &&
        (small_container 32 0).objects.isEmpty
     | none => false) = true := by decide +kernel
/-! ### Traps, registers, frames and the whole machine -/

/-- The handler's workspace is 0x600 and its level TENANT; in the second state it is live. -/
theorem witness_TrapEntry : (small 0).handler.2.1 ≠ (small 0).core.wp ∧
    (small 0).softEntry (small 0).handler.2.1 = false ∧ State.fixWp (small 0).handler.2.1 = (small 0).handler.2.1 ∧
    (small 0).fixPriv (small 0).handler.1 = (small 0).handler.1 ∧ Mem.wf (small 0).mem = true := by decide +kernel

theorem witness_FatalTrapKillsTheRegion :
    (let s := (small 0).onCore fun k => { k with wp := 0x600 }
     State.fixWp s.handler.2.1 == s.core.wp && s.region? s.core.region == some small_region && small_region.status != .killed &&
      small_region.status != .retired && Mem.wf s.mem) = true ∧
    (let s := (small 0).onCore fun k => { k with soft := [(1, 0x600)] }
     s.softEntry (State.fixWp s.handler.2.1) && s.region? s.core.region == some small_region) = true := by decide +kernel

theorem witness_TrapInstructionNamesTheNextAddress : (small 0).issues (.trap 0xFFFF) true = true ∧ (small 0).core.landed = [] ∧
    Mem.wf (small 0).mem = true := by decide +kernel

theorem witness_EretResumes :
    (let s := (((small 2).setWord 0x540 0x1000200).setWord 0x548 0x100000040)
     s.issues .eret true && !s.core.chained && s.core.landed.isEmpty && (s.word 0x540).extractLsb' 16 14 == 0x100 &&
      State.fixWp 0x100 == 0x100) = true ∧
    ((((small 2).setWord 0x540 0x1000000).word 0x540).extractLsb' 8 2 = 0 ∧ (small 2).fixPriv 0 = 0) ∧
    ((0x100000002 : Word).toNat % 4 ≠ 0) ∧ ((small 0).on = true ∧ (small 0).isBelfry = false ∧ (small 0).core.priv = 0) := by decide +kernel

/-- A counter of 0 and one that is not 0. -/
theorem witness_LoopCountsDown : (small 0).issues (.loop always_ 1 0) (State.wholeAlone always_ (small 0)) = true ∧
    (small 0).core.landed = [] ∧ Mem.wf (small 0).mem = true ∧ Rep.active ((small 0).word Ws.repState) = false ∧ (small 0).reg 1 = 0 ∧
    (small_with 0 [(1, 2)]).reg 1 - 1 ≠ 0 ∧
    (let s : State := { small 0 with mem := Mem.store (small 0).mem 0x100000 8 (0xFFFC000000000070 : Word) }
     passes (s.fetchBytes s.core.pc) fun x =>
       let w : BitVec 128 := ofBytes 128 (x.1.take 8)
       nth x.1 0 0 == 0x70 && x.1.length == 32 && w.extractLsb' 0 2 == 0 && w.extractLsb' 2 7 == 0x1C && w.extractLsb' 19 6 == 0) = true := by decide +kernel

/-- A misaligned jet group, and a privileged instruction at TENANT level, each under a guard that is off. -/
theorem witness_ChecksComeBeforeTheGuard :
    (((small 0).setWord Ws.jctl 1).preTrap (.vadd ⟨3, false⟩ .f32 1 2 4)).isSome = true ∧
    ((small 0).preTrap (.sysw ⟨3, false⟩ 1 0)).isSome = true ∧ (small 0).alone = true ∧ (small 0).on = true ∧
    (Instr.sysw ⟨3, false⟩ 1 0).isEvent = false := by decide +kernel

theorem witness_GuardedOffInstructionsOnlyRetire : (small 2).guardLane ⟨3, false⟩ 0 = false ∧
    ([.add ⟨3, false⟩ .s64 1 2 (.reg 3), .sext ⟨3, false⟩ .s8 1 2, .pand ⟨3, false⟩ 1 2 3, .movi ⟨3, false⟩ 1 (.imm16 1), .mts ⟨3, false⟩ 1 3,
      .mtsWp ⟨3, false⟩ 1, .pushm ⟨3, false⟩ (.scalar 1 2), .fma ⟨3, false⟩ .f32 1 2 3 4, .fcmpLt ⟨3, false⟩ .f32 1 2 3,
      .ld ⟨3, false⟩ .z64 1 2 (.reg 3), .st ⟨3, false⟩ .z64 1 (.reg 2) 3, .amoCas ⟨3, false⟩ .s64 1 2 3 4, .redAdd ⟨3, false⟩ .s64 1 2,
      .copy ⟨3, false⟩ 1 2 3 4 0 0 0 0, .bsync ⟨3, false⟩ 0, .fence ⟨3, false⟩ 0 1, .send ⟨3, false⟩ 1 2 3 4, .mld ⟨3, false⟩ 1 0 0 0 0,
      .mma ⟨3, false⟩ 0 1 0 2 0, .tfact ⟨3, false⟩ 1 0 0 0 0, .sysw ⟨3, false⟩ 1 0, .jrnl ⟨3, false⟩ 1 2 0 0,
      .bind ⟨3, false⟩ 1 2 3, .vins ⟨3, false⟩ .s8 1 2 31, .vext ⟨3, false⟩ .s8 1 2 31, .br ⟨3, false⟩ (.off16 16), .call ⟨3, false⟩ 1 (.off16 16),
      .brx ⟨3, false⟩ 1 2 3, .loop ⟨3, false⟩ 1 16] : List Instr).all (fun i => (small 2).clear i && (wholeGuard i).isSome) = true ∧
    (small 2).guardLane ⟨3, false⟩ 31 = false ∧ (small 2).decider.guardLane ⟨3, false⟩ 0 = false ∧ (small 2).core.follower = false := by
  decide +kernel

/-- A misaligned address, an aligned one in no window, a workspace address, and one of dome memory. -/
theorem witness_AccessChecksInOrder :
    (let s := small_with 0 [(2, 0x1800001), (3, 0x4000), (4, 0x10000000), (5, 0x1800000), (6, 0x18007E0), (7, 0x3000)]
     let full := s.onCore fun k => { k with journal := List.replicate 16 { st := 1 } }
     let vas := (jetWords s always_).map fun x => (jetElem (s.reg 3) x 0).va
     let gs := (gatherElems s always_ 32 3 0 0).map (·.2.2)
     let ms := (gatherElems s always_ 32 2 0 0).map (·.2.2)
     let lowest (acc : Acc) (vs : List Word) : Bool := match vs with
       | v :: _ => (s.place acc v).isNone && vs.all fun x => decide (v.toNat ≤ x.toNat)
       | [] => false
     s.issues (.st always_ .z64 4 (.reg 0) 1) true && full.issues (.st always_ .z64 4 (.reg 0) 1) true && State.isRemote (s.reg 4) &&
      s.freeEntries != 0 && full.freeEntries == 0 &&
      ([.amoAdd always_ .s64 1 2 3, .amoCas always_ .s64 1 3 2 4, .amoFadd always_ .f64 1 7 2, .amoFaddOrd always_ .f64 1 3 2 0 1] : List Instr).all
        (s.issues · true) && s.core.amo.isNone && !s.core.amoBad && (s.reg 7).toNat % 8 == 0 && decide ((s.reg 7).toNat < 0x4000) &&
      !State.isDomeWindow (s.reg 3) &&
      ([.vld always_ 1 3 (.reg 0), .vst always_ 3 (.reg 0) 1, .vld always_ 1 2 (.reg 0), .vgather always_ .s32 1 3 0 0, .vscatter always_ .s32 3 0 1 0,
        .vgather always_ .s32 1 2 0 0] : List Instr).all (s.issues · true) &&
      lowest .load vas && lowest .store vas && lowest .load gs && lowest .store gs && gs.all (fun x => x.toNat % 4 == 0) &&
      (match ms with | v :: _ => v.toNat % 4 == 1 | [] => false) &&
      ([.ldb always_ 2 2 0, .ldb always_ 2 6 7, .ldb always_ 2 3 0, .ldb always_ 2 5 7] : List Instr).all (s.issues · true) &&
      decide (2048 < (s.reg 6).toNat % 2048 + 64) && (s.reg 6).toNat % 8 == 0 && decide ((s.reg 3).toNat < 0x1800000) &&
      -- dome memory of which the tenant has nothing
      (let t : State := { s with slotTable := [] }
       t.issues (.ldb always_ 2 5 0) true && (t.place .load (t.reg 5)).isNone)) = true ∧
    (let s := small_with 0 [(2, 0x1800001), (3, 0x4000)]
     s.issues (.ld always_ .z64 1 2 (.reg 0)) true && s.issues (.st always_ .z64 3 (.reg 0) 1) true && (s.reg 2).toNat % 8 == 1 &&
      (s.reg 3).toNat % 8 == 0 && (s.place .load (s.reg 3)).isNone && (s.place .store (s.reg 3)).isNone && !State.isRemote (s.reg 3)) = true := by
  decide +kernel

/-- Register 31 of a workspace at 0x100. -/
theorem witness_WorkspaceWindowIsTheRegisters :
    (let s := ((small 0).onCore fun k => { k with wp := 0x100 }).setReg 2 0x1F8
     s.core.wp.toNat + 8 * (31 : SReg).toNat == 0x1F8 && s.reg 2 == 0x1F8 && s.core.landed.isEmpty && s.core.soft.isEmpty && s.core.tokens.all (·.isNone) &&
      isWs (State.wsLoc s.cur 0x1F8) && !(decide ((s.core.kres.extractLsb' 0 16).toNat ≤ 0x1F8) &&
        decide (0x1F8 < (s.core.kres.extractLsb' 16 16).toNat)) && !s.isPoisoned (State.wsLoc s.cur 0x1F8) &&
      s.issues (.ld always_ .z64 1 2 (.imm16 0)) true && s.issues (.st always_ .z64 2 (.imm16 0) 1) true && Mem.wf s.mem) = true := by
  decide +kernel

/-- The frames: an instruction of each shape answers a next state from a state in canonical form. -/
theorem witness_Frames : ([.add always_ .s64 1 2 (.reg 3), .clz always_ .z32 1 2, .bext always_ .z64 1 2 0 0, .movi always_ 1 (.imm16 1),
      .mov always_ 1 2, .lea always_ 1 2 (.idx 3 1), .sel always_ 1 2 3 4, .qcap always_ 1 (.imm16 1), .rndc always_ 1 2 3,
      .sysr always_ 1 0, .cmpLt always_ .s64 1 2 (.reg 3), .pand always_ 1 2 3, .pnot always_ 1 2, .pset always_ 1 7,
      .fadd always_ .f32 1 2 3, .fsqrt always_ .f64 1 2, .fma always_ .f32 1 2 3 4, .fcvt always_ .s32 1 2 .f64 0,
      .fcmpLt always_ .f32 1 2 3, .vadd always_ .f32 1 2 3, .vsqrt always_ .f32 1 2, .vfma always_ .f32 1 2 3 4,
      .vaddInt always_ .s8 1 2 (.imm16 1), .vmulInt always_ .s8 1 2 3, .vneg always_ .f32 1 2, .vsincos always_ .f32 2 4,
      .vshuf always_ .s8 1 2 3 4, .vdot4 always_ .s8 1 2 3, .vbfly always_ .f32 2 4 5 6, .vmov always_ 1 2 0, .jext always_ .f32 1 2 0,
      .jplane always_ .s8 1 2 0 0, .vcvt always_ .f32 1 2 .f64 0 0, .vins always_ .s8 1 2 31, .vredAdd always_ .f32 1 2, .vcmpLt always_ .f32 1 2 3,
      .vcmpLtInt always_ .s8 1 2 (.imm16 1), .vext always_ .s8 1 2 31, .vqmx always_ 1 4 3 0, .vdqmx always_ 4 1 3 0, .jclr always_ 0xFF] : List Instr).all
        (fun i => (small_mem 2).issues i true && gives (exec i (small_mem 2)) fun _ => true) = true ∧ Mem.wf (small_mem 2).mem = true := by
  decide +kernel

/-- SSP and SSL name dome memory; the accesses of loads, stores, atomics and reduce packets have a place. -/
theorem witness_MemoryFrame :
    (let s := ((small_mem 0).setWord Ws.ssp 0x1800100).setWord Ws.ssl 0x1800000
     let r : RegRange := .scalar 1 2
     let done (x : Res) : Bool := match x with
       | .done _ => true
       | _ => false
     Mem.wf s.mem && ([.ld always_ .z64 1 2 (.imm16 0), .vld always_ 1 3 (.imm16 32), .vgather always_ .s32 1 2 3 0, .ldb always_ 2 2 7,
       .popm always_ r, .pushm always_ r, .st always_ .z64 2 (.imm16 0) 1, .st always_ .z64 4 (.imm16 0) 1, .vst always_ 3 (.imm16 32) 1,
       .vscatter always_ .s16 2 3 4 0, .amoAdd always_ .s64 1 2 3, .amoFaddOrd always_ .f64 1 2 3 0 0, .amoFaddOrd always_ .f64 1 2 3 2 0,
       .redAdd always_ .s64 2 1, .redMaxOrd always_ .s64 4 1 0 0] : List Instr).all
        (fun i => s.issues i true && gives (exec i s) fun t => Mem.wf t.mem) &&
      passes (s.places .load [s.reg 2]) (fun x => x.1.length == 1) && passes (s.loadElems [{ va := s.reg 2, n := 8 }]) (fun x => x.1.length == 1) &&
      (s.word Ws.ssp).toNat % rangeElem r == 0 && !meetsWorkspace s (s.word Ws.ssp) 16 && !meetsWorkspace s (s.word Ws.ssp - 16) 16 &&
      (rangeWait s .load ((List.range 2).map (pushElem r s (s.word Ws.ssp)))).isNone &&
      (rangeWait s .store ((List.range 2).map (pushElem r s (s.word Ws.ssp - 16)))).isNone &&
      done (popWords r (s.word Ws.ssp) (List.range 2) s .done) && done (pushWords r (s.word Ws.ssp - 16) (List.range 2) s) &&
      can_store s [{ va := s.reg 2, n := 8 }] && State.isRemote (s.reg 4) && s.freeEntries != 0 &&
      passes (s.atomPlace (s.reg 2) 8 false) (fun _ => true) && passes (s.amo .add .s64 (s.reg 2) 0 0) (fun _ => true) && s.core.amo.isNone &&
      passes (s.atomPlace (s.reg 2) 8 true) (fun _ => true) && passes (redCheck s (s.reg 2) 8) (fun _ => true) &&
      (let w := s.onCore fun k => { k with amo := some 7 }
       w.issues (.amoFaddOrd always_ .f64 1 2 3 0 0) true && !w.core.amoBad &&
        gives (exec (.amoFaddOrd always_ .f64 1 2 3 0 0) w) fun t => t.reg 1 == 7)) = true := by decide +kernel

/-- An ADD at the PC of core 0, whose turn is next. -/
def small_turn : State :=
  { small 0 with
    mem := Mem.store [] 0x100000 8 (0x0000000008102000 : Word)
    sched := [{ dt := 1, who := .core 0 }] }

theorem witness_StepRunsTheDecodedInstruction :
    (let s : State := ({ (({ small_turn with sched := [] } : State).pass 1) with cur := 0, acting := none } : State).dropBstats fun x => x == 0
     !s.core.chained && !s.killedNow && !s.asyncNow && s.mayIssue && !Rep.active (s.word Ws.repState) && s.core.pc.toNat % 4 == 0 && small_turn.on &&
      passes (s.fetchBytes s.core.pc) fun x => match decode x.1 with
       | .ok (i, rest) => decide (i = .add ⟨0, false⟩ .dflt 1 2 (.reg 4)) && rest.length == 24
       | .error _ => false) = true := by decide +kernel

/-- A step that answers, from a state in canonical form. -/
theorem witness_StepKeepsStorageCanonical : gives (step small_turn) (fun t => t.core.pc == 0x100000008 && Mem.wf t.mem) = true ∧
    Mem.wf small_turn.mem = true := by decide +kernel

theorem witness_DecodeInvertsEncode : (Instr.copyh ⟨7, true⟩ 31 30 29 28 255 1 7 1 1).wf = true ∧
    (Instr.copyh ⟨7, true⟩ 31 30 29 28 255 1 7 1 1).isEvent = false := by decide +kernel

theorem witness_EveryInstructionGoesOn : (small 0).on = true ∧ ({ small 0 with power := false } : State).power = false ∧
    ({ small 0 with boot := .halted } : State).boot = .halted := by decide +kernel

/-- An access of the global window and one of dome memory. -/
theorem witness_AccessesStayWithTheOwner :
    (match (small 0).place .load 0x100001000, (small 0).place .store 0x1000000 with
     | some (p, _), some (q, _) => isHbm p.loc && !p.outside && isDome q.loc
     | _, _ => false) = true := by decide +kernel

/-- A body of two instructions: its first, its last of an iteration, and the last of all; and none. -/
theorem witness_RepetitionAdvances :
    (let r (ix left : Nat) : Word := (Rep.start 1 0 0 (BitVec.ofNat 32 left)) ||| (if ix = 0 then 0 else (Rep.step (Rep.start 1 0 0 2) 0 0).1)
     Rep.active (Rep.start 1 0 0 2) && Rep.index (Rep.start 1 0 0 2) == 0 && Rep.lenM1 (Rep.start 1 0 0 2) == 1 &&
      Rep.index (Rep.step (Rep.start 1 0 0 2) 0 0).1 == 1 && Rep.remain (Rep.step (Rep.start 1 0 0 2) 0 0).1 != 1 &&
      Rep.index (Rep.step (Rep.start 1 0 0 1) 0 0).1 == 1 && Rep.remain (Rep.step (Rep.start 1 0 0 1) 0 0).1 == 1 && Rep.active (r 0 1) &&
      !Rep.active ((small 0).word Ws.repState)) = true := by decide +kernel

theorem witness_GateReturnGoesBack : small_gate.gateCheck 0 = none ∧ Mem.wf small_gate.mem = true ∧
    State.fixWp small_gate.core.wp = small_gate.core.wp ∧ small_gate.fixPriv small_gate.core.priv = small_gate.core.priv ∧
    (small_gate.core.kres.extractLsb' 0 16).toNat + 256 ≤ ((small_gate.gateWord 0 1).extractLsb' 0 14).toNat := by decide +kernel

theorem witness_RegistersHoldWhatIsWritten : (31 : SReg) ≠ 0 ∧ (7 : PReg) ≠ 0 ∧ Mem.wf (small 0).mem = true := by decide +kernel

/-! ## One step of one instruction

The results are the worked examples of the spec, which a test names, or follow from the rule by hand. -/

/-- The next state holds this in a scalar register, and the PC has passed n bytes. -/
def writes (s : State) (i : Instr) (r : SReg) (x : Word) (n : Nat := 8) : Bool :=
  gives (exec i s) fun t => t.reg r == x && t.core.pc == 0x100000000 + BitVec.ofNat 64 n

/-- The next state holds this in a vector register. -/
def fills (s : State) (i : Instr) (r : VReg) (x : VWord) : Bool := gives (exec i s) fun t => t.vreg r == x

/-- The state with vector registers set. -/
def small_lanes (vs : List (VReg × VWord)) : State := vs.foldl (fun s x => s.setVreg x.1 x.2) (small 0)

theorem test_add : writes (small_with 0 [(1, 0x7FFFFFFF), (2, 1)]) (.add always_ .s32 3 1 (.reg 2)) 3 0xFFFFFFFF80000000 = true ∧
    writes (small_with 0 [(1, 0xFFFFFFFF)]) (.add always_ .z32 1 1 (.imm32 1)) 1 0 12 = true := by decide +kernel

theorem test_sub_to_w0 : writes (small_with 0 [(1, 5)]) (.sub always_ .s64 0 0 (.reg 1)) 0 0 = true := by decide +kernel

theorem test_mulh : writes (small_with 0 [(1, 0xFFFFFFFFFFFFFFFF), (2, 2)]) (.mulh always_ .s64 3 1 (.reg 2)) 3 0xFFFFFFFFFFFFFFFF = true ∧
    writes (small_with 0 [(1, 0xFFFFFFFFFFFFFFFF), (2, 2)]) (.mulh always_ .z64 3 1 (.reg 2)) 3 1 = true := by decide +kernel

/-- The example of R54 (02_scalar). -/
theorem test_div_by_zero : writes (small_with 0 [(4, 77)]) (.div always_ .z32 3 4 (.imm16 0)) 3 0xFFFFFFFF = true ∧
    writes (small_with 0 [(4, 77)]) (.div always_ .s32 3 4 (.imm16 0)) 3 0xFFFFFFFFFFFFFFFF = true := by decide +kernel

theorem test_rem_sign : writes (small_with 0 [(1, 0xFFFFFFFFFFFFFFF9), (2, 2)]) (.rem always_ .s64 3 1 (.reg 2)) 3 0xFFFFFFFFFFFFFFFF = true := by
  decide +kernel

theorem test_shifts : writes (small_with 0 [(1, 0x80000001)]) (.sar always_ .z32 3 1 (.imm16 33)) 3 0xC0000000 = true ∧
    writes (small_with 0 [(1, 0x80000001)]) (.ror always_ .s32 3 1 (.imm16 1)) 3 0xFFFFFFFFC0000000 = true := by decide +kernel

theorem test_clz : writes (small 0) (.clz always_ .z32 1 0) 1 32 = true := by decide +kernel
theorem test_bswap : writes (small_with 0 [(1, 0x0123456789ABCDEF)]) (.bswap always_ .z32 2 1) 2 0xEFCDAB89 = true := by decide +kernel
theorem test_bins : writes (small_with 0 [(1, 0x5), (2, 0xFFFF)]) (.bins always_ .z64 2 1 4 7) 2 0xF05F = true := by decide +kernel
theorem test_sext : writes (small_with 0 [(1, 0x80)]) (.sext always_ .s8 1 1) 1 0xFFFFFFFFFFFFFF80 = true := by decide +kernel
theorem test_lea : writes (small_with 0 [(1, 0x1000), (2, 3)]) (.lea always_ 3 1 (.idxDisp 2 3 0xFFFFFFFF)) 3 0x1017 12 = true := by decide +kernel
theorem test_movi : writes (small 0) (.movi always_ 9 (.imm32 0x80000000)) 9 0xFFFFFFFF80000000 12 = true := by decide +kernel

/-- Samples 1 and 7 of the generator table of 14_prog_sampling, with key 1. -/
theorem test_rndc : writes (small_with 0 [(6, 1)]) (.rndc always_ 5 6 6) 5 0xBE9122B8 = true ∧
    writes (small_with 0 [(6, 1), (7, 7)]) (.rndc always_ 5 7 6) 5 0xFC7AF2D1 = true := by decide +kernel

/-- R61 (02_scalar), an index it gives and one it does not. -/
theorem test_qcap : writes (small 0) (.qcap always_ 1 (.imm16 0x52)) 1 0x8000000000 = true ∧
    writes (small 0) (.qcap always_ 1 (.imm16 2)) 1 0x8000000000000000 = true := by decide +kernel

theorem test_cmp : gives (exec (.cmpLt always_ .s32 3 1 (.imm16 0)) (small_with 0 [(1, 0x80000000)])) (fun t => t.pred 3 == 0xFFFFFFFF) = true ∧
    gives (exec (.cmpLt always_ .z32 3 1 (.imm16 0)) (small_with 0 [(1, 0x80000000)])) (fun t => t.pred 3 == 0) = true := by decide +kernel

theorem test_predicates : gives (exec (.pset always_ 0 5) (small 0)) (fun t => t.pred 0 == 0xFFFFFFFF) = true ∧
    gives (exec (.pandn always_ 1 0 2) ((small 0).setPred 2 0xF0)) (fun t => t.pred 1 == 0xFFFFFF0F) = true := by decide +kernel

/-- The values 5 to 7 of RM are stored as 0 (R47). -/
theorem test_mts_fcsr : gives (exec (.mts always_ 1 5) (small_with 0 [(1, 0xFFFF)])) (fun t => t.word Ws.fcsr == 0x1F00) = true := by
  decide +kernel

/-- The example of R5 (00_scope): core 21 of Spire 13 of dome 6. -/
theorem test_core_xy : State.coreXY (6 * 1024 + 13 * 32 + 21) = 0x2E004D := by decide +kernel

/-- The examples of R136 (05_memory_isa, 13_dome_memory): words 0 and 1 of bank 1,664. -/
theorem test_bank_words : domeLoc 6 0x3400 = Config.domeBase + 6 * 2 ^ 23 + 1664 * 2048 ∧
    domeLoc 6 0xB400 = Config.domeBase + 6 * 2 ^ 23 + 1664 * 2048 + 8 := by decide +kernel

theorem test_fadd : writes (small_with 0 [(1, 0x3F800000), (2, 0x33800000)]) (.fadd always_ .f32 3 1 2) 3 0x3F800000 = true ∧
    gives (exec (.fadd always_ .f32 3 1 2) (small_with 0 [(1, 0x3F800000), (2, 0x33800000)])) (fun t => t.word Ws.fcsr == 0x100) = true := by
  decide +kernel

theorem test_fdiv_by_zero : writes (small_with 0 [(1, 0xBFF0000000000000)]) (.fdiv always_ .f64 3 1 0) 3 0xFFF0000000000000 = true ∧
    gives (exec (.fdiv always_ .f64 3 0 0) (small 0)) (fun t => t.reg 3 == 0x7FF8000000000000 && t.word Ws.fcsr == 0x1000) = true := by
  decide +kernel

theorem test_fcvt : writes (small_with 0 [(1, 0xC1E0000000300000)]) (.fcvt always_ .s32 2 1 .f64 1) 2 0xFFFFFFFF80000000 = true ∧
    writes (small_with 0 [(1, 0xBFF0000000000000)]) (.fcvt always_ .z8 2 1 .f64 1) 2 0 = true := by decide +kernel

theorem test_fclass : writes (small_with 0 [(1, 0x7F800001)]) (.fclass always_ .f32 2 1) 2 0x100 = true := by decide +kernel

theorem test_branches : gives (exec (.br always_ (.off16 0xFFFE)) (small 0)) (fun t => t.core.pc == 0xFFFFFFF8) = true ∧
    gives (exec (.call always_ 31 (.off16 16)) (small 0)) (fun t => t.core.pc == 0x100000040 && t.reg 31 == 0x100000008) = true := by
  decide +kernel

/-- A target off a parcel traps and writes no link (R75): TPC and TVAL of the handler's workspace at 0x600. -/
theorem test_jmp_misaligned : gives (exec (.jmp always_ 5 1) (small_with 0 [(1, 0x100000002), (5, 7)]))
    (fun t => Mem.load t.mem 64 (State.wsLoc 0 40) 8 == (7 : Word) && t.core.pc == 0x100000000 && t.core.wp == 0x600 &&
      Mem.load t.mem 64 (State.wsLoc 0 0xB48) 8 == (0x100000000 : Word) && Mem.load t.mem 64 (State.wsLoc 0 0xB50) 8 == (0x100000002 : Word)) =
    true := by decide +kernel

theorem test_loop : gives (exec (.loop always_ 1 0xFFFC) (small 0)) (fun t => t.reg 1 == 0xFFFFFFFFFFFFFFFF && t.core.pc == 0xFFFFFFF0) = true := by
  decide +kernel

/-- The encodings and the effect of the example of 07_system_isa: TRAP 0x21. -/
theorem test_trap : decodeTableWord 64 0x00210000000001CC = some (.trap 0x21) ∧ decodeTableWord 64 0x00030000000001C8 = some (.gcall 3) ∧
    decodeTableWord 128 0x0000000000000042000000000020A1C2 = some (.launch 5 4 2 1) ∧
    gives (exec (.trap 0x21) (small 0)) (fun t => (Mem.load t.mem 64 (State.wsLoc 0 0xB40) 8 : Word).extractLsb' 0 8 == 0x16 &&
      Mem.load t.mem 64 (State.wsLoc 0 0xB48) 8 == (0x100000008 : Word) && Mem.load t.mem 64 (State.wsLoc 0 0xB50) 8 == (0x21 : Word)) = true := by
  decide +kernel

/-- The parcels of the examples of R81 (02_scalar), R121 (04_vector) and R140 (05_memory_isa). -/
theorem test_example_words : decodeTableWord 64 0x3010000000200074 = some (.rep 4 0 1 3) ∧
    decodeTableWord 64 0x000058000105028C = some (.vexp ⟨1, false⟩ .f32 8 0) ∧
    decodeTableWord 64 0x0010B8000010A100 = some (.ld always_ .z32 5 2 (.imm16 16)) := by decide +kernel

/-- The example of R121 (04_vector): an exp jet at order 2 in lanes 0 to 3. -/
theorem test_vexp_jet :
    (let one : VWord := 0x3F8000003F8000003F8000003F8000003F8000003F8000003F8000003F800000
     let s := (((small_lanes [(0, one), (1, one), (8, one), (9, one), (10, one), (11, one)]).setWord Ws.jctl 2).setPred 1 0xF)
     gives (exec (.vexp ⟨1, false⟩ .f32 8 0) s) fun t =>
      t.vreg 8 == 0x3F8000003F8000003F8000003F800000402DF854402DF854402DF854402DF854 && t.vreg 9 == t.vreg 8 &&
      t.vreg 10 == 0x3F8000003F8000003F8000003F8000003FADF8543FADF8543FADF8543FADF854 &&
      t.vreg 11 == 0x3F8000003F8000003F8000003F80000000000000000000000000000000000000 && t.word Ws.jflags == 1) = true := by decide +kernel

/-- The example of R103 (03_formats): the tree sums 2²⁴, 1, 1, 1, −2²⁴, 1, 1, 1 to 5, with NX. -/
theorem test_vred_tree :
    (let s := small_lanes [(2, 0x3F8000003F8000003F800000CB8000003F8000003F8000003F8000004B800000)]
     gives (exec (.vredAdd always_ .f32 1 2) s) fun t => t.vreg 1 == 0x40A00000 && t.word Ws.jflags == 1) = true := by decide +kernel

/-- The example of R129 (04_vector): (3 + 4i)(1 - 2i) = 11 - 2i. -/
theorem test_vcmul : fills (small_lanes [(2, 0x00040003), (3, 0xFFFE0001)]) (.vcmul always_ .ci16 1 2 3 0) 1 0xFFFE000B = true := by
  decide +kernel

/-- The example of R102 (03_formats): a block of E4M3 with scale 0x7A and codes 0x7E, 0x52 and 0x90, and NX. -/
theorem test_vqmx : gives (exec (.vqmx always_ 1 4 9 0) (small_lanes [(4, 0xBA83126F3E99999A41700000)]))
    (fun t => t.vreg 1 == 0x90527E && t.reg 9 == 0x7A && t.word Ws.jflags == 1) = true := by decide +kernel

theorem test_vadd : fills (small_lanes [(2, 0x3C00), (3, 0x4000)]) (.vadd always_ .f16 1 2 3) 1 0x4200 = true := by decide +kernel

/-- A lane under a guard that is off keeps its bits, and lanes from L on of a predicate are 0 (R109). -/
theorem test_lane_guard :
    fills ((small_lanes [(1, 0x5555), (2, 0x0101), (3, 0x0202)]).setPred 1 1) (.vaddInt ⟨1, false⟩ .s8 1 2 (.reg 3)) 1 0x5503 = true ∧
    gives (exec (.vcmpEqInt always_ .s32 4 2 (.reg 3)) (small_lanes [])) (fun t => t.pred 4 == 0xFF) = true := by decide +kernel

theorem test_vdot4 : fills (small_lanes [(1, 10), (2, 0xFF020304), (3, 0x01010101)]) (.vdot4 always_ .s8 1 2 3) 1 18 = true := by
  decide +kernel
theorem test_vsat : fills (small_lanes [(2, 0x0080FF7F)]) (.vsat always_ .s16 1 2 8) 1 0x007FFF80 = true := by decide +kernel
theorem test_vmulh : fills (small_lanes [(2, 0x80), (3, 0x80)]) (.vmulh always_ .s8 1 2 3) 1 0x40 = true := by decide +kernel
theorem test_vext : writes (small_lanes [(2, 0x8000 <<< 240)]) (.vext always_ .s16 1 2 15) 1 0xFFFFFFFFFFFF8000 = true := by decide +kernel

/-- A word stored and a byte of it read with its sign: bytes lie little-endian (R8). -/
theorem test_store_and_load :
    gives (exec (.st always_ .z64 2 (.imm16 0) 1) ((small_mem 0).setReg 1 0x8877665544332211)) (fun t =>
      Mem.load t.mem 8 (Config.domeBase + 7) 1 == (0x88 : Byte) && gives (exec (.ld always_ .s8 5 2 (.imm16 7)) t) fun u =>
        u.reg 5 == 0xFFFFFFFFFFFFFF88) = true := by decide +kernel

/-- The first word of dome memory set. -/
def small_word (s : State) (x : Word) : State := { s with mem := Mem.store s.mem Config.domeBase 8 x }

theorem test_amo : gives (exec (.amoMax always_ .s32 5 2 1) (small_word ((small_mem 0).setReg 1 3) 0xFFFFFFFE))
    (fun t => t.reg 5 == 0xFFFFFFFFFFFFFFFE && Mem.load t.mem 32 Config.domeBase 4 == (3 : BitVec 32)) = true := by decide +kernel

theorem test_cas_keeps : gives (exec (.amoCas always_ .z32 5 2 1 7) (small_word ((small_mem 0).setReg 1 3) 9))
    (fun t => t.reg 5 == 9 && Mem.load t.mem 32 Config.domeBase 4 == (9 : BitVec 32)) = true := by decide +kernel

/-- The last arrival of a phase flips it (05_memory_isa). -/
theorem test_barrive : gives (exec (.barrive always_ 1 5) small_barrier) (fun t => ((t.tick 1).barrierAt 0 5).phase != (small_barrier.barrierAt 0 5).phase) = true := by
  decide +kernel

/-- SYSR at TENANT level raises PRIV (cause 0x04) into the workspace TVEC names (R205, R222). -/
theorem test_priv : gives (exec (.sysr always_ 1 0) (small 0)) (fun t => t.core.wp == 0x600 && t.core.priv == 1 &&
    (Mem.load t.mem 64 (State.wsLoc 0 0xB40) 8 : Word).extractLsb' 0 8 == 0x04 && Mem.load t.mem 64 (State.wsLoc 0 0xB48) 8 == (0x100000000 : Word)) =
    true := by decide +kernel

end Sys2Proof.Machine.Slice0
end

section
/-!
PROOFS. Reads and writes of the three register files, which lie apart in the live workspace: what a load from memory
reads after a store to it, where each write to a register reaches, and what every register reads afterwards
(00_scope R12, 02_scalar R41).
-/

namespace Sys2Proof.Machine

open Sys2Proof

/-! ## A value read back from its bytes -/

/-- Bit i of a word made of bytes is bit i % 8 of byte i / 8 (00_scope R8). -/
theorem getLsbD_ofBytes (w : Nat) (bs : List Byte) (i : Nat) :
    (ofBytes w bs).getLsbD i = (decide (i < w) && (bs.getD (i / 8) 0).getLsbD (i % 8)) := by
  induction bs generalizing i with
  | nil => simp [ofBytes]
  | cons b bs ih =>
    rw [ofBytes, BitVec.getLsbD_or, BitVec.getLsbD_setWidth, BitVec.getLsbD_shiftLeft, ih]
    rcases lt_or_ge i 8 with hi | hi
    · simp [hi, Nat.div_eq_of_lt hi, Nat.mod_eq_of_lt hi]
    · obtain ⟨j, rfl⟩ := Nat.exists_eq_add_of_le' hi
      by_cases hw : j + 8 < w
      · have hj : j < w := by omega
        simp [hw, hj]
      · simp [hw]

/-- The low n bytes of a value that fits in them hold it. -/
theorem ofBytes_toBytes {w n : Nat} (h : w ≤ 8 * n) (x : BitVec w) : ofBytes w (toBytes n x) = x := by
  apply BitVec.eq_of_getLsbD_eq
  intro i hi
  have hn : i / 8 < n := by omega
  rw [getLsbD_ofBytes]
  simp [toBytes, hi, hn, Nat.mod_lt, Nat.div_add_mod]

/-- A load of the bytes of a store that held the whole value reads the value. -/
theorem Mem.load_store {w n : Nat} {m : Mem} (h : wf m = true) (hn : w ≤ 8 * n) (a : Nat) (x : BitVec w) :
    load (store m a n x) w a n = x := by
  rw [load_store_same h, ofBytes_toBytes hn]

namespace State

/-! ## Where a write to a register reaches -/

variable {s t : State}

/-- The place of the live workspace depends on the current core and its record alone (02_scalar R41). -/
theorem live_congr (hcores : t.cores = s.cores) (hcur : t.cur = s.cur) (off : Nat) : t.live off = s.live off := by
  simp only [live, core, coreAt, hcores, hcur]

@[simp] theorem live_setReg (s : State) (r : SReg) (x : Word) (off : Nat) : (s.setReg r x).live off = s.live off :=
  live_congr (setReg_cores s r x) (setReg_cur s r x) off

@[simp] theorem live_setVreg (s : State) (v : VReg) (x : VWord) (off : Nat) : (s.setVreg v x).live off = s.live off :=
  live_congr (setVreg_cores s v x) (setVreg_cur s v x) off

@[simp] theorem live_setPred (s : State) (p : PReg) (x : BitVec 32) (off : Nat) : (s.setPred p x).live off = s.live off :=
  live_congr (setPred_cores s p x) (setPred_cur s p x) off

@[simp] theorem setReg_zero (s : State) (x : Word) : s.setReg 0 x = s := if_pos rfl

@[simp] theorem setPred_zero (s : State) (x : BitVec 32) : s.setPred 0 x = s := if_pos rfl

theorem setReg_mem {r : SReg} (hr : r ≠ 0) (s : State) (x : Word) :
    (s.setReg r x).mem = Mem.store s.mem (s.live (8 * r.toNat)) 8 x := by
  rw [setReg, if_neg hr, setWord_mem]

theorem setPred_mem {p : PReg} (hp : p ≠ 0) (s : State) (x : BitVec 32) :
    (s.setPred p x).mem = Mem.store s.mem (s.live (0x500 + 4 * p.toNat)) 4 x := by
  rw [setPred, if_neg hp]

/-- A load from the live workspace that meets no byte stored there reads what it read before. -/
theorem load_live_store_other {w v off n off' n' : Nat} (h : Mem.wf s.mem = true) (x : BitVec w)
    (hout : off' + n' ≤ off ∨ off + n ≤ off') :
    Mem.load (Mem.store s.mem (s.live off) n x) v (s.live off') n' = Mem.load s.mem v (s.live off') n' :=
  Mem.load_store_other h x (by simp only [live, wsLoc]; omega)

/-- A write to w[r] leaves the live workspace outside bytes 8r to 8r + 7 as it was. -/
theorem load_live_setReg (h : Mem.wf s.mem = true) (r : SReg) (x : Word) {v off n : Nat}
    (hout : off + n ≤ 8 * r.toNat ∨ 8 * r.toNat + 8 ≤ off) :
    Mem.load (s.setReg r x).mem v (s.live off) n = Mem.load s.mem v (s.live off) n := by
  by_cases hr : r = 0
  · rw [hr, setReg_zero]
  · rw [setReg_mem hr, load_live_store_other h x hout]

/-- A write to v[r] leaves the live workspace outside its 32 bytes from 0x100 + 32r on as it was. -/
theorem load_live_setVreg (h : Mem.wf s.mem = true) (r : VReg) (x : VWord) {v off n : Nat}
    (hout : off + n ≤ 0x100 + 32 * r.toNat ∨ 0x100 + 32 * r.toNat + 32 ≤ off) :
    Mem.load (s.setVreg r x).mem v (s.live off) n = Mem.load s.mem v (s.live off) n := by
  rw [setVreg_mem, load_live_store_other h x hout]

/-- A write to p[r] leaves the live workspace outside its 4 bytes from 0x500 + 4r on as it was. -/
theorem load_live_setPred (h : Mem.wf s.mem = true) (r : PReg) (x : BitVec 32) {v off n : Nat}
    (hout : off + n ≤ 0x500 + 4 * r.toNat ∨ 0x500 + 4 * r.toNat + 4 ≤ off) :
    Mem.load (s.setPred r x).mem v (s.live off) n = Mem.load s.mem v (s.live off) n := by
  by_cases hr : r = 0
  · rw [hr, setPred_zero]
  · rw [setPred_mem hr, load_live_store_other h x hout]

/-! ## What a register reads -/

@[simp] theorem reg_zero (s : State) : s.reg 0 = 0 := if_pos rfl

@[simp] theorem pred_zero (s : State) : s.pred 0 = 0xFFFFFFFF := if_pos rfl

/-- A scalar register other than w0 reads its eight bytes of the live workspace (02_scalar R41). -/
theorem reg_eq_load {r : SReg} (hr : r ≠ 0) (s : State) : s.reg r = Mem.load s.mem 64 (s.live (8 * r.toNat)) 8 := if_neg hr

/-- A predicate register other than p0 reads its four bytes of the live workspace (02_scalar R41). -/
theorem pred_eq_load {p : PReg} (hp : p ≠ 0) (s : State) :
    s.pred p = Mem.load s.mem 32 (s.live (0x500 + 4 * p.toNat)) 4 := if_neg hp

/-- A scalar register reads the same in two states that hold the same word at its place of the live workspace. -/
theorem reg_congr {r : SReg} (hlive : ∀ off, t.live off = s.live off)
    (h : Mem.load t.mem 64 (s.live (8 * r.toNat)) 8 = Mem.load s.mem 64 (s.live (8 * r.toNat)) 8) : t.reg r = s.reg r := by
  simp only [reg, word, hlive, h]

theorem vreg_congr {v : VReg} (hlive : ∀ off, t.live off = s.live off)
    (h : Mem.load t.mem 256 (s.live (0x100 + 32 * v.toNat)) 32 = Mem.load s.mem 256 (s.live (0x100 + 32 * v.toNat)) 32) :
    t.vreg v = s.vreg v := by
  simp only [vreg, hlive, h]

theorem pred_congr {p : PReg} (hlive : ∀ off, t.live off = s.live off)
    (h : Mem.load t.mem 32 (s.live (0x500 + 4 * p.toNat)) 4 = Mem.load s.mem 32 (s.live (0x500 + 4 * p.toNat)) 4) :
    t.pred p = s.pred p := by
  simp only [pred, hlive, h]

/-! ## What a register reads after a write to one of its own file -/

theorem reg_setReg_same (h : Mem.wf s.mem = true) {r : SReg} (hr : r ≠ 0) (x : Word) : (s.setReg r x).reg r = x := by
  rw [reg_eq_load hr, live_setReg, setReg_mem hr, Mem.load_store h (by decide)]

theorem reg_setReg_other (h : Mem.wf s.mem = true) {r q : SReg} (hq : q ≠ r) (x : Word) : (s.setReg r x).reg q = s.reg q :=
  reg_congr (live_setReg s r x) (load_live_setReg h r x (by bv_omega))

theorem vreg_setVreg_same (h : Mem.wf s.mem = true) (v : VReg) (x : VWord) : (s.setVreg v x).vreg v = x := by
  rw [vreg, live_setVreg, setVreg_mem, Mem.load_store h (by decide)]

theorem vreg_setVreg_other (h : Mem.wf s.mem = true) {v u : VReg} (hu : u ≠ v) (x : VWord) :
    (s.setVreg v x).vreg u = s.vreg u :=
  vreg_congr (live_setVreg s v x) (load_live_setVreg h v x (by bv_omega))

theorem pred_setPred_same (h : Mem.wf s.mem = true) {p : PReg} (hp : p ≠ 0) (x : BitVec 32) : (s.setPred p x).pred p = x := by
  rw [pred_eq_load hp, live_setPred, setPred_mem hp, Mem.load_store h (by decide)]

theorem pred_setPred_other (h : Mem.wf s.mem = true) {p q : PReg} (hq : q ≠ p) (x : BitVec 32) :
    (s.setPred p x).pred q = s.pred q :=
  pred_congr (live_setPred s p x) (load_live_setPred h p x (by bv_omega))

theorem reg_setReg (h : Mem.wf s.mem = true) {r : SReg} (hr : r ≠ 0) (q : SReg) (x : Word) :
    (s.setReg r x).reg q = if q = r then x else s.reg q := by
  split
  · next hq => rw [hq, reg_setReg_same h hr]
  · next hq => exact reg_setReg_other h hq x

theorem vreg_setVreg (h : Mem.wf s.mem = true) (v u : VReg) (x : VWord) :
    (s.setVreg v x).vreg u = if u = v then x else s.vreg u := by
  split
  · next hu => rw [hu, vreg_setVreg_same h]
  · next hu => exact vreg_setVreg_other h hu x

theorem pred_setPred (h : Mem.wf s.mem = true) {p : PReg} (hp : p ≠ 0) (q : PReg) (x : BitVec 32) :
    (s.setPred p x).pred q = if q = p then x else s.pred q := by
  split
  · next hq => rw [hq, pred_setPred_same h hp]
  · next hq => exact pred_setPred_other h hq x

/-! ## What a register reads after a write to another file

The scalar registers end at 0x100, where the vector registers begin, and these end at 0x500, where the predicate
registers begin (02_scalar R41). -/

theorem vreg_setReg (h : Mem.wf s.mem = true) (r : SReg) (v : VReg) (x : Word) : (s.setReg r x).vreg v = s.vreg v :=
  vreg_congr (live_setReg s r x) (load_live_setReg h r x (by omega))

theorem pred_setReg (h : Mem.wf s.mem = true) (r : SReg) (p : PReg) (x : Word) : (s.setReg r x).pred p = s.pred p :=
  pred_congr (live_setReg s r x) (load_live_setReg h r x (by omega))

theorem reg_setVreg (h : Mem.wf s.mem = true) (v : VReg) (r : SReg) (x : VWord) : (s.setVreg v x).reg r = s.reg r :=
  reg_congr (live_setVreg s v x) (load_live_setVreg h v x (by omega))

theorem pred_setVreg (h : Mem.wf s.mem = true) (v : VReg) (p : PReg) (x : VWord) : (s.setVreg v x).pred p = s.pred p :=
  pred_congr (live_setVreg s v x) (load_live_setVreg h v x (by omega))

theorem reg_setPred (h : Mem.wf s.mem = true) (p : PReg) (r : SReg) (x : BitVec 32) : (s.setPred p x).reg r = s.reg r :=
  reg_congr (live_setPred s p x) (load_live_setPred h p x (by omega))

theorem vreg_setPred (h : Mem.wf s.mem = true) (p : PReg) (v : VReg) (x : BitVec 32) : (s.setPred p x).vreg v = s.vreg v :=
  vreg_congr (live_setPred s p x) (load_live_setPred h p x (by omega))

end State

open State

/-- Settles O46: w0 and p0 are constant, a register reads the value written to it last, and a write to one register
reaches no byte of another. -/
theorem registersHoldWhatIsWritten : Obligations.RegistersHoldWhatIsWritten := by
  intro s h
  exact ⟨reg_zero s, pred_zero s, setReg_zero s, setPred_zero s,
    fun _ q x hr => reg_setReg h hr q x, vreg_setReg h, pred_setReg h,
    vreg_setVreg h, reg_setVreg h, pred_setVreg h,
    fun _ q x hp => pred_setPred h hp q x, reg_setPred h, vreg_setPred h⟩

end Sys2Proof.Machine
end

section
/-!
PROOFS. Decoding what was encoded (01_encoding R18-R31): the fields of a word are read back from where they were packed, a word
from its bytes, and an instruction from its fields.
-/

namespace Sys2Proof

open Machine Laws

/-! ## The fields of a word -/

/-- The extension of an instruction lies within the bytes its LEN takes (R19). -/
inductive ExtFits : BitVec 2 → BitVec 64 → Prop
  | none : ExtFits 0 0
  | half (v : BitVec 32) : ExtFits 1 (v.setWidth 64)
  | full (v : BitVec 64) : ExtFits 2 v

theorem OpB.extFits (b : OpB) : ExtFits b.len b.ext := by
  cases b with
  | reg | imm16 => exact .none
  | reg96 => exact .half 0
  | imm32 v => exact .half v

theorem LeaB.extFits (b : LeaB) : ExtFits b.len b.ext := by
  cases b with
  | idx | imm16 => exact .none
  | idxDisp _ _ v => exact .half v
  | imm32 v => exact .half v

theorem MoviImm.extFits (b : MoviImm) : ExtFits b.len b.ext := by
  cases b with
  | imm16 => exact .none
  | imm32 v => exact .half v
  | imm64 v => exact .full v

theorem Offset.extFits (b : Offset) : ExtFits b.len b.ext := by
  cases b with
  | off16 => exact .none
  | off32 v => exact .half v

/-- The encoder gives every instruction an extension of its length. -/
theorem Instr.extFits_of_toRaw {i : Instr} {x : Raw} (h : i.toRaw = some x) : ExtFits x.len x.ext := by
  cases i <;> cases h
  case lea => exact LeaB.extFits _
  case movi => exact MoviImm.extFits _
  case br | call => exact Offset.extFits _
  case pset => exact .half _
  case copy | copyh | launch => exact .full _
  case tlread wide _ => cases wide with
    | false => exact .none
    | true => exact .half 0
  case add | sub | and | or | xor | andn | shl | shr | sar | ror | min | max | mul | mulh | div | rem | cmpEq | cmpNe | cmpLt
      | cmpLe | cmpGt | cmpGe | ld | st | vld | vst | tlwait => exact OpB.extFits _
  all_goals exact .none

/-- Every instruction but FILL and the events has fields. -/
theorem Instr.exists_toRaw {i : Instr} (he : i.isEvent = false) (hf : i ≠ .fill) : ∃ x, i.toRaw = some x := by
  cases i <;> cases he
  case fill => exact absurd rfl hf
  all_goals exact ⟨_, rfl⟩

theorem Raw.pack_len (x : Raw) : x.pack.extractLsb' 0 2 = x.len := by
  simp (disch := omega) only [Raw.pack, Raw.base, BitVec.extractLsb'_append_eq_of_add_le, BitVec.extractLsb'_eq_self]

theorem Raw.pack_pn (x : Raw) : x.pack.getLsbD 12 = x.pn := by
  simp only [Raw.pack, Raw.base, BitVec.getLsbD_append]
  simp

theorem Raw.pack_i (x : Raw) : x.pack.getLsbD 47 = x.i := by
  simp only [Raw.pack, Raw.base, BitVec.getLsbD_append]
  simp

theorem Raw.pack_ext (x : Raw) {n : Nat} : x.pack.extractLsb' 64 n = x.ext.extractLsb' 0 n :=
  BitVec.extractLsb'_append_eq_of_le (by decide)

/-- The fields of the 64 base bits are read back from where the word holds them (R23). -/
theorem Raw.unpack_pack_base (x : Raw) : { Raw.unpack x.pack with ext := x.ext } = x := by
  obtain ⟨len, maj, pg, pn, d, a, b, c, op, t, i, i16, ext⟩ := x
  simp only [Raw.unpack, Raw.pack_pn, Raw.pack_i, Raw.mk.injEq, and_true, true_and]
  simp (disch := omega) only [Raw.pack, Raw.base, BitVec.extractLsb'_append_eq_of_add_le, BitVec.extractLsb'_append_eq_of_le]
  simp

/-- So is an extension of the length of the word (R19). -/
theorem Raw.unpack_pack_ext {x : Raw} (h : ExtFits x.len x.ext) : (Raw.unpack x.pack).ext = x.ext := by
  simp only [Raw.unpack, Raw.pack_len, Raw.pack_ext]
  generalize x.len = len, x.ext = ext at h
  cases h with
  | none => rfl
  | half v => simp [BitVec.extractLsb'_setWidth_of_le]
  | full v => simp

theorem Raw.unpack_pack {x : Raw} (h : ExtFits x.len x.ext) : Raw.unpack x.pack = x :=
  calc Raw.unpack x.pack
    _ = { Raw.unpack x.pack with ext := (Raw.unpack x.pack).ext } := rfl
    _ = { Raw.unpack x.pack with ext := x.ext } := by rw [Raw.unpack_pack_ext h]
    _ = x := Raw.unpack_pack_base x

/-- The bits of a word above its length are zero. -/
theorem Raw.getLsbD_pack_of_ge {x : Raw} (h : ExtFits x.len x.ext) {k : Nat} (hk : 8 * lenBytes x.len ≤ k) : x.pack.getLsbD k = false := by
  have hx : ∀ len ext, ExtFits len ext → 8 * lenBytes len ≤ k → 64 ≤ k ∧ ext.getLsbD (k - 64) = false := by
    rintro _ _ (_ | v | v) (hk : _ ≤ k)
    · exact ⟨hk, BitVec.getLsbD_zero⟩
    · have : 96 ≤ k := hk
      exact ⟨by omega, (BitVec.getLsbD_setWidth ..).trans (by rw [BitVec.getLsbD_of_ge v _ (by omega), Bool.and_false])⟩
    · have : 128 ≤ k := hk
      exact ⟨by omega, BitVec.getLsbD_of_ge _ _ (by omega)⟩
  obtain ⟨h64, hext⟩ := hx _ _ h hk
  rw [Raw.pack, BitVec.getLsbD_append, if_neg (by omega), hext]

/-! ## The bytes of a word -/

/-- The first n bytes of a word whose bits above them are zero hold it. -/
theorem ofBytes_toBytes_of_high_zero {w n : Nat} {x : BitVec w} (h : ∀ k, 8 * n ≤ k → x.getLsbD k = false) :
    ofBytes w (toBytes n x) = x := by
  apply BitVec.eq_of_getLsbD_eq
  intro k hk
  rw [getLsbD_ofBytes]
  by_cases hn : k / 8 < n
  · simp [toBytes, hk, hn, Nat.mod_lt, Nat.div_add_mod]
  · rw [h k (by omega)]
    simp [toBytes, hn]

theorem toBytes_succ {w : Nat} (n : Nat) (x : BitVec w) : ∃ bs, toBytes (n + 1) x = x.extractLsb' 0 8 :: bs :=
  ⟨_, by rw [toBytes, List.range_succ_eq_map]; rfl⟩

theorem length_toBytes {w : Nat} (n : Nat) (x : BitVec w) : (toBytes n x).length = n := by simp [toBytes]

/-- The length of an instruction is told by the first of its bytes (R19). -/
theorem decode_cons (b : Byte) (bs : List Byte) : decode (b :: bs) =
    if (b :: bs).length < lenBytes (b.setWidth 2) then .error .truncated
    else match decodeWord (ofBytes 128 ((b :: bs).take (lenBytes (b.setWidth 2)))) with
      | .ok i => .ok (i, (b :: bs).drop (lenBytes (b.setWidth 2)))
      | .error e => .error e := rfl

/-- A word that is zero above its length decodes from its bytes, whatever follows them. -/
theorem decode_toBytes {n : Nat} {w : BitVec 128} {i : Instr} (rest : List Byte) (hn : lenBytes (w.extractLsb' 0 2) = n)
    (hw : ∀ k, 8 * n ≤ k → w.getLsbD k = false) (hd : decodeWord w = .ok i) : decode (toBytes n w ++ rest) = .ok (i, rest) := by
  have hpos : n ≠ 0 := by
    rw [← hn, lenBytes]
    split <;> decide
  obtain ⟨m, rfl⟩ := Nat.exists_eq_succ_of_ne_zero hpos
  obtain ⟨bs, hbs⟩ := toBytes_succ m w
  have hcons : w.extractLsb' 0 8 :: (bs ++ rest) = toBytes (m + 1) w ++ rest := by rw [hbs]; rfl
  have hb : (w.extractLsb' 0 8).setWidth 2 = w.extractLsb' 0 2 := by
    ext k hk
    simp
    omega
  have hlen := length_toBytes (m + 1) w
  rw [← hcons, decode_cons, hcons, hb, hn, if_neg (by rw [List.length_append, hlen]; omega), List.take_left' hlen, List.drop_left' hlen,
    ofBytes_toBytes_of_high_zero hw, hd]

/-! ## Decoding what was encoded -/

/-- The fields an instruction is encoded in name it again (the lemmas of Laws/PerInstr together). -/
theorem Instr.encoding (i : Instr) (he : i.isEvent = false) : Encoding.Statement i := by
  cases i <;> cases he <;> simp only [Encoding.fill,
    Encoding.add, Encoding.sub, Encoding.and, Encoding.or, Encoding.xor, Encoding.andn, Encoding.shl, Encoding.shr, Encoding.sar,
    Encoding.ror, Encoding.min, Encoding.max, Encoding.mul, Encoding.mulh, Encoding.div, Encoding.rem, Encoding.clz, Encoding.ctz,
    Encoding.popc, Encoding.brev, Encoding.bswap, Encoding.bext, Encoding.bins, Encoding.sext, Encoding.zext, Encoding.cmpEq,
    Encoding.cmpNe, Encoding.cmpLt, Encoding.cmpLe, Encoding.cmpGt, Encoding.cmpGe, Encoding.pand, Encoding.por, Encoding.pxor,
    Encoding.pandn, Encoding.pnot, Encoding.pmov, Encoding.pset, Encoding.movi, Encoding.mov, Encoding.lea, Encoding.sel,
    Encoding.qcap, Encoding.rndc, Encoding.mfs, Encoding.mts, Encoding.mtsWp, Encoding.pushm, Encoding.popm, Encoding.fadd,
    Encoding.fsub, Encoding.fmul, Encoding.fdiv, Encoding.fsqrt, Encoding.fmin, Encoding.fmax, Encoding.fneg, Encoding.fabs,
    Encoding.fma, Encoding.fms, Encoding.fnma, Encoding.fnms, Encoding.fcmpEq, Encoding.fcmpLt, Encoding.fcmpLe, Encoding.fcmpUn,
    Encoding.fcvt, Encoding.fclass, Encoding.br, Encoding.call, Encoding.jmp, Encoding.ret, Encoding.brx, Encoding.loop,
    Encoding.rep, Encoding.nop, Encoding.hint, Encoding.unchain, Encoding.rechain, Encoding.vadd, Encoding.vsub, Encoding.vmul,
    Encoding.vmin, Encoding.vmax, Encoding.vneg, Encoding.vabs, Encoding.vfma, Encoding.vfms, Encoding.vfnma, Encoding.vfnms,
    Encoding.vdiv, Encoding.vrcp, Encoding.vsqrt, Encoding.vrsqrt, Encoding.vexp, Encoding.vlog, Encoding.vsincos, Encoding.vtanh,
    Encoding.vsigm, Encoding.vcmpEq, Encoding.vcmpNe, Encoding.vcmpLt, Encoding.vcmpLe, Encoding.vsel, Encoding.vcvt,
    Encoding.vqmx, Encoding.vdqmx, Encoding.vredAdd, Encoding.vredMin, Encoding.vredMax, Encoding.vaddInt, Encoding.vsubInt,
    Encoding.vand, Encoding.vor, Encoding.vxor, Encoding.vshl, Encoding.vshr, Encoding.vsar, Encoding.vminInt, Encoding.vmaxInt,
    Encoding.vadds, Encoding.vsubs, Encoding.vcmpEqInt, Encoding.vcmpNeInt, Encoding.vcmpLtInt, Encoding.vcmpLeInt,
    Encoding.vmulInt, Encoding.vmulh, Encoding.vmac, Encoding.vsat, Encoding.vdot4, Encoding.vdot2, Encoding.vcmul,
    Encoding.vcmac, Encoding.vconj, Encoding.vbfly, Encoding.vbflys, Encoding.vperm, Encoding.vshuf, Encoding.vrot,
    Encoding.vbcast, Encoding.vmov, Encoding.vins, Encoding.vext, Encoding.vsplat, Encoding.jseed, Encoding.jext, Encoding.jplane,
    Encoding.jclr, Encoding.ld, Encoding.st, Encoding.vld, Encoding.vst, Encoding.vgather, Encoding.vscatter, Encoding.ldb,
    Encoding.amoAdd, Encoding.amoAnd, Encoding.amoOr, Encoding.amoXor, Encoding.amoMin, Encoding.amoMax, Encoding.amoSwap,
    Encoding.amoCas, Encoding.amoFadd, Encoding.amoFaddOrd, Encoding.redAdd, Encoding.redMin, Encoding.redMax, Encoding.redAddOrd,
    Encoding.redMinOrd, Encoding.redMaxOrd, Encoding.pref, Encoding.chint, Encoding.copy, Encoding.copyh, Encoding.binit,
    Encoding.barrive, Encoding.bwait, Encoding.bsync, Encoding.bstat, Encoding.tlwait, Encoding.tlread, Encoding.fence,
    Encoding.wake, Encoding.wait, Encoding.chinit, Encoding.send, Encoding.sendNb, Encoding.recv, Encoding.recvNb, Encoding.mshl,
    Encoding.mshf, Encoding.mshs, Encoding.mclaim, Encoding.mrel, Encoding.mld, Encoding.mldx, Encoding.mma, Encoding.mmaS,
    Encoding.mzero, Encoding.mmov, Encoding.mmovr, Encoding.mst, Encoding.mspec, Encoding.mresolve, Encoding.mcommit,
    Encoding.mdiscard, Encoding.tgemm, Encoding.tfact, Encoding.tsolve, Encoding.mqpri, Encoding.mqsync, Encoding.launch,
    Encoding.exit, Encoding.yield, Encoding.halt, Encoding.gcall, Encoding.gret, Encoding.trap, Encoding.eret, Encoding.sysr,
    Encoding.sysw, Encoding.publish, Encoding.tlbinv, Encoding.lflush, Encoding.l2cfg, Encoding.mscrub, Encoding.mspare,
    Encoding.mrmapRead, Encoding.mrmapWrite, Encoding.mrmapInvalidate, Encoding.mrmapSpareBitmap, Encoding.mliveNotLive,
    Encoding.mliveLive, Encoding.jrnl, Encoding.msave, Encoding.bind, Encoding.gswitchCancel, Encoding.gswitchArm]

/-- Fields that name an instruction which is encoded in them decode to it. -/
theorem Raw.decode_of_candidate {x : Raw} {i : Instr} (hc : x.candidate = .ok i) (hx : i.toRaw = some x) (hw : i.wf = true) :
    x.decode = .ok i := by
  rw [Instr.wf, Option.isNone_iff_eq_none] at hw
  simp [Raw.decode, hc, hx, hw]

theorem Instr.pack_of_toRaw {i : Instr} {x : Raw} (h : i.toRaw = some x) : i.pack = some x.pack := by
  unfold Instr.pack
  split
  · cases h
  · rw [h, Option.map_some]

theorem Instr.size_of_toRaw {i : Instr} {x : Raw} (h : i.toRaw = some x) : i.size = lenBytes x.len := by
  unfold Instr.size
  split
  · cases h
  · rw [h]

theorem decodeWord_pack {i : Instr} {x : Raw} (h : i.toRaw = some x) (hw : i.wf = true) (he : i.isEvent = false) :
    decodeWord x.pack = .ok i := by
  have hx := Instr.extFits_of_toRaw h
  have hlen : x.len ≠ 3 := by
    generalize x.len = len, x.ext = ext at hx
    cases hx <;> decide
  rw [decodeWord, Raw.pack_len, if_neg hlen, Raw.unpack_pack hx]
  exact Raw.decode_of_candidate (Instr.encoding i he x h hw) h hw

/-- A FILL parcel ends with its 32 bits (R20). -/
theorem getLsbD_fill_of_ge {k : Nat} (hk : 32 ≤ k) : (3 : BitVec 128).getLsbD k = false :=
  Nat.testBit_lt_two_pow (calc
    3 < 2 ^ 32 := by decide
    _ ≤ 2 ^ k := Nat.pow_le_pow_right (by decide) hk)

/-- The bytes of an instruction decode to it, whatever follows them (R18). -/
theorem decode_encode {i : Instr} (hw : i.wf = true) (he : i.isEvent = false) (rest : List Byte) :
    decode (encode i ++ rest) = .ok (i, rest) := by
  by_cases hf : i = .fill
  · rw [hf]
    exact decode_toBytes rest rfl (fun _ => getLsbD_fill_of_ge) rfl
  · obtain ⟨x, hx⟩ := Instr.exists_toRaw he hf
    rw [encode, Instr.pack_of_toRaw hx, Instr.size_of_toRaw hx, Option.getD_some]
    exact decode_toBytes rest (by rw [Raw.pack_len]) (fun _ => Raw.getLsbD_pack_of_ge (Instr.extFits_of_toRaw hx)) (decodeWord_pack hx hw he)

/-- So the table's form of a word that encodes an instruction is that instruction. -/
theorem decodeTableWord_of_pack {i : Instr} {w : Nat} (n : Nat) (hw : i.wf = true) (he : i.isEvent = false) (hp : i.pack = some (BitVec.ofNat 128 w))
    (hn : i.size ≤ 16) : decodeTableWord n w = some i := by
  have hsplit : toBytes 16 (BitVec.ofNat 128 w) = encode i ++ (toBytes 16 (BitVec.ofNat 128 w)).drop i.size := by
    rw [encode, hp, Option.getD_some]
    conv_lhs => rw [← List.take_append_drop i.size (toBytes 16 (BitVec.ofNat 128 w))]
    simp [toBytes, ← List.map_take, List.take_range, hn]
  rw [decodeTableWord, hsplit, decode_encode hw he]

/-- Settles O55: the word of an instruction holds its fields, its bytes hold the word, and its fields name it. -/
theorem decodeInvertsEncode : Obligations.DecodeInvertsEncode := fun _ rest hw he => decode_encode hw he rest

/-- Settles O54: each word is the encoding of a well-formed instruction. -/
theorem wordsDecode : Obligations.WordsDecode := by
  unfold Obligations.WordsDecode
  and_intros <;> exact decodeTableWord_of_pack _ rfl rfl rfl (by decide)

end Sys2Proof
end

section
/-!
PROOFS. How every instruction runs: the checks of 01_encoding R30 first, then the guard, then its body (R29), and what that says of an
instruction whose checks fail or whose guard is off.
-/

namespace Sys2Proof.Machine

open Sys2Proof

/-- The instructions that a follower begins after its leader has completed them: the transfers and those that act on the whole
chain (02_scalar R72, 07_system_isa R195, R199). -/
def afterLeader : Instr → Bool
  | .rep _ _ _ _ | .launch _ _ _ _ | .gcall _ | .gret _ _ => true
  | i => leaderDecides i

/-- What decides whether the body of an instruction runs (01_encoding R29): its guard as a whole, which for a transfer holds when
the leader's does; nothing where it has none. -/
def State.bodyGuard (s : State) (i : Instr) : Bool :=
  match wholeGuard i with
  | some (g, l) => bif leaderDecides i then s.guardLane g l || s.decider.guardLane g l else s.guardLane g l
  | none => true

theorem State.mustFollow_of_alone {s : State} (h : s.alone = true) : s.mustFollow = false := by
  simp_all [State.alone, State.mustFollow]

theorem control_eq {i : Instr} {g : Guard} {write : State → State} {decide : State → Res} {s : State} (h : s.mustFollow = false) :
    ∃ body, control i g write decide s = instrIf i (s.guardLane g 0 || s.decider.guardLane g 0) body s :=
  ⟨_, if_neg (ne_true_of_eq_false h)⟩

theorem execTfact_eq (g : Guard) (d : SReg) (a : BitVec 3) (srci ptrap : BitVec 1) (q : BitVec 2) (s : State) :
    ∃ body, execTfact g d a srci ptrap q s = instr (.tfact g d a srci ptrap q) g body s := by
  unfold execTfact
  split
  · exact ⟨_, rfl⟩
  · exact ⟨_, rfl⟩

theorem execMqsync_eq (g : Guard) (d : SReg) (cq : BitVec 2) (s : State) :
    ∃ body, execMqsync g d cq s = instr (.mqsync g d cq) g body s := by
  unfold execMqsync
  dsimp only
  split
  · exact ⟨_, rfl⟩
  · exact ⟨_, rfl⟩

theorem runs_of_eq {i : Instr} {g : Guard} {o : Out} {s : State} (h : ∃ body, o = instr i g body s)
    (hg : s.bodyGuard i = s.guardLane g 0) : ∃ body, o = instrIf i (s.bodyGuard i) body s := hg ▸ h

theorem runs_of_instr {i : Instr} {g : Guard} {body : State → Res} {s : State} (hg : s.bodyGuard i = s.guardLane g 0) :
    ∃ body', instr i g body s = instrIf i (s.bodyGuard i) body' s := ⟨body, by rw [hg, instr]⟩

theorem instrIf_eq {i : Instr} {g : Bool} {body : State → Res} {s : State} : ∃ body', instrIf i g body s = instrIf i g body' s :=
  ⟨body, rfl⟩

theorem runs_of_instrAll {i : Instr} {body : State → Res} {s : State} (hg : s.bodyGuard i = true) :
    ∃ body', instrAll i body s = instrIf i (s.bodyGuard i) body' s := ⟨body, by rw [hg, instrAll]⟩

theorem runs_of_vector {i : Instr} {f : State → State} {s : State} (hg : s.bodyGuard i = true) :
    ∃ body, vector i f s = instrIf i (s.bodyGuard i) body s := by
  unfold vector; exact runs_of_instrAll hg

/-- Every instruction but FILL is its checks, its guard and its body, once a follower has not to wait for its leader (01_encoding
R30, 02_scalar R72). -/
theorem exec_eq_instrIf {i : Instr} {s : State} (he : i.isEvent = false) (hf : i ≠ .fill)
    (hl : afterLeader i = true → s.mustFollow = false) : ∃ body, exec i s = instrIf i (s.bodyGuard i) body s := by
  cases i <;> cases he
  case fill => exact absurd rfl hf
  case br | call | jmp | ret | brx | loop => exact control_eq (hl rfl)
  case rep | launch | gcall | gret => exact ⟨_, if_neg (ne_true_of_eq_false (hl rfl))⟩
  case tfact => exact runs_of_eq (execTfact_eq ..) rfl
  case mqsync => exact runs_of_eq (execMqsync_eq ..) rfl
  case vins | vext => dsimp only [exec]; exact instrIf_eq
  case unchain | rechain | vld | vst | vgather | vscatter | exit | yield | halt | trap | eret | publish =>
    dsimp only [exec]; exact runs_of_instrAll rfl
  case vsincos | vsel | vcvt | vsat | vshuf | vmov | vsplat | jseed | jext | jplane =>
    dsimp only [exec, execVsincos, execVsel, execVcvt, execVsat, execVshuf, execVmov, execVsplat, execJseed, execJext, execJplane]
    exact runs_of_vector rfl
  case vrcp | vsqrt | vrsqrt | vexp | vlog | vtanh | vsigm =>
    dsimp only [exec, execVrcp, execVsqrt, execVrsqrt, execVexp, execVlog, execVtanh, execVsigm, vecFp1]; exact runs_of_vector rfl
  case vadd | vsub | vmul | vdiv =>
    dsimp only [exec, execVadd, execVsub, execVmul, execVdiv, vecFp2]; exact runs_of_vector rfl
  case vmin | vmax =>
    dsimp only [exec, execVmin, execVmax, vecPick]; exact runs_of_vector rfl
  case vneg | vabs =>
    dsimp only [exec, execVneg, execVabs, vecSign]; exact runs_of_vector rfl
  case vfma | vfms | vfnma | vfnms =>
    dsimp only [exec, execVfma, execVfms, execVfnma, execVfnms, vecFma]; exact runs_of_vector rfl
  case vcmpEq | vcmpNe | vcmpLt | vcmpLe =>
    dsimp only [exec, execVcmpEq, execVcmpNe, execVcmpLt, execVcmpLe, vecCmp]; exact runs_of_vector rfl
  case vredAdd | vredMin | vredMax =>
    dsimp only [exec, execVredAdd, execVredMin, execVredMax, vecRed]; exact runs_of_vector rfl
  case vaddInt | vsubInt | vand | vor | vxor | vshl | vshr | vsar | vadds | vsubs =>
    dsimp only [exec, execVaddInt, execVsubInt, execVand, execVor, execVxor, execVshl, execVshr, execVsar, execVadds, execVsubs,
      vecInt]
    exact runs_of_vector rfl
  case vminInt | vmaxInt =>
    dsimp only [exec, execVminInt, execVmaxInt, vecIntPick]; exact runs_of_vector rfl
  case vcmpEqInt | vcmpNeInt | vcmpLtInt | vcmpLeInt =>
    dsimp only [exec, execVcmpEqInt, execVcmpNeInt, execVcmpLtInt, execVcmpLeInt, vecIntCmp]; exact runs_of_vector rfl
  case vmulInt | vmulh | vmac =>
    dsimp only [exec, execVmulInt, execVmulh, execVmac, vecIntMul]; exact runs_of_vector rfl
  case vdot4 | vdot2 =>
    dsimp only [exec, execVdot4, execVdot2, vecDot]; exact runs_of_vector rfl
  case vcmul | vcmac | vconj =>
    dsimp only [exec, execVcmul, execVcmac, execVconj, vecCplx]; exact runs_of_vector rfl
  case vbfly | vbflys =>
    dsimp only [exec, execVbfly, execVbflys, vecBfly]; exact runs_of_vector rfl
  case vperm | vrot | vbcast =>
    dsimp only [exec, execVperm, execVrot, execVbcast, vecPermute]; exact runs_of_vector rfl
  case add | sub | and | or | xor | andn | shl | shr | sar | ror | min | max | mul | mulh | div | rem =>
    dsimp only [exec, execAdd, execSub, execAnd, execOr, execXor, execAndn, execShl, execShr, execSar, execRor, execMin, execMax,
      execMul, execMulh, execDiv, execRem, scalarOp]
    exact runs_of_instr rfl
  case clz | ctz | popc | brev | bswap | bext | sext | zext =>
    dsimp only [exec, execClz, execCtz, execPopc, execBrev, execBswap, execBext, execSext, execZext, scalarUn]; exact runs_of_instr rfl
  case cmpEq | cmpNe | cmpLt | cmpLe | cmpGt | cmpGe =>
    dsimp only [exec, execCmpEq, execCmpNe, execCmpLt, execCmpLe, execCmpGt, execCmpGe, scalarCmp]; exact runs_of_instr rfl
  case pand | por | pxor | pandn =>
    dsimp only [exec, execPand, execPor, execPxor, execPandn, predOp]; exact runs_of_instr rfl
  case fadd | fsub | fmul | fdiv =>
    dsimp only [exec, execFadd, execFsub, execFmul, execFdiv, fpBin]; exact runs_of_instr rfl
  case fsqrt =>
    dsimp only [exec, execFsqrt, fpUn]; exact runs_of_instr rfl
  case fmin | fmax =>
    dsimp only [exec, execFmin, execFmax, fpSelect]; exact runs_of_instr rfl
  case fneg | fabs =>
    dsimp only [exec, execFneg, execFabs, fpSign]; exact runs_of_instr rfl
  case fma | fms | fnma | fnms =>
    dsimp only [exec, execFma, execFms, execFnma, execFnms, fpFma]; exact runs_of_instr rfl
  case fcmpEq | fcmpLt | fcmpLe | fcmpUn =>
    dsimp only [exec, execFcmpEq, execFcmpLt, execFcmpLe, execFcmpUn, fpCmp]; exact runs_of_instr rfl
  case amoAdd | amoAnd | amoOr | amoXor | amoMin | amoMax | amoSwap | amoCas | amoFadd =>
    dsimp only [exec, execAmoAdd, execAmoAnd, execAmoOr, execAmoXor, execAmoMin, execAmoMax, execAmoSwap, execAmoCas, execAmoFadd,
      amoOp]
    exact runs_of_instr rfl
  case redAdd | redMin | redMax | redAddOrd | redMinOrd | redMaxOrd =>
    dsimp only [exec, execRedAdd, execRedMin, execRedMax, execRedAddOrd, execRedMinOrd, execRedMaxOrd, redInstr]; exact runs_of_instr rfl
  case mshl | mshf | mshs | mclaim | mrel | mld | mldx | mma | mmaS | mzero | mmovr | mst | mspec | tgemm | tsolve | mqpri =>
    dsimp only [exec, execMshl, execMshf, execMshs, execMclaim, execMrel, execMld, execMldx, execMma, execMmaS, execMzero,
      execMmovr, execMst, execMspec, execTgemm, execTsolve, execMqpri, matrix]
    exact runs_of_instr rfl
  case mresolve | mcommit | mdiscard =>
    dsimp only [exec, execMresolve, execMcommit, execMdiscard, resolve]; exact runs_of_instr rfl
  case mmov => dsimp only [exec, execMmov, awaited]; exact runs_of_instr rfl
  all_goals dsimp only [exec]; exact runs_of_instr rfl

/-- A follower does nothing yet in an instruction that its leader has still to complete (02_scalar R72). -/
theorem exec_afterLeader {i : Instr} {s : State} (h : afterLeader i = true) (hm : s.mustFollow = true) : exec i s = powered s (.next s) := by
  cases i <;> cases h <;> exact if_pos hm

/-- The checks before the guard raise ILLEGAL or PRIV, with the bits of the instruction (01_encoding R30, 07_system_isa R192). -/
theorem State.preTrap_some {s : State} {i : Instr} {t : Trap} (h : s.preTrap i = some t) :
    t.tval = s.instrBits i ∧ (t.code = Cause.illegal ∨ t.code = Cause.priv) := by
  unfold State.preTrap at h
  split at h
  · cases h; exact ⟨rfl, .inl rfl⟩
  · split at h
    · cases h; exact ⟨rfl, .inl rfl⟩
    · split at h
      · cases h; exact ⟨rfl, .inr rfl⟩
      · cases h

/-- Settles O43: the checks stand before the guard in every instruction. -/
theorem checksComeBeforeTheGuard : Obligations.ChecksComeBeforeTheGuard := by
  intro i s t he hf hon halone ht
  obtain ⟨body, hexec⟩ := exec_eq_instrIf he hf fun _ => State.mustFollow_of_alone halone
  exact ⟨hexec ▸ instrIf_pre hon ht _ body, State.preTrap_some ht⟩

theorem isEvent_of_wholeGuard {i : Instr} {x : Guard × Nat} (h : wholeGuard i = some x) : i.isEvent = false ∧ i ≠ .fill := by
  cases i <;> cases h <;> exact ⟨rfl, nofun⟩

/-- Of the instructions with a guard as a whole only the transfers wait for the leader. -/
theorem afterLeader_of_wholeGuard {i : Instr} {x : Guard × Nat} (h : wholeGuard i = some x) : afterLeader i = leaderDecides i := by
  cases i <;> cases h <;> rfl

theorem lane_of_leaderDecides {i : Instr} {g : Guard} {l : Nat} (h : wholeGuard i = some (g, l)) (hl : leaderDecides i = true) : l = 0 := by
  cases i <;> cases hl <;> cases h <;> rfl

/-- Settles O44: such an instruction is its checks, its guard and its body, and the body does not run. -/
theorem guardedOffInstructionsOnlyRetire : Obligations.GuardedOffInstructionsOnlyRetire := by
  intro i g l s hw hc hg hlead
  obtain ⟨he, hf⟩ := isEvent_of_wholeGuard hw
  have hfollow : afterLeader i = true → s.mustFollow = false := by
    rw [afterLeader_of_wholeGuard hw]
    intro hl
    obtain ⟨-, hdone⟩ := hlead hl
    simp_all [State.mustFollow]
  have hoff : s.bodyGuard i = false := by
    rw [State.bodyGuard, hw]
    cases hl : leaderDecides i with
    | false => exact hg
    | true =>
      obtain ⟨hled, -⟩ := hlead hl
      obtain rfl := lane_of_leaderDecides hw hl
      exact Bool.or_eq_false_iff.2 ⟨hg, hled⟩
  obtain ⟨body, hexec⟩ := exec_eq_instrIf he hf hfollow
  rw [hexec, instrIf_off hc hoff]

end Sys2Proof.Machine
end

section
/-!
PROOFS. What a step runs (01_encoding R18-R21, R30): the fetch finds the instruction the bytes at the PC decode to, and the core's turn
executes it.
-/

namespace Sys2Proof

open Machine

/-- A word whose instruction is not FILL decodes by its fields. -/
theorem unpack_decode_of_decodeWord {w : BitVec 128} {i : Instr} (h : decodeWord w = .ok i) (hi : i ≠ .fill) :
    w.extractLsb' 0 2 ≠ 3 ∧ (Raw.unpack w).decode = .ok i := by
  unfold decodeWord at h
  split at h
  · split at h
    · cases h; exact absurd rfl hi
    · cases h
  · next hlen => exact ⟨hlen, h⟩

/-- The bytes that decode to an instruction hold a whole word, and the word is the instruction. -/
theorem decodeWord_of_decode {bs rest : List Byte} {i : Instr} (h : decode bs = .ok (i, rest)) :
    lenBytes ((nth bs 0 0).setWidth 2) ≤ bs.length ∧
      decodeWord (ofBytes 128 (bs.take (lenBytes ((nth bs 0 0).setWidth 2)))) = .ok i := by
  cases bs with
  | nil => cases h
  | cons b bs =>
    rw [decode_cons] at h
    split at h
    · cases h
    · next hlen =>
      split at h
      · next hw => cases h; exact ⟨Nat.le_of_not_lt hlen, hw⟩
      · cases h

namespace Machine

/-- Without an active repetition no operand field is staggered (02_scalar R78). -/
theorem Rep.stagger_of_inactive {r : Word} (h : Rep.active r = false) (x : Raw) : Rep.stagger r x = x := by
  rw [Rep.stagger, h]; rfl

/-- The fetch finds the instruction that the bytes at the address decode to, where no operand is staggered. -/
theorem State.fetchAt_of_decode {s u : State} {stagger : Raw → Raw} {va : Word} {bs rest : List Byte} {i : Instr} (fuel : Nat)
    (hstagger : ∀ x, stagger x = x) (halign : va.toNat % 4 = 0) (hbytes : s.fetchBytes va = .ok (bs, u))
    (hdecode : decode bs = .ok (i, rest)) (hi : i ≠ .fill) : s.fetchAt stagger (fuel + 1) va = .instr va i u := by
  obtain ⟨hlen, hword⟩ := decodeWord_of_decode hdecode
  obtain ⟨hlen3, hraw⟩ := unpack_decode_of_decodeWord hword hi
  have hne3 : ofBytes 128 (bs.take (lenBytes ((nth bs 0 0).setWidth 2))) ≠ 3 := fun h => hlen3 (h ▸ rfl)
  rw [State.fetchAt, if_neg (not_not_intro halign), hbytes]
  simp only [hstagger, hraw, if_neg hlen3, if_neg hne3, if_neg (Nat.not_lt.2 hlen)]

/-- A core that is not stopped, takes no asynchronous trap and may issue runs what it fetches. -/
theorem stepCore_eq_runFetched {s : State} {s' : State} (hs : s.dropBstats (fun c => c == s.cur) = s') (hkilled : s'.killedNow = false)
    (hasync : s'.asyncNow = false) (hissue : s'.mayIssue = true) : stepCore s = runFetched s'.fetchNext := by
  simp [stepCore, hs, hkilled, hasync, hissue]

/-- On a device that is on, a step that begins with a core's turn is that turn, after its cycles have passed. -/
theorem step_of_coreTurn {s : State} {c dt : Nat} {ts : List Turn} (hon : s.on = true)
    (hsched : s.sched = { dt := dt, who := .core c } :: ts) : step s = coreTurn c (({ s with sched := ts } : State).pass dt) := by
  have hreset : s.resetNext = false := by rw [State.resetNext, hsched]
  rw [step, hreset, powered_on hon, hsched]; rfl

/-- Settles O53: a turn that the core may take fetches the instruction at its PC and runs it. -/
theorem stepRunsTheDecodedInstruction : Obligations.StepRunsTheDecodedInstruction := by
  intro s c dt ts bs rest i u hon hsched s' hchained hkilled hasync hissue hrep halign hbytes hdecode hi
  have hfetch : s'.fetchNext = .instr s'.core.pc i u :=
    State.fetchAt_of_decode _ (Rep.stagger_of_inactive hrep) halign hbytes hdecode hi
  calc step s = stepCore { ({ s with sched := ts } : State).pass dt with cur := c, acting := none } := by
        rw [step_of_coreTurn hon hsched, coreTurn]
        exact if_neg (ne_true_of_eq_false hchained)
    _ = runFetched s'.fetchNext := stepCore_eq_runFetched rfl hkilled hasync hissue
    _ = exec i (u.setPc s'.core.pc) := by rw [hfetch, runFetched]

end Machine

end Sys2Proof
end

section
/-!
PROOFS. Instructions and events go on (22_host_compat R380, R386): each is gated by the power and the boot state alone, which no fetch
changes, and answers one next state behind that gate.
-/

namespace Sys2Proof.Machine

open Sys2Proof

namespace State

/-- All that decides whether the module runs (22_host_compat R380, R386). -/
def supply (s : State) : Bool × Boot := (s.power, s.boot)

theorem ite_supply {c : Prop} [Decidable c] {s t u : State} (ht : t.supply = s.supply) (hu : u.supply = s.supply) :
    (if c then t else u).supply = s.supply := by
  split
  · exact ht
  · exact hu

theorem foldl_supply {α : Type} {f : State → α → State} (hf : ∀ s x, (f s x).supply = s.supply) (xs : List α) (s : State) :
    (xs.foldl f s).supply = s.supply := by
  induction xs generalizing s with
  | nil => rfl
  | cons x xs ih => exact (ih (f s x)).trans (hf s x)

/-! ### Writes of storage -/

@[simp] theorem withMem_supply (s : State) (m : Mem) : ({ s with mem := m } : State).supply = s.supply := rfl

@[simp] theorem withLines_supply (s : State) (ls : Tab SLine) (xs : Tab Split) (m : Mem) :
    ({ s with lines := ls, split := xs, mem := m } : State).supply = s.supply := rfl

@[simp] theorem withCores_supply (s : State) (ks : Tab Core) : ({ s with cores := ks } : State).supply = s.supply := rfl

@[simp] theorem countBy_supply (s : State) (i n : Nat) : (s.countBy i n).supply = s.supply := rfl

@[simp] theorem touchRow_supply (s : State) (loc : Nat) : (s.touchRow loc).supply = s.supply :=
  ite_supply rfl rfl

@[simp] theorem touch_supply (s : State) (loc : Nat) : (s.touch loc).supply = s.supply := by
  refine ite_supply ?_ (touchRow_supply s loc)
  split
  · exact ite_supply rfl rfl
  · rfl

@[simp] theorem clean_supply (s : State) (loc n : Nat) : (s.clean loc n).supply = s.supply :=
  ite_supply rfl rfl

@[simp] theorem cleanRange_supply (s : State) (base len : Nat) : (s.cleanRange base len).supply = s.supply :=
  foldl_supply (fun s _ => ite_supply (clean_supply s _ 32) rfl) _ s

@[simp] theorem poke_supply {w : Nat} (s : State) (loc n : Nat) (x : BitVec w) : (s.poke loc n x).supply = s.supply :=
  (clean_supply _ loc n).trans (touch_supply s loc)

@[simp] theorem traceHeader_supply (s : State) : s.traceHeader.supply = s.supply := by simp [traceHeader]

@[simp] theorem traceRec_supply (s : State) (ty tenant level region lcore : Nat) (arg : Word) :
    (s.traceRec ty tenant level region lcore arg).supply = s.supply := by
  refine ite_supply (ite_supply ?_ (traceHeader_supply _)) rfl
  refine (traceHeader_supply _).trans ((cleanRange_supply _ _ _).trans ?_)
  simp

/-! ### Slices and HBM4E -/

@[simp] theorem keepLeases_supply (s : State) (ln : Nat) : (s.keepLeases ln).supply = s.supply := rfl

@[simp] theorem setLineMarks_supply (s : State) (ln : Nat) (m : BitVec 4) : (s.setLineMarks ln m).supply = s.supply := rfl

@[simp] theorem setSliceLine_supply (s : State) (ln : Nat) (x : SLine) : (s.setSliceLine ln x).supply = s.supply := rfl

@[simp] theorem setSliceAt_supply (s : State) (n : Nat) (x : Slice) : (s.setSliceAt n x).supply = s.supply := rfl

@[simp] theorem setSpireAt_supply (s : State) (n : Nat) (x : Spire) : (s.setSpireAt n x).supply = s.supply := rfl

@[simp] theorem deliverSector_supply (s : State) (b : Nat) (bad : Bool) : (s.deliverSector b bad).supply = s.supply := by
  unfold deliverSector
  dsimp only
  split
  · exact ite_supply rfl rfl
  · exact ite_supply rfl rfl

@[simp] theorem dropMarks_supply (s : State) (ln : Nat) : (s.dropMarks ln).supply = s.supply :=
  ite_supply rfl rfl

@[simp] theorem writeMarks_supply (s : State) (ln : Nat) (m : BitVec 4) : (s.writeMarks ln m).supply = s.supply := rfl

@[simp] theorem writeBack_supply (s : State) (ln : Nat) : (s.writeBack ln).supply = s.supply := by simp [writeBack]

@[simp] theorem evictSlice_supply (s : State) (ln : Nat) : (s.evictSlice ln).supply = s.supply := by
  unfold evictSlice
  split
  · rfl
  · refine ite_supply (by simp) ?_
    split
    · simp
    · dsimp only
      split
      · rfl
      · simp

@[simp] theorem setHbmLine_supply (s : State) (ln : Nat) (x : BitVec 1024) : (s.setHbmLine ln x).supply = s.supply := by
  unfold setHbmLine
  dsimp only
  split
  · exact ite_supply rfl (ite_supply rfl rfl)
  · exact ite_supply rfl (withMem_supply _ _)

@[simp] theorem evictSplit_supply (s : State) (n ln : Nat) : (s.evictSplit n ln).supply = s.supply := by
  unfold evictSplit
  split
  · rfl
  · refine ite_supply ?_ rfl
    rw [writeMarks_supply, setHbmLine_supply, countBy_supply, touchRow_supply]; rfl

@[simp] theorem evictAt_supply (s : State) (n ln : Nat) : (s.evictAt n ln).supply = s.supply :=
  ite_supply (evictSlice_supply s ln) (evictSplit_supply s n ln)

@[simp] theorem enterSlice_supply (s : State) (n ln : Nat) (first : Bool) : (s.enterSlice n ln first).supply = s.supply := by
  unfold enterSlice; dsimp only; split <;> simp

@[simp] theorem returnLine_supply (s : State) (sp ln : Nat) : (s.returnLine sp ln).supply = s.supply := by
  unfold returnLine
  dsimp only
  split
  · rfl
  · refine ite_supply ?_ rfl
    rw [enterSlice_supply]; rfl

@[simp] theorem recallLine_supply (s : State) (except ln : Nat) : (s.recallLine except ln).supply = s.supply := by
  unfold recallLine
  split
  · exact ite_supply rfl (returnLine_supply s _ ln)
  · rfl

@[simp] theorem park_supply (s : State) (ln : Nat) : (s.park ln).supply = s.supply :=
  ite_supply rfl rfl

@[simp] theorem unpark_supply (s : State) (home ln : Nat) : (s.unpark home ln).supply = s.supply := by
  unfold unpark
  split
  · rfl
  · rw [setLineMarks_supply, withLines_supply, keepLeases_supply]

@[simp] theorem activate_supply (s : State) (home ln : Nat) : (s.activate home ln).supply = s.supply := by
  have hparked : ∀ c : Bool, (if c then (s.recallLine noSpire ln).park ln else s).supply = s.supply := fun c =>
    ite_supply (by simp) rfl
  unfold activate
  exact ite_supply (hparked _) ((unpark_supply _ home ln).trans (hparked _))

@[simp] theorem postFault_supply (s : State) (kind source pa : Nat) : (s.postFault kind source pa).supply = s.supply := by
  unfold postFault
  split
  · rfl
  · refine ite_supply rfl (ite_supply (poke_supply s _ _ _) ?_)
    simp

@[simp] theorem countCorrected_supply (s : State) (source pa : Nat) : (s.countCorrected source pa).supply = s.supply := by
  refine ite_supply rfl ?_
  split
  · exact ite_supply (postFault_supply _ _ _ _) rfl
  · split
    · rfl
    · exact postFault_supply _ _ _ _

@[simp] theorem demandBeat_supply (s : State) (pa : Nat) : (s.demandBeat pa).supply = s.supply := by
  refine ite_supply (deliverSector_supply _ _ _) ?_
  split <;> simp

@[simp] theorem sliceLine_supply (s : State) (home ln : Nat) (first : Bool) : (s.sliceLine home ln first).2.supply = s.supply := by
  unfold sliceLine
  dsimp only
  split
  · simp
  · dsimp only
    rw [enterSlice_supply, setSliceLine_supply]
    refine ite_supply ((foldl_supply demandBeat_supply _ _).trans ?_) ?_ <;> simp

/-! ### Translation and fetch -/

@[simp] theorem hwFetch_supply (s : State) (loc : Nat) : (s.hwFetch loc).supply = s.supply :=
  ite_supply (sliceLine_supply s _ _ false) rfl

@[simp] theorem hwFetchRange_supply (s : State) (loc n : Nat) : (s.hwFetchRange loc n).supply = s.supply := by simp [hwFetchRange]

@[simp] theorem readContext_supply (s : State) (tenant : Nat) (ctx : BitVec 16) : (s.readContext tenant ctx).2.supply = s.supply := by
  unfold readContext; dsimp only; split <;> simp

@[simp] theorem walkFrom_supply (tenant keep va fuel level table : Nat) (s : State) :
    (walkFrom tenant keep va fuel level table s).2.supply = s.supply := by
  induction fuel generalizing level table s with
  | zero => rfl
  | succ fuel ih =>
    unfold walkFrom
    dsimp only
    split
    · simp
    · split
      · simp
      · split
        · simp
        · rw [ih, hwFetch_supply]

@[simp] theorem walk_supply (s : State) (tenant : Nat) (ctx : BitVec 16) (va : Nat) : (s.walk tenant ctx va).2.supply = s.supply := by
  unfold walk
  dsimp only
  split
  · simp
  · split <;> simp

theorem translate_supply {s s' : State} {spire tenant va : Nat} {ctx : BitVec 16} {acc : Acc} {p : Place}
    (h : s.translate spire tenant ctx acc va = some (p, s')) : s'.supply = s.supply := by
  unfold translate at h
  split at h
  · split at h
    · cases h
    · cases h; rfl
  · split at h
    · obtain ⟨_, -, h⟩ := Option.map_eq_some_iff.1 h
      cases h; rfl
    · split at h
      · cases h
      · next t hwalk =>
        obtain ⟨_, -, h⟩ := Option.map_eq_some_iff.1 h
        cases h
        have := walk_supply s tenant ctx va
        rw [hwalk] at this
        exact this

@[simp] theorem fetchLine_supply (s : State) (p : Place) : (s.fetchLine p).supply = s.supply := by
  refine ite_supply (ite_supply ?_ ((demandBeat_supply _ _).trans ?_)) (ite_supply rfl (sliceLine_supply s _ _ _)) <;> simp

theorem fetchBytes_supply {s t : State} {va : Word} {bs : List Byte} (h : s.fetchBytes va = .ok (bs, t)) : t.supply = s.supply := by
  unfold fetchBytes at h
  split at h
  · split at h
    · next p s' htr =>
      split at h
      · cases h
      · have hline : (if isHbm p.loc then s'.fetchLine p else s').supply = s.supply :=
          (ite_supply (fetchLine_supply s' p) rfl).trans (translate_supply htr)
        revert h hline
        generalize (if isHbm p.loc then s'.fetchLine p else s') = u
        intro h hline
        dsimp only at h
        split at h
        · cases h
        · cases h; exact hline
    · cases h
  · cases h

theorem fetchAt_supply {s t : State} {stagger : Raw → Raw} {fuel : Nat} {va at_ : Word} {i : Instr}
    (h : s.fetchAt stagger fuel va = .instr at_ i t) : t.supply = s.supply := by
  induction fuel generalizing s va with
  | zero => cases h
  | succ fuel ih =>
    unfold fetchAt at h
    split at h
    · cases h
    · split at h
      · cases h
      · next bs s' hbytes =>
        dsimp only at h
        split at h
        · cases h
        · split at h
          · exact (ih h).trans (fetchBytes_supply hbytes)
          · split at h
            · cases h; exact fetchBytes_supply hbytes
            · cases h

end State

end Sys2Proof.Machine
end

section
/-!
PROOFS. Every instruction and every event but a device reset answers one next state behind the gate of power and boot (22_host_compat
R380, R386).
-/

namespace Sys2Proof.Machine

open Sys2Proof

theorem powered_eq_of_supply {s t : State} (h : t.supply = s.supply) (o : Out) : powered t o = powered s o := by
  obtain ⟨hpower, hboot⟩ := Prod.mk.inj h
  rw [powered, powered, hpower, hboot]

/-- An outcome that goes on where the module runs, and stops by name where it does not. -/
def GoesOn (s : State) (o : Out) : Prop := ∃ t, o = powered s (.next t)

theorem goesOn_powered (s t : State) : GoesOn s (powered s (.next t)) := ⟨t, rfl⟩

theorem goesOn_event (s : State) (f : State → State) : GoesOn s (event f s) := ⟨f s, rfl⟩

theorem GoesOn.of_supply {s t : State} {o : Out} (h : GoesOn t o) (hst : t.supply = s.supply) : GoesOn s o := by
  obtain ⟨u, rfl⟩ := h
  exact ⟨u, powered_eq_of_supply hst _⟩

/-- What follows a fetch that found an instruction is gated as what came before it. -/
theorem GoesOn.of_fetch {s t : State} {at_ : Word} {i : Instr} {o : Out} (h : GoesOn (t.setPc at_) o)
    (hf : s.fetchNext = .instr at_ i t) : GoesOn s o := by
  have hfetch : t.supply = s.supply := State.fetchAt_supply hf
  exact h.of_supply hfetch

/-- An instruction goes on whatever its checks and its guard answer; a follower waits for its leader. -/
theorem goesOn_of_instr {i : Instr} (he : i.isEvent = false) (s : State) : GoesOn s (exec i s) := by
  by_cases hf : i = .fill
  · subst hf; dsimp only [exec]; exact goesOn_event s _
  · by_cases hm : afterLeader i = true ∧ s.mustFollow = true
    · exact ⟨s, exec_afterLeader hm.1 hm.2⟩
    · obtain ⟨body, h⟩ := exec_eq_instrIf he hf fun hl => Bool.eq_false_iff.2 fun hs => hm ⟨hl, hs⟩
      exact ⟨_, h⟩

/-- The coprocessor port runs a matrix instruction as any turn would, and leaves another one alone. -/
theorem matrixExec_eq (i : Instr) (s : State) :
    i.isEvent = false ∧ matrixExec i s = exec i s ∨ matrixExec i s = powered s (.next s) := by
  unfold matrixExec
  split
  case h_23 => exact .inr rfl
  all_goals exact .inl ⟨rfl, rfl⟩

theorem goesOn_matrixExec (i : Instr) (s : State) : GoesOn s (matrixExec i s) := by
  obtain ⟨he, h⟩ | h := matrixExec_eq i s
  · exact h ▸ goesOn_of_instr he s
  · exact ⟨s, h⟩

theorem goesOn_coprocessorPortAccept (spire : Nat) (s : State) : GoesOn s (execCoprocessorPortAccept spire s) := by
  unfold execCoprocessorPortAccept
  split
  · exact goesOn_powered s s
  · next c _ =>
    refine GoesOn.of_supply (t := { s with cur := c }) ?_ rfl
    dsimp only
    split
    · next hfetch =>
      split at hfetch
      · exact (goesOn_matrixExec _ _).of_fetch (Option.some.inj hfetch)
      · cases hfetch
    · exact goesOn_powered _ _

theorem goesOn_channelRetry (core : Nat) (s : State) : GoesOn s (execChannelRetry core s) := by
  refine GoesOn.of_supply (t := { s with cur := core }) ?_ rfl
  unfold execChannelRetry
  dsimp only
  split
  · split
    · split
      · next hfetch => exact (goesOn_of_instr (i := .send ..) rfl _).of_fetch hfetch
      · next hfetch => exact (goesOn_of_instr (i := .recv ..) rfl _).of_fetch hfetch
      · exact goesOn_powered _ _
    · exact goesOn_powered _ _
  · exact goesOn_powered _ _

theorem goesOn_yieldTimeout (core : Nat) (s : State) : GoesOn s (execYieldTimeout core s) := by
  refine GoesOn.of_supply (t := { s with cur := core }) ?_ rfl
  unfold execYieldTimeout
  dsimp only
  split
  · split
    · split
      · next hfetch => exact (goesOn_of_instr (i := .yield ..) rfl _).of_fetch hfetch
      · exact goesOn_powered _ _
    · exact goesOn_powered _ _
  · exact goesOn_powered _ _

theorem goesOn_of_event {i : Instr} (he : i.isEvent = true) (hi : i ≠ .deviceReset) (s : State) : GoesOn s (exec i s) := by
  cases i <;> cases he
  case deviceReset => exact absurd rfl hi
  case coprocessorPortAccept => exact goesOn_coprocessorPortAccept _ s
  case channelRetry => exact goesOn_channelRetry _ s
  case yieldTimeout => exact goesOn_yieldTimeout _ s
  all_goals dsimp only [exec]; exact goesOn_event s _

/-- Every instruction and every event but a device reset goes on. -/
theorem goesOn_exec {i : Instr} (hi : i ≠ .deviceReset) (s : State) : GoesOn s (exec i s) := by
  cases he : i.isEvent with
  | false => exact goesOn_of_instr he s
  | true => exact goesOn_of_event he hi s

/-- A device reset needs neither power nor a boot. -/
theorem exec_deviceReset_next (s : State) : exec .deviceReset s = .next s.bringUp := rfl

/-- Settles O57: behind the gate of power and boot stands one next state. -/
theorem everyInstructionGoesOn : Obligations.EveryInstructionGoesOn := by
  refine ⟨fun i s hon => ?_, fun i s hi hpower => ?_, fun i s hi hpower hboot => ?_, fun s => ⟨_, exec_deviceReset_next s⟩⟩
  · by_cases hi : i = .deviceReset
    · exact ⟨_, hi ▸ exec_deviceReset_next s⟩
    · obtain ⟨t, ht⟩ := goesOn_exec hi s
      exact ⟨t, ht.trans (powered_on hon _)⟩
  · obtain ⟨t, ht⟩ := goesOn_exec hi s
    exact ht.trans (if_pos hpower)
  · obtain ⟨t, ht⟩ := goesOn_exec hi s
    rw [ht, powered, if_neg (by simp [hpower]), if_pos hboot]

end Sys2Proof.Machine
end

section
/-!
PROOFS. The scalar instructions that compute (02_scalar R52-R62): each shape of the family completes with its result, and the
operations of the model are those the rules write out.
-/

namespace Sys2Proof.Machine

open Sys2Proof

/-! ## The operations of the model are those of the rules -/

namespace Alu

/-- The model's order is the order of the exact values in the same signedness (R52). -/
theorem lt_eq_value (sg : Bool) (w : Nat) (x y : BitVec w) : lt sg w x y = decide (value sg w x < value sg w y) := by
  cases sg
  · simp [lt, value, BitVec.ult]
  · simp [lt, value, BitVec.slt]

theorem not_lt_eq_value (sg : Bool) (w : Nat) (x y : BitVec w) : (!lt sg w x y) = decide (value sg w y ≤ value sg w x) := by
  rw [lt_eq_value, ← decide_not, decide_eq_decide, not_lt]

theorem min_eq_value (sg : Bool) (w : Nat) (x y : BitVec w) : min sg w x y = if value sg w y < value sg w x then y else x := by
  simp [min, lt_eq_value]

theorem max_eq_value (sg : Bool) (w : Nat) (x y : BitVec w) : max sg w x y = if value sg w x < value sg w y then y else x := by
  simp [max, lt_eq_value]

/-- The leading zeros are those met from bit w - 1 down (R55). -/
theorem clz_eq_getLsbD (w : Nat) (x : BitVec w) :
    clz w x = BitVec.ofNat w ((List.range w).takeWhile fun i => !x.getLsbD (w - 1 - i)).length := by
  have hbit : ∀ xs : List Nat, (∀ i ∈ xs, i < w) → xs.takeWhile (fun i => !x.getMsbD i) = xs.takeWhile fun i => !x.getLsbD (w - 1 - i) := by
    intro xs
    induction xs with
    | nil => intro _; rfl
    | cons i xs ih =>
      intro h
      obtain ⟨hi, hxs⟩ := List.forall_mem_cons.1 h
      simp only [List.takeWhile_cons, BitVec.getMsbD, hi, decide_true, Bool.true_and] at ih ⊢
      rw [ih hxs]
  rw [clz, leading, hbit _ fun _ => List.mem_range.1]

end Alu

/-! ## The shapes of the family -/

/-- A guarded instruction that writes one scalar register. -/
theorem setsReg_of {i : Instr} {g : Guard} {d : SReg} {v : State → Word}
    (h : ∀ s, exec i s = instr i g (fun s => .done (s.setReg d (v s))) s) : SetsReg i g d v :=
  completes_instr _ h (fun _ => rfl) fun _ => rfl

/-- A guarded instruction that writes one predicate. -/
theorem setsPred_of {i : Instr} {g : Guard} {d : PReg} {v : State → BitVec 32}
    (h : ∀ s, exec i s = instr i g (fun s => .done (s.setPred d (v s))) s) : SetsPred i g d v :=
  completes_instr _ h (fun _ => rfl) fun _ => rfl

section
variable {i : Instr} {g : Guard} {t : Ty} {d a : SReg} {p : PReg} {b : OpB}

/-- An operation of width W on w[A] and operand B (R52). -/
theorem setsReg_intOp {f f' : (w : Nat) → BitVec w → BitVec w → BitVec w} (h : ∀ s, exec i s = scalarOp i g d a b (intOp t f) s)
    (hf : ∀ w x y, f w x y = f' w x y) : SetsReg i g d fun s => intOp t f' (s.reg a) (s.opB b) := by
  obtain rfl : f = f' := funext fun w => funext fun x => funext fun y => hf w x y
  exact setsReg_of h

/-- An operation of width W on w[A], zero-extended (R55). -/
theorem setsReg_bitOp {f f' : (w : Nat) → BitVec w → BitVec w} (h : ∀ s, exec i s = scalarUn i g d a (bitOp t f) s)
    (hf : ∀ w x, f w x = f' w x) : SetsReg i g d fun s => bitOp t f' (s.reg a) := by
  obtain rfl : f = f' := funext fun w => funext fun x => hf w x
  exact setsReg_of h

/-- A comparison of width W on w[A] and operand B (R57). -/
theorem setsPred_intCmp {f f' : (w : Nat) → BitVec w → BitVec w → Bool} (h : ∀ s, exec i s = scalarCmp i g p a b (intCmp t f) s)
    (hf : ∀ w x y, f w x y = f' w x y) :
    SetsPred i g p fun s => if intCmp t f' (s.reg a) (s.opB b) then 0xFFFFFFFF else 0 := by
  obtain rfl : f = f' := funext fun w => funext fun x => funext fun y => hf w x y
  exact setsPred_of h

end

/-! ## The statements -/

/-- Settles O1: sixteen operations of one shape; MIN and MAX compare the exact values. -/
theorem scalarArithmeticCompletes : Obligations.ScalarArithmeticCompletes := by
  intro g t d a b
  refine ⟨?add, ?sub, ?and, ?or, ?xor, ?andn, ?shl, ?shr, ?sar, ?ror, ?min, ?max, ?mul, ?mulh, ?div, ?rem⟩
  case min => exact setsReg_intOp (exec_min · g t d a b) (Alu.min_eq_value (isSigned t))
  case max => exact setsReg_intOp (exec_max · g t d a b) (Alu.max_eq_value (isSigned t))
  case add => exact setsReg_intOp (exec_add · g t d a b) fun _ _ _ => rfl
  case sub => exact setsReg_intOp (exec_sub · g t d a b) fun _ _ _ => rfl
  case and => exact setsReg_intOp (exec_and · g t d a b) fun _ _ _ => rfl
  case or => exact setsReg_intOp (exec_or · g t d a b) fun _ _ _ => rfl
  case xor => exact setsReg_intOp (exec_xor · g t d a b) fun _ _ _ => rfl
  case andn => exact setsReg_intOp (exec_andn · g t d a b) fun _ _ _ => rfl
  case shl => exact setsReg_intOp (exec_shl · g t d a b) fun _ _ _ => rfl
  case shr => exact setsReg_intOp (exec_shr · g t d a b) fun _ _ _ => rfl
  case sar => exact setsReg_intOp (exec_sar · g t d a b) fun _ _ _ => rfl
  case ror => exact setsReg_intOp (exec_ror · g t d a b) fun _ _ _ => rfl
  case mul => exact setsReg_intOp (exec_mul · g t d a b) fun _ _ _ => rfl
  case mulh => exact setsReg_intOp (exec_mulh · g t d a b) fun _ _ _ => rfl
  case div => exact setsReg_intOp (exec_div · g t d a b) fun _ _ _ => rfl
  case rem => exact setsReg_intOp (exec_rem · g t d a b) fun _ _ _ => rfl

/-- Settles O2: CLZ counts from the top bit down; the other operations stand as the rules write them. -/
theorem bitOperationsComplete : Obligations.BitOperationsComplete := by
  intro g t d a
  refine ⟨?clz, ?ctz, ?popc, ?brev, ?bswap, fun pos lenM1 => ?bext, fun pos lenM1 => ?bins, ?sext, ?zext⟩
  case clz => exact setsReg_bitOp (exec_clz · g t d a) Alu.clz_eq_getLsbD
  case ctz => exact setsReg_bitOp (exec_ctz · g t d a) fun _ _ => rfl
  case popc => exact setsReg_bitOp (exec_popc · g t d a) fun _ _ => rfl
  case brev => exact setsReg_bitOp (exec_brev · g t d a) fun _ _ => rfl
  case bswap => exact setsReg_bitOp (exec_bswap · g t d a) fun _ _ => rfl
  case bext => exact setsReg_bitOp (exec_bext · g t d a pos lenM1) fun _ _ => rfl
  case bins => exact setsReg_of (exec_bins · g t d a pos lenM1)
  case sext => exact setsReg_of (exec_sext · g t d a)
  case zext => exact setsReg_of (exec_zext · g t d a)

/-- Settles O3: the compares order the exact values; the predicate operations stand as the rule writes them. -/
theorem comparesAndPredicatesComplete : Obligations.ComparesAndPredicatesComplete := by
  refine ⟨fun g t d a b => ⟨?eq, ?ne, ?lt, ?le, ?gt, ?ge⟩, fun g d a b => ⟨?pand, ?por, ?pxor, ?pandn, ?pnot, ?pmov⟩,
    fun g d imm => setsPred_of (exec_pset · g d imm)⟩
  case eq => exact setsPred_intCmp (exec_cmpEq · g t d a b) fun _ _ _ => rfl
  case ne => exact setsPred_intCmp (exec_cmpNe · g t d a b) fun _ _ _ => rfl
  case lt => exact setsPred_intCmp (exec_cmpLt · g t d a b) (Alu.lt_eq_value (isSigned t))
  case le => exact setsPred_intCmp (exec_cmpLe · g t d a b) fun w x y => Alu.not_lt_eq_value (isSigned t) w y x
  case gt => exact setsPred_intCmp (exec_cmpGt · g t d a b) fun w x y => Alu.lt_eq_value (isSigned t) w y x
  case ge => exact setsPred_intCmp (exec_cmpGe · g t d a b) (Alu.not_lt_eq_value (isSigned t))
  case pand => exact setsPred_of (exec_pand · g d a b)
  case por => exact setsPred_of (exec_por · g d a b)
  case pxor => exact setsPred_of (exec_pxor · g d a b)
  case pandn => exact setsPred_of (exec_pandn · g d a b)
  case pnot => exact setsPred_of (exec_pnot · g d a)
  case pmov => exact setsPred_of (exec_pmov · g d a)

/-- Settles O4: each form writes the value its rule names; the mix is the pseudocode of R62. -/
theorem movesComplete : Obligations.MovesComplete := by
  intro g d a b
  refine ⟨fun v => ?imm16, fun v => ?imm32, fun v => ?imm64, ?mov, fun sc => ?idx, fun sc v => ?idxDisp, fun v => ?disp16,
    fun v => ?disp32, fun c => ?sel, fun x => ?qcap, ?rndc⟩
  case imm16 => exact setsReg_of (exec_movi · g d (.imm16 v))
  case imm32 => exact setsReg_of (exec_movi · g d (.imm32 v))
  case imm64 => exact setsReg_of (exec_movi · g d (.imm64 v))
  case mov => exact setsReg_of (exec_mov · g d a)
  case idx => exact setsReg_of (exec_lea · g d a (.idx b sc))
  case idxDisp => exact setsReg_of (exec_lea · g d a (.idxDisp b sc v))
  case disp16 => exact setsReg_of (exec_lea · g d a (.imm16 v))
  case disp32 => exact setsReg_of (exec_lea · g d a (.imm32 v))
  case sel => exact setsReg_of (exec_sel · g d a b c)
  case qcap => exact setsReg_of (exec_qcap · g d x)
  case rndc => exact setsReg_of (exec_rndc · g d a b)

end Sys2Proof.Machine
end

section
/-!
PROOFS. The scalar floating-point instructions (02_scalar R66-R71): each shape of the family completes with its rounded result and its
flags.
-/

namespace Sys2Proof.Machine

open Sys2Proof

/-- A guarded instruction that writes one scalar register, with flags (R66). -/
theorem setsFp_of {i : Instr} {g : Guard} {d : SReg} {r : State → Nat × Flags}
    (h : ∀ s, exec i s = instr i g (fun s => .done (s.fpResult d (r s))) s) : SetsFp i g d r :=
  completes_instr _ h (fun _ => rfl) fun _ => rfl

/-- The mode field of a conversion is 0 for FCSR.RM, else the mode plus 1 (R70). -/
theorem modeOf_eq (s : State) (rm : BitVec 4) : modeOf s rm.toNat = if rm = 0 then s.rm else rm.toNat - 1 := by
  simp only [modeOf, BitVec.toNat_eq]
  rfl

/-- A compare writes its condition and raises NV (R69). -/
theorem completes_fpCmp {i : Instr} {g : Guard} {t : Ty} {d : PReg} {a b : SReg} (quiet : Bool) (f : FpVal → FpVal → Bool)
    (h : ∀ s, exec i s = fpCmp i g t d a b quiet f s) : Completes i (State.whole g) fun s =>
      let x := fpReg (scalarFmt t) s a
      let y := fpReg (scalarFmt t) s b
      (s.setPred d (if f x y then 0xFFFFFFFF else 0)).raise (if x.isSig || y.isSig || (quiet && (x.isNan || y.isNan)) then Flags.nv else 0) :=
  completes_instr _ h (fun _ => rfl) fun _ => rfl

/-- Settles O7: each operation rounds once by FCSR.RM; FNEG and FABS raise no flag. -/
theorem scalarFloatArithmeticCompletes : Obligations.ScalarFloatArithmeticCompletes := by
  intro g t d a b c
  refine ⟨?fadd, ?fsub, ?fmul, ?fdiv, ?fsqrt, ?fmin, ?fmax, ?fneg, ?fabs, ?fma, ?fms, ?fnma, ?fnms⟩
  case fadd => exact setsFp_of (exec_fadd · g t d a b)
  case fsub => exact setsFp_of (exec_fsub · g t d a b)
  case fmul => exact setsFp_of (exec_fmul · g t d a b)
  case fdiv => exact setsFp_of (exec_fdiv · g t d a b)
  case fsqrt => exact setsFp_of (exec_fsqrt · g t d a)
  case fmin => exact setsFp_of (exec_fmin · g t d a b)
  case fmax => exact setsFp_of (exec_fmax · g t d a b)
  case fneg => exact setsReg_of (exec_fneg · g t d a)
  case fabs => exact setsReg_of (exec_fabs · g t d a)
  case fma => exact setsFp_of (exec_fma · g t d a b c)
  case fms => exact setsFp_of (exec_fms · g t d a b c)
  case fnma => exact setsFp_of (exec_fnma · g t d a b c)
  case fnms => exact setsFp_of (exec_fnms · g t d a b c)

/-- Settles O8: a compare and its NV flag; a conversion under the mode its field names; the class as one bit. -/
theorem scalarFloatComparesComplete : Obligations.ScalarFloatComparesComplete := by
  refine ⟨fun g t d a b => ⟨?eq, ?lt, ?le, ?un⟩, fun g t src d a rm => ?fcvt, fun g t d a => setsReg_of (exec_fclass · g t d a)⟩
  case eq => exact completes_fpCmp false FpVal.eq (exec_fcmpEq · g t d a b)
  case lt => exact completes_fpCmp true FpVal.lt (exec_fcmpLt · g t d a b)
  case le => exact completes_fpCmp true (fun x y => FpVal.lt x y || FpVal.eq x y) (exec_fcmpLe · g t d a b)
  case un => exact completes_fpCmp false (fun x y => x.isNan || y.isNan) (exec_fcmpUn · g t d a b)
  case fcvt =>
    simp only [← modeOf_eq]
    exact completes_instr _ (exec_fcvt · g t d a src rm) (fun _ => rfl) fun _ => rfl

end Sys2Proof.Machine
end

section
/-!
PROOFS. What a scalar instruction leaves unchanged (02_scalar R51, R79): a frame lemma for each thing an instruction and its retirement
do to the state, and the frame of an instruction that completes with a plain function of the state.
-/

namespace Sys2Proof.Machine

open Sys2Proof

namespace State

variable {s t u : State} {out : Nat → Prop}

/-! ## The current core and the live workspace after a write -/

theorem core_congr (hcores : t.cores = s.cores) (hcur : t.cur = s.cur) : t.core = s.core := by simp only [core, coreAt, hcores, hcur]

@[simp] theorem core_setWord (s : State) (off : Nat) (x : Word) : (s.setWord off x).core = s.core := rfl

@[simp] theorem core_setReg (s : State) (r : SReg) (x : Word) : (s.setReg r x).core = s.core :=
  core_congr (setReg_cores s r x) (setReg_cur s r x)

@[simp] theorem core_setPred (s : State) (p : PReg) (x : BitVec 32) : (s.setPred p x).core = s.core :=
  core_congr (setPred_cores s p x) (setPred_cur s p x)

@[simp] theorem core_count (s : State) (i n : Nat) : (s.count i n).core = s.core := rfl

@[simp] theorem live_setWord (s : State) (w off : Nat) (x : Word) : (s.setWord w x).live off = s.live off := rfl

theorem word_setWord_same (h : Mem.wf s.mem = true) (off : Nat) (x : Word) : (s.setWord off x).word off = x :=
  Mem.load_store h (by decide) _ _

theorem word_setWord_other (h : Mem.wf s.mem = true) {off off' : Nat} (x : Word) (hout : off' + 8 ≤ off ∨ off + 8 ≤ off') :
    (s.setWord off x).word off' = s.word off' := load_live_store_other h x hout

/-- The words after the register files are none of the scalar registers (R41). -/
theorem word_setReg (h : Mem.wf s.mem = true) (r : SReg) (x : Word) {off : Nat} (hoff : 0x100 ≤ off) :
    (s.setReg r x).word off = s.word off := by
  rw [word, live_setReg, load_live_setReg h r x (by omega), word]

theorem word_setPred (h : Mem.wf s.mem = true) (p : PReg) (x : BitVec 32) {off : Nat} (hoff : 0x520 ≤ off) :
    (s.setPred p x).word off = s.word off := by
  rw [word, live_setPred, load_live_setPred h p x (by omega), word]

/-- A word of the live workspace depends on storage and on where the workspace lies. -/
theorem word_congr (hmem : t.mem = s.mem) (hcur : t.cur = s.cur) (hwp : t.core.wp = s.core.wp) (off : Nat) :
    t.word off = s.word off := by simp only [word, live, hmem, hcur, hwp]

/-! ## Retirement -/

/-- Retirement outside a repetition: the next address (R51). -/
theorem retire_of_inactive (h : Rep.active (s.word Ws.repState) = false) (size : Nat) :
    s.retire size = s.retireAt (s.core.pc + BitVec.ofNat 64 size) := by
  rw [retire, h]; rfl

/-- Retirement in a repetition: REP_STATE and the PC that R79 gives. -/
theorem retire_of_active (h : Rep.active (s.word Ws.repState) = true) (size : Nat) :
    s.retire size =
      let x := Rep.step (s.word Ws.repState) (s.word Ws.repBase) (s.core.pc + BitVec.ofNat 64 size)
      (s.setWord Ws.repState x.1).retireAt x.2 := by
  rw [retire, h]; rfl

theorem retireAt_core (s : State) (pc : Word) : (s.retireAt pc).core = retiredCore s.core pc := by
  rw [retireAt, core_onCore, core_count]

theorem word_retireAt (s : State) (pc : Word) (off : Nat) : (s.retireAt pc).word off = s.word off :=
  word_congr (s := s) (t := s.retireAt pc) rfl rfl (by rw [retireAt_core]; rfl) off

/-- Retirement changes no word of the live workspace but REP_STATE. -/
theorem word_retire (h : Mem.wf s.mem = true) (size : Nat) {off : Nat} (hoff : off + 8 ≤ Ws.repState ∨ Ws.repState + 8 ≤ off) :
    (s.retire size).word off = s.word off := by
  cases hr : Rep.active (s.word Ws.repState) with
  | false => rw [retire_of_inactive hr, word_retireAt]
  | true => rw [retire_of_active hr, word_retireAt, word_setWord_other h _ hoff]

/-! ## What completing changes of the core alone -/

theorem wiped_frame (s : State) (i : Instr) : s.wiped i = { s with cores := (s.wiped i).cores } := by
  unfold wiped
  split <;> rfl

theorem wiped_core (s : State) (i : Instr) : (s.wiped i).core = { s.core with soft := (s.wiped i).core.soft } := by
  unfold wiped
  split
  · rfl
  · rw [core_onCore]

theorem wiped_other (s : State) (i : Instr) {c : Nat} (h : c ≠ s.cur) : (s.wiped i).coreAt c = s.coreAt c := by
  unfold wiped
  split
  · rfl
  · exact coreAt_onCore_other s _ h

theorem word_wiped (s : State) (i : Instr) (off : Nat) : (s.wiped i).word off = s.word off :=
  word_congr (by rw [wiped_frame]) (by rw [wiped_frame]) (by rw [wiped_core]) off

theorem wiped_mem (s : State) (i : Instr) : (s.wiped i).mem = s.mem := by rw [wiped_frame]

theorem acquireTokens_mem (s : State) (i : Instr) : (s.acquireTokens i).mem = s.mem := by rw [acquireTokens_frame]

theorem acquireTokens_cur (s : State) (i : Instr) : (s.acquireTokens i).cur = s.cur := by rw [acquireTokens_frame]

theorem acquireTokens_wp (s : State) (i : Instr) : (s.acquireTokens i).core.wp = s.core.wp := by rw [acquireTokens_core]

@[simp] theorem live_acquireTokens (s : State) (i : Instr) (off : Nat) : (s.acquireTokens i).live off = s.live off := by
  simp only [live, acquireTokens_cur, acquireTokens_wp]

theorem word_acquireTokens (s : State) (i : Instr) (off : Nat) : (s.acquireTokens i).word off = s.word off :=
  word_congr (acquireTokens_mem s i) (acquireTokens_cur s i) (acquireTokens_wp s i) off

/-! ## Frames -/

theorem sameCoreBut_trans {k k' k'' : Core} (h : sameCoreBut k k') (h' : sameCoreBut k' k'') : sameCoreBut k k'' :=
  h'.trans (congrArg (fun x : Core => { x with
    pc := k''.pc, instret := k''.instret, status := k''.status, done := k''.done, released := k''.released, bsync := k''.bsync
    soft := k''.soft, landed := k''.landed, lt := k''.lt }) h)

theorem unchangedBut.cur (h : s.unchangedBut t out) : t.cur = s.cur := by
  obtain ⟨-, heq, -, -⟩ := h
  rw [heq]

theorem unchangedBut.live (h : s.unchangedBut t out) (off : Nat) : t.live off = s.live off := by
  have hwp : t.core.wp = s.core.wp := by
    obtain ⟨-, -, hcore, -⟩ := h
    rw [hcore]
  simp only [State.live, h.cur, hwp]

theorem unchangedBut.trans (h : s.unchangedBut t out) (h' : t.unchangedBut u out) : s.unchangedBut u out := by
  have hcur := h.cur
  obtain ⟨hbytes, heq, hcore, hothers⟩ := h
  obtain ⟨hbytes', heq', hcore', hothers'⟩ := h'
  refine ⟨fun loc hloc => (hbytes' loc hloc).trans (hbytes loc hloc), ?_, sameCoreBut_trans hcore hcore', fun c hc => ?_⟩
  · exact heq'.trans (congrArg (fun x : State => { x with mem := u.mem, cores := u.cores, counters := u.counters }) heq)
  · rw [hothers' c (hcur ▸ hc), hothers c hc]

theorem unchangedBut.mono {out' : Nat → Prop} (h : s.unchangedBut t out) (hout : ∀ loc, out loc → out' loc) : s.unchangedBut t out' := by
  obtain ⟨hbytes, hrest⟩ := h
  exact ⟨fun loc hloc => hbytes loc fun hin => hloc (hout loc hin), hrest⟩

/-- A word of the live workspace of which no byte may change is as before. -/
theorem unchangedBut.word (h : s.unchangedBut t out) {off : Nat} (hout : ∀ loc, s.wordByte off loc → ¬ out loc) :
    t.word off = s.word off := by
  rw [State.word, h.live off, State.word, Mem.load, Mem.load, Mem.bytes, Mem.bytes]
  obtain ⟨hbytes, -, -, -⟩ := h
  refine congrArg _ (List.map_congr_left fun k hk => ?_)
  have hlt := List.mem_range.1 hk
  exact hbytes _ (hout _ ⟨by omega, by omega⟩)

/-- A change of the current core's record that every retired instruction may make. -/
theorem unchangedBut_onCore {f : Core → Core} (h : sameCoreBut s.core (f s.core)) : s.unchangedBut (s.onCore f) out :=
  ⟨fun _ _ => rfl, rfl, (core_onCore s f).symm ▸ h, fun _ hc => coreAt_onCore_other s f hc⟩

theorem unchangedBut_count (s : State) (i n : Nat) : s.unchangedBut (s.count i n) out := ⟨fun _ _ => rfl, rfl, rfl, fun _ _ => rfl⟩

/-- A store to the live workspace changes its own bytes. -/
theorem unchangedBut_store {w off n : Nat} (hwf : Mem.wf s.mem = true) (x : BitVec w) (hout : ∀ loc, covers (s.live off) n loc → out loc) :
    s.unchangedBut { s with mem := Mem.store s.mem (s.live off) n x } out :=
  ⟨fun loc hloc => Mem.read_store_other hwf n x (by by_contra hin; exact hloc (hout loc (by simp only [covers]; omega))), rfl, rfl,
    fun _ _ => rfl⟩

/-- A scalar register lies apart from the words after the register files (R41). -/
theorem not_regByte_of_wordByte {r : SReg} {off loc : Nat} (hoff : 0x520 ≤ off) (h : s.wordByte off loc) : ¬ s.regByte r loc := by
  simp only [wordByte, regByte, covers, State.live, wsLoc] at *
  omega

/-- A predicate lies apart from the words after the register files (R41). -/
theorem not_predByte_of_wordByte {p : PReg} {off loc : Nat} (hoff : 0x520 ≤ off) (h : s.wordByte off loc) : ¬ s.predByte p loc := by
  simp only [wordByte, predByte, covers, State.live, wsLoc] at *
  omega

theorem not_wordByte_of_wordByte {off off' loc : Nat} (hoff : off' + 8 ≤ off ∨ off + 8 ≤ off') (h : s.wordByte off loc) :
    ¬ s.wordByte off' loc := by
  simp only [wordByte, covers, State.live, wsLoc] at *
  omega

theorem unchangedBut_setWord (hwf : Mem.wf s.mem = true) {off : Nat} (x : Word) (hout : ∀ loc, s.wordByte off loc → out loc) :
    s.unchangedBut (s.setWord off x) out := unchangedBut_store hwf x hout

theorem unchangedBut_refl (s : State) : s.unchangedBut s out := ⟨fun _ _ => rfl, rfl, rfl, fun _ _ => rfl⟩

theorem unchangedBut_setReg (hwf : Mem.wf s.mem = true) {r : SReg} (x : Word) (hout : ∀ loc, s.regByte r loc → out loc) :
    s.unchangedBut (s.setReg r x) out := by
  by_cases hr : r = 0
  · rw [hr, setReg_zero]; exact unchangedBut_refl s
  · rw [setReg, if_neg hr]; exact unchangedBut_setWord hwf x fun loc hloc => hout loc ⟨hr, hloc⟩

theorem unchangedBut_setPred (hwf : Mem.wf s.mem = true) {p : PReg} (x : BitVec 32) (hout : ∀ loc, s.predByte p loc → out loc) :
    s.unchangedBut (s.setPred p x) out := by
  by_cases hp : p = 0
  · rw [hp, setPred_zero]; exact unchangedBut_refl s
  · rw [setPred, if_neg hp]; exact unchangedBut_store hwf x fun loc hloc => hout loc ⟨hp, hloc⟩

theorem unchangedBut_acquireTokens (s : State) (i : Instr) : s.unchangedBut (s.acquireTokens i) out := by
  refine ⟨fun loc _ => by rw [byte, acquireTokens_mem, byte], ?_, ?_, fun _ hc => acquireTokens_other s i hc⟩
  · rw [acquireTokens_frame]
  · rw [sameCoreBut, acquireTokens_core]

theorem unchangedBut_wiped (s : State) (i : Instr) : s.unchangedBut (s.wiped i) out := by
  refine ⟨fun loc _ => by rw [byte, wiped_mem, byte], ?_, ?_, fun _ hc => wiped_other s i hc⟩
  · rw [wiped_frame]
  · rw [sameCoreBut, wiped_core]

theorem unchangedBut_retireAt (s : State) (pc : Word) : s.unchangedBut (s.retireAt pc) out :=
  (unchangedBut_count s 0 1).trans (unchangedBut_onCore rfl)

/-- Retirement changes REP_STATE of an active repetition and what every retirement changes (R51, R79). -/
theorem unchangedBut_retire (hwf : Mem.wf s.mem = true) (size : Nat) (hout : ∀ loc, s.repByte loc → out loc) :
    s.unchangedBut (s.retire size) out := by
  cases hr : Rep.active (s.word Ws.repState) with
  | false => rw [retire_of_inactive hr]; exact unchangedBut_retireAt s _
  | true =>
    rw [retire_of_active hr]
    exact (unchangedBut_setWord hwf _ fun loc hloc => hout loc ⟨hr, hloc⟩).trans (unchangedBut_retireAt _ _)

/-- REP_STATE is where it was, and as it was, after a change that spares it. -/
theorem unchangedBut.repByte (h : s.unchangedBut t out) (hout : ∀ loc, s.wordByte Ws.repState loc → ¬ out loc) {loc : Nat}
    (hloc : t.repByte loc) : s.repByte loc := by
  obtain ⟨hactive, hcovers⟩ := hloc
  exact ⟨h.word hout ▸ hactive, h.live _ ▸ hcovers⟩

end State

/-! ## The frame of an instruction that completes -/

/-- What an instruction that completes with a plain function of the state answers: its guard was off, or it completed. -/
theorem next_of_completes {i : Instr} {g : Guard} {f : State → State} {s t : State} (hw : wholeGuard i = some (g, 0))
    (hl : leaderDecides i = false) (hcompletes : Completes i (State.whole g) f) (hclear : s.clear i = true) (hexec : exec i s = .next t) :
    t = (s.count 6 1).retire i.size ∨ t = (f (s.acquireTokens i)).completed i := by
  cases hg : s.guardLane g 0 with
  | false =>
    rw [guardedOffInstructionsOnlyRetire i g 0 s hw hclear hg (by simp [hl])] at hexec
    exact .inl (Host.Outcome.next.inj hexec).symm
  | true =>
    rw [hcompletes s (by simp [State.issues, State.whole, hclear, hg])] at hexec
    exact .inr (Host.Outcome.next.inj hexec).symm

/-- An instruction whose function of the state spares REP_STATE changes what the function changes, and retires. -/
theorem unchangedBut_of_completes {i : Instr} {g : Guard} {f : State → State} {s t : State} {out : Nat → Prop}
    (hw : wholeGuard i = some (g, 0)) (hl : leaderDecides i = false) (hcompletes : Completes i (State.whole g) f)
    (hwf : Mem.wf s.mem = true) (hclear : s.clear i = true) (hexec : exec i s = .next t)
    (hf : (s.acquireTokens i).unchangedBut (f (s.acquireTokens i)) out) (hwf' : Mem.wf (f (s.acquireTokens i)).mem = true)
    (hrep : ∀ loc, s.wordByte Ws.repState loc → ¬ out loc) : s.unchangedBut t fun loc => out loc ∨ s.repByte loc := by
  rcases next_of_completes hw hl hcompletes hclear hexec with rfl | rfl
  · refine (State.unchangedBut_count s 6 1).trans (State.unchangedBut_retire (s := s.count 6 1) hwf _ fun loc hloc => .inr ?_)
    exact (State.unchangedBut_count (out := out) s 6 1).repByte hrep hloc
  · have hdone : s.unchangedBut ((f (s.acquireTokens i)).wiped i) out :=
      ((State.unchangedBut_acquireTokens s i).trans hf).trans (State.unchangedBut_wiped _ i)
    refine (hdone.mono fun _ => .inl).trans (State.unchangedBut_retire ?_ _ fun loc hloc => .inr (hdone.repByte hrep hloc))
    rw [State.wiped_mem]; exact hwf'

/-! ## The frame of an instruction that writes a register -/

/-- An instruction that its guard holds back as a whole and that completes with w[d] written. -/
def WritesReg (i : Instr) (g : Guard) (d : SReg) : Prop :=
  wholeGuard i = some (g, 0) ∧ leaderDecides i = false ∧ ∃ v, SetsReg i g d v

/-- The same with p[d] written. -/
def WritesPred (i : Instr) (g : Guard) (d : PReg) : Prop :=
  wholeGuard i = some (g, 0) ∧ leaderDecides i = false ∧ ∃ v, SetsPred i g d v

/-- The same with a write `w` and flags raised. -/
def WritesRaising (i : Instr) (g : Guard) (w : State → State) : Prop :=
  wholeGuard i = some (g, 0) ∧ leaderDecides i = false ∧ ∃ fl : State → Flags, Completes i (State.whole g) fun s => (w s).raise (fl s)

section
variable {i : Instr} {g : Guard} {s t : State}

theorem WritesReg.of {d : SReg} {v : State → Word} (h : SetsReg i g d v)
    (hw : wholeGuard i = some (g, 0) := by rfl) (hl : leaderDecides i = false := by rfl) : WritesReg i g d := ⟨hw, hl, v, h⟩

theorem WritesPred.of {d : PReg} {v : State → BitVec 32} (h : SetsPred i g d v)
    (hw : wholeGuard i = some (g, 0) := by rfl) (hl : leaderDecides i = false := by rfl) : WritesPred i g d := ⟨hw, hl, v, h⟩

theorem WritesRaising.of {w : State → State} {fl : State → Flags} (h : Completes i (State.whole g) fun s => (w s).raise (fl s))
    (hw : wholeGuard i = some (g, 0) := by rfl) (hl : leaderDecides i = false := by rfl) : WritesRaising i g w := ⟨hw, hl, fl, h⟩

/-- An instruction that changes one scalar register changes no other byte. -/
theorem WritesReg.frame {d : SReg} (h : WritesReg i g d) (hwf : Mem.wf s.mem = true) (hclear : s.clear i = true)
    (hexec : exec i s = .next t) : s.unchangedBut t fun loc => s.regByte d loc ∨ s.repByte loc := by
  obtain ⟨hw, hl, v, hsets⟩ := h
  have hwf' : Mem.wf (s.acquireTokens i).mem = true := by rwa [State.acquireTokens_mem]
  exact unchangedBut_of_completes hw hl hsets hwf hclear hexec
    (State.unchangedBut_setReg hwf' _ fun loc hloc => by simpa [State.regByte] using hloc) (State.wf_setReg hwf' _ _)
    fun _ => State.not_regByte_of_wordByte (by decide)

/-- An instruction that changes one predicate changes no other byte. -/
theorem WritesPred.frame {d : PReg} (h : WritesPred i g d) (hwf : Mem.wf s.mem = true) (hclear : s.clear i = true)
    (hexec : exec i s = .next t) : s.unchangedBut t fun loc => s.predByte d loc ∨ s.repByte loc := by
  obtain ⟨hw, hl, v, hsets⟩ := h
  have hwf' : Mem.wf (s.acquireTokens i).mem = true := by rwa [State.acquireTokens_mem]
  exact unchangedBut_of_completes hw hl hsets hwf hclear hexec
    (State.unchangedBut_setPred hwf' _ fun loc hloc => by simpa [State.predByte] using hloc) (State.wf_setPred hwf' _ _)
    fun _ => State.not_predByte_of_wordByte (by decide)

/-- An instruction that raises flags after a write `w` ORs flags into FCSR, whether its guard holds or not. -/
theorem WritesRaising.fcsr {w : State → State} {out : Nat → Prop} (h : WritesRaising i g w) (hwf : Mem.wf s.mem = true)
    (hclear : s.clear i = true) (hexec : exec i s = .next t) (hwrite : s.unchangedBut (w (s.acquireTokens i)) out)
    (hwf' : Mem.wf (w (s.acquireTokens i)).mem = true) (hout : ∀ loc, s.wordByte Ws.fcsr loc → ¬ out loc) :
    ∃ f : Flags, t.word Ws.fcsr = s.word Ws.fcsr ||| (f.setWidth 64 <<< 8) := by
  obtain ⟨hw, hl, fl, hcompletes⟩ := h
  rcases next_of_completes hw hl hcompletes hclear hexec with rfl | rfl
  · exact ⟨0, (State.word_retire (s := s.count 6 1) hwf _ (by decide)).trans BitVec.or_zero.symm⟩
  · refine ⟨fl (s.acquireTokens i), ?_⟩
    rw [State.completed, State.word_retire (by rw [State.wiped_mem]; exact State.wf_setWord hwf' _ _) _ (by decide), State.word_wiped,
      State.raise, State.word_setWord_same hwf', hwrite.word hout]

/-- Flags ORed into FCSR leave its other bits, and clear none (R47). -/
theorem raised_bits (x : Word) (f : Flags) :
    (x ||| (f.setWidth 64 <<< 8)) &&& ~~~0x1F00 = x &&& ~~~0x1F00 ∧ (x ||| (f.setWidth 64 <<< 8)) &&& x = x := by
  have hout : ∀ f : Flags, (f.setWidth 64 <<< 8 : Word) &&& ~~~0x1F00 = 0 := by decide
  constructor
  · rw [BitVec.and_or_distrib_right, hout]
    exact BitVec.or_zero
  · ext k hk; simp; tauto

/-- What an instruction that writes a register apart from FCSR and raises flags changes. -/
theorem WritesRaising.frame {w : State → State} {out : Nat → Prop} (h : WritesRaising i g w) (hwf : Mem.wf s.mem = true)
    (hclear : s.clear i = true) (hexec : exec i s = .next t) (hwrite : (s.acquireTokens i).unchangedBut (w (s.acquireTokens i)) out)
    (hwf' : Mem.wf (w (s.acquireTokens i)).mem = true) (hout : ∀ off loc, 0x520 ≤ off → s.wordByte off loc → ¬ out loc) :
    s.unchangedBut t (fun loc => out loc ∨ s.wordByte Ws.fcsr loc ∨ s.repByte loc) ∧
      t.word Ws.fcsr &&& ~~~0x1F00 = s.word Ws.fcsr &&& ~~~0x1F00 ∧ t.word Ws.fcsr &&& s.word Ws.fcsr = s.word Ws.fcsr := by
  have hwritten := (State.unchangedBut_acquireTokens s i).trans hwrite
  obtain ⟨f, hf⟩ := h.fcsr hwf hclear hexec hwritten hwf' fun loc => hout _ loc (by decide)
  obtain ⟨hw, hl, fl, hcompletes⟩ := h
  have hraise : (s.acquireTokens i).unchangedBut ((w (s.acquireTokens i)).raise (fl (s.acquireTokens i)))
      fun loc => out loc ∨ s.wordByte Ws.fcsr loc :=
    (hwrite.mono fun _ => .inl).trans (State.unchangedBut_setWord hwf' _ fun loc hloc => .inr (by
      rwa [State.wordByte, hwritten.live] at hloc))
  constructor
  · refine (unchangedBut_of_completes hw hl hcompletes hwf hclear hexec hraise (State.wf_setWord hwf' _ _) fun loc hloc => ?_).mono
      fun _ => or_assoc.1
    exact not_or.2 ⟨hout _ loc (by decide) hloc, State.not_wordByte_of_wordByte (by decide) hloc⟩
  · rw [hf]
    exact raised_bits _ f

end

/-! ## The statements -/

/-- Settles O49: each of these instructions completes with one register written. -/
theorem scalarFrame : Obligations.ScalarFrame := by
  constructor
  · intro i g d h s t hwf hclear hexec
    have hwrites : WritesReg i g d := by
      rcases h with ⟨t, a, b, h⟩ | ⟨t, a, h⟩ | ⟨t, a, pos, n, h⟩ | ⟨x, rfl⟩ | ⟨a, rfl⟩ | ⟨a, x, rfl⟩ | ⟨a, b, c, rfl⟩ | ⟨x, rfl⟩ |
        ⟨a, b, rfl⟩ | ⟨idx, rfl⟩
      · obtain ⟨hadd, hsub, hand, hor, hxor, handn, hshl, hshr, hsar, hror, hmin, hmax, hmul, hmulh, hdiv, hrem⟩ :=
          scalarArithmeticCompletes g t d a b
        rcases h with rfl | rfl | rfl | rfl | rfl | rfl | rfl | rfl | rfl | rfl | rfl | rfl | rfl | rfl | rfl | rfl
        exacts [.of hadd, .of hsub, .of hand, .of hor, .of hxor, .of handn, .of hshl, .of hshr, .of hsar, .of hror, .of hmin, .of hmax,
          .of hmul, .of hmulh, .of hdiv, .of hrem]
      · obtain ⟨hclz, hctz, hpopc, hbrev, hbswap, -, -, hsext, hzext⟩ := bitOperationsComplete g t d a
        obtain ⟨-, -, -, -, -, -, -, hneg, habs, -⟩ := scalarFloatArithmeticCompletes g t d a 0 0
        obtain ⟨-, -, hclass⟩ := scalarFloatComparesComplete
        rcases h with rfl | rfl | rfl | rfl | rfl | rfl | rfl | rfl | rfl | rfl
        exacts [.of hclz, .of hctz, .of hpopc, .of hbrev, .of hbswap, .of hsext, .of hzext, .of hneg, .of habs, .of (hclass g t d a)]
      · obtain ⟨-, -, -, -, -, hbext, hbins, -⟩ := bitOperationsComplete g t d a
        rcases h with rfl | rfl
        exacts [.of (hbext pos n), .of (hbins pos n)]
      · exact .of (setsReg_of (exec_movi · g d x))
      · exact .of (setsReg_of (exec_mov · g d a))
      · exact .of (setsReg_of (exec_lea · g d a x))
      · exact .of (setsReg_of (exec_sel · g d a b c))
      · exact .of (setsReg_of (exec_qcap · g d x))
      · exact .of (setsReg_of (exec_rndc · g d a b))
      · exact .of (setsReg_of (exec_sysr · g d idx))
    exact hwrites.frame hwf hclear hexec
  · intro i g d h s t hwf hclear hexec
    obtain ⟨hcompares, hpredicates, hpset⟩ := comparesAndPredicatesComplete
    have hwrites : WritesPred i g d := by
      rcases h with ⟨t, a, b, h⟩ | ⟨a, b, h⟩ | ⟨a, h⟩ | ⟨imm, rfl⟩
      · obtain ⟨heq, hne, hlt, hle, hgt, hge⟩ := hcompares g t d a b
        rcases h with rfl | rfl | rfl | rfl | rfl | rfl
        exacts [.of heq, .of hne, .of hlt, .of hle, .of hgt, .of hge]
      · obtain ⟨hand, hor, hxor, handn, -, -⟩ := hpredicates g d a b
        rcases h with rfl | rfl | rfl | rfl
        exacts [.of hand, .of hor, .of hxor, .of handn]
      · obtain ⟨-, -, -, -, hnot, hmov⟩ := hpredicates g d a 0
        rcases h with rfl | rfl
        exacts [.of hnot, .of hmov]
      · exact .of (hpset g d imm)
    exact hwrites.frame hwf hclear hexec

/-- Settles O50: each of these instructions completes with one register written and flags raised. -/
theorem scalarFloatFrame : Obligations.ScalarFloatFrame := by
  constructor
  · intro i g d h s t hwf hclear hexec
    have hwrites : ∃ x : State → Word, WritesRaising i g fun s => s.setReg d (x s) := by
      rcases h with ⟨t, a, b, h⟩ | ⟨t, a, rfl⟩ | ⟨t, a, b, c, h⟩ | ⟨t, a, src, rm, rfl⟩
      · obtain ⟨hadd, hsub, hmul, hdiv, -, hmin, hmax, -⟩ := scalarFloatArithmeticCompletes g t d a b 0
        rcases h with rfl | rfl | rfl | rfl | rfl | rfl
        exacts [⟨_, .of hadd⟩, ⟨_, .of hsub⟩, ⟨_, .of hmul⟩, ⟨_, .of hdiv⟩, ⟨_, .of hmin⟩, ⟨_, .of hmax⟩]
      · obtain ⟨-, -, -, -, hsqrt, -⟩ := scalarFloatArithmeticCompletes g t d a 0 0
        exact ⟨_, .of hsqrt⟩
      · obtain ⟨-, -, -, -, -, -, -, -, -, hfma, hfms, hfnma, hfnms⟩ := scalarFloatArithmeticCompletes g t d a b c
        rcases h with rfl | rfl | rfl | rfl
        exacts [⟨_, .of hfma⟩, ⟨_, .of hfms⟩, ⟨_, .of hfnma⟩, ⟨_, .of hfnms⟩]
      · obtain ⟨-, hfcvt, -⟩ := scalarFloatComparesComplete
        exact ⟨_, .of (hfcvt g t src d a rm)⟩
    obtain ⟨x, hx⟩ := hwrites
    have hwf' : Mem.wf (s.acquireTokens i).mem = true := by rwa [State.acquireTokens_mem]
    exact hx.frame hwf hclear hexec (State.unchangedBut_setReg hwf' _ fun loc hloc => by simpa [State.regByte] using hloc)
      (State.wf_setReg hwf' _ _) fun _ _ => State.not_regByte_of_wordByte
  · rintro i g d ⟨t, a, b, h⟩ s u hwf hclear hexec
    have hwrites : ∃ x : State → BitVec 32, WritesRaising i g fun s => s.setPred d (x s) := by
      obtain ⟨hcompares, -, -⟩ := scalarFloatComparesComplete
      obtain ⟨heq, hlt, hle, hun⟩ := hcompares g t d a b
      rcases h with rfl | rfl | rfl | rfl
      exacts [⟨_, .of heq⟩, ⟨_, .of hlt⟩, ⟨_, .of hle⟩, ⟨_, .of hun⟩]
    obtain ⟨x, hx⟩ := hwrites
    have hwf' : Mem.wf (s.acquireTokens i).mem = true := by rwa [State.acquireTokens_mem]
    exact hx.frame hwf hclear hexec (State.unchangedBut_setPred hwf' _ fun loc hloc => by simpa [State.predByte] using hloc)
      (State.wf_setPred hwf' _ _) fun _ _ => State.not_predByte_of_wordByte

end Sys2Proof.Machine
end

section
/-!
PROOFS. Control transfers, repetition and hints (02_scalar R72-R83): how a transfer runs for a core that decides for itself and for a
follower, and what each of them decides.
-/

namespace Sys2Proof.Machine

open Sys2Proof

/-! ## Transfers of a core that decides for itself -/

theorem jumpTo_aligned {x : Word} (h : x.toNat % 4 = 0) (write : State → State) (s : State) : jumpTo x write s = .jump x (write s) :=
  if_neg (not_not_intro ((low2_eq_zero x).2 h))

section
variable {i : Instr} {g : Guard} {write : State → State} {decide : State → Res}

/-- A transfer that a core decides for itself to take (R72). -/
theorem jumps_of_control {c : State → Word × State → Prop} (hexec : ∀ s, exec i s = control i g write decide s)
    (hdecide : ∀ s x, c s x → decide s = .jump x.1 x.2) : Jumps i (State.wholeAlone g) c := fun s x hissues hc => by
  obtain ⟨htrue, hcontrol⟩ := control_alone (w := write) (dec := decide) hissues
  rw [hexec, hcontrol, instrIf_jump htrue (hdecide _ x hc)]

/-- A transfer that a core decides for itself not to take. -/
theorem completesWhen_of_control {c : State → State → Prop} (hexec : ∀ s, exec i s = control i g write decide s)
    (hdecide : ∀ s t, c s t → decide s = .done t) : CompletesWhen i (State.wholeAlone g) c := fun s t hissues hc => by
  obtain ⟨htrue, hcontrol⟩ := control_alone (w := write) (dec := decide) hissues
  rw [hexec, hcontrol, instrIf_done htrue (hdecide _ t hc)]

/-- A follower of a leader that has completed the transfer goes where it went; its own guard decides its register write (R72). -/
theorem control_follows {s : State} (hclear : s.clear i = true) (hfollower : s.core.follower = true)
    (hdone : (s.coreAt s.leaderIdx).done = true) (hdone' : ((s.acquireTokens i).coreAt (s.acquireTokens i).leaderIdx).done = true)
    (hguard : (s.guardLane g 0 || s.decider.guardLane g 0) = true) :
    control i g write decide s = .next ((if s.guardLane g 0 then write (s.acquireTokens i) else s.acquireTokens i).retireAt
      ((s.acquireTokens i).coreAt (s.acquireTokens i).leaderIdx).pc) := by
  have hfollower' : (s.acquireTokens i).core.follower = true := by rwa [State.acquireTokens_follower]
  simp only [control, hfollower, hdone, Bool.not_true, Bool.and_false, Bool.false_eq_true, if_false, hguard]
  refine instrIf_goto (by simp [State.issues, hclear]) ?_
  simp only [hfollower', if_true, State.follow, hdone', Bool.and_self]

end

section
variable (g : Guard) (a : SReg) (off : BitVec 16)

/-- LOOP branches while the counter counted down is not 0 (R77). -/
theorem jumps_loop : Jumps (.loop g a off) (State.wholeAlone g) fun s x =>
    s.reg a ≠ 1 ∧ x = (s.core.pc + (off.signExtend 64 <<< 2), s.setReg a (s.reg a - 1)) :=
  jumps_of_control (exec_loop · g a off) fun s x => by
    rintro ⟨hne, rfl⟩
    exact if_pos (sub_ne_zero.2 hne)

/-- LOOP goes on behind it when its counter becomes 0 (R77). -/
theorem completesWhen_loop : CompletesWhen (.loop g a off) (State.wholeAlone g) fun s t => s.reg a = 1 ∧ t = s.setReg a 0 :=
  completesWhen_of_control (exec_loop · g a off) fun s t => by
    rintro ⟨hone, rfl⟩
    simp [hone]

end

/-- Settles O9: each transfer decides its target, and LOOP whether to take it. -/
theorem transfersComplete : Obligations.TransfersComplete := by
  refine ⟨fun g off => ?br, fun g d off => ?call, fun g d a => ?jmp, fun g a => ?ret, fun g a b count => ?brx,
    fun g a off _ => ⟨jumps_loop g a off, completesWhen_loop g a off⟩⟩
  case br => exact jumps_of_control (exec_br · g off) fun s x hx => hx ▸ rfl
  case call => exact jumps_of_control (exec_call · g d off) fun s x hx => hx ▸ rfl
  case jmp =>
    refine jumps_of_control (exec_jmp · g d a) fun s x => ?_
    rintro ⟨halign, rfl⟩
    exact jumpTo_aligned halign _ s
  case ret =>
    refine jumps_of_control (exec_ret · g a) fun s x => ?_
    rintro ⟨halign, rfl⟩
    exact jumpTo_aligned halign _ s
  case brx =>
    refine jumps_of_control (exec_brx · g a b count) fun s x => ?_
    rintro ⟨hlt, hload, halign⟩
    rw [if_neg (Nat.not_le.2 hlt), run_of_passes hload]
    exact jumpTo_aligned halign _ _

/-- Settles O10: every transfer of a follower runs alike. -/
theorem followersFollowTheLeader : Obligations.FollowersFollowTheLeader := by
  intro i g write h s hclear hfollower _ hdone hdone' hguard
  rcases h with ⟨off, rfl, rfl⟩ | ⟨d, off, rfl, rfl⟩ | ⟨d, a, rfl, rfl⟩ | ⟨a, rfl, rfl⟩ | ⟨a, b, n, rfl, rfl⟩ | ⟨a, off, rfl, rfl⟩
  all_goals exact control_follows hclear hfollower hdone hdone' hguard

/-! ## Repetition and hints -/

/-- REP of a core that decides for itself scans its body, then skips it or starts it (R78-R80). -/
theorem goesTo_rep (a : SReg) (lenM1 : BitVec 4) (stride : BitVec 5) (mask : BitVec 4) :
    GoesTo (.rep a lenM1 stride mask) State.alone fun s x =>
      ∃ b u, scanBody (lenM1.toNat + 1) (s.core.pc + 8) none s = .ok (b, u) ∧
        x = if (s.reg a).setWidth 32 = (0 : BitVec 32) then (b.last, u)
          else (b.first, (u.setWord Ws.repState (Rep.start lenM1 stride mask ((s.reg a).setWidth 32))).setWord Ws.repBase b.first) := by
  rintro s x hissues ⟨b, u, hscan, rfl⟩
  obtain ⟨hclear, halone⟩ := Bool.and_eq_true_iff.1 hissues
  have hfollower : s.core.follower = false := by simpa [State.alone] using halone
  have hdecider : (s.acquireTokens (.rep a lenM1 stride mask)).decider = s.acquireTokens (.rep a lenM1 stride mask) := by
    rw [State.decider, State.acquireTokens_follower, hfollower, if_neg Bool.false_ne_true]
  rw [exec_rep, execRep, hfollower, Bool.false_and, if_neg Bool.false_ne_true]
  refine instrIf_goto (by simp [State.issues, hclear]) ?_
  simp only [hdecider, hscan]
  split <;> rfl

/-- Settles O11: REP by its own lemma; NOP, HINT and UNCHAIN are plain functions of the state, and FILL is no instruction. -/
theorem repetitionAndHintsComplete : Obligations.RepetitionAndHintsComplete := by
  refine ⟨goesTo_rep, fun g => ?nop, fun g code => ?hint, ?unchain, fun s hon => ?fill⟩
  case nop => exact completes_instr _ (exec_nop · g) (fun _ => rfl) fun _ => rfl
  case hint => exact completes_instr _ (exec_hint · g code) (fun _ => rfl) fun _ => rfl
  case unchain => exact completes_instrAll _ exec_unchain (fun _ => rfl) fun _ => rfl
  case fill => exact (exec_fill s).trans (event_on hon _)

/-! ## Retirement in a repetition -/

namespace Rep

theorem active_iff (r : Word) : active r = decide (2 ^ 63 ≤ r.toNat) :=
  (BitVec.msb_eq_getLsbD_last r).symm.trans (BitVec.msb_eq_decide r)

theorem index_eq (r : Word) : index r = r.toNat / 2 ^ 56 % 16 := by
  rw [index, BitVec.extractLsb'_toNat, Nat.shiftRight_eq_div_pow]

theorem lenM1_eq (r : Word) : lenM1 r = r.toNat / 2 ^ 52 % 16 := by
  rw [lenM1, BitVec.extractLsb'_toNat, Nat.shiftRight_eq_div_pow]

theorem kmod_eq (r : Word) : kmod r = r.toNat / 2 ^ 32 % 32 := by
  rw [kmod, BitVec.extractLsb'_toNat, Nat.shiftRight_eq_div_pow]

theorem remain_eq (r : Word) : (remain r).toNat = r.toNat % 2 ^ 32 := by
  rw [remain, BitVec.extractLsb'_toNat, Nat.shiftRight_zero]

/-- Within an iteration the next instruction of the body is due: INDEX counts up, nothing else changes (R79). -/
theorem step_within {r : Word} (hactive : active r = true) (hlt : index r < lenM1 r) (base next : Word) :
    ∃ r', step r base next = (r', next) ∧ active r' = true ∧ index r' = index r + 1 ∧ kmod r' = kmod r ∧ remain r' = remain r := by
  refine ⟨r + 0x0100000000000000, if_neg hlt.ne, ?_⟩
  rw [active_iff, decide_eq_true_eq] at hactive
  have hadd : (r + 0x0100000000000000).toNat = r.toNat + 2 ^ 56 := by
    simp only [index_eq, lenM1_eq] at hlt
    bv_omega
  refine ⟨?_, ?_, ?_, BitVec.eq_of_toNat_eq ?_⟩
  · rw [active_iff, hadd, decide_eq_true_eq]; omega
  · simp only [index_eq, lenM1_eq, hadd] at *; omega
  · simp only [kmod_eq, hadd]; omega
  · simp only [remain_eq, hadd]; omega

/-- REP_STATE at the start of another iteration: the fields that stay, KMOD and REMAIN (R79). -/
def nextIteration (r : Word) (k : BitVec 5) (m : BitVec 32) : Word :=
  (r &&& (0x80FFFFE000000000 : Word)) ||| (k.setWidth 64 <<< 32 : Word) ||| m.setWidth 64

/-- A field above REMAIN: what stays of it, and what of KMOD lies in it. -/
theorem nextIteration_extract (r : Word) (k : BitVec 5) (m : BitVec 32) {start n : Nat} (h : 32 ≤ start) :
    (nextIteration r k m).extractLsb' start n =
      (r.extractLsb' start n &&& (0x80FFFFE000000000 : Word).extractLsb' start n) ||| (k.setWidth 64 <<< 32 : Word).extractLsb' start n := by
  have hm : (m.setWidth 64).extractLsb' start n = 0#n := by
    ext j hj
    simp [BitVec.getLsbD_of_ge m (start + j) (by omega)]
  rw [nextIteration, BitVec.extractLsb'_or, BitVec.extractLsb'_or, BitVec.extractLsb'_and, hm, BitVec.or_zero]

/-- A field above REMAIN that KMOD does not meet and that stays. -/
theorem nextIteration_extract_kept (r : Word) (k : BitVec 5) (m : BitVec 32) {start n : Nat} (h : 32 ≤ start)
    (hmask : (0x80FFFFE000000000 : Word).extractLsb' start n = BitVec.allOnes n)
    (hk : ∀ k : BitVec 5, (k.setWidth 64 <<< 32 : Word).extractLsb' start n = 0#n) :
    (nextIteration r k m).extractLsb' start n = r.extractLsb' start n := by
  rw [nextIteration_extract r k m h, hmask, hk, BitVec.and_allOnes, BitVec.or_zero]

/-- After the last instruction of the body another iteration begins at REP_BASE while REMAIN is not 1 (R79). -/
theorem step_nextIteration {r : Word} (hlast : index r = lenM1 r) (hremain : remain r ≠ 1) (base next : Word) :
    step r base next = (nextIteration r (BitVec.ofNat 5 (kmod r + 1)) (remain r - 1), base) := by
  have hk : BitVec.ofNat 64 ((kmod r + 1) % 32) = (BitVec.ofNat 5 (kmod r + 1)).setWidth 64 :=
    BitVec.eq_of_toNat_eq (by simp)
  rw [step, if_pos hlast, if_neg hremain, hk, nextIteration]
  rfl

section
variable (r : Word) (k : BitVec 5) (m : BitVec 32)

theorem active_nextIteration : active (nextIteration r k m) = active r := by
  have h := nextIteration_extract_kept r k m (start := 63) (n := 1) (by decide) (by decide) (by decide)
  simpa [active] using congrArg (BitVec.getLsbD · 0) h

theorem index_nextIteration : index (nextIteration r k m) = 0 := by
  have hk : ∀ k : BitVec 5, (k.setWidth 64 <<< 32 : Word).extractLsb' 56 4 = 0#4 := by decide
  rw [index, nextIteration_extract r k m (by decide), hk, show (0x80FFFFE000000000 : Word).extractLsb' 56 4 = 0#4 by decide, BitVec.and_zero]
  rfl

theorem kmod_nextIteration : kmod (nextIteration r k m) = k.toNat := by
  have hk : ∀ k : BitVec 5, (k.setWidth 64 <<< 32 : Word).extractLsb' 32 5 = k := by decide
  rw [kmod, nextIteration_extract r k m (by decide), hk, show (0x80FFFFE000000000 : Word).extractLsb' 32 5 = 0#5 by decide, BitVec.and_zero,
    BitVec.zero_or]

theorem remain_nextIteration : remain (nextIteration r k m) = m := by
  have hk : ∀ k : BitVec 5, (k.setWidth 64 <<< 32 : Word).extractLsb' 0 32 = 0#32 := by decide
  rw [remain, nextIteration, BitVec.extractLsb'_or, BitVec.extractLsb'_or, BitVec.extractLsb'_and, hk,
    show (0x80FFFFE000000000 : Word).extractLsb' 0 32 = 0#32 by decide, BitVec.and_zero, BitVec.zero_or, BitVec.zero_or]
  ext j hj
  simp [BitVec.getLsbD_eq_getElem hj, hj.trans (show 32 < 64 by decide)]

theorem lenM1_nextIteration : lenM1 (nextIteration r k m) = lenM1 r :=
  congrArg BitVec.toNat (nextIteration_extract_kept r k m (by decide) (by decide) (by decide))

theorem stride_nextIteration : stride (nextIteration r k m) = stride r :=
  congrArg BitVec.toNat (nextIteration_extract_kept r k m (by decide) (by decide) (by decide))

theorem mask_nextIteration : mask (nextIteration r k m) = mask r := nextIteration_extract_kept r k m (by decide) (by decide) (by decide)

end

/-- After the last instruction of the last iteration the repetition ends (R79). -/
theorem step_ends {r : Word} (hlast : index r = lenM1 r) (hremain : remain r = 1) (base next : Word) : step r base next = (0, next) := by
  rw [step, if_pos hlast, if_pos hremain]

end Rep

/-- What the retirement of a body instruction leaves in REP_STATE and the PC is the step of its repetition (R79). -/
theorem State.retire_repetition {s : State} (hwf : Mem.wf s.mem = true) (hactive : Rep.active (s.word Ws.repState) = true) (size : Nat)
    {x : Word × Word} (hstep : Rep.step (s.word Ws.repState) (s.word Ws.repBase) (s.core.pc + BitVec.ofNat 64 size) = x) :
    (s.retire size).word Ws.repState = x.1 ∧ (s.retire size).core.pc = x.2 := by
  rw [State.retire_of_active hactive, hstep]
  exact ⟨(State.word_retireAt _ _ _).trans (State.word_setWord_same hwf _ _), congrArg Core.pc (State.retireAt_core _ _)⟩

/-- Settles O59: the step of the repetition is within an iteration, to the next one, or to the end. -/
theorem repetitionAdvances : Obligations.RepetitionAdvances := by
  intro s size hwf r u next
  refine ⟨fun hactive => ?inactive, fun hactive hlt => ?within, fun hactive hlast hremain => ?nextIteration,
    fun hactive hlast hremain => ?ends⟩
  case inactive =>
    have hu : u = s.retireAt next := State.retire_of_inactive hactive size
    rw [hu]
    exact ⟨State.word_retireAt _ _ _, congrArg Core.pc (State.retireAt_core _ _)⟩
  case within =>
    obtain ⟨r', hstep, hactive', hindex, hkmod, hremain⟩ := Rep.step_within hactive hlt (s.word Ws.repBase) next
    obtain ⟨hword, hpc⟩ := State.retire_repetition hwf hactive size hstep
    rw [hword]
    exact ⟨hactive', hindex, hkmod, hremain, hpc⟩
  case nextIteration =>
    obtain ⟨hword, hpc⟩ := State.retire_repetition hwf hactive size (Rep.step_nextIteration hlast hremain _ _)
    rw [hword]
    exact ⟨(Rep.active_nextIteration ..).trans hactive, Rep.index_nextIteration ..,
      (Rep.kmod_nextIteration ..).trans (BitVec.toNat_ofNat _ _), Rep.remain_nextIteration ..,
      Rep.lenM1_nextIteration .., Rep.stride_nextIteration .., Rep.mask_nextIteration .., hpc⟩
  case ends => exact State.retire_repetition hwf hactive size (Rep.step_ends hlast hremain _ _)

/-! ## LOOP -/

theorem maj1C_cases (x : Raw) : x.maj1C = some (.loop x.guard (x.a.setWidth 5) (x.i16.extractLsb' 0 16)) ∨ x.maj1C = none := by
  unfold Raw.maj1C
  split
  · exact .inl rfl
  · exact .inr rfl

/-- The fields of a word of LOOP's major name LOOP or nothing (01_encoding R31). -/
theorem candidate_of_maj1C {x : Raw} (hmaj : x.maj = 0x1C) :
    x.candidate = .ok (.loop x.guard (x.a.setWidth 5) (x.i16.extractLsb' 0 16)) ∨ x.candidate = .error .unassignedOp := by
  have hpick : x.candidate = match x.maj1C with
      | some i => .ok i
      | none => .error .unassignedOp := by
    rw [Raw.candidate, hmaj]; rfl
  rcases maj1C_cases x with h | h
  · exact .inl (by rw [hpick, h])
  · exact .inr (by rw [hpick, h])

/-- The decoder refuses LOOP with w0 as its counter (R77): the only instruction its major may name fails its own check. -/
theorem decode_loop_zero {x : Raw} (hmaj : x.maj = 0x1C) (ha : x.a = 0) : ∃ e, x.decode = .error e := by
  rcases candidate_of_maj1C hmaj with hloop | hnone
  · rw [Raw.decode, hloop, ha]
    dsimp only [Instr.toRaw]
    split
    · exact ⟨.reservedValue, rfl⟩
    · exact ⟨_, rfl⟩
  · exact ⟨.unassignedOp, by rw [Raw.decode, hnone]⟩

/-- The fetch of a word that does not decode is ILLEGAL, with its low bits as TVAL (07_system_isa R222). -/
theorem State.fetchAt_illegal {s u : State} {va : Word} {bs : List Byte} {e : Reject} (fuel : Nat) (halign : va.toNat % 4 = 0)
    (hbytes : s.fetchBytes va = .ok (bs, u)) (hlen : lenBytes ((nth bs 0 0).setWidth 2) ≤ bs.length) {w : BitVec 128}
    (hw : ofBytes 128 (bs.take (lenBytes ((nth bs 0 0).setWidth 2))) = w) (hlen3 : w.extractLsb' 0 2 ≠ 3)
    (hdecode : (Raw.unpack w).decode = .error e) :
    s.fetchAt id (fuel + 1) va = .trap va { code := Cause.illegal, tval := w.setWidth 64 } u := by
  have hne3 : w ≠ 3 := fun h => hlen3 (h ▸ rfl)
  rw [State.fetchAt, if_neg (not_not_intro halign), hbytes]
  simp only [if_neg (Nat.not_lt.2 hlen), hw, if_neg hne3, if_neg hlen3, id, hdecode]

/-- Outside a repetition a completed instruction goes on at the next address. -/
theorem State.completed_of_inactive {s : State} {i : Instr} (h : Rep.active (s.word Ws.repState) = false) :
    s.completed i = (s.wiped i).retireAt (s.core.pc + BitVec.ofNat 64 i.size) := by
  rw [State.completed, State.retire_of_inactive (by rwa [State.word_wiped]), State.wiped_core]

/-- A scalar register reads the same where its word of the live workspace does. -/
theorem State.reg_of_word {s t : State} (h : ∀ off, t.word off = s.word off) (r : SReg) : t.reg r = s.reg r := by rw [State.reg, h, State.reg]

/-- Settles O42: the decoder refuses w0 as the counter; LOOP branches unless its counter was 1. -/
theorem loopCountsDown : Obligations.LoopCountsDown := by
  constructor
  · intro s u n pc bs halign hbytes k w hlen hlen3 hmaj ha
    obtain ⟨e, he⟩ := decode_loop_zero (x := Raw.unpack w) hmaj ha
    exact State.fetchAt_illegal n halign hbytes hlen rfl hlen3 he
  · intro g a off s ha hwf hissues hlanded hrep
    have hacquire : s.acquireTokens (.loop g a off) = s := State.acquireTokens_none _ hlanded
    have hwrap : s.reg a = 0 → s.reg a - 1 = BitVec.allOnes 64 := fun h => by rw [h]; rfl
    by_cases hone : s.reg a = 1
    · refine ⟨_, completesWhen_loop g a off s _ hissues (by rw [hacquire]; exact ⟨hone, rfl⟩), ?_⟩
      have hrep' : Rep.active ((s.setReg a 0).word Ws.repState) = false := by rwa [State.word_setReg hwf a 0 (by decide)]
      rw [State.completed_of_inactive hrep', State.reg_of_word (State.word_retireAt _ _), State.reg_of_word (State.word_wiped _ _),
        State.reg_setReg_same hwf ha, State.retireAt_core, State.core_setReg]
      refine ⟨by rw [hone]; rfl, fun h => absurd (h.symm.trans hone) (by decide), ?_⟩
      rw [hone]
      rfl
    · refine ⟨_, jumps_loop g a off s _ hissues (by rw [hacquire]; exact ⟨hone, rfl⟩), ?_⟩
      have hreg : ((s.setReg a (s.reg a - 1)).retireTo (s.core.pc + (off.signExtend 64 <<< 2))).reg a = s.reg a - 1 := by
        rw [State.retireTo, State.reg_of_word (State.word_retireAt _ _)]
        exact State.reg_setReg_same hwf ha _
      refine ⟨hreg, fun h => hreg.trans (hwrap h), ?_⟩
      rw [State.retireTo, State.retireAt_core, if_pos (sub_ne_zero.2 hone), BitVec.shiftLeft_eq_mul_twoPow, BitVec.mul_comm]
      rfl

end Sys2Proof.Machine
end

section
/-!
PROOFS. Special registers and the spill stack (02_scalar R42-R45, R50, R63-R65, R81).
-/

namespace Sys2Proof.Machine

open Sys2Proof

/-- A guarded instruction whose body completes wherever `c` holds. -/
theorem completesWhen_instr {i : Instr} {g : Guard} {body : State → Res} {c : State → State → Prop}
    (hexec : ∀ s, exec i s = instr i g body s) (hbody : ∀ s t, c s t → body s = .done t) : CompletesWhen i (State.whole g) c :=
  fun s t hissues hc => by
    rw [hexec]
    exact instrIf_done (g := s.guardLane g 0) hissues (hbody _ t hc)

/-- A guarded instruction whose body goes on at an address wherever `c` holds. -/
theorem goesTo_instr {i : Instr} {g : Guard} {body : State → Res} {c : State → Word × State → Prop}
    (hexec : ∀ s, exec i s = instr i g body s) (hbody : ∀ s x, c s x → body s = .goto x.1 x.2) : GoesTo i (State.whole g) c :=
  fun s x hissues hc => by
    rw [hexec]
    exact instrIf_goto (g := s.guardLane g 0) hissues (hbody _ x hc)

/-- The low eight bits of a word are 0 if it is a multiple of 256. -/
theorem low8_eq_zero {x : Word} (h : x.toNat % 256 = 0) : x &&& 0xFF = 0 := by
  refine BitVec.eq_of_toNat_eq ?_
  rw [BitVec.toNat_and]
  exact (Nat.and_two_pow_sub_one_eq_mod x.toNat 8).trans h

/-- Settles O5: MFS and MTS are plain functions of the state; MTS WP changes the workspace before it looks where to go on. -/
theorem specialRegistersComplete : Obligations.SpecialRegistersComplete := by
  refine ⟨fun g d idx => ?mfs, fun g a idx => ?mts, fun g a => ?mtsWp⟩
  case mfs => exact completes_instr _ (exec_mfs · g d idx) (fun _ => rfl) fun _ => rfl
  case mts => exact completes_instr _ (exec_mts · g a idx) (fun _ => rfl) fun _ => rfl
  case mtsWp =>
    refine goesTo_instr (exec_mtsWp · g a) fun s x => ?_
    rintro ⟨halign, hle, rfl⟩
    dsimp only
    rw [if_neg (not_not_intro (low8_eq_zero halign)), if_neg (Nat.not_lt.2 hle)]

/-- Settles O6: on a stack with room neither moves a register before every word of the range is known not to wait. -/
theorem spillStackCompletes : Obligations.SpillStackCompletes := by
  intro g r
  constructor
  · refine completesWhen_instr (exec_pushm · g r) fun s t => ?_
    rintro ⟨halign, hroom, hmeets, hwait, u, hpush, rfl⟩
    have hfits : ¬ ((s.word Ws.ssp - BitVec.ofNat 64 (8 * rangeWords r)).toNat < (s.word Ws.ssl).toNat ∨
        meetsWorkspace s (s.word Ws.ssp - BitVec.ofNat 64 (8 * rangeWords r)) (8 * rangeWords r) = true) :=
      not_or.2 ⟨Nat.not_lt.2 hroom, ne_true_of_eq_false hmeets⟩
    simp only [if_neg (not_not_intro halign), if_neg hfits, hwait, hpush]
  · refine completesWhen_instr (exec_popm · g r) fun s t => ?_
    rintro ⟨halign, hmeets, hwait, hpop⟩
    simp only [if_neg (not_not_intro halign), if_neg (ne_true_of_eq_false hmeets), hwait, hpop]

end Sys2Proof.Machine
end

section
/-!
PROOFS. The workspace window reads and writes the live registers (02_scalar R43): an access to a register's word of the live workspace
has a place that nothing holds up, and the place is the register's own.
-/

namespace Sys2Proof.Machine

open Sys2Proof

/-- Workspace memory is neither HBM4E, nor dome memory, nor scratchpad. -/
theorem isWs_apart {loc : Nat} (h : isWs loc = true) : isHbm loc = false ∧ isDome loc = false ∧ isScratch loc = false := by
  obtain ⟨hlo, hhi⟩ : Config.wsBase ≤ loc ∧ loc < Config.scratchBase := by simpa [isWs] using h
  have hhbm : Config.hbmSize ≤ Config.wsBase := by decide
  simp only [isHbm, isDome, isScratch, Bool.and_eq_false_iff, decide_eq_false_iff_not]
  omega

namespace State

/-- Nothing is held up in the workspace memory of the current core: no copy is to land there, no landed token is unread, no word is
corrupted. -/
def quietWs (s : State) : Prop := s.core.landed = [] ∧ s.core.soft = [] ∧ ∀ t ∈ s.core.tokens, t = none

/-- The word of w[r] in the workspace memory: its offset is in the window, its place is workspace memory, and KRES does not close it. -/
def openReg (s : State) (r : SReg) : Prop :=
  let off := s.core.wp.toNat + 8 * r.toNat
  off < 0x4000 ∧ isWs (s.live (8 * r.toNat)) = true ∧
    ¬ (s.core.priv = 0 ∧ (s.core.kres.extractLsb' 0 16).toNat ≤ off ∧ off < (s.core.kres.extractLsb' 16 16).toNat)

/-- Where w[r] is kept, as the place of an access. -/
def regPlace (s : State) (r : SReg) : Place := { loc := s.live (8 * r.toNat) }

@[simp] theorem regPlace_loc (s : State) (r : SReg) : (s.regPlace r).loc = s.live (8 * r.toNat) := rfl

@[simp] theorem regPlace_mesh (s : State) (r : SReg) : (s.regPlace r).mesh = false := rfl

@[simp] theorem regPlace_outside (s : State) (r : SReg) : (s.regPlace r).outside = false := rfl

variable {s : State} {r : SReg}

/-- The place of a register's word through the workspace window is where the register is kept. -/
theorem place_reg (h : s.openReg r) (acc : Acc) {va : Word} (hva : va.toNat = s.core.wp.toNat + 8 * r.toNat) :
    s.place acc va = some (s.regPlace r, s) := by
  obtain ⟨hoff, -, hkres⟩ := h
  have hprv : Ws.isPrv (8 * r.toNat) = false := by
    have := r.isLt
    simp only [Ws.isPrv, Bool.or_eq_false_iff, Bool.and_eq_false_iff, decide_eq_false_iff_not]
    omega
  rw [place, if_pos (hva ▸ hoff), wsPlace, hva, Nat.add_sub_cancel_left, hprv]
  simp only [Bool.and_false, Bool.false_eq_true, or_false, Bool.and_eq_true, decide_eq_true_eq, if_neg hkres]
  rfl

theorem noToken_of_none (h : ∀ t ∈ s.core.tokens, t = none) (p : Place) (n : Nat) : s.noToken p n = .ok () := by
  unfold noToken
  split
  · split
    · next hsome =>
      obtain ⟨t, ht, hx⟩ := List.exists_of_findSome?_eq_some hsome
      rw [h t ht] at hx
      cases hx
    · rfl
  · rfl

theorem acquireLanded_none (h : s.core.landed = []) (loc n : Nat) : s.acquireLanded loc n = s := by simp [acquireLanded, h]

theorem wipeSoft_none (h : s.core.soft = []) (loc n : Nat) : s.wipeSoft loc n = s := by simp [wipeSoft, h]

theorem storeLoc_ws {loc : Nat} (h : isWs loc = true) : s.storeLoc loc = loc := by simp [storeLoc, isWs_apart h]

/-- A load of a register's word reads the register. -/
theorem wsBytes_reg (h : s.openReg r) (hr : r ≠ 0) : s.wsBytes 64 (s.live (8 * r.toNat)) 8 = s.reg r := by
  obtain ⟨-, hws, -⟩ := h
  have hoff : ¬ (s.live 0 ≤ s.live (8 * r.toNat) ∧ 0x520 ≤ s.live (8 * r.toNat) - s.live 0 ∧ s.live (8 * r.toNat) - s.live 0 < 0x600) := by
    have := r.isLt
    simp only [live, wsLoc]
    omega
  rw [wsBytes, if_neg hoff, peek, storeLoc_ws hws, reg_eq_load hr]

/-- A store to a register's word writes the register. -/
theorem storeWs_reg (hr : r ≠ 0) (x : Word) : s.storeWs (s.live (8 * r.toNat)) 8 x = s.setReg r x := by
  have hoff : ¬ (s.live 0 ≤ s.live (8 * r.toNat) ∧ 0x520 ≤ s.live (8 * r.toNat) - s.live 0 ∧ s.live (8 * r.toNat) - s.live 0 < 0x600) := by
    have := r.isLt
    simp only [live, wsLoc]
    omega
  rw [storeWs, if_neg hoff, setReg, if_neg hr, setWord]

/-- Loading a register's word through the window gives the register and changes nothing. -/
theorem loadElems_reg (h : s.openReg r) (hr : r ≠ 0) (hquiet : s.quietWs) (hpoison : s.isPoisoned (s.live (8 * r.toNat)) = false)
    {e : Elem} (hva : e.va.toNat = s.core.wp.toNat + 8 * r.toNat) (hn : e.n = 8) : s.loadElems [e] = .ok ([s.reg r], s) := by
  have hplace := place_reg h .load hva
  have hbytes := wsBytes_reg h hr
  obtain ⟨-, hws, -⟩ := h
  obtain ⟨hlanded, hsoft, htokens⟩ := hquiet
  obtain ⟨hhbm, hdome, -⟩ := isWs_apart hws
  have hcheck : s.checkLoads [(e, s.regPlace r)] = .ok () := by
    simp [checkLoads, noOverlap, hdome, noToken_of_none htokens]
  have hload : s.loadAt (s.regPlace r) 64 8 = (s.reg r, s) := by
    simp [loadAt, hws, hbytes, acquireLanded_none hlanded]
  have hgood : s.loadBad (s.regPlace r) = false := by
    simp [loadBad, hhbm, hpoison]
  simp [loadElems, places, placesAux, hplace, hcheck, softWord, hsoft, readElems, hn, hload, hgood]

/-- A store to a register's word through the window writes the register. -/
theorem stores_reg (h : s.openReg r) (hr : r ≠ 0) (hquiet : s.quietWs) {e : Elem} (hva : e.va.toNat = s.core.wp.toNat + 8 * r.toNat)
    (hn : e.n = 8) : s.stores [e] (s.setReg r e.x) := by
  have hplace := place_reg h .store hva
  obtain ⟨-, hws, -⟩ := h
  obtain ⟨hlanded, hsoft, htokens⟩ := hquiet
  obtain ⟨hhbm, hdome, hscratch⟩ := isWs_apart hws
  have hguard : s.guardStores [(e, s.regPlace r)] = .ok [(e, s.regPlace r)] := by
    simp [guardStores, noToken_of_none htokens, portFree, hdome, handleGuard_dome hhbm]
  have hstore : s.storeAt (s.regPlace r) 8 e.x = s.setReg r e.x := by
    simp [storeAt, hws, acquireLanded_none hlanded, wipeSoft_none hsoft, storeWs_reg hr]
  refine ⟨[(e, s.regPlace r)], s, ?_, ?_⟩
  · simp [toStore, places, placesAux, hplace, hguard]
  · simp [writeElems, hn, hstore, sectorSpans, hhbm, hscratch, cleanSpans]

end State

/-- Settles O47: the address is that of the register's word, so the access is the read or the write of the register. -/
theorem workspaceWindowIsTheRegisters : Obligations.WorkspaceWindowIsTheRegisters := by
  intro g d a r s off hwf hr hlanded hsoft htokens hoff ha hws hkres hpoison
  have hopen : s.openReg r := ⟨hoff, hws, hkres⟩
  have hquiet : s.quietWs := ⟨hlanded, hsoft, htokens⟩
  have hva : (s.reg a + s.opB (.imm16 0)).toNat = off := by
    rw [ha, show s.opB (.imm16 0) = 0 by rfl, add_zero, BitVec.toNat_ofNat]
    omega
  have halign (hwp : s.core.wp.toNat % 8 = 0) : (s.reg a + s.opB (.imm16 0)).toNat % 8 = 0 := by
    rw [hva]; omega
  constructor
  · intro hwp hissues
    rw [exec_ld, execLd]
    refine instrIf_done (g := s.guardLane g 0) hissues ?_
    rw [State.acquireTokens_none _ hlanded]
    exact run_of_passes (State.coreLoad_ok (halign hwp) (State.loadElems_reg hopen hr hquiet hpoison hva rfl)) s _
  · intro hwp hissues
    rw [exec_st, execSt]
    refine instrIf_done (g := s.guardLane g 0) hissues ?_
    rw [State.acquireTokens_none _ hlanded]
    have hlocal : State.isRemote (s.reg a + s.opB (.imm16 0)) = false := by
      simp only [State.isRemote, hva, Bool.and_eq_false_iff, decide_eq_false_iff_not]
      omega
    have hlow : lowBytes (memBytes .z64) (s.reg d) = s.reg d := BitVec.and_allOnes
    rw [hlow]
    exact State.coreStore_done (halign hwp) (.inr ⟨hlocal, State.stores_reg hopen hr hquiet hva rfl⟩) _

end Sys2Proof.Machine
end

section
/-!
PROOFS. The floating-point vector instructions (04_vector R113-R125): each shape of the family completes with the planes its rule gives.
-/

namespace Sys2Proof.Machine

open Sys2Proof

/-! ## The shapes of a vector instruction -/

section
variable {i : Instr} {g : Guard} {t : Ty} {n : Nat} {d a b c : VReg}

/-- A vector instruction is guarded lane by lane, so its body always runs (01_encoding R29). -/
theorem vectorSets_of {f : State → State} (h : ∀ s, exec i s = vector i f s) : VectorSets i f :=
  completes_instrAll _ h (fun _ => rfl) fun _ => rfl

theorem setsLanes_of {f : State → Nat → Jet × List Flags} (h : ∀ s, exec i s = vector i (fun s => s.vecWrite n g d s.gsize (f s)) s) :
    SetsLanes i n g d f := vectorSets_of h

/-- The planes of a lane under the sign that a member of the FMA family gives an operand (R114). -/
def signed (neg : Bool) (xs : List FpVal) : List FpVal := if neg then xs.map FpVal.neg else xs

theorem map_flip_eq_signed (neg : Bool) (xs : List FpVal) : xs.map (fun v => if neg then v.neg else v) = signed neg xs := by
  cases neg with
  | false => exact List.map_id xs
  | true => rfl

/-- The jet FMA family (R114). -/
theorem setsLanes_vecFma {na nc : Bool} (h : ∀ s, exec i s = vecFma i g t d a b c na nc s) :
    SetsLanes i (vecFmt t).width g d fun s l => s.eachPlane fun k => JetFp.cauchy (vecFmt t) s.rm (signed na (s.values (vecFmt t) a l))
      (s.values (vecFmt t) b l) k (some (JetFp.at_ (signed nc (s.values (vecFmt t) c l)) k)) := by
  simp only [← map_flip_eq_signed]
  exact setsLanes_of h

/-- VNEG flips the sign in every plane, VABS where the sign bit of plane 0 is set (R113). -/
theorem setsLanes_vecSign {always : Bool} (h : ∀ s, exec i s = vecSign i g t d a always s) :
    SetsLanes i (vecFmt t).width g d fun s l =>
      let x := jetAt (vecFmt t).width ((s.group a s.gsize).take (s.jet + 1)) l
      plain (if always ∨ (vecFmt t).signBit ≤ x.plane 0 then x.map (vecFmt t).negate else x.map (JetFp.copied (vecFmt t))) := by
  have hcond (x : Nat) : (always || decide ((vecFmt t).signBit ≤ x)) = true ↔ always = true ∨ (vecFmt t).signBit ≤ x := by simp
  simp only [← hcond]
  exact setsLanes_of h

end

/-- The mode field of a conversion is 0 for FCSR.RM, else the mode plus 1 (R123). -/
theorem modeOf_toNat (s : State) {w : Nat} (rm : BitVec w) : modeOf s rm.toNat = if rm = 0 then s.rm else rm.toNat - 1 := by
  have hzero : rm.toNat = 0 ↔ rm = 0 := by rw [BitVec.toNat_eq]; exact Iff.rfl
  simp only [modeOf, hzero]

/-- A jet of the one register or the other is the jet of the one or of the other (R122). -/
theorem jetAt_group_ite (s : State) (n count planes l : Nat) (p : Prop) [Decidable p] (a b : VReg) :
    jetAt n ((s.group (if p then a else b) count).take planes) l =
      if p then jetAt n ((s.group a count).take planes) l else jetAt n ((s.group b count).take planes) l :=
  apply_ite (fun r => jetAt n ((s.group r count).take planes) l) p a b

/-! ## The statements -/

/-- Settles O12: each operation forms its planes in the shape of its family; FMS, FNMA and FNMS flip the sign of an operand. -/
theorem vectorArithmeticCompletes : Obligations.VectorArithmeticCompletes := by
  intro g t d a b c
  refine ⟨?vadd, ?vsub, ?vmul, ?vmin, ?vmax, ?vneg, ?vabs, ?vfma, ?vfms, ?vfnma, ?vfnms⟩
  case vadd => exact setsLanes_of (exec_vadd · g t d a b)
  case vsub => exact setsLanes_of (exec_vsub · g t d a b)
  case vmul => exact setsLanes_of (exec_vmul · g t d a b)
  case vmin => exact setsLanes_of (exec_vmin · g t d a b)
  case vmax => exact setsLanes_of (exec_vmax · g t d a b)
  case vneg => simpa using setsLanes_vecSign (always := true) (exec_vneg · g t d a)
  case vabs => simpa using setsLanes_vecSign (always := false) (exec_vabs · g t d a)
  case vfma => exact setsLanes_vecFma (na := false) (nc := false) (exec_vfma · g t d a b c)
  case vfms => exact setsLanes_vecFma (na := false) (nc := true) (exec_vfms · g t d a b c)
  case vfnma => exact setsLanes_vecFma (na := true) (nc := false) (exec_vfnma · g t d a b c)
  case vfnms => exact setsLanes_vecFma (na := true) (nc := true) (exec_vfnms · g t d a b c)

/-- Settles O13: each recurrence is a function of the planes of its operands; VSINCOS writes a group of sines, then one of cosines. -/
theorem vectorRecurrencesComplete : Obligations.VectorRecurrencesComplete := by
  intro g t d a b
  refine ⟨?vdiv, ?vrcp, ?vsqrt, ?vrsqrt, ?vexp, ?vlog, ?vsincos, ?vtanh, ?vsigm⟩
  case vdiv => exact setsLanes_of (exec_vdiv · g t d a b)
  case vrcp => exact setsLanes_of (exec_vrcp · g t d a)
  case vsqrt => exact setsLanes_of (exec_vsqrt · g t d a)
  case vrsqrt => exact setsLanes_of (exec_vrsqrt · g t d a)
  case vexp => exact setsLanes_of (exec_vexp · g t d a)
  case vlog => exact setsLanes_of (exec_vlog · g t d a)
  case vsincos => exact vectorSets_of (exec_vsincos · g t d a)
  case vtanh => exact setsLanes_of (exec_vtanh · g t d a)
  case vsigm => exact setsLanes_of (exec_vsigm · g t d a)

/-- Settles O14: a select picks its source lane by lane; a conversion rounds in the mode its field names; the blocks are guarded as a
whole; a reduction writes its group in full. -/
theorem vectorComparesAndReductionsComplete : Obligations.VectorComparesAndReductionsComplete := by
  refine ⟨fun g t d a b => ⟨?eq, ?ne, ?lt, ?le⟩, fun g d a b c width => ?vsel, fun g t src d a q rm => ?vcvt,
    fun g d a b fmt => ⟨?vqmx, ?vdqmx⟩, fun g t d a => ⟨?redAdd, ?redMin, ?redMax⟩⟩
  case eq => exact vectorSets_of (exec_vcmpEq · g t d a b)
  case ne => exact vectorSets_of (exec_vcmpNe · g t d a b)
  case lt => exact vectorSets_of (exec_vcmpLt · g t d a b)
  case le => exact vectorSets_of (exec_vcmpLe · g t d a b)
  case vsel =>
    simp only [jetAt_group_ite]
    exact setsLanes_of (exec_vsel · g d a b c width)
  case vcvt =>
    simp only [← modeOf_toNat]
    exact vectorSets_of (exec_vcvt · g t d a src q rm)
  case vqmx => exact completes_instr _ (exec_vqmx · g d a b fmt) (fun _ => rfl) fun _ => rfl
  case vdqmx => exact completes_instr _ (exec_vdqmx · g d a b fmt) (fun _ => rfl) fun _ => rfl
  case redAdd => exact vectorSets_of (exec_vredAdd · g t d a)
  case redMin => exact vectorSets_of (exec_vredMin · g t d a)
  case redMax => exact vectorSets_of (exec_vredMax · g t d a)

end Sys2Proof.Machine
end

section
/-!
PROOFS. The packed integer and complex instructions (04_vector R126-R130): each shape of the family completes with its exact sums,
narrowed as its rule says.
-/

namespace Sys2Proof.Machine

open Sys2Proof

section
variable {i : Instr} {g : Guard} {t : Ty} {d a b : VReg} {x : OpBV}

end

/-- Settles O15: the operations by plane in one shape, the picks of a whole jet and the compares each in theirs. -/
theorem packedIntegersComplete : Obligations.PackedIntegersComplete := by
  refine ⟨fun g t d a b => ⟨?add, ?sub, ?and, ?or, ?xor, ?shl, ?shr, ?sar, ?adds, ?subs, ?min, ?max⟩,
    fun g t d a b => ⟨?eq, ?ne, ?lt, ?le⟩⟩
  case add => exact setsLanes_of (exec_vaddInt · g t d a b)
  case sub => exact setsLanes_of (exec_vsubInt · g t d a b)
  case and => exact setsLanes_of (exec_vand · g t d a b)
  case or => exact setsLanes_of (exec_vor · g t d a b)
  case xor => exact setsLanes_of (exec_vxor · g t d a b)
  case shl => exact setsLanes_of (exec_vshl · g t d a b)
  case shr => exact setsLanes_of (exec_vshr · g t d a b)
  case sar => exact setsLanes_of (exec_vsar · g t d a b)
  case adds => exact setsLanes_of (exec_vadds · g t d a b)
  case subs => exact setsLanes_of (exec_vsubs · g t d a b)
  case min => exact setsLanes_of (exec_vminInt · g t d a b)
  case max => exact setsLanes_of (exec_vmaxInt · g t d a b)
  case eq => exact vectorSets_of (exec_vcmpEqInt · g t d a b)
  case ne => exact vectorSets_of (exec_vcmpNeInt · g t d a b)
  case lt => exact vectorSets_of (exec_vcmpLtInt · g t d a b)
  case le => exact vectorSets_of (exec_vcmpLeInt · g t d a b)

/-- Settles O16: exact sums, then narrowing; the butterflies write the upper outputs, then the lower ones. -/
theorem packedProductsComplete : Obligations.PackedProductsComplete := by
  intro g t d a b c
  refine ⟨?vmul, ?vmulh, ?vmac, fun m => ?vsat, ?vdot4, ?vdot2, fun sh => ?vcmul, fun sh => ?vcmac, ?vconj, ?vbfly, ?vbflys⟩
  case vmul => exact setsLanes_of (exec_vmulInt · g t d a b)
  case vmulh => exact setsLanes_of (exec_vmulh · g t d a b)
  case vmac => exact setsLanes_of (exec_vmac · g t d a b)
  case vsat => exact setsLanes_of (exec_vsat · g t d a m)
  case vdot4 => exact setsLanes_of (exec_vdot4 · g t d a b)
  case vdot2 => exact setsLanes_of (exec_vdot2 · g t d a b)
  case vcmul => exact setsLanes_of (exec_vcmul · g t d a b sh)
  case vcmac => exact setsLanes_of (exec_vcmac · g t d a b sh)
  case vconj => exact setsLanes_of (exec_vconj · g t d a)
  case vbfly => exact vectorSets_of (exec_vbfly · g t d a b c)
  case vbflys => exact vectorSets_of (exec_vbflys · g t d a b c)

end Sys2Proof.Machine
end

section
/-!
PROOFS. Permutes, moves between scalar and vector registers, and the jet instructions (04_vector R131-R133).
-/

namespace Sys2Proof.Machine

open Sys2Proof

/-- An instruction with a guard of its own whose body is a plain function of the state completes with it. -/
theorem completes_instrIf {i : Instr} {γ : State → Bool} {f : State → State}
    (h : ∀ s, exec i s = instrIf i (γ s) (fun s => .done (f s)) s) : Completes i γ f := fun s hissues => by
  rw [h]
  exact instrIf_done (g := γ s) hissues rfl

/-- Settles O17: a permute moves whole jets; VINS and VEXT act when Guard(j), JCLR when Guard(0). -/
theorem permutesAndJetsComplete : Obligations.PermutesAndJetsComplete := by
  refine ⟨fun g t d a b c => ⟨?vperm, ?vshuf, fun x => ?vrot, fun j => ?vbcast, fun k => ?jext, fun k m => ?jplane, fun x => ?jseed⟩,
    fun g d a width => ?vmov, fun g t v w => ⟨fun j => ?vins, fun j => ?vext, ?vsplat⟩, fun g mask => ?jclr⟩
  case vperm => exact setsLanes_of (exec_vperm · g t d a b)
  case vshuf =>
    simp only [← apply_ite plain]
    exact setsLanes_of (exec_vshuf · g t d a b c)
  case vrot => exact setsLanes_of (exec_vrot · g t d a x)
  case vbcast => exact setsLanes_of (exec_vbcast · g t d a j)
  case jext => exact setsLanes_of (exec_jext · g t d a k)
  case jplane => exact vectorSets_of (exec_jplane · g t d a k m)
  case jseed => exact setsLanes_of (exec_jseed · g t d x)
  case vmov => exact setsLanes_of (exec_vmov · g d a width)
  case vins => exact completes_instrIf (exec_vins · g t v w j)
  case vext => exact completes_instrIf (exec_vext · g t w v j)
  case vsplat => exact setsLanes_of (exec_vsplat · g t v w)
  case jclr => exact completes_instr _ (exec_jclr · g mask) (fun _ => rfl) fun _ => rfl

end Sys2Proof.Machine
end

section
/-!
PROOFS. What a vector instruction leaves unchanged (04_vector R109-R111): the lanes of a register put together from lanes, the registers
of a group that is written, JFLAGS when flags are raised, and the frame of an instruction that completes and retires.
-/

namespace Sys2Proof.Machine

open Sys2Proof

/-! ## A register put together from lanes -/

/-- The number whose digits in base 2ⁿ are the lanes (R108). -/
def packLanes (n : Nat) (xs : List Nat) : Nat := xs.foldr (fun x a => a * 2 ^ n + x % 2 ^ n) 0

theorem packLanes_cons (n x : Nat) (xs : List Nat) : packLanes n (x :: xs) = packLanes n xs * 2 ^ n + x % 2 ^ n := rfl

theorem joinLanes_eq (n : Nat) (xs : List Nat) : joinLanes n xs = BitVec.ofNat 256 (packLanes n xs) := rfl

theorem packLanes_lt (n : Nat) (xs : List Nat) : packLanes n xs < 2 ^ (n * xs.length) := by
  induction xs with
  | nil => exact Nat.one_pos
  | cons x xs ih =>
    have hx : x % 2 ^ n < 2 ^ n := Nat.mod_lt _ (Nat.two_pow_pos n)
    calc packLanes n xs * 2 ^ n + x % 2 ^ n
      _ < (packLanes n xs + 1) * 2 ^ n := by rw [Nat.succ_mul]; omega
      _ ≤ 2 ^ (n * xs.length) * 2 ^ n := Nat.mul_le_mul_right _ ih
      _ = 2 ^ (n * (xs.length + 1)) := by rw [← Nat.pow_add, Nat.mul_succ]

theorem packLanes_digit (n : Nat) (xs : List Nat) {l : Nat} (hl : l < xs.length) : packLanes n xs / 2 ^ (n * l) % 2 ^ n = xs[l] % 2 ^ n := by
  induction xs generalizing l with
  | nil => cases hl
  | cons x xs ih =>
    cases l with
    | zero => simp [packLanes_cons]
    | succ l =>
      have hshift : packLanes n (x :: xs) / 2 ^ n = packLanes n xs := by
        rw [packLanes_cons, Nat.mul_comm, Nat.mul_add_div (Nat.two_pow_pos n), Nat.div_eq_of_lt (Nat.mod_lt _ (Nat.two_pow_pos n)),
          Nat.add_zero]
      rw [Nat.mul_succ, Nat.add_comm, Nat.pow_add, ← Nat.div_div_eq_div_mul, hshift]
      exact ih (Nat.lt_of_succ_lt_succ hl)

/-- A lane of a register put together from lanes that fit in it. -/
theorem lane_joinLanes {n : Nat} {xs : List Nat} (hn : n * xs.length ≤ 256) {l : Nat} (hl : l < xs.length) :
    lane n (joinLanes n xs) l = xs[l] % 2 ^ n := by
  have hlt : packLanes n xs < 2 ^ 256 := (packLanes_lt n xs).trans_le (Nat.pow_le_pow_right Nat.two_pos hn)
  rw [lane, joinLanes_eq, BitVec.toNat_ofNat, Nat.mod_eq_of_lt hlt, packLanes_digit n xs hl]

theorem length_mergeLanes (n : Nat) (old : List VWord) (res : List (Option Jet)) : (mergeLanes n old res).length = old.length := by
  simp [mergeLanes]

/-- A lane that received no jet keeps its bits (R109). -/
theorem lane_mergeLanes_none {n : Nat} {old : List VWord} {res : List (Option Jet)} (hn : n * res.length ≤ 256) {k l : Nat}
    (hk : k < old.length) (hl : l < res.length) (hnone : res[l] = none) :
    lane n ((mergeLanes n old res)[k]'(by rwa [length_mergeLanes])) l = lane n old[k] l := by
  simp only [mergeLanes, List.getElem_map, List.getElem_zipIdx]
  rw [lane_joinLanes (by simpa using hn) (by simpa using hl)]
  simp [hnone, lane]

namespace State

variable {s t : State} {out : Nat → Prop}

/-! ## What reads the same -/

/-- The live workspace reads the same where no byte may change. -/
theorem unchangedBut.load (h : s.unchangedBut t out) {w off n : Nat} (hout : ∀ loc, covers (s.live off) n loc → ¬ out loc) :
    Mem.load t.mem w (t.live off) n = Mem.load s.mem w (s.live off) n := by
  rw [h.live, Mem.load, Mem.load, Mem.bytes, Mem.bytes]
  obtain ⟨hbytes, -⟩ := h
  refine congrArg _ (List.map_congr_left fun k hk => ?_)
  have hlt := List.mem_range.1 hk
  exact hbytes _ (hout _ ⟨by omega, by omega⟩)

theorem unchangedBut.vreg (h : s.unchangedBut t out) {v : VReg} (hout : ∀ loc, s.vregBytes v 1 loc → ¬ out loc) : t.vreg v = s.vreg v :=
  h.load hout

theorem unchangedBut.wordByte (h : s.unchangedBut t out) {off loc : Nat} (hloc : t.wordByte off loc) : s.wordByte off loc := by
  rwa [State.wordByte, h.live] at hloc

/-- Two states between which nothing has happened but the bookkeeping of an instruction: the same storage, the same core in the same
workspace. -/
def sameStorage (s t : State) : Prop := t.mem = s.mem ∧ s.unchangedBut t fun _ => False

theorem sameStorage_refl (s : State) : s.sameStorage s := ⟨rfl, unchangedBut_refl s⟩

theorem sameStorage_acquireTokens (s : State) (i : Instr) : s.sameStorage (s.acquireTokens i) :=
  ⟨acquireTokens_mem s i, unchangedBut_acquireTokens s i⟩

theorem sameStorage_count (s : State) (i n : Nat) : s.sameStorage (s.count i n) := ⟨rfl, unchangedBut_count s i n⟩

theorem sameStorage_wiped (s : State) (i : Instr) : s.sameStorage (s.wiped i) := ⟨wiped_mem s i, unchangedBut_wiped s i⟩

theorem sameStorage.frame (h : s.sameStorage t) : s.unchangedBut t out := by
  obtain ⟨-, hframe⟩ := h
  exact hframe.mono fun _ => False.elim

theorem sameStorage.wf (h : s.sameStorage t) (hwf : Mem.wf s.mem = true) : Mem.wf t.mem = true := by
  obtain ⟨hmem, -⟩ := h
  rwa [hmem]

section
variable (h : s.sameStorage t)
include h

theorem sameStorage.load (w off n : Nat) : Mem.load t.mem w (t.live off) n = Mem.load s.mem w (s.live off) n := by
  obtain ⟨-, hframe⟩ := h
  exact hframe.load fun _ _ => not_false

theorem sameStorage.word (off : Nat) : t.word off = s.word off := h.load 64 off 8

theorem sameStorage.vreg (v : VReg) : t.vreg v = s.vreg v := h.load 256 _ 32

theorem sameStorage.pred (p : PReg) : t.pred p = s.pred p := by rw [State.pred, h.load, State.pred]

theorem sameStorage.guardLane (g : Guard) (l : Nat) : t.guardLane g l = s.guardLane g l := by
  rw [State.guardLane, h.pred, State.guardLane]

theorem sameStorage.gsize : t.gsize = s.gsize := by rw [State.gsize, jet, h.word, State.gsize, jet]

theorem sameStorage.live (off : Nat) : t.live off = s.live off := by
  obtain ⟨-, hframe⟩ := h
  exact hframe.live off

end

/-! ## Writing a group -/

/-- The bytes of the registers of a group (R110). -/
def groupByte (s : State) (d : VReg) (count loc : Nat) : Prop := ∃ k < count, s.vregBytes (d + BitVec.ofNat 5 k) 1 loc

/-- A vector register lies apart from the words after the register files (02_scalar R41). -/
theorem not_vregBytes_of_wordByte {v : VReg} {off loc : Nat} (hoff : 0x500 ≤ off) (h : s.wordByte off loc) : ¬ s.vregBytes v 1 loc := by
  have := v.isLt
  simp only [State.wordByte, vregBytes, covers, State.live, wsLoc] at *
  omega

theorem not_groupByte_of_wordByte {d : VReg} {count off loc : Nat} (hoff : 0x500 ≤ off) (h : s.wordByte off loc) :
    ¬ s.groupByte d count loc := by
  rintro ⟨k, -, hk⟩
  exact not_vregBytes_of_wordByte hoff h hk

theorem not_vregBytes_of_ne {v r : VReg} {loc : Nat} (hne : v ≠ r) (h : s.vregBytes v 1 loc) : ¬ s.vregBytes r 1 loc := by
  have : v.toNat ≠ r.toNat := fun heq => hne (BitVec.eq_of_toNat_eq heq)
  simp only [vregBytes, covers, State.live, wsLoc] at *
  omega

theorem not_groupByte_of_ne {v d : VReg} {count loc : Nat} (hne : ∀ k < count, v ≠ d + BitVec.ofNat 5 k) (h : s.vregBytes v 1 loc) :
    ¬ s.groupByte d count loc := by
  rintro ⟨k, hk, hloc⟩
  exact not_vregBytes_of_ne (hne k hk) h hloc

/-- Register k of a group is register k + 1 of the group that begins one register before. -/
theorem add_one_add_ofNat (d : VReg) (k : Nat) : d + 1 + BitVec.ofNat 5 k = d + BitVec.ofNat 5 (k + 1) := by
  bv_omega

theorem unchangedBut_setVreg (hwf : Mem.wf s.mem = true) {v : VReg} (x : VWord) (hout : ∀ loc, s.vregBytes v 1 loc → out loc) :
    s.unchangedBut (s.setVreg v x) out := unchangedBut_store hwf x hout

theorem wf_setGroup (hwf : Mem.wf s.mem = true) (d : VReg) (xs : List VWord) : Mem.wf (s.setGroup d xs).mem = true := by
  induction xs generalizing s d with
  | nil => exact hwf
  | cons x xs ih =>
    rw [setGroup]
    exact ih (wf_setVreg hwf d x) (d + 1)

/-- A write of a group changes the bytes of its registers. -/
theorem unchangedBut_setGroup (hwf : Mem.wf s.mem = true) (d : VReg) (xs : List VWord) :
    s.unchangedBut (s.setGroup d xs) (s.groupByte d xs.length) := by
  induction xs generalizing s d with
  | nil => exact unchangedBut_refl s
  | cons x xs ih =>
    rw [setGroup]
    refine (unchangedBut_setVreg hwf x fun loc hloc => ⟨0, Nat.succ_pos _, by simpa using hloc⟩).trans
      ((ih (wf_setVreg hwf d x) (d + 1)).mono ?_)
    rintro loc ⟨k, hk, hloc⟩
    rw [add_one_add_ofNat, vregBytes, live_setVreg] at hloc
    exact ⟨k + 1, Nat.succ_lt_succ hk, hloc⟩

/-- A register of a group that was written reads what was written to it. -/
theorem vreg_setGroup (hwf : Mem.wf s.mem = true) (d : VReg) {xs : List VWord} (hlen : xs.length ≤ 32) {k : Nat} (hk : k < xs.length) :
    (s.setGroup d xs).vreg (d + BitVec.ofNat 5 k) = xs[k] := by
  induction xs generalizing s d k with
  | nil => cases hk
  | cons x xs ih =>
    rw [List.length_cons] at hlen hk
    cases k with
    | zero =>
      have hapart : ∀ k < xs.length, d + BitVec.ofNat 5 0 ≠ d + 1 + BitVec.ofNat 5 k := by
        intro k hk
        bv_omega
      rw [setGroup, (unchangedBut_setGroup (wf_setVreg hwf d x) (d + 1) xs).vreg fun loc => not_groupByte_of_ne hapart]
      simpa using vreg_setVreg_same hwf d x
    | succ k =>
      rw [setGroup, ← add_one_add_ofNat]
      exact ih (wf_setVreg hwf d x) (d + 1) (by omega) (by omega)

theorem length_group (s : State) (d : VReg) (count : Nat) : (s.group d count).length = count := by simp [group]

theorem getElem_group (s : State) (d : VReg) {count k : Nat} (hk : k < (s.group d count).length) :
    (s.group d count)[k] = s.vreg (d + BitVec.ofNat 5 k) := by simp [group]

theorem gsize_le (s : State) : s.gsize ≤ 8 := by
  unfold gsize groupSize
  split_ifs <;> decide

end State

/-! ## Frames in which JFLAGS only gains flags -/

/-- A change of the bytes `out` alone in which JFLAGS loses no bit (R111). -/
structure FlagFrame (out : Nat → Prop) (s t : State) : Prop where
  frame : s.unchangedBut t out
  wf : Mem.wf t.mem = true
  bits : s.word Ws.jflags &&& t.word Ws.jflags = s.word Ws.jflags

section
variable {s t u : State} {out : Nat → Prop}

theorem FlagFrame.refl (hwf : Mem.wf s.mem = true) : FlagFrame out s s := ⟨State.unchangedBut_refl s, hwf, BitVec.and_self⟩

theorem FlagFrame.trans (h : FlagFrame out s t) (h' : FlagFrame out t u) : FlagFrame out s u where
  frame := h.frame.trans h'.frame
  wf := h'.wf
  bits := by
    calc s.word Ws.jflags &&& u.word Ws.jflags
      _ = s.word Ws.jflags &&& (t.word Ws.jflags &&& u.word Ws.jflags) := by rw [← BitVec.and_assoc, h.bits]
      _ = s.word Ws.jflags := by rw [h'.bits, h.bits]

theorem FlagFrame.mono {out' : Nat → Prop} (h : FlagFrame out s t) (hout : ∀ loc, out loc → out' loc) : FlagFrame out' s t :=
  ⟨h.frame.mono hout, h.wf, h.bits⟩

/-- A change that spares JFLAGS. -/
theorem FlagFrame.of_spares (h : s.unchangedBut t out) (hwf : Mem.wf t.mem = true) (hout : ∀ loc, s.wordByte Ws.jflags loc → ¬ out loc) :
    FlagFrame out s t := ⟨h, hwf, by rw [h.word hout, BitVec.and_self]⟩

theorem FlagFrame.of_sameStorage (h : s.sameStorage t) (hwf : Mem.wf s.mem = true) : FlagFrame out s t :=
  ⟨h.frame, h.wf hwf, by rw [h.word, BitVec.and_self]⟩

/-- A further change that spares JFLAGS. -/
theorem FlagFrame.spares {out' : Nat → Prop} (h : FlagFrame out s t) (h' : t.unchangedBut u out') (hwf : Mem.wf u.mem = true)
    (hspares : ∀ loc, t.wordByte Ws.jflags loc → ¬ out' loc) (hout : ∀ loc, out' loc → out loc) : FlagFrame out s u :=
  h.trans ((FlagFrame.of_spares h' hwf hspares).mono hout)

theorem FlagFrame.setPred (h : FlagFrame out s t) {p : PReg} (x : BitVec 32) (hout : ∀ loc, s.predByte p loc → out loc) :
    FlagFrame out s (t.setPred p x) :=
  h.spares (State.unchangedBut_setPred h.wf x fun _ => id) (State.wf_setPred h.wf p x)
    (fun _ => State.not_predByte_of_wordByte (by decide)) fun loc hloc => hout loc (by rwa [State.predByte, h.frame.live] at hloc)

theorem FlagFrame.setReg (h : FlagFrame out s t) {r : SReg} (x : Word) (hout : ∀ loc, s.regByte r loc → out loc) :
    FlagFrame out s (t.setReg r x) :=
  h.spares (State.unchangedBut_setReg h.wf x fun _ => id) (State.wf_setReg h.wf r x)
    (fun _ => State.not_regByte_of_wordByte (by decide)) fun loc hloc => hout loc (by rwa [State.regByte, h.frame.live] at hloc)

theorem FlagFrame.setVreg (h : FlagFrame out s t) {r : VReg} (x : VWord) (hout : ∀ loc, s.vregBytes r 1 loc → out loc) :
    FlagFrame out s (t.setVreg r x) :=
  h.spares (State.unchangedBut_setVreg h.wf x fun _ => id) (State.wf_setVreg h.wf r x)
    (fun _ => State.not_vregBytes_of_wordByte (by decide)) fun loc hloc => hout loc (by rwa [State.vregBytes, h.frame.live] at hloc)

theorem FlagFrame.setGroup (h : FlagFrame out s t) {d : VReg} (xs : List VWord) (hout : ∀ loc, s.groupByte d xs.length loc → out loc) :
    FlagFrame out s (t.setGroup d xs) :=
  h.spares (State.unchangedBut_setGroup h.wf d xs) (State.wf_setGroup h.wf d xs)
    (fun _ => State.not_groupByte_of_wordByte (by decide)) fun loc hloc => hout loc (by
      simpa only [State.groupByte, State.vregBytes, h.frame.live] using hloc)

/-- Flags raised in JFLAGS (R111). -/
theorem FlagFrame.raisePlane (h : FlagFrame out s t) (p : Nat) (f : Flags) (hout : ∀ loc, s.wordByte Ws.jflags loc → out loc) :
    FlagFrame out s (t.raisePlane p f) := by
  refine h.trans ⟨State.unchangedBut_setWord h.wf _ fun loc hloc => hout loc (h.frame.wordByte hloc), State.wf_setWord h.wf _ _, ?_⟩
  rw [State.raisePlane, State.word_setWord_same h.wf]
  ext k hk
  simp; tauto

theorem FlagFrame.raisePlanes (h : FlagFrame out s t) (p : Nat) (fs : List Flags) (hout : ∀ loc, s.wordByte Ws.jflags loc → out loc) :
    FlagFrame out s (t.raisePlanes p fs) := by
  induction fs generalizing t p with
  | nil => exact h
  | cons f fs ih => exact ih (h.raisePlane p f hout) (p + 1)

theorem FlagFrame.count (h : FlagFrame out s t) (k m : Nat) : FlagFrame out s (t.count k m) :=
  h.trans (.of_sameStorage (State.sameStorage_count t k m) h.wf)

/-- A register lies apart from the words after the register files, so retirement leaves it (02_scalar R79). -/
theorem vreg_retire (hwf : Mem.wf s.mem = true) (size : Nat) (r : VReg) : (s.retire size).vreg r = s.vreg r :=
  (State.unchangedBut_retire (out := s.repByte) hwf size fun _ => id).vreg fun loc hloc ⟨_, hrep⟩ =>
    State.not_vregBytes_of_wordByte (off := Ws.repState) (by decide) hrep hloc

/-- Retirement adds REP_STATE to what an instruction changed. -/
theorem FlagFrame.retire (h : FlagFrame out s t) (hrep : ∀ loc, s.wordByte Ws.repState loc → ¬ out loc) (size : Nat) :
    s.unchangedBut (t.retire size) (fun loc => out loc ∨ s.repByte loc) ∧
      s.word Ws.jflags &&& (t.retire size).word Ws.jflags = s.word Ws.jflags :=
  ⟨(h.frame.mono fun _ => .inl).trans (State.unchangedBut_retire h.wf size fun _ hloc => .inr (h.frame.repByte hrep hloc)),
    by rw [State.word_retire h.wf size (by decide), h.bits]⟩

/-! ## Instructions that complete -/

/-- The guard that decides whether the body of an instruction runs: while it is off the instruction only retires (01_encoding R29). -/
def Guarded (i : Instr) (γ : State → Bool) : Prop :=
  ∀ s : State, s.clear i = true → γ s = false → exec i s = .next ((s.count 6 1).retire i.size)

variable {i : Instr} {γ : State → Bool} {f : State → State}

theorem guarded_always (i : Instr) : Guarded i State.always := nofun

theorem guarded_of_wholeGuard {g : Guard} {l : Nat} (hw : wholeGuard i = some (g, l)) (hl : leaderDecides i = false) :
    Guarded i fun s => s.guardLane g l := fun s hclear hg =>
  guardedOffInstructionsOnlyRetire i g l s hw hclear hg (by simp [hl])

/-- What an instruction that completes answers: between bookkeeping that leaves storage as it is, `R` relates what was to what was
made, and the instruction retires. -/
theorem exists_retired_of_completes {R : State → State → Prop} (hguard : Guarded i γ) (h : Completes i γ f) (hwf : Mem.wf s.mem = true)
    (hclear : s.clear i = true) (hexec : exec i s = .next u) (hrefl : R s s)
    (hf : ∀ a, s.sameStorage a → Mem.wf a.mem = true → γ s = true → R a (f a)) :
    ∃ a v w, s.sameStorage a ∧ R a v ∧ v.sameStorage w ∧ u = w.retire i.size := by
  cases hg : γ s with
  | false =>
    rw [hguard s hclear hg] at hexec
    exact ⟨s, s, _, State.sameStorage_refl s, hrefl, State.sameStorage_count s 6 1, (Host.Outcome.next.inj hexec).symm⟩
  | true =>
    rw [h s (by simp [State.issues, hclear, hg])] at hexec
    have hsame := State.sameStorage_acquireTokens s i
    exact ⟨_, _, _, hsame, hf _ hsame (hsame.wf hwf) hg, State.sameStorage_wiped _ i, (Host.Outcome.next.inj hexec).symm⟩

/-- An instruction that completes changes what its function changes, and retires. -/
theorem flagFrame_of_completes (hguard : Guarded i γ) (h : Completes i γ f) (hwf : Mem.wf s.mem = true) (hclear : s.clear i = true)
    (hexec : exec i s = .next u) (hrep : ∀ loc, s.wordByte Ws.repState loc → ¬ out loc)
    (hf : ∀ a, FlagFrame out s a → FlagFrame out s (f a)) :
    s.unchangedBut u (fun loc => out loc ∨ s.repByte loc) ∧ s.word Ws.jflags &&& u.word Ws.jflags = s.word Ws.jflags := by
  obtain ⟨-, v, w, -, hmade, hsame, rfl⟩ := exists_retired_of_completes (R := fun _ v => FlagFrame out s v) hguard h hwf hclear hexec
    (.refl hwf) fun a ha _ _ => hf a (.of_sameStorage ha hwf)
  exact (hmade.trans (.of_sameStorage hsame hmade.wf)).retire hrep i.size

end

/-! ## Writing lanes -/

/-- A write of lanes of n bits of the `count` registers from v[d] on: it changes their bytes and, with `flags`, raises bits of JFLAGS,
and the lanes it `keeps` are as before (R109-R111). -/
structure WritesLanes (n : Nat) (d : VReg) (count : Nat) (flags : Bool) (keeps : Nat → Bool) (s t : State) : Prop where
  flagFrame : FlagFrame (fun loc => s.groupByte d count loc ∨ (flags = true ∧ s.wordByte Ws.jflags loc)) s t
  lanes : ∀ k < count, ∀ l < 256 / n, keeps l = true →
    lane n (t.vreg (d + BitVec.ofNat 5 k)) l = lane n (s.vreg (d + BitVec.ofNat 5 k)) l

section
variable {s t : State} {n count : Nat} {d : VReg} {flags : Bool} {keeps : Nat → Bool}

theorem WritesLanes.refl (hwf : Mem.wf s.mem = true) : WritesLanes n d count flags keeps s s := ⟨.refl hwf, fun _ _ _ _ _ => rfl⟩

/-- A group is written whose new registers hold the old lanes where they are kept. -/
theorem writesLanes_setGroup (hwf : Mem.wf s.mem = true) {xs : List VWord} (hlen : xs.length ≤ 32)
    (hlanes : ∀ k (hk : k < xs.length), ∀ l < 256 / n, keeps l = true → lane n xs[k] l = lane n (s.vreg (d + BitVec.ofNat 5 k)) l) :
    WritesLanes n d xs.length flags keeps s (s.setGroup d xs) where
  flagFrame := (FlagFrame.refl hwf).setGroup xs fun _ => .inl
  lanes k hk l hl hkeep := by rw [State.vreg_setGroup hwf d hlen hk, hlanes k hk l hl hkeep]

/-- The flags of each plane are raised after a write of lanes (R111). -/
theorem WritesLanes.raisePlanes (h : WritesLanes n d count flags keeps s t) {fl : List Flags}
    (hfl : flags = false → fl.all (· == 0) = true) :
    WritesLanes n d count flags keeps s (if fl.all (· == 0) then t else t.raisePlanes 0 fl) := by
  split
  · exact h
  · next hraised =>
    have hflags : flags = true := by
      cases flags with
      | false => exact absurd (hfl rfl) hraised
      | true => rfl
    have hraise := (FlagFrame.refl (out := t.wordByte Ws.jflags) h.flagFrame.wf).raisePlanes 0 fl fun _ => id
    refine ⟨h.flagFrame.raisePlanes 0 fl fun _ hloc => .inr ⟨hflags, hloc⟩, fun k hk l hl hkeep => ?_⟩
    rw [hraise.frame.vreg fun loc hloc hword => State.not_vregBytes_of_wordByte (by decide) hword hloc]
    exact h.lanes k hk l hl hkeep

/-- A fold that no element moves. -/
theorem foldl_eq_of_fixed {α β : Type} {f : α → β → α} {x : α} {ys : List β} (h : ∀ y ∈ ys, f x y = x) : ys.foldl f x = x := by
  induction ys with
  | nil => rfl
  | cons y ys ih =>
    obtain ⟨hy, hys⟩ := List.forall_mem_cons.1 h
    rw [List.foldl_cons, hy, ih hys]

/-- A write of some lanes: the others keep their bits, and without flags none is raised (R109, R111). -/
theorem writesLanes_writeLanes (hwf : Mem.wf s.mem = true) (hcount : count ≤ 32) {res : List (Option (Jet × List Flags))}
    (hlen : res.length = 256 / n) (hkeeps : ∀ l (hl : l < res.length), keeps l = true → res[l] = none)
    (hflags : flags = false → ∀ x, some x ∈ res → x.2 = []) :
    WritesLanes n d count flags keeps s (s.writeLanes n d count res) := by
  have hmerged : (mergeLanes n (s.group d count) (res.map fun r => r.map (·.1))).length = count := by
    rw [length_mergeLanes, State.length_group]
  have hwrite : WritesLanes n d count flags keeps s (s.setGroup d (mergeLanes n (s.group d count) (res.map fun r => r.map (·.1)))) := by
    conv => enter [3]; rw [← hmerged]
    refine writesLanes_setGroup hwf (hmerged.trans_le hcount) fun k hk l hl hkeep => ?_
    have hres : l < res.length := hlen ▸ hl
    rw [lane_mergeLanes_none (by rw [List.length_map, hlen]; exact Nat.mul_div_le 256 n) (by rwa [length_mergeLanes] at hk)
      (by rwa [List.length_map]) (by rw [List.getElem_map, hkeeps l hres hkeep]; rfl), State.getElem_group]
  refine hwrite.raisePlanes fun hnone => ?_
  rw [List.all_eq_true]
  intro f hf
  obtain ⟨k, -, rfl⟩ := List.mem_map.1 hf
  refine beq_iff_eq.2 (foldl_eq_of_fixed fun r hr => ?_)
  cases r with
  | none => rfl
  | some x => simp [hflags hnone x hr]

theorem length_enabledLanes (s : State) (n : Nat) (g : Guard) (f : Nat → Jet × List Flags) : (s.enabledLanes n g f).length = 256 / n := by
  simp [State.enabledLanes]

/-- The lanes under a guard are written, the others keep their bits (R109). -/
theorem writesLanes_vecWrite (hwf : Mem.wf s.mem = true) (hcount : count ≤ 32) (g : Guard) {f : Nat → Jet × List Flags}
    (hflags : flags = false → ∀ l, (f l).2 = []) :
    WritesLanes n d count flags (fun l => !s.guardLane g l) s (s.vecWrite n g d count f) := by
  refine writesLanes_writeLanes hwf hcount (length_enabledLanes s n g f) (fun l hl hkeep => ?_) fun hnone x hx => ?_
  · have hoff : s.guardLane g l = false := by simpa using hkeep
    simp [State.enabledLanes, hoff]
  · obtain ⟨l, -, hl⟩ := List.mem_map.1 hx
    split at hl
    · rw [← Option.some.inj hl]; exact hflags hnone l
    · cases hl

theorem length_vcvtLanes (s : State) (g : Guard) (t : Ty) (a : VReg) (src : Ty) (q mode : Nat) :
    (vcvtLanes s g t a src q mode).length = 256 / t.bits := by
  simp [vcvtLanes]

/-- A reduction writes every lane of its group (R125). -/
theorem writesLanes_redWrite (hwf : Mem.wf s.mem = true) (n : Nat) (d : VReg) {x : Jet} {fl : List Flags} (hflags : flags = false → fl = []) :
    WritesLanes n d s.gsize flags (fun _ => false) s (redWrite s n d x fl) := by
  have hlen : ((List.range s.gsize).map fun k => joinLanes n [x.getD k 0]).length = s.gsize := by simp
  have hwrite : WritesLanes n d s.gsize flags (fun _ => false) s
      (s.setGroup d ((List.range s.gsize).map fun k => joinLanes n [x.getD k 0])) := by
    conv => enter [3]; rw [← hlen]
    exact writesLanes_setGroup hwf (by have := s.gsize_le; omega) fun _ _ _ _ => nofun
  exact hwrite.raisePlanes fun hnone => by rw [hflags hnone]; rfl

/-- An instruction that completes with lanes written leaves all else unchanged, whether its guard holds or not. -/
theorem framesLanes_of_completes {i : Instr} {γ : State → Bool} {f : State → State} {count : State → Nat} {keeps : State → Nat → Bool}
    (hguard : Guarded i γ) (h : Completes i γ f)
    (hf : ∀ s a, s.sameStorage a → Mem.wf a.mem = true → γ s = true → WritesLanes n d (count s) flags (keeps s) a (f a)) :
    FramesLanes i n d count flags keeps := by
  intro s u hwf hclear hexec
  obtain ⟨a, v, w, hsame, hmade, hsame', rfl⟩ :=
    exists_retired_of_completes (R := WritesLanes n d (count s) flags (keeps s)) hguard h hwf hclear hexec (.refl hwf) (hf s)
  have hframe : FlagFrame (fun loc => s.groupByte d (count s) loc ∨ (flags = true ∧ s.wordByte Ws.jflags loc)) s w := by
    refine ((FlagFrame.of_sameStorage hsame hwf).trans (hmade.flagFrame.mono fun loc hloc => ?_)).trans
      (.of_sameStorage hsame' hmade.flagFrame.wf)
    simpa only [State.groupByte, State.vregBytes, State.wordByte, hsame.live] using hloc
  have hrep : ∀ loc, s.wordByte Ws.repState loc → ¬ (s.groupByte d (count s) loc ∨ (flags = true ∧ s.wordByte Ws.jflags loc)) :=
    fun loc hloc => not_or.2 ⟨State.not_groupByte_of_wordByte (by decide) hloc,
      fun ⟨_, hjflags⟩ => State.not_wordByte_of_wordByte (by decide) hloc hjflags⟩
  obtain ⟨hbytes, hbits⟩ := hframe.retire hrep i.size
  refine ⟨hbytes.mono fun _ => or_assoc.1, hbits, fun k hk l hl hkeep => ?_⟩
  rw [vreg_retire hframe.wf, hsame'.vreg, hmade.lanes k hk l hl hkeep, hsame.vreg]

end

end Sys2Proof.Machine
end

section
/-!
PROOFS. The frame of every vector instruction (04_vector R109-R133), from what it completes with: the writers of lanes, the reductions,
the compares, and the instructions that are guarded as a whole.
-/

namespace Sys2Proof.Machine

open Sys2Proof

section
variable {i : Instr} {n : Nat} {g : Guard} {d : VReg} {flags : Bool} {s t u : State} {out : Nat → Prop}

/-! ## Counting an instruction -/

theorem WritesLanes.count {count : Nat} {keeps : Nat → Bool} (h : WritesLanes n d count flags keeps s t) (k m : Nat) :
    WritesLanes n d count flags keeps s (t.count k m) :=
  ⟨h.flagFrame.count k m, fun j hj l hl hkeep => by rw [(State.sameStorage_count t k m).vreg, h.lanes j hj l hl hkeep]⟩

/-! ## Writers of lanes -/

/-- An instruction that writes lanes of a number of registers under its guard. -/
theorem framesLanes_of_vecWrite {count : State → Nat} {f : State → Nat → Jet × List Flags}
    (h : VectorSets i fun s => s.vecWrite n g d (count s) (f s)) (hcount : ∀ s, count s ≤ 32)
    (hsame : ∀ s a : State, s.sameStorage a → count a = count s) (hflags : flags = false → ∀ s l, (f s l).2 = []) :
    FramesLanes i n d count flags fun s l => !s.guardLane g l :=
  framesLanes_of_completes (guarded_always i) h fun s a ha hwf _ => by
    rw [← hsame s a ha]
    simp only [← ha.guardLane]
    exact (writesLanes_vecWrite hwf (hcount a) g fun hnone => hflags hnone a).count 4 1

theorem gsize_le_32 (s : State) : s.gsize ≤ 32 := s.gsize_le.trans (by decide)

theorem two_mul_gsize_le_32 (s : State) : 2 * s.gsize ≤ 32 := by have := s.gsize_le; omega

theorem two_mul_gsize_of_sameStorage (s a : State) (h : s.sameStorage a) : 2 * a.gsize = 2 * s.gsize := by rw [h.gsize]

/-- A writer of a group with flags (R110, R111). -/
theorem SetsLanes.frame {f : State → Nat → Jet × List Flags} (h : SetsLanes i n g d f) :
    FramesLanes i n d State.gsize true fun s l => !s.guardLane g l :=
  framesLanes_of_vecWrite h gsize_le_32 (fun _ _ => State.sameStorage.gsize) nofun

/-- A writer of a group without flags. -/
theorem SetsLanes.frame_plain {f : State → Nat → Jet × List Flags} (h : SetsLanes i n g d f) (hplain : ∀ s l, (f s l).2 = []) :
    FramesLanes i n d State.gsize false fun s l => !s.guardLane g l :=
  framesLanes_of_vecWrite h gsize_le_32 (fun _ _ => State.sameStorage.gsize) fun _ => hplain

/-- Planes without flags raise none. -/
theorem SetsLanes.frame_exactPlanes {f : State → Nat → Nat → Nat} (h : SetsLanes i n g d fun s l => s.exactPlanes (f s l)) :
    FramesLanes i n d State.gsize false fun s l => !s.guardLane g l := h.frame_plain fun _ _ => rfl

/-- VCVT writes the lanes of the part Q names whose pair is enabled (R123). -/
theorem framesLanes_vcvt {t src : Ty} {a : VReg} {q : Nat} {mode : State → Nat}
    (h : VectorSets i fun s => s.writeLanes t.bits d s.gsize (vcvtLanes s g t a src q (mode s))) :
    FramesLanes i t.bits d State.gsize true fun s l =>
      let L := 256 / max src.bits t.bits
      let base := if t.bits < src.bits then q * L else 0
      !(decide (base ≤ l) && decide (l < base + L) && s.guardLane g (l - base)) :=
  framesLanes_of_completes (guarded_always i) h fun s a ha hwf _ => by
    simp only [← ha.gsize, ← ha.guardLane]
    refine (writesLanes_writeLanes hwf (gsize_le_32 a) (length_vcvtLanes ..) (fun l hl hkeep => ?_) fun hnone => by cases hnone).count 4 1
    simpa [vcvtLanes, imp_iff_not_or, or_assoc] using hkeep

/-- VINS writes one lane, when Guard(j) (R132). -/
theorem framesLanes_vins {t : Ty} {w : SReg} {j : BitVec 5} : FramesLanes (.vins g t d w j) t.bits d State.gsize false fun s l =>
    !(l == j.toNat && s.guardLane g j.toNat) := by
  obtain ⟨-, -, hmoves, -⟩ := permutesAndJetsComplete
  obtain ⟨hvins, -, -⟩ := hmoves g t d w
  refine framesLanes_of_completes (guarded_of_wholeGuard rfl rfl) (hvins j) fun s a ha hwf hg => ?_
  simp only [← ha.gsize]
  refine (writesLanes_writeLanes hwf (gsize_le_32 a) (by simp) (fun l hl hkeep => ?_) fun _ x hx => ?_).count 4 1
  · have hne : l ≠ j.toNat := by simpa [hg] using hkeep
    simp [hne]
  · obtain ⟨l, -, hl⟩ := List.mem_map.1 hx
    split at hl
    · rw [← Option.some.inj hl]; rfl
    · cases hl

/-- A reduction writes its group in full (R125). -/
theorem framesLanes_of_redWrite {r : State → Jet × List Flags} (h : VectorSets i fun s => redWrite s n d (r s).1 (r s).2)
    (hflags : flags = false → ∀ s, (r s).2 = []) : FramesLanes i n d State.gsize flags fun _ _ => false :=
  framesLanes_of_completes (guarded_always i) h fun s a ha hwf _ => by
    rw [← ha.gsize]
    exact (writesLanes_redWrite hwf n d fun hnone => hflags hnone a).count 4 1

/-! ## Writers of one other destination -/

/-- A compare of values changes its predicate and JFLAGS (R122). -/
theorem frame_of_vcmp {p : PReg} {x : State → BitVec 32} {nv : State → Bool} (h : VectorSets i fun s =>
      if nv s then (s.setPred p (x s)).raisePlane 0 Flags.nv else s.setPred p (x s))
    (hwf : Mem.wf s.mem = true) (hclear : s.clear i = true) (hexec : exec i s = .next u) :
    s.unchangedBut u (fun loc => s.predByte p loc ∨ s.wordByte Ws.jflags loc ∨ s.repByte loc) ∧
      s.word Ws.jflags &&& u.word Ws.jflags = s.word Ws.jflags := by
  have hrep : ∀ loc, s.wordByte Ws.repState loc → ¬ (s.predByte p loc ∨ s.wordByte Ws.jflags loc) := fun loc hloc =>
    not_or.2 ⟨State.not_predByte_of_wordByte (by decide) hloc, State.not_wordByte_of_wordByte (by decide) hloc⟩
  obtain ⟨hframe, hbits⟩ := flagFrame_of_completes (guarded_always i) h hwf hclear hexec hrep fun a ha => by
    have hset := ha.setPred (x a) fun _ => .inl
    refine FlagFrame.count ?_ 4 1
    dsimp only
    split
    · exact hset.raisePlane 0 _ fun _ => .inr
    · exact hset
  exact ⟨hframe.mono fun _ => or_assoc.1, hbits⟩

/-- A compare of integers changes its predicate (R126). -/
theorem frame_of_setPred {p : PReg} {x : State → BitVec 32} (h : VectorSets i fun s => s.setPred p (x s))
    (hwf : Mem.wf s.mem = true) (hclear : s.clear i = true) (hexec : exec i s = .next u) :
    s.unchangedBut u fun loc => s.predByte p loc ∨ s.repByte loc := by
  obtain ⟨hframe, -⟩ := flagFrame_of_completes (out := s.predByte p) (guarded_always i) h hwf hclear hexec
    (fun loc => State.not_predByte_of_wordByte (by decide)) fun a ha => (ha.setPred (x a) fun _ => id).count 4 1
  exact hframe

/-- VEXT changes its scalar register, when Guard(j) (R132). -/
theorem frame_vext {t : Ty} {w : SReg} {v : VReg} {j : BitVec 5} (hwf : Mem.wf s.mem = true) (hclear : s.clear (.vext g t w v j) = true)
    (hexec : exec (.vext g t w v j) s = .next u) : s.unchangedBut u fun loc => s.regByte w loc ∨ s.repByte loc := by
  obtain ⟨-, -, hmoves, -⟩ := permutesAndJetsComplete
  obtain ⟨-, hvext, -⟩ := hmoves g t v w
  obtain ⟨hframe, -⟩ := flagFrame_of_completes (out := s.regByte w) (guarded_of_wholeGuard rfl rfl) (hvext j) hwf hclear hexec
    (fun loc => State.not_regByte_of_wordByte (by decide)) fun a ha => (ha.setReg _ fun _ => id).count 4 1
  exact hframe

/-- VQMX changes its block, its scale and JFLAGS (R124). -/
theorem frame_vqmx {v : VReg} {b : SReg} {fmt : BitVec 3} (hwf : Mem.wf s.mem = true) (hclear : s.clear (.vqmx g d v b fmt) = true)
    (hexec : exec (.vqmx g d v b fmt) s = .next u) :
    s.unchangedBut u (fun loc => s.vregBytes d 1 loc ∨ s.regByte b loc ∨ s.wordByte Ws.jflags loc ∨ s.repByte loc) ∧
      s.word Ws.jflags &&& u.word Ws.jflags = s.word Ws.jflags := by
  obtain ⟨-, -, -, hblocks, -⟩ := vectorComparesAndReductionsComplete
  obtain ⟨hvqmx, -⟩ := hblocks g d v b fmt
  have hrep : ∀ loc, s.wordByte Ws.repState loc → ¬ (s.vregBytes d 1 loc ∨ s.regByte b loc ∨ s.wordByte Ws.jflags loc) :=
    fun loc hloc => not_or.2 ⟨State.not_vregBytes_of_wordByte (by decide) hloc,
      not_or.2 ⟨State.not_regByte_of_wordByte (by decide) hloc, State.not_wordByte_of_wordByte (by decide) hloc⟩⟩
  obtain ⟨hframe, hbits⟩ := flagFrame_of_completes (guarded_of_wholeGuard rfl rfl) hvqmx hwf hclear hexec hrep fun a ha =>
    (((ha.setVreg _ fun _ => .inl).setReg _ fun _ hloc => .inr (.inl hloc)).raisePlane 0 _ fun _ hloc => .inr (.inr hloc)).count 4 1
  exact ⟨hframe.mono fun loc => by tauto, hbits⟩

/-- VDQMX changes the four registers of its values and JFLAGS (R124). -/
theorem frame_vdqmx {v : VReg} {b : SReg} {fmt : BitVec 3} (hwf : Mem.wf s.mem = true) (hclear : s.clear (.vdqmx g d v b fmt) = true)
    (hexec : exec (.vdqmx g d v b fmt) s = .next u) :
    s.unchangedBut u (fun loc => (∃ k < 4, s.vregBytes (d + BitVec.ofNat 5 k) 1 loc) ∨ s.wordByte Ws.jflags loc ∨ s.repByte loc) ∧
      s.word Ws.jflags &&& u.word Ws.jflags = s.word Ws.jflags := by
  obtain ⟨-, -, -, hblocks, -⟩ := vectorComparesAndReductionsComplete
  obtain ⟨-, hvdqmx⟩ := hblocks g d v b fmt
  have hrep : ∀ loc, s.wordByte Ws.repState loc → ¬ (s.groupByte d 4 loc ∨ s.wordByte Ws.jflags loc) := fun loc hloc =>
    not_or.2 ⟨State.not_groupByte_of_wordByte (by decide) hloc, State.not_wordByte_of_wordByte (by decide) hloc⟩
  obtain ⟨hframe, hbits⟩ := flagFrame_of_completes (guarded_of_wholeGuard rfl rfl) hvdqmx hwf hclear hexec hrep fun a ha =>
    ((ha.setGroup _ fun _ hloc => .inl hloc).raisePlane 0 _ fun _ => .inr).count 4 1
  exact ⟨hframe.mono fun _ => or_assoc.1, hbits⟩

/-! ## JCLR -/

/-- Flags cleared plane by plane (R133). -/
def clearPlanes (mask : BitVec 8) (ps : List Nat) (x : Word) : Word :=
  ps.foldl (fun x p => if mask.getLsbD p then x &&& ~~~(State.planeFlags p) else x) x

theorem clearFlags_eq (s : State) (mask : BitVec 8) :
    s.clearFlags mask = s.setWord Ws.jflags (clearPlanes mask (List.range 8) (s.word Ws.jflags)) := rfl

theorem clearPlanes_cons (mask : BitVec 8) (p : Nat) (ps : List Nat) (x : Word) :
    clearPlanes mask (p :: ps) x = clearPlanes mask ps (if mask.getLsbD p then x &&& ~~~(State.planeFlags p) else x) := rfl

/-- Clearing raises no bit. -/
theorem and_clearPlanes (mask : BitVec 8) (ps : List Nat) (x y : Word) (h : x &&& y = y) :
    x &&& clearPlanes mask ps y = clearPlanes mask ps y := by
  induction ps generalizing y with
  | nil => exact h
  | cons p ps ih =>
    rw [clearPlanes_cons]
    refine ih _ ?_
    split
    · rw [← BitVec.and_assoc, h]
    · exact h

/-- The flags of a plane that meets none of the planes cleared stay. -/
theorem clearPlanes_and {mask : BitVec 8} {ps : List Nat} {m : Word}
    (h : ∀ p ∈ ps, mask.getLsbD p = true → ~~~(State.planeFlags p) &&& m = m) (x : Word) : clearPlanes mask ps x &&& m = x &&& m := by
  induction ps generalizing x with
  | nil => rfl
  | cons p ps ih =>
    obtain ⟨hp, hps⟩ := List.forall_mem_cons.1 h
    rw [clearPlanes_cons, ih hps]
    split
    · next hmask => rw [BitVec.and_assoc, hp hmask]
    · rfl

theorem planeFlags_apart : ∀ p < 8, ∀ q < 8, q ≠ p → ~~~(State.planeFlags q) &&& State.planeFlags p = State.planeFlags p := by decide

/-- What JCLR leaves of JFLAGS: bits of what was there, and all flags of the planes its mask does not name (R133). -/
def ClearsFlags (mask : BitVec 8) (x y : Word) : Prop :=
  x &&& y = y ∧ ∀ p < 8, mask.getLsbD p = false → x &&& State.planeFlags p = y &&& State.planeFlags p

theorem clearsFlags_clearPlanes (mask : BitVec 8) (x : Word) : ClearsFlags mask x (clearPlanes mask (List.range 8) x) := by
  refine ⟨and_clearPlanes mask _ x x BitVec.and_self, fun p hp hmask => (clearPlanes_and (fun q hq hmask' => ?_) x).symm⟩
  exact planeFlags_apart p hp q (List.mem_range.1 hq) fun heq => by rw [heq, hmask] at hmask'; cases hmask'

/-- JCLR clears flags of the planes its mask names (R133). -/
theorem frame_jclr {mask : BitVec 8} (hwf : Mem.wf s.mem = true) (hclear : s.clear (.jclr g mask) = true)
    (hexec : exec (.jclr g mask) s = .next u) :
    s.unchangedBut u (fun loc => s.wordByte Ws.jflags loc ∨ s.repByte loc) ∧ ClearsFlags mask (s.word Ws.jflags) (u.word Ws.jflags) := by
  obtain ⟨-, -, -, hjclr⟩ := permutesAndJetsComplete
  have hsame := State.sameStorage_acquireTokens s (.jclr g mask)
  have hwf' := hsame.wf hwf
  constructor
  · refine unchangedBut_of_completes rfl rfl (hjclr g mask) hwf hclear hexec ?_ (State.wf_setWord hwf' _ _)
      fun _ => State.not_wordByte_of_wordByte (by decide)
    exact (State.unchangedBut_setWord hwf' _ fun loc hloc => by rwa [State.wordByte, hsame.live] at hloc).trans
      (State.unchangedBut_count _ 4 1)
  · rcases next_of_completes rfl rfl (hjclr g mask) hclear hexec with rfl | rfl
    · rw [State.word_retire (s := s.count 6 1) hwf _ (by decide), (State.sameStorage_count s 6 1).word]
      exact ⟨BitVec.and_self, fun _ _ _ => rfl⟩
    · rw [State.completed, State.word_retire (by rw [State.wiped_mem]; exact State.wf_setWord hwf' _ _) _ (by decide), State.word_wiped,
        (State.sameStorage_count _ 4 1).word, clearFlags_eq, State.word_setWord_same hwf', hsame.word]
      exact clearsFlags_clearPlanes mask _

end

/-! ## The statement -/

/-- Settles O51: each writer of lanes completes with the lanes under its guard; the others change the one other destination they name. -/
theorem vectorFrame : Obligations.VectorFrame := by
  intro g t off
  refine ⟨fun d a b c => ?values, fun d a => ?signs, fun d a => ?vsincos, fun d a b => ?integers, fun d a b c m j r o x => ?moves,
    fun d a b sh => ?products, fun d a b c => ?butterflies, fun d a b c w => ?widths, fun d a k m => ?jets, fun d a src q rm => ?vcvt,
    fun d a j => framesLanes_vins, fun d a => ?reductions, fun d a b => ?compares, fun d a b => ?integerCompares,
    fun d a j s u => frame_vext, fun d a b fmt s u hwf => ⟨frame_vqmx hwf, frame_vdqmx hwf⟩, fun mask s u => frame_jclr⟩
  case values =>
    obtain ⟨hadd, hsub, hmul, hmin, hmax, -, -, hfma, hfms, hfnma, hfnms⟩ := vectorArithmeticCompletes g t d a b c
    obtain ⟨hdiv, hrcp, hsqrt, hrsqrt, hexp, hlog, -, htanh, hsigm⟩ := vectorRecurrencesComplete g t d a b
    simp only [List.forall_mem_cons]
    exact ⟨hadd.frame, hsub.frame, hmul.frame, hdiv.frame, hmin.frame, hmax.frame, hrcp.frame, hsqrt.frame, hrsqrt.frame, hexp.frame,
      hlog.frame, htanh.frame, hsigm.frame, hfma.frame, hfms.frame, hfnma.frame, hfnms.frame, List.forall_mem_nil _⟩
  case signs =>
    obtain ⟨-, -, -, -, -, hneg, habs, -⟩ := vectorArithmeticCompletes g t d a 0 0
    simp only [List.forall_mem_cons]
    exact ⟨hneg.frame_plain fun _ _ => rfl, habs.frame_plain fun _ _ => rfl, List.forall_mem_nil _⟩
  case vsincos =>
    obtain ⟨-, -, -, -, -, -, hsincos, -⟩ := vectorRecurrencesComplete g t d a 0
    exact framesLanes_of_vecWrite hsincos two_mul_gsize_le_32 two_mul_gsize_of_sameStorage nofun
  case integers =>
    obtain ⟨hoperations, -⟩ := packedIntegersComplete
    obtain ⟨hadd, hsub, hand, hor, hxor, hshl, hshr, hsar, hadds, hsubs, hmin, hmax⟩ := hoperations g t d a b
    simp only [List.forall_mem_cons]
    exact ⟨hadd.frame_exactPlanes, hsub.frame_exactPlanes, hand.frame_exactPlanes, hor.frame_exactPlanes, hxor.frame_exactPlanes,
      hshl.frame_exactPlanes, hshr.frame_exactPlanes, hsar.frame_exactPlanes, hmin.frame_plain fun _ _ => rfl,
      hmax.frame_plain fun _ _ => rfl, hadds.frame_exactPlanes, hsubs.frame_exactPlanes, List.forall_mem_nil _⟩
  case moves =>
    obtain ⟨hmul, hmulh, hmac, hsat, -⟩ := packedProductsComplete g t d a b c
    obtain ⟨hpermutes, -, hmoves, -⟩ := permutesAndJetsComplete
    obtain ⟨hperm, hshuf, hrot, hbcast, -, -, hseed⟩ := hpermutes g t d a b c
    obtain ⟨-, -, hsplat⟩ := hmoves g t d r
    simp only [List.forall_mem_cons]
    exact ⟨hmul.frame_exactPlanes, hmulh.frame_exactPlanes, hmac.frame_exactPlanes, (hsat m).frame_exactPlanes,
      hperm.frame_plain fun _ _ => rfl, hshuf.frame_plain fun _ _ => by dsimp only; split <;> rfl, (hrot o).frame_plain fun _ _ => rfl,
      (hbcast j).frame_plain fun _ _ => rfl, hsplat.frame_plain fun _ _ => rfl, (hseed x).frame_plain fun _ _ => rfl, List.forall_mem_nil _⟩
  case products =>
    obtain ⟨-, -, -, -, hdot4, hdot2, hcmul, hcmac, hconj, -⟩ := packedProductsComplete g t d a b 0
    simp only [List.forall_mem_cons]
    exact ⟨hdot4.frame_exactPlanes, hdot2.frame_exactPlanes, (hcmul sh).frame_exactPlanes, (hcmac sh).frame_exactPlanes,
      hconj.frame_exactPlanes, List.forall_mem_nil _⟩
  case butterflies =>
    obtain ⟨-, -, -, -, -, -, -, -, -, hbfly, hbflys⟩ := packedProductsComplete g t d a b c
    simp only [List.forall_mem_cons]
    exact ⟨framesLanes_of_vecWrite hbfly two_mul_gsize_le_32 two_mul_gsize_of_sameStorage fun _ _ _ => rfl,
      framesLanes_of_vecWrite hbflys two_mul_gsize_le_32 two_mul_gsize_of_sameStorage fun _ _ _ => rfl, List.forall_mem_nil _⟩
  case widths =>
    obtain ⟨-, hsel, -⟩ := vectorComparesAndReductionsComplete
    obtain ⟨-, hmov, -⟩ := permutesAndJetsComplete
    simp only [List.forall_mem_cons]
    exact ⟨(hsel g d a b c w).frame_plain fun _ _ => rfl, (hmov g d a w).frame_plain fun _ _ => rfl, List.forall_mem_nil _⟩
  case jets =>
    obtain ⟨hpermutes, -⟩ := permutesAndJetsComplete
    obtain ⟨-, -, -, -, hext, hplane, -⟩ := hpermutes g t d a 0 0
    refine ⟨framesLanes_of_vecWrite (hext k) gsize_le_32 (fun _ _ => State.sameStorage.gsize) fun hnone _ _ => ?_,
      framesLanes_of_vecWrite (count := fun _ => 1) (hplane k m) (fun _ => by decide) (fun _ _ _ => rfl) fun _ _ _ => rfl⟩
    have hint : t.isInt = true := by simpa using hnone
    dsimp only
    rw [if_pos hint]
    rfl
  case vcvt =>
    obtain ⟨-, -, hcvt, -⟩ := vectorComparesAndReductionsComplete
    exact framesLanes_vcvt (hcvt g t src d a q rm)
  case reductions =>
    obtain ⟨-, -, -, -, hreductions⟩ := vectorComparesAndReductionsComplete
    obtain ⟨hadd, hmin, hmax⟩ := hreductions g t d a
    simp only [List.forall_mem_cons]
    refine ⟨framesLanes_of_redWrite hadd fun hnone s => ?_, framesLanes_of_redWrite hmin fun hnone s => ?_,
      framesLanes_of_redWrite hmax fun hnone s => ?_, List.forall_mem_nil _⟩
    all_goals
      have hint : t.isInt = true := by simpa using hnone
      dsimp only
      rw [if_pos hint]
      rfl
  case compares =>
    obtain ⟨hcompares, -⟩ := vectorComparesAndReductionsComplete
    obtain ⟨heq, hne, hlt, hle⟩ := hcompares g t d a b
    simp only [List.forall_mem_cons]
    exact ⟨fun s u => frame_of_vcmp heq, fun s u => frame_of_vcmp hne, fun s u => frame_of_vcmp hlt, fun s u => frame_of_vcmp hle,
      List.forall_mem_nil _⟩
  case integerCompares =>
    obtain ⟨-, hcompares⟩ := packedIntegersComplete
    obtain ⟨heq, hne, hlt, hle⟩ := hcompares g t d a b
    simp only [List.forall_mem_cons]
    exact ⟨fun s u => frame_of_setPred heq, fun s u => frame_of_setPred hne, fun s u => frame_of_setPred hlt,
      fun s u => frame_of_setPred hle, List.forall_mem_nil _⟩

end Sys2Proof.Machine
end

section
/-!
PROOFS. How an instruction runs under a condition on the state: it completes, answers, waits or traps.
-/

namespace Sys2Proof.Machine

open Sys2Proof

/-- An instruction guarded lane by lane whose body completes wherever `c` holds. -/
theorem completesWhen_instrAll {i : Instr} {body : State → Res} {c : State → State → Prop}
    (hexec : ∀ s, exec i s = instrAll i body s) (hbody : ∀ s t, c s t → body s = .done t) : CompletesWhen i State.always c :=
  fun s t hissues hc => by
    rw [hexec]
    exact instrIf_done (g := true) hissues (hbody _ t hc)

/-- A guarded instruction whose body answers a state as it is wherever `c` holds. -/
theorem answers_instr {i : Instr} {g : Guard} {body : State → Res} {c : State → State → Prop}
    (hexec : ∀ s, exec i s = instr i g body s) (hbody : ∀ s t, c s t → body s = .asIs t) : Answers i (State.whole g) c :=
  fun s t hissues hc => by
    rw [hexec]
    exact instrIf_asIs (g := s.guardLane g 0) hissues (hbody _ t hc)

/-- An instruction guarded lane by lane or not at all whose body answers a state as it is wherever `c` holds. -/
theorem answers_instrAll {i : Instr} {body : State → Res} {c : State → State → Prop}
    (hexec : ∀ s, exec i s = instrAll i body s) (hbody : ∀ s t, c s t → body s = .asIs t) : Answers i State.always c :=
  fun s t hissues hc => by
    rw [hexec]
    exact instrIf_asIs (g := true) hissues (hbody _ t hc)

/-- A guarded instruction whose body waits leaves the core waiting. -/
theorem waits_instr {i : Instr} {g : Guard} {body : State → Res} {w : WaitCond} {s u : State} (hexec : ∀ s, exec i s = instr i g body s)
    (hissues : s.issues i (State.whole g s) = true) (hbody : body (s.acquireTokens i) = .wait w u) : exec i s = .next (u.waitOn w) :=
  (hexec s).trans (instrIf_wait (g := s.guardLane g 0) hissues hbody)

/-- An instruction that no guard holds back whose body waits leaves the core waiting. -/
theorem waits_instrAll {i : Instr} {body : State → Res} {w : WaitCond} {s u : State} (hexec : ∀ s, exec i s = instrAll i body s)
    (hissues : s.issues i (State.always s) = true) (hbody : body (s.acquireTokens i) = .wait w u) : exec i s = .next (u.waitOn w) :=
  (hexec s).trans (instrIf_wait (g := true) hissues hbody)

/-- A guarded instruction whose body raises a trap wherever `c` holds raises it. -/
theorem traps_instr {i : Instr} {g : Guard} {body : State → Res} {c : State → Trap → Prop} (hexec : ∀ s, exec i s = instr i g body s)
    (hbody : ∀ s t, c s t → body s = .trap t s) : Traps i (State.whole g) c := fun s t hissues hc => by
  rw [hexec]
  exact instrIf_trap (g := s.guardLane g 0) hissues (hbody _ t hc)

/-- The same of an instruction that no guard holds back as a whole. -/
theorem traps_instrAll {i : Instr} {body : State → Res} {c : State → Trap → Prop} (hexec : ∀ s, exec i s = instrAll i body s)
    (hbody : ∀ s t, c s t → body s = .trap t s) : Traps i State.always c := fun s t hissues hc => by
  rw [hexec]
  exact instrIf_trap (g := true) hissues (hbody _ t hc)

end Sys2Proof.Machine
end

section
/-!
PROOFS. Loads, stores, atomics, reduce packets and hints (05_memory_isa R138-R148).
-/

namespace Sys2Proof.Machine

open Sys2Proof

/-! ## Loads and stores -/

/-- Settles O18: the accesses of a load pass all their checks together, and its destination is written from what they read. -/
theorem loadsComplete : Obligations.LoadsComplete := by
  refine ⟨fun g t d a b => ?ld, fun g d a b => ⟨?vldNone, ?vld⟩, fun g t d a b stride => ?vgather, fun g d a nM1 => ?ldb⟩
  case ld =>
    refine completesWhen_instr (exec_ld · g t d a b) fun s u => ?_
    rintro ⟨halign, x, s', hload, rfl⟩
    rw [State.coreLoad_ok halign hload]
    rfl
  case vldNone =>
    refine completesWhen_instrAll (exec_vld · g d a b) fun s u => ?_
    rintro ⟨hnone, rfl⟩
    dsimp only
    rw [hnone]
    rfl
  case vld =>
    refine completesWhen_instrAll (exec_vld · g d a b) fun s u => ?_
    rintro ⟨hsome, halign, xs, s', hload, rfl⟩
    dsimp only
    rw [if_neg (by simpa using hsome), aligned_of_mod halign, run_of_passes rfl, run_of_passes hload]
  case vgather =>
    refine completesWhen_instrAll (exec_vgather · g t d a b stride) fun s u => ?_
    rintro ⟨halign, xs, s', hload, rfl⟩
    dsimp only
    rw [misaligned_none halign]
    dsimp only
    rw [run_of_passes hload]
  case ldb =>
    refine completesWhen_instr (exec_ldb · g d a nM1) fun s u => ?_
    rintro ⟨halign, hfits, hlow, hhigh, xs, s', hload, rfl⟩
    dsimp only
    rw [if_neg (by omega), if_neg (by omega), run_of_passes hload]

/-- Settles O19: a store whose elements have their places is made, or posted when its window is remote. -/
theorem storesComplete : Obligations.StoresComplete := by
  refine ⟨fun g t a b c => ?st, fun g a b c => ⟨?vstNone, ?vst⟩, fun g t a b c stride => ?vscatter⟩
  case st =>
    refine completesWhen_instr (exec_st · g t a b c) fun s u => ?_
    rintro ⟨halign, hstore⟩
    exact State.coreStore_done halign hstore _
  case vstNone =>
    refine completesWhen_instrAll (exec_vst · g a b c) fun s u => ?_
    rintro ⟨hnone, rfl⟩
    dsimp only
    rw [hnone]
    rfl
  case vst =>
    refine completesWhen_instrAll (exec_vst · g a b c) fun s u => ?_
    rintro ⟨hsome, halign, hstore⟩
    dsimp only
    rw [if_neg (by simpa using hsome), aligned_of_mod halign, run_of_passes rfl, State.storeElems_done hstore]
  case vscatter =>
    refine completesWhen_instrAll (exec_vscatter · g t a b c stride) fun s u => ?_
    rintro ⟨halign, hstore⟩
    dsimp only
    rw [misaligned_none halign]
    exact State.storeElems_done hstore _

/-! ## Atomics -/

/-- Storage outside the handle tables is written as it is. -/
theorem State.handleGuard_none {s : State} {loc : Nat} (h : s.handleEntryAt loc = none) (n : Nat) (x : Word) :
    s.handleGuard loc n x = .ok x := by
  simp only [handleGuard, h]

/-- An AMO whose word is neither in a handle table nor poisoned reads, modifies and writes it (R145). -/
theorem State.amo_applies {s s' : State} {x : Word} {t : Ty} {p : Place} (hplace : Passes (s.atomPlace x (atomBytes t) false) (p, s'))
    (hentry : s'.handleEntryAt p.loc = none) (hpoison : (s'.stampAmo p).isPoisoned p.loc = false) (hinside : p.outside = false)
    (hentry' : (s'.stampAmo p).handleEntryAt p.loc = none) (op : AtomOp) (b c : Word) :
    Passes (s.amo op t x b c) ((s'.stampAmo p).atomApply p.loc op t b c) := by
  unfold Passes at hplace ⊢
  simp only [amo, hplace, handleGuard_none hentry, hinside, hpoison, hentry', Bool.false_eq_true, if_false, Option.isSome_none]

/-- The third operand of an atomic, 0 where it has none. -/
def thirdOperand (c : Option SReg) (s : State) : Word := c.elim 0 s.reg

theorem amoOp_eq (i : Instr) (g : Guard) (t : Ty) (d a b : SReg) (c : Option SReg) (op : AtomOp) (s : State) :
    amoOp i g t d a b c op s = instr i g (fun s =>
      (s.amo op t (s.reg a) (s.reg b) (thirdOperand c s)).run s fun x => .done (x.2.setReg d (atomOld t x.1))) s := by
  cases c <;> rfl

/-- What the atomics but AMO.FADD.ORD give: w[D] the old value, the word the new one (R145). -/
theorem completesWhen_amoOp {i : Instr} {g : Guard} {t : Ty} {d a b : SReg} (c : Option SReg) {op : AtomOp}
    (hexec : ∀ s, exec i s = amoOp i g t d a b c op s) :
    CompletesWhen i (State.whole g) fun s u => ∃ p s',
      Passes (s.atomPlace (s.reg a) (atomBytes t) false) (p, s') ∧ s'.handleEntryAt p.loc = none ∧
        (s'.stampAmo p).isPoisoned p.loc = false ∧ p.outside = false ∧ (s'.stampAmo p).handleEntryAt p.loc = none ∧
          u = ((s'.stampAmo p).atomApply p.loc op t (s.reg b) (thirdOperand c s)).2.setReg d
            (atomOld t ((s'.stampAmo p).atomApply p.loc op t (s.reg b) (thirdOperand c s)).1) := by
  refine completesWhen_instr (fun s => (hexec s).trans (amoOp_eq ..)) fun s u => ?_
  rintro ⟨p, s', hplace, hentry, hpoison, hinside, hentry', rfl⟩
  exact run_of_passes (State.amo_applies hplace hentry hpoison hinside hentry' op _ _) s _

/-- An ordered operation whose turn it is, at a bank with a place for its stream, is applied (R146). -/
theorem State.orderedArrive_applies {s : State} {h : HeldOp} (hheld : ∀ x ∈ s.holdsOf h.loc, x.loc = h.loc → x.q ≠ h.q)
    (hturn : h.q = (((s.streamsOf h.loc).find? fun e => e.1 == h.loc).map (·.2)).getD 0)
    (hroom : ((s.streamsOf h.loc).find? fun e => e.1 == h.loc).map (·.2) = none → (s.streamsOf h.loc).length < 8)
    (hclean : s.isPoisoned h.loc = false) :
    s.orderedArrive h = .applied (s.atomApply h.loc (redOp h.op) h.ty h.data 0).1
      ((s.atomApply h.loc (redOp h.op) h.ty h.data 0).2.advance h) := by
  have hrefused : ((s.holdsOf h.loc).any fun x => x.loc == h.loc && x.q == h.q) = false := by
    simpa [List.any_eq_false] using hheld
  have hfull : ((((s.streamsOf h.loc).find? fun e => e.1 == h.loc).map (·.2)).isNone && decide (8 ≤ (s.streamsOf h.loc).length)) = false := by
    simp only [Bool.and_eq_false_iff, decide_eq_false_iff_not, not_le]
    exact (Bool.eq_false_or_eq_true _).symm.imp id fun hnone => hroom (Option.isNone_iff_eq_none.1 hnone)
  simp only [orderedArrive, hrefused, hfull, ← hturn, Nat.lt_irrefl, decide_false, Bool.or_false, Bool.false_eq_true, if_false, if_true,
    hclean, and_false]

/-- Settles O20: nine atomics of one shape; the ordered one applies at once or returns what it held when released. -/
theorem atomicsComplete : Obligations.AtomicsComplete := by
  refine ⟨fun g t d a b c => ?_, fun g t d a b c last => ?_⟩
  · exact ⟨completesWhen_amoOp none (exec_amoAdd · g t d a b), completesWhen_amoOp none (exec_amoAnd · g t d a b),
      completesWhen_amoOp none (exec_amoOr · g t d a b), completesWhen_amoOp none (exec_amoXor · g t d a b),
      completesWhen_amoOp none (exec_amoMin · g t d a b), completesWhen_amoOp none (exec_amoMax · g t d a b),
      completesWhen_amoOp none (exec_amoSwap · g t d a b), completesWhen_amoOp (some c) (exec_amoCas · g t d a b c),
      completesWhen_amoOp none (exec_amoFadd · g t d a b)⟩
  · refine completesWhen_instr (exec_amoFaddOrd · g t d a b c last) fun s u => ?_
    rintro (⟨old, hgood, hamo, rfl⟩ | ⟨hgood, hamo, p, s', hplace, hfree, hclean, hheld, hturn, hroom, rfl⟩)
    · dsimp only
      rw [hgood, hamo]
      rfl
    · have hmine : ((s'.holdsOf p.loc).any fun h => h.pkt.isNone && h.core == s'.cur) = false := by
        simpa [List.any_eq_false] using hfree
      dsimp only
      rw [hgood, hamo]
      dsimp only
      rw [if_neg Bool.false_ne_true, run_of_passes hplace]
      dsimp only
      rw [hmine, if_neg Bool.false_ne_true, State.orderedArrive_applies]
      exacts [rfl, hheld, hturn, hroom, hclean]

/-! ## Reduce packets and hints -/

/-- A RED whose window check passes is posted when the journal has the entries it needs (R139, R147). -/
theorem completesWhen_redInstr {i : Instr} {g : Guard} {t : Ty} {a b : SReg} {op : BitVec 6} {ord : Option (SReg × BitVec 1)}
    (hexec : ∀ s, exec i s = redInstr i g t a b op ord s) :
    CompletesWhen i (State.whole g) fun s u => ∃ loc, Passes (redCheck s (s.reg a) (atomBytes t)) loc ∧
      (if ord.isSome then 2 else 1) ≤ s.freeEntries ∧
        u = sendRed s op t (s.reg a) loc (atomBytes t) (lowBytes (atomBytes t) (s.reg b))
          (ord.map fun x => ((s.reg x.1).setWidth 32, x.2 == 1)) := by
  refine completesWhen_instr hexec fun s u => ?_
  rintro ⟨loc, hcheck, hroom, rfl⟩
  dsimp only
  rw [run_of_passes hcheck, if_neg (Nat.not_lt.2 hroom)]

/-- Settles O21: the packets in arrival mode, those in ordered mode, and the two hints. -/
theorem reducePacketsAndHintsComplete : Obligations.ReducePacketsAndHintsComplete := by
  refine ⟨fun g t a b c last => ?_, fun g a level => ?_⟩
  · exact ⟨completesWhen_redInstr (exec_redAdd · g t a b), completesWhen_redInstr (exec_redMin · g t a b),
      completesWhen_redInstr (exec_redMax · g t a b), completesWhen_redInstr (exec_redAddOrd · g t a b c last),
      completesWhen_redInstr (exec_redMinOrd · g t a b c last), completesWhen_redInstr (exec_redMaxOrd · g t a b c last)⟩
  · exact ⟨completes_instr _ (exec_pref · g a level) (fun _ => rfl) fun _ => rfl,
      completes_instr _ (exec_chint · g a level) (fun _ => rfl) fun _ => rfl⟩

end Sys2Proof.Machine
end

section
/-!
PROOFS. Timelines, barriers, fences and wakes (05_memory_isa R152-R158, 02_scalar R84).
-/

namespace Sys2Proof.Machine

open Sys2Proof

namespace State

variable {s : State} {slot : BitVec 8} {rechain : Bool} {finish : Nat → Nat → Bool → State → Res} {dm o : Nat}

/-- An arrival counted before, whose wait is over, is not counted again (R155, R164). -/
theorem arriveWait_over {a : Arrival} (hslot : Passes (s.barrierSlot slot) (dm, o)) (hcounted : s.counted = some a)
    (hover : s.core.released = true ∨ a.ended = true ∨ (s.barrierAt dm o).phase ≠ a.phase) :
    s.arriveWait slot rechain finish = finish dm o a.phase ((s.acquire (s.barrierAt dm o).relTs).onCore forgetArrival) := by
  unfold arriveWait
  rw [run_of_passes hslot]
  dsimp only
  rw [hcounted]
  exact if_pos (by simpa [or_assoc] using hover)

theorem core_arrive (s : State) (dm o : Nat) : (s.arrive dm o).core = s.core := rfl

/-- An arrival leaves the phase of its object to the end of the core cycle (R155). -/
theorem barrierAt_arrive_phase (s : State) (dm o : Nat) : ((s.arrive dm o).barrierAt dm o).phase = (s.barrierAt dm o).phase := by
  have hobject : ((s.arrive dm o).barrierAt dm o) = { s.barrierAt dm o with
      arrived := (s.barrierAt dm o).arrived + 1, now := (s.cycle, s.arrivalsNow (s.barrierAt dm o) + 1)
      accTs := max (s.barrierAt dm o).accTs (max s.ltNow s.core.grantTs) } := by
    simp [arrive, applyAt, setBarrier, barrierAt, domeAt, setDomeAt]
  rw [hobject]

/-- An arrival not yet counted is counted once the posted stores are settled, and waits for the end of its phase (R155). -/
theorem arriveWait_waits (hslot : Passes (s.barrierSlot slot) (dm, o)) (hcounted : s.counted = none) (hreleased : s.core.released = false)
    (hsettled : s.storesSettled = true) :
    s.arriveWait slot rechain finish =
      .wait (if rechain then .rechain dm o (s.barrierAt dm o).phase else .barrier dm o (s.barrierAt dm o).phase)
        ((s.arrive dm o).onCore fun k => { k with bsync := s.arrival o rechain (s.barrierAt dm o).phase :: k.bsync }) := by
  unfold arriveWait
  rw [run_of_passes hslot]
  dsimp only
  rw [hcounted]
  dsimp only
  rw [hsettled, if_neg (by decide)]
  have hstays : ((s.arrive dm o).onCore fun k =>
      { k with bsync := s.arrival o rechain (s.barrierAt dm o).phase :: k.bsync }).core.released = false := by
    rw [core_onCore, core_arrive, hreleased]
  have hphase : (((s.arrive dm o).onCore fun k =>
      { k with bsync := s.arrival o rechain (s.barrierAt dm o).phase :: k.bsync }).barrierAt dm o).phase = (s.barrierAt dm o).phase :=
    barrierAt_arrive_phase s dm o
  refine if_neg ?_
  rw [hstays, hphase]
  simp [arrival]

end State

/-- Settles O23: each instruction finds its granted object; an arrival counted before ends with its phase, one not yet counted waits. -/
theorem barriersComplete : Obligations.BarriersComplete := by
  intro g a d slot
  refine ⟨?binit, ?barrive, ?bwait, ?bsync, ?arrival, ?bstat, ?rechain⟩
  case binit =>
    refine completesWhen_instr (exec_binit · g a slot) fun s u => ?_
    rintro ⟨dm, o, hslot, rfl⟩
    exact run_of_passes hslot s _
  case barrive =>
    refine completesWhen_instr (exec_barrive · g d slot) fun s u => ?_
    rintro ⟨dm, o, hslot, hsettled, rfl⟩
    refine (run_of_passes hslot s _).trans ?_
    dsimp only
    rw [hsettled, if_neg (by decide)]
  case bwait =>
    refine completesWhen_instr (exec_bwait · g a slot) fun s u => ?_
    rintro ⟨dm, o, hslot, hover, rfl⟩
    exact (run_of_passes hslot s _).trans (if_pos (by simpa using hover))
  case bsync =>
    refine completesWhen_instr (exec_bsync · g slot) fun s u => ?_
    rintro ⟨dm, o, a, hslot, hcounted, hover, rfl⟩
    exact State.arriveWait_over hslot hcounted hover
  case arrival =>
    rintro i guard w rechain (⟨rfl, rfl, rfl, rfl⟩ | ⟨rfl, rfl, rfl, rfl⟩) s u hissues ⟨dm, o, hslot, hcounted, hreleased, hsettled, rfl⟩
    · exact waits_instr (exec_bsync · g slot) hissues (State.arriveWait_waits hslot hcounted hreleased hsettled)
    · exact waits_instrAll (exec_rechain · slot) hissues (State.arriveWait_waits hslot hcounted hreleased hsettled)
  case bstat =>
    refine completesWhen_instr (exec_bstat · g d slot) fun s u => ?_
    rintro ⟨dm, o, hslot, rfl⟩
    exact run_of_passes hslot s _
  case rechain =>
    refine answers_instrAll (exec_rechain · slot) fun s u => ?_
    rintro ⟨dm, o, a, hslot, hcounted, hover, rfl⟩
    exact State.arriveWait_over hslot hcounted hover

/-- Settles O24: a timeline is bound, a fence has its kinds settled, a wake has its journal entry, a WAIT finds its bit. -/
theorem timelinesAndWakesComplete : Obligations.TimelinesAndWakesComplete := by
  refine ⟨fun g k b => ?tlwait, fun g d k wide selr => ?tlread, fun g a kinds => ?fence, fun g a b => ?wake, fun g d b => ⟨?waitNone, ?wait⟩⟩
  case tlwait =>
    refine completesWhen_instr (exec_tlwait · g k b) fun s u => ?_
    rintro ⟨gr, n, hbinding, hdone, rfl⟩
    dsimp only
    rw [hbinding]
    exact if_pos hdone
  case tlread =>
    refine completesWhen_instr (exec_tlread · g d k wide selr) fun s u => ?_
    rintro ⟨gr, n, hbinding, rfl⟩
    dsimp only
    rw [hbinding]
    have hselr : ∀ x : BitVec 2, x = 0 ∨ x = 1 ∨ x = 2 ∨ x = 3 := by decide
    obtain rfl | rfl | rfl | rfl := hselr selr <;> rfl
  case fence =>
    refine completesWhen_instr (exec_fence · g a kinds) fun s u => ?_
    rintro ⟨hfenced, rfl⟩
    exact if_pos hfenced
  case wake =>
    refine completesWhen_instr (exec_wake · g a b) fun s u => ?_
    rintro ⟨hin, hroom, rfl⟩
    dsimp only
    rw [if_neg (Nat.not_le.2 hin), if_neg (Nat.ne_of_gt hroom)]
    rfl
  case waitNone =>
    refine completesWhen_instr (exec_wait · g d b) fun s u => ?_
    rintro ⟨hmask, rfl⟩
    exact if_pos hmask
  case wait =>
    refine completesWhen_instr (exec_wait · g d b) fun s u => ?_
    rintro ⟨hhit, rfl⟩
    dsimp only
    have hmask : s.opB64 b ≠ 0 := fun h => hhit (by rw [h]; exact BitVec.and_zero)
    rw [if_neg hmask, if_neg hhit]

end Sys2Proof.Machine
end

section
/-!
PROOFS. Copies are issued (05_memory_isa R149-R151).
-/

namespace Sys2Proof.Machine

open Sys2Proof

/-- A copy is issued unless it needs a token and no place of the token table is free (R150). -/
theorem State.issueCopy_passes {s : State} {d : SReg} {op : CopyOp} {bar : Option (Nat × Nat)} {tl : Option Nat}
    (hfree : d ≠ 0 → tl = none → none ∈ s.core.tokens) : ∃ u, Passes (s.issueCopy d op bar tl) u := by
  have hroom : ¬ ((d ≠ 0 ∧ tl.isNone = true) ∧ (s.core.tokens.findIdx? (·.isNone)).isNone = true) := by
    rintro ⟨⟨hd, htl⟩, hfull⟩
    have hall := List.findIdx?_eq_none_iff.1 (Option.isNone_iff_eq_none.1 hfull)
    exact absurd (hall none (hfree hd (Option.isNone_iff_eq_none.1 htl))) (by decide)
  unfold Passes State.issueCopy
  extract_lets
  split
  · exact ⟨_, rfl⟩
  · split
    · exact ⟨_, rfl⟩
    · exact ⟨_, rfl⟩

/-- A copy of no bytes ends at issue with status 0 (R150). -/
theorem State.issueCopy_empty {s : State} {d : SReg} {op : CopyOp} {bar : Option (Nat × Nat)} {tl : Option Nat} (hlen : op.len = 0)
    (hpin : op.pin = none) : Passes (s.issueCopy d op bar tl) (s.endAtIssue d bar tl 0 false) := by
  unfold Passes State.issueCopy
  rw [if_pos hlen, hpin]

theorem Passes.unique {α : Type} {c : Chk α} {x y : α} (hx : Passes c x) (hy : Passes c y) : x = y := by
  unfold Passes at hx hy
  exact Except.ok.inj (hx.symm.trans hy)

theorem Passes.bind {α β : Type} {c : Chk α} {f : α → Chk β} {x : α} (h : Passes c x) : (c >>= f) = f x := by
  unfold Passes at h
  rw [h]
  rfl

theorem Passes.after {α : Type} {c : Chk α} {x : α} (h : Passes c x) (s : State) : Passes (c.after s) x := by
  unfold Passes at *
  rw [h]
  rfl

/-- Settles O22: once the checks pass, only a full token table could hold the issue up. -/
theorem copiesComplete : Obligations.CopiesComplete := by
  refine ⟨fun g d a b c bslot bar tlk tls => ?copy, fun g d a b c bslot bar tlk tls hfrom => ?copyh, fun g d a b c bslot bar tlk tls hfrom => ?refused⟩
  case copy =>
    intro s tl bo hissues v op hranges htimeline hbarrier hfree
    obtain ⟨u, hissue⟩ := State.issueCopy_passes (op := op) (bar := bo) hfree
    refine ⟨u, hissue, ?_, fun hzero => hissue.unique (State.issueCopy_empty (congrArg BitVec.toNat hzero) rfl)⟩
    refine completesWhen_instr (c := fun s' t => s' = v ∧ t = u) (exec_copy · g d a b c bslot bar tlk tls) ?_ s u hissues ⟨rfl, rfl⟩
    rintro _ _ ⟨rfl, rfl⟩
    dsimp only
    rw [hranges.bind, htimeline.bind, hbarrier.bind, run_of_passes hissue]
  case copyh =>
    intro s e t tl bo hissues v obj op0 op hhandle hranges htimeline hbarrier hfree
    obtain ⟨u, hissue⟩ := State.issueCopy_passes (op := op) (bar := bo) hfree
    refine ⟨u, hissue, ?_⟩
    refine completesWhen_instr (c := fun s' t => s' = v ∧ t = u) (exec_copyh · g d a b c bslot bar tlk tls hfrom) ?_ s u hissues ⟨rfl, rfl⟩
    rintro _ _ ⟨rfl, rfl⟩
    dsimp only
    rw [hhandle.bind]
    dsimp only
    simp only [beq_iff_eq]
    rw [(hranges.after t).bind, (htimeline.after t).bind, (hbarrier.after t).bind, run_of_passes hissue]
  case refused =>
    refine completesWhen_instr (exec_copyh · g d a b c bslot bar tlk tls hfrom) fun s u => ?_
    rintro ⟨code, tl, bo, v, hhandle, hranges, htimeline, hbarrier, rfl⟩
    dsimp only
    rw [hhandle.bind]
    simp only [beq_iff_eq]
    rw [(hranges.after v).bind, (htimeline.after v).bind, (hbarrier.after v).bind, run_of_passes rfl]

end Sys2Proof.Machine
end

section
/-!
PROOFS. Channels (05_memory_isa R161-R163).
-/

namespace Sys2Proof.Machine

open Sys2Proof

section
variable (nb : Bool) (g : Guard) (d a b c : SReg) (s : State)

theorem exec_sendForm : exec (if nb then .sendNb g d a b c else .send g d a b c) s =
    instr (if nb then .sendNb g d a b c else .send g d a b c) g (fun s => s.sendMessage nb d (s.reg a) (s.reg b) (s.reg c)) s := by
  cases nb <;> rfl

theorem exec_recvForm : exec (if nb then .recvNb g d a b else .recv g d a b) s =
    instr (if nb then .recvNb g d a b else .recv g d a b) g (fun s => s.recvMessage nb d (s.reg a) (s.reg b)) s := by
  cases nb <;> rfl

end

namespace State

variable {s v : State} {d a b c : SReg} {r : Resv} {nb : Bool}

theorem sendMessage_some (h : s.core.resv = some r) (src len hdr : Word) :
    s.sendMessage nb d hdr src len = s.sendOn r d hdr src len := by
  simp only [sendMessage, h]

/-- What a SEND without space has checked (R162). -/
theorem sendChecks_noSpace {cap hd tl : Word} {head : Nat} (h : s.sendFinds a b c cap head hd tl v)
    (hfull : cap.toNat < (tl - hd).toNat + 8 + (s.reg c).toNat) :
    Passes (s.sendChecks (s.reg a) (s.reg b) (s.reg c)) (cap, head, hd, tl, v) := by
  obtain ⟨hsrc, hlen, s', hopen, hcap, hload, hnotify, hhead, htail⟩ := h
  unfold Passes
  simp only [sendChecks, aligned_of_mod hsrc, aligned_of_mod hlen, hopen, bind, Except.bind, Nat.not_lt.2 hcap, if_false, hload, hnotify,
    hhead, htail, Bool.false_eq_true, hfull, if_true]

/-- A SEND.NB without space goes on with 1 (R162). -/
theorem sendMessage_noSpace {cap hd tl : Word} {head : Nat} (hresv : s.core.resv = none) (h : s.sendFinds a b c cap head hd tl v)
    (hfull : cap.toNat < (tl - hd).toNat + 8 + (s.reg c).toNat) :
    s.sendMessage true d (s.reg a) (s.reg b) (s.reg c) = .done (((v.headerLoads (s.reg a)).2.2.releaseLock (s.reg a) head).setReg d 1) := by
  simp only [sendMessage, hresv, reserve]
  rw [run_of_passes (sendChecks_noSpace h hfull)]
  exact if_pos hfull

theorem sendOn_word {len : Word} (h : r.sent < len.toNat / 8) (hdr src : Word) : s.sendOn r d hdr src len = .asIs (s.sendWord r hdr src) :=
  if_pos h

theorem sendOn_waits {len hdr : Word} (h : len.toNat / 8 ≤ r.sent) (hwaits : s.notifyWaits hdr = true) (src : Word) :
    s.sendOn r d hdr src len = .wait (.journal 1) s :=
  (if_neg (Nat.not_lt.2 h)).trans (if_pos hwaits)

theorem sendOn_publishes {len hdr : Word} (h : len.toNat / 8 ≤ r.sent) (hready : s.notifyWaits hdr = false) (src : Word) :
    s.sendOn r d hdr src len = .done ((s.publishMessage r hdr len).setReg d (if r.damaged then 2 else 0)) :=
  (if_neg (Nat.not_lt.2 h)).trans (if_neg (ne_true_of_eq_false hready))

/-- A SEND waits for a journal entry only if its channel notifies and none is free (R160, R139). -/
theorem notifyWaits_eq_false_iff (hdr : Word) :
    s.notifyWaits hdr = false ↔ (s.glance (hdr + Chan.notify)).1.getLsbD 63 = false ∨ s.freeEntries ≠ 0 := by
  rw [notifyWaits, Bool.and_eq_false_iff, beq_eq_false_iff_ne]

end State

/-- Settles O25: a SEND reserves, copies a word a turn and publishes; a RECV takes or finds nothing. -/
theorem channelsComplete : Obligations.ChannelsComplete := by
  refine ⟨fun g a b c => ?chinit, fun g d a b c nb => ⟨?reserves, ?full, ?word, ?waits, ?publishes⟩, fun g d a b nb => ⟨?none, ?takes⟩⟩
  case chinit =>
    refine completesWhen_instr (exec_chinit · g a b c) fun s u => ?_
    rintro ⟨halign, hdome, hcap, hend, hstores⟩
    dsimp only
    have hheader : ¬ (State.isDomeWindow (s.reg a) = false ∨ (windowEnd (s.reg a).toNat).getD 0 < (s.reg a).toNat + 64) := by
      simp only [hdome, Bool.true_eq_false, false_or]
      omega
    rw [if_neg (not_not_intro halign), if_neg hheader, if_neg (ne_false_of_eq_true hcap), if_neg (Nat.not_lt.2 hend)]
    exact State.storeElems_done hstores _
  case reserves =>
    exact answers_instr (exec_sendForm nb g d a b c) fun s u h => State.sendMessage_reserves h nb
  case full =>
    rintro rfl
    refine completesWhen_instr (exec_sendForm true g d a b c) fun s u => ?_
    rintro ⟨hresv, cap, head, hd, tl, v, hfinds, hfull, rfl⟩
    exact State.sendMessage_noSpace hresv hfinds hfull
  case word =>
    refine answers_instr (exec_sendForm nb g d a b c) fun s u => ?_
    rintro ⟨r, hresv, hsent, rfl⟩
    exact (State.sendMessage_some hresv _ _ _).trans (State.sendOn_word hsent _ _)
  case waits =>
    rintro s u hissues ⟨⟨r, hresv, hsent⟩, hnotify, hfull, rfl⟩
    refine waits_instr (exec_sendForm nb g d a b c) hissues ((State.sendMessage_some hresv _ _ _).trans (State.sendOn_waits hsent ?_ _))
    simp only [State.notifyWaits, hnotify, hfull, beq_self_eq_true, Bool.and_self]
  case publishes =>
    refine completesWhen_instr (exec_sendForm nb g d a b c) fun s u => ?_
    rintro ⟨r, hresv, hsent, hready, rfl⟩
    exact (State.sendMessage_some hresv _ _ _).trans (State.sendOn_publishes hsent ((State.notifyWaits_eq_false_iff _).2 hready) _)
  case none =>
    rintro rfl
    refine completesWhen_instr (exec_recvForm true g d a b) fun s u => ?_
    rintro ⟨cap, head, hd, v, hfinds, rfl⟩
    exact State.recvMessage_finds_none hfinds
  case takes =>
    intro s cap head hd m v hissues hfinds h x
    refine ⟨_, rfl, ?_⟩
    rw [exec_recvForm]
    exact instrIf_done (g := s.guardLane g 0) hissues (State.recvMessage_takes hfinds nb)

end Sys2Proof.Machine
end

section
/-!
PROOFS. The order of the checks of an access (05_memory_isa R138).
-/

namespace Sys2Proof.Machine

open Sys2Proof

theorem aligned_trap {va : Word} {n : Nat} (h : va.toNat % n ≠ 0) : State.aligned va n = trapWith Cause.misalign va := if_neg (by simpa using h)

theorem run_trap {α : Type} {c : Chk α} {t : Trap} (h : c = .error (.trap t)) (s : State) (f : α → Res) : c.run s f = .trap t s := by
  rw [h]
  rfl

namespace State

variable {s : State} {acc : Acc} {va : Word}

/-- An address without a place is the first fault of an access of one element (R138 step 2). -/
theorem firstFault_singleton (h : s.place acc va = none) : s.firstFault acc [va] va :=
  ⟨[], [], fun _ => { loc := 0 }, rfl, nofun, h, fun x hx => by rw [List.mem_singleton.1 hx]⟩

theorem loadElems_fault {es : List Elem} (h : s.firstFault .load (es.map (·.va)) va) : s.loadElems es = trapWith Cause.loadFault va := by
  simp only [loadElems, places_fault h]
  rfl

theorem storeElems_fault {es : List Elem} (h : s.firstFault .store (es.map (·.va)) va) (done : State → Res) :
    s.storeElems es done = .trap { code := Cause.storeFault, tval := va } s := by
  simp only [storeElems, toStore, places_fault h]
  rfl

theorem coreLoad_misaligned {n : Nat} (h : va.toNat % n ≠ 0) : s.coreLoad va n = trapWith Cause.misalign va := by
  simp only [coreLoad, aligned_trap h]
  rfl

theorem coreLoad_fault {n : Nat} (halign : va.toNat % n = 0) (h : s.place .load va = none) : s.coreLoad va n = trapWith Cause.loadFault va := by
  have hload : s.loadElems [{ va := va, n := n }] = trapWith Cause.loadFault va := loadElems_fault (firstFault_singleton h)
  simp only [coreLoad, aligned_of_mod halign, hload]
  rfl

variable {op : BitVec 6} {ty : BitVec 4} {e : Elem} {done : State → Res}

theorem coreStore_misaligned (h : e.va.toNat % e.n ≠ 0) :
    s.coreStore op ty e done = .trap { code := Cause.misalign, tval := e.va } s := by
  simp only [coreStore, aligned_trap h]
  rfl

theorem coreStore_fault (halign : e.va.toNat % e.n = 0) (hlocal : isRemote e.va = false) (h : s.place .store e.va = none) :
    s.coreStore op ty e done = .trap { code := Cause.storeFault, tval := e.va } s := by
  simp only [coreStore, aligned_of_mod halign, hlocal, Bool.false_eq_true, if_false]
  exact storeElems_fault (firstFault_singleton h) done

theorem coreStore_remote (halign : e.va.toNat % e.n = 0) (hremote : isRemote e.va = true) :
    s.coreStore op ty e done = if s.freeEntries = 0 then .wait (.journal 1) s else done (s.postStore op ty e) := by
  simp only [coreStore, aligned_of_mod halign, hremote, if_true]

/-- The trap an atomic of n bytes raises where it finds no word to read and write (R137, R145). -/
def atomFault (s : State) (x : Word) (n : Nat) (ordered : Bool) (t : Trap) : Prop :=
  (x.toNat % n ≠ 0 ∧ t = { code := Cause.misalign, tval := x }) ∨
    (x.toNat % n = 0 ∧ t = { code := Cause.storeFault, tval := x } ∧
      (x.toNat < 0x4000 ∨ (ordered = true ∧ isDomeWindow x = false) ∨ s.place .store x = none ∨
        ∃ p v, s.place .store x = some (p, v) ∧ v.place .load x = none))

theorem atomPlace_trap {x : Word} {n : Nat} {ordered : Bool} {t : Trap} (h : s.atomFault x n ordered t) :
    s.atomPlace x n ordered = .error (.trap t) := by
  rcases h with ⟨halign, rfl⟩ | ⟨halign, rfl, hfault⟩
  · simp only [atomPlace, aligned_trap halign]
    rfl
  · simp only [atomPlace, aligned_of_mod halign]
    split
    · rfl
    · next hwindow =>
      obtain ⟨hlow, hdome⟩ := not_or.1 hwindow
      rcases hfault with h | h | h | ⟨p, v, hstore, hload⟩
      · exact absurd h hlow
      · exact absurd h hdome
      · rw [h]; rfl
      · simp only [hstore, hload]; rfl

theorem amo_trap {x : Word} {ty : Ty} {op : AtomOp} {b c : Word} {t : Trap} (h : s.atomPlace x (atomBytes ty) false = .error (.trap t)) :
    s.amo op ty x b c = .error (.trap t) := by
  simp only [amo, h]

end State

/-- The address of a word of a jet access is that of its enabled lanes, whatever its data (R142). -/
theorem jetElem_va (base : Word) (x : Nat × Nat × Bool × Bool) (data data' : Word) : (jetElem base x data).va = (jetElem base x data').va := by
  unfold jetElem
  split_ifs <;> rfl

/-- An atomic whose word has no place raises the trap of its place. -/
theorem traps_amoOp {i : Instr} {g : Guard} {t : Ty} {d a b : SReg} {c : Option SReg} {op : AtomOp}
    (hexec : ∀ s, exec i s = amoOp i g t d a b c op s) {cond : State → Trap → Prop}
    (hcond : ∀ s e, cond s e → s.atomPlace (s.reg a) (atomBytes t) false = .error (.trap e)) : Traps i (State.whole g) cond :=
  traps_instr (fun s => (hexec s).trans (amoOp_eq ..)) fun s e h => run_trap (State.amo_trap (hcond s e h)) s _

/-- The default type of AMO.FADD has the width of AMO's own. -/
theorem atomBytes_default (t : Ty) : atomBytes (if t = .dflt then .f64 else t) = atomBytes t := by
  split
  · next h => rw [h]; rfl
  · rfl

/-- Settles O45: each access finds its misaligned address before its place, and a remote store has no place to look for. -/
theorem accessChecksInOrder : Obligations.AccessChecksInOrder := by
  refine ⟨fun g t d a b => ?ld, fun g t a b c => ?st, fun g t a b c s hissues halign hremote => ?remote,
    fun g t d a b c last i ordered hi => ?atomic, fun g d a b i acc hi => ?jet, fun g t d a b stride i acc hi => ?gather, fun g d a nM1 => ?ldb⟩
  case ld =>
    refine traps_instr (exec_ld · g t d a b) fun s e => ?_
    rintro (⟨halign, rfl⟩ | ⟨halign, hplace, rfl⟩)
    · exact run_trap (State.coreLoad_misaligned halign) s _
    · exact run_trap (State.coreLoad_fault halign hplace) s _
  case st =>
    refine traps_instr (exec_st · g t a b c) fun s e => ?_
    rintro (⟨halign, rfl⟩ | ⟨halign, hlocal, hplace, rfl⟩)
    · exact State.coreStore_misaligned halign
    · exact State.coreStore_fault halign hlocal hplace
  case remote =>
    by_cases hfull : (s.acquireTokens (.st g t a b c)).freeEntries = 0
    · rw [if_pos hfull]
      exact waits_instr (exec_st · g t a b c) hissues ((State.coreStore_remote halign hremote).trans (if_pos hfull))
    · rw [if_neg hfull]
      refine completesWhen_instr (c := fun v w => v = s.acquireTokens (.st g t a b c) ∧ w = _) (exec_st · g t a b c) ?_ s _ hissues ⟨rfl, rfl⟩
      rintro _ _ ⟨rfl, rfl⟩
      exact (State.coreStore_remote halign hremote).trans (if_neg hfull)
  case atomic =>
    rcases hi with ⟨hi, rfl⟩ | ⟨rfl, rfl⟩
    · have htrap : ∀ (s : State) (e : Trap), (false = true → s.core.amoBad = false ∧ s.core.amo = none) ∧
          s.atomFault (s.reg a) (atomBytes t) false e → s.atomPlace (s.reg a) (atomBytes t) false = .error (.trap e) :=
        fun s e h => State.atomPlace_trap h.2
      rcases hi with rfl | rfl | rfl | rfl | rfl | rfl | rfl | rfl | rfl
      · exact traps_amoOp (c := none) (exec_amoAdd · g t d a b) htrap
      · exact traps_amoOp (c := none) (exec_amoAnd · g t d a b) htrap
      · exact traps_amoOp (c := none) (exec_amoOr · g t d a b) htrap
      · exact traps_amoOp (c := none) (exec_amoXor · g t d a b) htrap
      · exact traps_amoOp (c := none) (exec_amoMin · g t d a b) htrap
      · exact traps_amoOp (c := none) (exec_amoMax · g t d a b) htrap
      · exact traps_amoOp (c := none) (exec_amoSwap · g t d a b) htrap
      · exact traps_amoOp (c := some c) (exec_amoCas · g t d a b c) htrap
      · exact traps_amoOp (c := none) (exec_amoFadd · g t d a b) (by rwa [atomBytes_default])
    · refine traps_instr (exec_amoFaddOrd · g t d a b c last) fun s e h => ?_
      obtain ⟨hfirst, hfault⟩ := h
      obtain ⟨hgood, hamo⟩ := hfirst rfl
      rw [← atomBytes_default t] at hfault
      dsimp only
      rw [hgood, hamo]
      exact run_trap (State.atomPlace_trap hfault) s _
  case jet =>
    rcases hi with ⟨rfl, rfl⟩ | ⟨rfl, rfl⟩
    · refine traps_instrAll (exec_vld · g d a b) fun s e => ?_
      rintro ⟨hsome, ⟨halign, rfl⟩ | ⟨halign, va, hfault, rfl⟩⟩ <;> dsimp only <;> rw [if_neg (by simpa using hsome)]
      · exact run_trap (aligned_trap halign) s _
      · rw [aligned_of_mod halign, run_of_passes rfl]
        refine run_trap (State.loadElems_fault ?_) s _
        rwa [List.map_map]
    · refine traps_instrAll (exec_vst · g a b d) fun s e => ?_
      rintro ⟨hsome, ⟨halign, rfl⟩ | ⟨halign, va, hfault, rfl⟩⟩ <;> dsimp only <;> rw [if_neg (by simpa using hsome)]
      · exact run_trap (aligned_trap halign) s _
      · rw [aligned_of_mod halign, run_of_passes rfl]
        refine State.storeElems_fault ?_ _
        rw [List.map_map]
        refine (congrArg (s.firstFault .store · va) (List.map_congr_left fun x _ => ?_)).mp hfault
        exact jetElem_va ..
  case gather =>
    rcases hi with ⟨rfl, rfl⟩ | ⟨rfl, rfl⟩
    · refine traps_instrAll (exec_vgather · g t d a b stride) fun s e => ?_
      rintro (⟨va, hfirst, rfl⟩ | ⟨halign, va, hfault, rfl⟩) <;> dsimp only
      · rw [misaligned_first hfirst]
      · rw [misaligned_none (List.forall_mem_map.1 halign)]
        refine run_trap (State.loadElems_fault ?_) s _
        rwa [List.map_map]
    · refine traps_instrAll (exec_vscatter · g t a b d stride) fun s e => ?_
      rintro (⟨va, hfirst, rfl⟩ | ⟨halign, va, hfault, rfl⟩) <;> dsimp only
      · rw [misaligned_first hfirst]
      · rw [misaligned_none (List.forall_mem_map.1 halign)]
        refine State.storeElems_fault ?_ _
        rwa [List.map_map]
  case ldb =>
    refine traps_instr (exec_ldb · g d a nM1) fun s e => ?_
    rintro (⟨halign, rfl⟩ | ⟨halign, hfits, hout, rfl⟩ | ⟨halign, hfits, hlow, hhigh, va, hfault, rfl⟩) <;> dsimp only
    · rw [if_pos halign]
    · rw [if_neg (by omega), if_pos hout]
    · rw [if_neg (by omega), if_neg (by omega)]
      refine run_trap (State.loadElems_fault ?_) s _
      rwa [List.map_map]

end Sys2Proof.Machine
end

section
/-!
PROOFS. What it is to keep storage in its canonical form (05_memory_isa R136, R138), for each kind of result a
function of the model gives.
-/

namespace Sys2Proof.Machine

open Sys2Proof

/-- Storage is in its canonical form. -/
def State.Canonical (s : State) : Prop := Mem.wf s.mem = true

/-- The state a result leaves. -/
def Res.state : Res → State
  | .done s | .jump _ s | .goto _ s | .asIs s | .trap _ s | .wait _ s => s

/-- The state a stop leaves, where it leaves one, has canonical storage. -/
def Stop.Keeps : Stop → Prop
  | .trapIn _ s | .waitIn _ s => s.Canonical
  | .trap _ | .wait _ => True

/-- What a check answers satisfies `P`, and where it stops with a state, that state has canonical storage. -/
def Chk.Keeps {α : Type} (P : α → Prop) : Chk α → Prop
  | .ok x => P x
  | .error e => e.Keeps

/-- The state a fetch leaves. -/
def Fetched.state : Fetched → State
  | .instr _ _ s | .trap _ _ s | .skip _ s => s

/-- The state the fetch of a block leaves, with its bytes or where it faults, has canonical storage. -/
def State.BlockKeeps : Except State (List Byte × State) → Prop
  | .ok x => x.2.Canonical
  | .error s => s.Canonical

/-- The state an ordered operation leaves, if it leaves one, has canonical storage. -/
def Ordered.Keeps : Ordered → Prop
  | .applied _ s | .held s => s.Canonical
  | .refused | .poisoned => True

/-- What is found, if it is, satisfies `P`. -/
def KeepsSome {α : Type} (P : α → Prop) : Option α → Prop
  | some x => P x
  | none => True

/-- The state an outcome goes on with, if it does, has canonical storage. -/
def KeepsNext (o : Out) : Prop := ∀ t, o = .next t → t.Canonical

section
variable {α β : Type} {P : α → Prop} {Q : β → Prop} {c : Chk α}

theorem Chk.Keeps.of_ok {x : α} (h : Chk.Keeps P c) (hc : c = .ok x) : P x := by
  rw [hc] at h
  exact h

theorem Chk.Keeps.of_error {e : Stop} (h : Chk.Keeps P c) (hc : c = .error e) : e.Keeps := by
  rw [hc] at h
  exact h

theorem Chk.Keeps.mono {P' : α → Prop} (h : Chk.Keeps P c) (hP : ∀ x, P x → P' x) : Chk.Keeps P' c := by
  cases c with
  | ok x => exact hP x h
  | error e => exact h

theorem Chk.Keeps.bind {f : α → Chk β} (h : Chk.Keeps P c) (hf : ∀ x, P x → Chk.Keeps Q (f x)) :
    Chk.Keeps Q (c >>= f) := by
  cases c with
  | ok x => exact hf x h
  | error e => exact h

theorem Chk.Keeps.after {s : State} (h : Chk.Keeps P c) (hs : s.Canonical) : Chk.Keeps P (c.after s) := by
  cases c with
  | ok x => exact h
  | error e =>
    cases e with
    | trap t => exact hs
    | trapIn t s => exact h
    | wait w => trivial
    | waitIn w s => exact h

theorem Stop.Keeps.res {e : Stop} {s : State} (h : e.Keeps) (hs : s.Canonical) : (e.res s).state.Canonical := by
  cases e with
  | trap t => exact hs
  | trapIn t s => exact h
  | wait w => exact hs
  | waitIn w s => exact h

theorem Chk.Keeps.run {s : State} {f : α → Res} (h : Chk.Keeps P c) (hs : s.Canonical)
    (hf : ∀ x, P x → (f x).state.Canonical) :
    (c.run s f).state.Canonical := by
  cases c with
  | ok x => exact hf x h
  | error e => exact Stop.Keeps.res h hs

theorem Chk.keeps_ite {b : Prop} [Decidable b] {c c' : Chk α} (h : Chk.Keeps P c) (h' : Chk.Keeps P c') :
    Chk.Keeps P (if b then c else c') := by
  split
  · exact h
  · exact h'

theorem Ordered.Keeps.applied {r : Ordered} {x : Word} {s : State} (h : r.Keeps) (hr : r = .applied x s) :
    s.Canonical := by
  rw [hr] at h
  exact h

theorem Ordered.Keeps.held {r : Ordered} {s : State} (h : r.Keeps) (hr : r = .held s) : s.Canonical := by
  rw [hr] at h
  exact h

theorem canonical_rule {ok : Bool} {reason detail : ℕ} :
    Chk.Keeps (fun _ => True) (rule ok (shapeStop reason detail)) :=
  Chk.keeps_ite trivial trivial

theorem KeepsSome.of_some {o : Option α} {x : α} (h : KeepsSome P o) (ho : o = some x) : P x := by
  rw [ho] at h
  exact h

theorem keepsSome_ite {b : Prop} [Decidable b] {o o' : Option α} (h : KeepsSome P o) (h' : KeepsSome P o') :
    KeepsSome P (if b then o else o') := by
  split
  · exact h
  · exact h'

end

theorem KeepsSome.or {α : Type} {P : α → Prop} {o o' : Option α} (h : KeepsSome P o) (h' : KeepsSome P o') :
    KeepsSome P (o.or o') := by
  cases o with
  | none => exact h'
  | some x => exact h

theorem KeepsSome.map {α β : Type} {P : α → Prop} {f : β → α} {o : Option β} (h : KeepsSome (fun x => P (f x)) o) :
    KeepsSome P (o.map f) := by
  cases o with
  | none => trivial
  | some x => exact h

theorem KeepsSome.mono {α : Type} {P Q : α → Prop} {o : Option α} (h : KeepsSome P o) (hQ : ∀ x, P x → Q x) :
    KeepsSome Q o := by
  cases o with
  | none => trivial
  | some x => exact hQ x h

theorem keepsSome_map {α β : Type} {P : α → Prop} {f : β → α} {o : Option β} (h : ∀ x, P (f x)) :
    KeepsSome P (o.map f) := by
  cases o with
  | none => trivial
  | some x => exact h x

theorem keepsNext_next {s : State} (h : s.Canonical) : KeepsNext (.next s) := by
  intro t ht
  cases ht
  exact h

theorem keepsNext_ite {b : Prop} [Decidable b] {o o' : Out} (h : KeepsNext o) (h' : KeepsNext o') :
    KeepsNext (if b then o else o') := by
  split
  · exact h
  · exact h'

theorem keepsNext_powered {s : State} {o : Out} (h : KeepsNext o) : KeepsNext (powered s o) := by
  unfold powered
  exact keepsNext_ite nofun (keepsNext_ite nofun h)

theorem canonical_res_shapeStop {reason detail : ℕ} {s : State} (h : s.Canonical) :
    ((shapeStop reason detail).res s).state.Canonical := h

theorem Res.canonical_done {s : State} (h : s.Canonical) : (Res.done s).state.Canonical := h

theorem Res.canonical_jump {t : Word} {s : State} (h : s.Canonical) : (Res.jump t s).state.Canonical := h

theorem Res.canonical_goto {t : Word} {s : State} (h : s.Canonical) : (Res.goto t s).state.Canonical := h

theorem Res.canonical_asIs {s : State} (h : s.Canonical) : (Res.asIs s).state.Canonical := h

theorem Res.canonical_trap {t : Trap} {s : State} (h : s.Canonical) : (Res.trap t s).state.Canonical := h

theorem Res.canonical_wait {w : WaitCond} {s : State} (h : s.Canonical) : (Res.wait w s).state.Canonical := h

theorem Res.canonical_ite {b : Prop} [Decidable b] {r r' : Res} (h : r.state.Canonical) (h' : r'.state.Canonical) :
    (if b then r else r').state.Canonical := by
  split
  · exact h
  · exact h'

namespace State

theorem canonical_of_mem {s : State} (h : Mem.wf s.mem = true) : s.Canonical := h

theorem canonical_withMem {s : State} {m : Mem} (h : Mem.wf m = true) : ({ s with mem := m } : State).Canonical := h

theorem canonical_ite {b : Prop} [Decidable b] {s t : State} (hs : s.Canonical) (ht : t.Canonical) :
    (if b then s else t).Canonical := by
  split
  · exact hs
  · exact ht

theorem canonical_snd {α : Type} {x : α} {s : State} (h : s.Canonical) : (x, s).2.Canonical := h

theorem canonical_of_snd {α : Type} {x : α × State} {a : α} {s : State} (h : x.2.Canonical) (hx : x = (a, s)) :
    s.Canonical := by
  rw [hx] at h
  exact h

theorem canonical_of_snd_snd {α β : Type} {x : α × β × State} {a : α} {b : β} {s : State} (h : x.2.2.Canonical)
    (hx : x = (a, b, s)) :
    s.Canonical := by
  rw [hx] at h
  exact h

theorem canonical_ite_snd {α : Type} {b : Prop} [Decidable b] {x y : α × State} (hx : x.2.Canonical)
    (hy : y.2.Canonical) :
    (if b then x else y).2.Canonical := by
  split
  · exact hx
  · exact hy

theorem canonical_foldl {α : Type} {f : State → α → State} {s : State} (hs : s.Canonical)
    (hf : ∀ t x, t.Canonical → (f t x).Canonical)
    {xs : List α} : (xs.foldl f s).Canonical := by
  induction xs generalizing s with
  | nil => exact hs
  | cons x xs ih => exact ih (hf s x hs)

/-- A fold that carries a state beside what it collects. -/
theorem canonical_foldl_snd {α β : Type} {f : β × State → α → β × State} {x : β × State} (hx : x.2.Canonical)
    (hf : ∀ y a, y.2.Canonical → (f y a).2.Canonical) {as : List α} : (as.foldl f x).2.Canonical := by
  induction as generalizing x with
  | nil => exact hx
  | cons a as ih => exact ih (hf x a hx)

theorem canonical_of_instr {f : Fetched} {a : Word} {i : Instr} {s : State} (h : f.state.Canonical)
    (hf : f = .instr a i s) :
    s.Canonical := by
  rw [hf] at h
  exact h

end State

end Sys2Proof.Machine
end

section
/-!
PROOFS. That storage stays canonical: the operations over storage, registers, counters and regions, and trap entry
(21_memory_system R364, 16_traps R310).
-/

namespace Sys2Proof.Machine.State

open Sys2Proof

theorem canonical_accepted {c : Chk Res} {s : State} (hc : Chk.Keeps (fun r => r.state.Canonical) c) (h : s.Canonical)
    :
    (accepted c s).state.Canonical :=
  hc.run h fun _ hr => hr

/-! ## Cores, Spires, domes -/

theorem canonical_setCoreAt {s : State} {c : ℕ} {k : Core} (h : s.Canonical) : (s.setCoreAt c k).Canonical := by
  unfold setCoreAt
  exact h

theorem canonical_setCore {s : State} {k : Core} (h : s.Canonical) : (s.setCore k).Canonical := by
  unfold setCore
  exact canonical_setCoreAt h

theorem canonical_onCore {s : State} {f : Core → Core} (h : s.Canonical) : (s.onCore f).Canonical := by
  unfold onCore
  exact canonical_setCore h

theorem canonical_setSpireAt {s : State} {n : ℕ} {x : Spire} (h : s.Canonical) : (s.setSpireAt n x).Canonical := by
  unfold setSpireAt
  exact h

theorem canonical_setDomeAt {s : State} {d : ℕ} {x : Dome} (h : s.Canonical) : (s.setDomeAt d x).Canonical := by
  unfold setDomeAt
  exact h

theorem canonical_setSliceAt {s : State} {n : ℕ} {x : Slice} (h : s.Canonical) : (s.setSliceAt n x).Canonical := by
  unfold setSliceAt
  exact h

theorem canonical_countFor {s : State} {tenant i n : ℕ} (h : s.Canonical) : (s.countFor tenant i n).Canonical := by
  unfold countFor
  exact h

theorem canonical_count {s : State} {i n : ℕ} (h : s.Canonical) : (s.count i n).Canonical := by
  unfold count
  exact canonical_countFor h

theorem canonical_countBy {s : State} {i n : ℕ} (h : s.Canonical) : (s.countBy i n).Canonical := by
  unfold countBy
  exact canonical_countFor h

theorem canonical_actingFor {α : Type} {s : State} {who : Nat} {f : State → α × State} (h : s.Canonical)
    (hf : ∀ t : State, t.Canonical → (f t).2.Canonical) : (s.actingFor who f).2.Canonical := hf _ h

theorem canonical_actFor {s : State} {who : Nat} {f : State → State} (h : s.Canonical)
    (hf : ∀ t : State, t.Canonical → (f t).Canonical) : (s.actFor who f).Canonical := hf _ h

theorem canonical_free {s : State} (h : s.Canonical) : s.free.2.Canonical := by
  unfold free
  exact h

/-! ## Workspace words and registers (02_scalar R41-R43) -/

theorem canonical_setWord {s : State} {off : Nat} {x : Word} (h : s.Canonical) :
    (s.setWord off x).Canonical := wf_setWord h _ _

theorem canonical_setReg {s : State} {r : SReg} {x : Word} (h : s.Canonical) :
    (s.setReg r x).Canonical := wf_setReg h _ _

theorem canonical_setVreg {s : State} {r : VReg} {x : VWord} (h : s.Canonical) :
    (s.setVreg r x).Canonical := wf_setVreg h _ _

theorem canonical_setPred {s : State} {r : PReg} {x : BitVec 32} (h : s.Canonical) :
    (s.setPred r x).Canonical := wf_setPred h _ _

/-! ## Regions -/

theorem canonical_onRegion {s : State} {r : ℕ} {f : Region → Region} (h : s.Canonical) :
    (s.onRegion r f).Canonical := by
  unfold onRegion
  exact h

/-! ## HBM4E (21_memory_system R364, R368, R371) -/

theorem canonical_touchRow {s : State} {loc : Nat} (h : s.Canonical) :
    (s.touchRow loc).Canonical := by rwa [Canonical, touchRow_mem]

theorem canonical_clean {s : State} {loc n : Nat} (h : s.Canonical) :
    (s.clean loc n).Canonical := by rwa [Canonical, clean_mem]

theorem canonical_touch {s : State} {loc : Nat} (h : s.Canonical) :
    (s.touch loc).Canonical := by rwa [Canonical, touch_mem]

theorem canonical_cleanSpans {s : State} {xs : List (Nat × Nat)} (h : s.Canonical) : (s.cleanSpans xs).Canonical := by
  rwa [Canonical, cleanSpans_mem]

theorem canonical_cleanRange {s : State} {base len : Nat} (h : s.Canonical) : (s.cleanRange base len).Canonical := by
  rwa [Canonical, cleanRange_mem]

theorem canonical_poke {w : Nat} {s : State} {loc n : Nat} {x : BitVec w} (h : s.Canonical) :
    (s.poke loc n x).Canonical := wf_poke h _ _ _

theorem canonical_traceHeader {s : State} (h : s.Canonical) : s.traceHeader.Canonical := wf_traceHeader h

theorem canonical_traceRec {s : State} {ty tenant level region lcore : Nat} {arg : Word} (h : s.Canonical) :
    (s.traceRec ty tenant level region lcore arg).Canonical := wf_traceRec h _ _ _ _ _ _

theorem canonical_killLaunches {s : State} {r code : ℕ} (h : s.Canonical) : (s.killLaunches r code).Canonical := by
  unfold killLaunches
  refine canonical_foldl h (fun t x ht => ?_)
  have hk := canonical_foldl (f := fun s l => s.countFor (x.1 / 12) (80 + x.1 % 12) (s.time - l.accepted)) ht
    (fun _ _ hu => canonical_countFor hu) (xs := x.2.filter (t.launchInDomain r (x.1 / 12)))
  exact hk

theorem canonical_countWaits {s : State} {ids : List ℕ} (h : s.Canonical) : (s.countWaits ids).Canonical := by
  unfold countWaits
  exact canonical_foldl h (fun _ _ ht => canonical_ite (canonical_countFor ht) ht)

theorem canonical_kill {s : State} {r code : ℕ} (h : s.Canonical) : (s.kill r code).Canonical := by
  unfold kill
  refine canonical_foldl ?_ (fun t x ht => ?_)
  · exact canonical_countWaits (canonical_killLaunches h)
  · split
    · exact canonical_traceRec (canonical_countFor ht)
    · exact ht

/-! ## Trap entry and return (16_traps R309-R312) -/

theorem canonical_stopFollowers {s : State} (h : s.Canonical) : s.stopFollowers.Canonical := by
  unfold stopFollowers
  exact canonical_ite h h

theorem canonical_wipeRange {s : State} {lo n : ℕ} (h : s.Canonical) : (s.wipeRange lo n).Canonical := by
  unfold wipeRange
  split
  · exact h
  · exact canonical_onCore h

theorem canonical_takeTrap {s : State} {async : Bool} {pc : Word} {t : Trap} (h : s.Canonical) :
    (s.takeTrap async pc t).Canonical := by
  unfold takeTrap
  exact canonical_ite (canonical_onCore (canonical_kill (canonical_count h))) (canonical_traceRec (canonical_onCore
    (canonical_stopFollowers (canonical_wipeRange (canonical_wipeRange (canonical_withMem (Mem.wf_store (Mem.wf_store
    (Mem.wf_store (Mem.wf_store (Mem.wf_store (canonical_count h) _ _ _) _ _ _) _ _ _) _ _ _) _ _ _)))))))

theorem canonical_returnFromTrap {s : State} (h : s.Canonical) : s.returnFromTrap.Canonical := by
  unfold returnFromTrap
  exact canonical_onCore h

end Sys2Proof.Machine.State
end

section
/-!
PROOFS. That storage stays canonical: what the L2 slices and the Spire caches hold (21_memory_system R359-R371).
-/

namespace Sys2Proof.Machine.State

open Sys2Proof

/-! ## HBM4E and the slices (R365, R371) -/

theorem canonical_setSliceLine {s : State} {ln : ℕ} {x : SLine} (h : s.Canonical) :
    (s.setSliceLine ln x).Canonical := by
  unfold setSliceLine
  exact h

theorem canonical_setLineMarks {s : State} {ln : ℕ} {m : BitVec 4} (h : s.Canonical) :
    (s.setLineMarks ln m).Canonical := by
  unfold setLineMarks
  exact h

theorem canonical_keepLeases {s : State} {ln : ℕ} (h : s.Canonical) : (s.keepLeases ln).Canonical := by
  unfold keepLeases
  exact h

theorem canonical_deliverSector {s : State} {b : ℕ} {bad : Bool} (h : s.Canonical) :
    (s.deliverSector b bad).Canonical := by
  unfold deliverSector
  dsimp only
  split
  · exact canonical_ite h (canonical_setSpireAt h)
  · exact canonical_ite h h

theorem canonical_dropMarks {s : State} {ln : ℕ} (h : s.Canonical) : (s.dropMarks ln).Canonical := by
  unfold dropMarks
  exact canonical_ite h (canonical_setLineMarks (canonical_keepLeases h))

theorem canonical_writeMarks {s : State} {ln : ℕ} {m : BitVec 4} (h : s.Canonical) :
    (s.writeMarks ln m).Canonical := by
  unfold writeMarks
  exact h

theorem canonical_writeBack {s : State} {ln : ℕ} (h : s.Canonical) : (s.writeBack ln).Canonical := by
  unfold writeBack
  exact canonical_writeMarks (canonical_countBy (canonical_touchRow h))

theorem canonical_evictSlice {s : State} {ln : ℕ} (h : s.Canonical) : (s.evictSlice ln).Canonical := by
  unfold evictSlice
  split
  · exact h
  · refine canonical_ite (canonical_dropMarks (canonical_writeBack (canonical_setSliceLine h))) ?_
    split
    · exact canonical_dropMarks (canonical_setSliceLine h)
    · split
      · exact canonical_setSpireAt (canonical_setSliceLine h)
      · exact canonical_dropMarks (canonical_withMem (Mem.wf_store (canonical_keepLeases
          (canonical_setSliceLine h)) _ _ _))

theorem canonical_setHbmLine {s : State} {ln : ℕ} {x : BitVec 1024} (h : s.Canonical) :
    (s.setHbmLine ln x).Canonical := by
  unfold setHbmLine
  split
  · exact canonical_ite (canonical_setSliceLine h) (canonical_ite (canonical_setSliceLine h) (canonical_setSpireAt h))
  · exact canonical_ite (canonical_setSliceLine h) (canonical_withMem (Mem.wf_store (canonical_keepLeases h) _ _ _))

/-! ## A line with two homes (R361) -/

theorem canonical_evictSplit {s : State} {n ln : ℕ} (h : s.Canonical) : (s.evictSplit n ln).Canonical := by
  unfold evictSplit
  split
  · exact h
  · exact canonical_ite (canonical_writeMarks (canonical_setHbmLine (canonical_countBy (canonical_touchRow h)))) h

theorem canonical_evictAt {s : State} {n ln : ℕ} (h : s.Canonical) : (s.evictAt n ln).Canonical := by
  unfold evictAt
  exact canonical_ite (canonical_evictSlice h) (canonical_evictSplit h)

theorem canonical_leaveSet {s : State} {n ln : ℕ} (h : s.Canonical) : (s.leaveSet n ln).Canonical := by
  unfold leaveSet
  exact canonical_setSliceAt h

theorem canonical_enterSlice {s : State} {n ln : ℕ} {first : Bool} (h : s.Canonical) :
    (s.enterSlice n ln first).Canonical := by
  unfold enterSlice
  dsimp only
  split
  · exact canonical_countBy (canonical_evictAt (canonical_setSliceAt h))
  · exact canonical_setSliceAt h

/-! ## Owners (15_consistency R293) -/

theorem canonical_returnLine {s : State} {sp ln : ℕ} (h : s.Canonical) : (s.returnLine sp ln).Canonical := by
  unfold returnLine
  dsimp only
  split
  · exact h
  · exact canonical_ite (canonical_enterSlice (canonical_setSliceLine (canonical_setSpireAt h)))
      (canonical_setSpireAt h)

theorem canonical_recallLine {s : State} {except ln : ℕ} (h : s.Canonical) : (s.recallLine except ln).Canonical := by
  unfold recallLine
  split
  · exact canonical_ite h (canonical_countBy (canonical_returnLine h))
  · exact h

theorem canonical_park {s : State} {ln : ℕ} (h : s.Canonical) : (s.park ln).Canonical := by
  unfold park
  refine canonical_ite (canonical_setLineMarks ?_) h
  unfold Canonical
  dsimp only
  split
  · exact Mem.wf_store (canonical_keepLeases h) _ _ _
  · exact canonical_keepLeases h

theorem canonical_unpark {s : State} {home ln : ℕ} (h : s.Canonical) : (s.unpark home ln).Canonical := by
  unfold unpark
  split
  · exact h
  · refine canonical_setLineMarks ?_
    unfold Canonical
    dsimp only
    exact Mem.wf_store (canonical_keepLeases h) _ _ _

theorem canonical_activate {s : State} {home ln : ℕ} (h : s.Canonical) : (s.activate home ln).Canonical := by
  have hs (b : Bool) : State.Canonical (if b && isHbm (ln * 128) then (s.recallLine noSpire ln).park ln else s) :=
    canonical_ite (canonical_park (canonical_recallLine h)) h
  unfold activate
  exact canonical_ite (hs _) (canonical_unpark (hs _))

end Sys2Proof.Machine.State
end

section
/-!
PROOFS. That storage stays canonical: windows, translation and the accesses of a core (05_memory_isa R135-R138).
-/

namespace Sys2Proof.Machine.State

open Sys2Proof

/-! ## Fault records and trackers (21_memory_system R367, R369) -/

theorem canonical_postFault {s : State} {kind source pa : ℕ} (h : s.Canonical) :
    (s.postFault kind source pa).Canonical := by
  unfold postFault
  split
  · exact h
  · exact canonical_ite h (canonical_ite (canonical_poke h) (canonical_traceRec (canonical_of_mem
      (by dsimp only; exact canonical_poke (canonical_cleanRange (canonical_poke (canonical_poke (canonical_poke
      (canonical_poke h)))))))))

theorem canonical_countCorrected {s : State} {source pa : ℕ} (h : s.Canonical) :
    (s.countCorrected source pa).Canonical := by
  have hs : (s.countBy 42 1).Canonical := canonical_countBy h
  unfold countCorrected
  refine canonical_ite hs ?_
  dsimp only
  split
  · exact canonical_ite (canonical_postFault hs) hs
  · split
    · exact hs
    · exact canonical_postFault (canonical_countBy hs)

theorem canonical_demandBeat {s : State} {pa : ℕ} (h : s.Canonical) : (s.demandBeat pa).Canonical := by
  unfold demandBeat
  refine canonical_ite (canonical_deliverSector (canonical_countBy h)) ?_
  dsimp only
  split
  · exact canonical_countCorrected (canonical_deliverSector (canonical_countBy h))
  · exact canonical_countCorrected (canonical_deliverSector (canonical_countBy h))
  · exact canonical_deliverSector (canonical_postFault (canonical_countBy (canonical_countBy h)))
  · exact canonical_deliverSector (canonical_postFault (canonical_countBy (canonical_countBy h)))
  · exact canonical_deliverSector (canonical_countBy h)
  · exact canonical_deliverSector (canonical_countBy h)
  · exact canonical_deliverSector (canonical_countBy h)

theorem canonical_sliceLine {s : State} {home ln : ℕ} {first : Bool} (h : s.Canonical) :
    (s.sliceLine home ln first).2.Canonical := by
  unfold sliceLine
  exact canonical_ite_snd (canonical_snd (canonical_countBy (canonical_enterSlice (canonical_activate h))))
    (canonical_enterSlice (canonical_setSliceLine (canonical_ite (canonical_foldl (canonical_countBy
    (canonical_activate h)) (fun _ _ ht => canonical_demandBeat ht)) (canonical_countBy (canonical_activate h)))))

theorem canonical_hwFetch {s : State} {loc : ℕ} (h : s.Canonical) : (s.hwFetch loc).Canonical := by
  unfold hwFetch
  exact canonical_ite (canonical_sliceLine h) h

theorem canonical_hwFetchRange {s : State} {loc n : ℕ} (h : s.Canonical) : (s.hwFetchRange loc n).Canonical := by
  unfold hwFetchRange
  exact canonical_hwFetch (canonical_hwFetch h)

theorem canonical_walkFrom {tenant keep va fuel level table : ℕ} {s : State} (h : s.Canonical) :
    (walkFrom tenant keep va fuel level table s).2.Canonical := by
  induction fuel generalizing level table s with
  | zero => exact h
  | succ fuel ih =>
    have hs := canonical_hwFetch (loc := table + 8 * walkIndex level va) h
    unfold walkFrom
    dsimp only
    split
    · exact hs
    · split
      · exact hs
      · split
        · exact hs
        · exact ih hs

theorem canonical_readContext {s : State} {tenant : ℕ} {ctx : BitVec 16} (h : s.Canonical) :
    (s.readContext tenant ctx).2.Canonical := by
  unfold readContext
  dsimp only
  split
  · exact canonical_snd (canonical_hwFetch h)
  · exact canonical_snd (canonical_hwFetchRange (canonical_hwFetch h))

theorem canonical_walk {s : State} {tenant : ℕ} {ctx : BitVec 16} {va : ℕ} (h : s.Canonical) :
    (s.walk tenant ctx va).2.Canonical := by
  unfold walk
  refine canonical_ite_snd (canonical_snd (canonical_readContext h)) ?_
  split
  · exact canonical_snd (canonical_readContext h)
  · exact canonical_walkFrom (canonical_readContext h)

theorem canonical_fillTlb {s : State} {spire : ℕ} {e : TlbEntry} (h : s.Canonical) :
    (s.fillTlb spire e).Canonical := by
  unfold fillTlb
  exact canonical_setSpireAt h

theorem canonical_translate {s : State} {spire tenant : ℕ} {ctx : BitVec 16} {acc : Acc} {va : ℕ} (h : s.Canonical) :
    KeepsSome (fun x => x.2.Canonical) (s.translate spire tenant ctx acc va) := by
  unfold translate
  split
  · exact keepsSome_ite trivial h
  · split
    · exact keepsSome_map fun _ => h
    · have hw := canonical_walk (tenant := tenant) (ctx := ctx) (va := va) h
      split
      · exact trivial
      · next hwalk =>
        rw [hwalk] at hw
        exact keepsSome_map fun _ => canonical_countFor (canonical_countFor (canonical_fillTlb hw))

theorem canonical_outer {s : State} {spire d tenant : ℕ} {ctx : BitVec 16} {belfry : Bool} {acc : Acc} {va : ℕ}
    (h : s.Canonical) :
    KeepsSome (fun x => x.2.Canonical) (s.outer spire d tenant ctx belfry acc va) := by
  have here : KeepsSome (fun x : Place × State => x.2.Canonical) none := trivial
  unfold outer
  refine keepsSome_ite (keepsSome_ite here (keepsSome_map fun _ => h)) ?_
  refine keepsSome_ite (keepsSome_ite here (keepsSome_ite h here)) ?_
  refine keepsSome_ite (keepsSome_ite (keepsSome_map fun _ => h) here) ?_
  exact keepsSome_ite (keepsSome_ite h here) (keepsSome_ite (canonical_translate h) here)

theorem canonical_place {s : State} {acc : Acc} {va : Word} (h : s.Canonical) :
    KeepsSome (fun x => x.2.Canonical) (s.place acc va) := by
  unfold place
  exact keepsSome_ite (keepsSome_map fun _ => h) (canonical_outer h)

theorem canonical_placesAux {acc : Acc} {s : State} {vas : List Word} (h : s.Canonical) :
    (placesAux acc s vas).2.2.Canonical := by
  induction vas generalizing s with
  | nil => exact h
  | cons va vas ih =>
    unfold placesAux
    split
    · next p u hplace => exact ih ((canonical_place h).of_some hplace)
    · exact ih h

theorem canonical_places {s : State} {acc : Acc} {vas : List Word} (h : s.Canonical) :
    Chk.Keeps (fun x => x.2.Canonical) (s.places acc vas) := by
  have hp := canonical_placesAux (acc := acc) (vas := vas) h
  unfold places
  split
  · next u hplaces =>
    rw [hplaces] at hp
    exact hp
  · exact trivial

theorem canonical_aligned {va : Word} {n : ℕ} : Chk.Keeps (fun _ => True) (aligned va n) := by
  unfold aligned
  exact Chk.keeps_ite trivial trivial

theorem canonical_portFree {s : State} {p : Place} : Chk.Keeps (fun _ => True) (s.portFree p) := by
  unfold portFree
  exact Chk.keeps_ite trivial trivial

theorem canonical_noOverlap {s : State} {p : Place} {n : ℕ} : Chk.Keeps (fun _ => True) (s.noOverlap p n) := by
  unfold noOverlap
  refine Chk.keeps_ite ?_ trivial
  split
  · exact trivial
  · exact canonical_portFree

/-! ## Timestamps, leases and ownership (15_consistency R291-R296) -/

theorem canonical_setLt {s : State} {ts : ℕ} (h : s.Canonical) : (s.setLt ts).Canonical := by
  unfold setLt
  exact canonical_onCore h

theorem canonical_acquire {s : State} {ts : ℕ} (h : s.Canonical) : (s.acquire ts).Canonical := by
  unfold acquire
  exact canonical_setLt h

theorem canonical_writeToSlice {s : State} {sp ln : ℕ} (h : s.Canonical) : (s.writeToSlice sp ln).Canonical := by
  unfold writeToSlice
  dsimp only
  split
  · exact h
  · exact canonical_ite (canonical_countBy (canonical_enterSlice (canonical_setSliceLine (canonical_setSpireAt h)))) h

theorem canonical_enterSpire {s : State} {sp ln : ℕ} {c : CLine} (h : s.Canonical) :
    (s.enterSpire sp ln c).Canonical := by
  unfold enterSpire
  dsimp only
  split
  · exact canonical_returnLine (canonical_setSpireAt h)
  · exact canonical_setSpireAt h

theorem canonical_sliceStamp {s : State} {n : ℕ} (h : s.Canonical) : (s.sliceStamp n).Canonical := by
  unfold sliceStamp
  exact canonical_setLt (canonical_setSliceAt h)

theorem canonical_bankStamp {s : State} {p : Place} (h : s.Canonical) : (s.bankStamp p).Canonical := by
  unfold bankStamp
  exact canonical_setLt (canonical_setDomeAt h)

theorem canonical_noteGlobal {s : State} {ts : ℕ} (h : s.Canonical) : (s.noteGlobal ts).Canonical := by
  unfold noteGlobal
  exact h

theorem canonical_stampUncached {s : State} {ln home : ℕ} (h : s.Canonical) :
    (s.stampUncached ln home).Canonical := by
  unfold stampUncached
  exact canonical_sliceStamp (canonical_keepLeases (canonical_activate (canonical_recallLine h)))

theorem canonical_loadGlobal {s : State} {p : Place} {w n : ℕ} (h : s.Canonical) :
    (s.loadGlobal p w n).2.Canonical := by
  unfold loadGlobal
  refine canonical_ite_snd (canonical_sliceStamp (canonical_ite (canonical_demandBeat (canonical_activate
    (canonical_recallLine h))) (canonical_activate (canonical_recallLine h)))) ?_
  split
  · dsimp only
    exact canonical_count (canonical_setLt (canonical_ite (canonical_enterSpire (canonical_setSliceLine
      (canonical_sliceLine (canonical_recallLine h)))) (canonical_setSliceLine (canonical_sliceLine
      (canonical_recallLine h)))))
  · exact canonical_ite_snd (canonical_count (canonical_setLt (canonical_enterSpire h))) (canonical_ite_snd
      (canonical_count (canonical_setLt (canonical_enterSpire h))) (canonical_count (canonical_setLt (canonical_ite
      (canonical_enterSpire (canonical_setSliceLine (canonical_sliceLine (canonical_recallLine (canonical_count h)))))
      (canonical_setSliceLine (canonical_sliceLine (canonical_recallLine (canonical_count h))))))))

theorem canonical_slicedWrite {s : State} {home ln floor : ℕ} {first : Bool} (h : s.Canonical) :
    (s.slicedWrite home ln floor first).2.Canonical := by
  unfold slicedWrite
  dsimp only
  exact canonical_noteGlobal (canonical_setSliceLine (canonical_keepLeases (canonical_sliceLine
    (canonical_recallLine h))))

theorem canonical_takeLine {s : State} {p : Place} {me : ℕ} (h : s.Canonical) : (s.takeLine p me).Canonical := by
  unfold takeLine
  exact canonical_noteGlobal (canonical_setLt (canonical_enterSpire (canonical_keepLeases (canonical_sliceLine
    (canonical_recallLine h)))))

theorem canonical_ownLine {s : State} {p : Place} (h : s.Canonical) : (s.ownLine p).Canonical := by
  unfold ownLine
  dsimp only
  split
  · exact canonical_ite (canonical_noteGlobal (canonical_setLt (canonical_enterSpire (canonical_keepLeases h))))
      (canonical_takeLine h)
  · exact canonical_takeLine h

theorem canonical_stampGlobal {s : State} {p : Place} (h : s.Canonical) : (s.stampGlobal p).Canonical := by
  unfold stampGlobal
  exact canonical_ite (canonical_ownLine h) (canonical_ite (canonical_noteGlobal (canonical_stampUncached h))
    (canonical_setLt (canonical_slicedWrite h)))

/-! ## Core records of a save area (16_traps R319) -/

theorem canonical_putWords {s : State} {at_ : ℕ} {ws : List Word} (h : s.Canonical) :
    (s.putWords at_ ws).Canonical := by
  unfold putWords
  exact canonical_cleanRange (canonical_foldl h (fun _ _ ht => canonical_poke ht))

theorem canonical_refreshRecord {s : State} {at_ : ℕ} {k : Core} (h : s.Canonical) :
    (s.refreshRecord at_ k).Canonical := by
  unfold refreshRecord
  exact canonical_putWords (canonical_putWords (canonical_putWords h))

theorem canonical_onSavedCores {s : State} {r : ℕ} {test : Core → Bool} {f : Core → Core} (h : s.Canonical) :
    (s.onSavedCores r test f).Canonical := by
  unfold onSavedCores
  refine canonical_foldl h (fun t x ht => canonical_ite ?_ ht)
  refine canonical_foldl ?_ (fun _ _ hu => canonical_refreshRecord hu)
  exact ht

theorem canonical_machineCheck {s : State} {region : ℕ} {fatal : Bool} {what : Word} (h : s.Canonical) :
    (s.machineCheck region fatal what).Canonical := by
  unfold machineCheck
  exact canonical_onSavedCores h

/-! ## The accesses of a core -/

theorem canonical_acquireLanded {s : State} {loc n : ℕ} (h : s.Canonical) : (s.acquireLanded loc n).Canonical := by
  unfold acquireLanded
  dsimp only
  split
  · exact h
  · exact canonical_acquire (canonical_onCore h)

theorem canonical_loadAt {s : State} {p : Place} {w n : ℕ} (h : s.Canonical) : (s.loadAt p w n).2.Canonical := by
  unfold loadAt
  exact canonical_ite_snd (canonical_snd (canonical_acquireLanded h)) (canonical_ite_snd (canonical_snd
    (canonical_count (canonical_bankStamp h))) (canonical_ite_snd (canonical_snd (canonical_count
    (canonical_sliceStamp h))) (canonical_loadGlobal h)))

theorem canonical_storeWs {w : ℕ} {s : State} {loc n : ℕ} {x : BitVec w} (h : s.Canonical) :
    (s.storeWs loc n x).Canonical := by
  unfold storeWs
  exact canonical_ite (canonical_withMem (Mem.wf_store h _ _ _)) (canonical_withMem (Mem.wf_store h _ _ _))

theorem canonical_wipeSoft {s : State} {loc n : ℕ} (h : s.Canonical) : (s.wipeSoft loc n).Canonical := by
  unfold wipeSoft
  split
  · exact h
  · exact canonical_ite (canonical_onCore h) h

theorem canonical_storeAt {w : ℕ} {s : State} {p : Place} {n : ℕ} {x : BitVec w} (h : s.Canonical) :
    (s.storeAt p n x).Canonical := by
  unfold storeAt
  exact canonical_ite (canonical_storeWs (canonical_wipeSoft (canonical_acquireLanded h))) (canonical_ite
    (canonical_poke (canonical_count (canonical_bankStamp h))) (canonical_ite (canonical_poke (canonical_count
    (canonical_sliceStamp h))) (canonical_ite (canonical_machineCheck (canonical_postFault h)) (canonical_poke
    (canonical_stampGlobal h)))))

theorem canonical_stampScratch {s : State} {p : Place} (h : s.Canonical) : (s.stampScratch p).Canonical := by
  unfold stampScratch
  exact canonical_setLt (canonical_setSliceLine (canonical_setSliceAt h))

theorem canonical_stampAmo {s : State} {p : Place} (h : s.Canonical) : (s.stampAmo p).Canonical := by
  unfold stampAmo
  exact canonical_ite (canonical_count (canonical_count (canonical_bankStamp h))) (canonical_ite
    (canonical_stampScratch h) (canonical_ite (canonical_count (canonical_noteGlobal (canonical_ite
    (canonical_stampUncached h) (canonical_demandBeat (canonical_stampUncached h))))) (canonical_count
    (canonical_setLt (canonical_slicedWrite h)))))

/-! ## Handle tables (18_protection R345, R346) -/

theorem canonical_setPins {s : State} {entry n : ℕ} (h : s.Canonical) : (s.setPins entry n).Canonical := by
  unfold setPins
  exact canonical_poke h

theorem canonical_unpin {s : State} {entry : ℕ} (h : s.Canonical) : (s.unpin entry).Canonical := by
  unfold unpin
  exact canonical_setPins h

theorem canonical_handleGuard {s : State} {loc n : ℕ} {x : Word} :
    Chk.Keeps (fun _ => True) (s.handleGuard loc n x) := by
  unfold handleGuard
  split
  · exact trivial
  · exact Chk.keeps_ite (Chk.keeps_ite trivial trivial) trivial

/-! ## Fetch (01_encoding R18-R22, 05_memory_isa R135) -/

theorem canonical_fetchLine {s : State} {p : Place} (h : s.Canonical) : (s.fetchLine p).Canonical := by
  unfold fetchLine
  exact canonical_ite (canonical_ite (canonical_activate (canonical_recallLine h)) (canonical_demandBeat
    (canonical_activate (canonical_recallLine h)))) (canonical_ite h (canonical_sliceLine h))

theorem canonical_fetchBytes {s : State} {va : Word} (h : s.Canonical) : BlockKeeps (s.fetchBytes va) := by
  unfold fetchBytes
  split
  · split
    · next p u hplace =>
      have hu : u.Canonical := (canonical_translate h).of_some hplace
      split
      · exact canonical_machineCheck (canonical_postFault hu)
      · dsimp only
        split
        · split
          · exact canonical_fetchLine hu
          · exact canonical_fetchLine hu
        · split
          · exact hu
          · exact hu
    · exact h
  · exact h

theorem canonical_fetchAt {s : State} {stagger : Raw → Raw} {fuel : ℕ} {va : Word} (h : s.Canonical) :
    (s.fetchAt stagger fuel va).state.Canonical := by
  induction fuel generalizing s va with
  | zero => exact h
  | succ fuel ih =>
    have hb := canonical_fetchBytes (va := va) h
    unfold fetchAt
    split
    · exact h
    · split
      · next hs =>
        rw [hs] at hb
        exact hb
      · next hs =>
        rw [hs] at hb
        have hu : State.Canonical _ := hb
        dsimp only
        split
        · exact hu
        · split
          · exact ih hu
          · split
            · exact hu
            · exact hu

end Sys2Proof.Machine.State
end

section
/-!
PROOFS. That storage stays canonical: running one instruction, the integer instructions and the waits (01_encoding
R30, 02_scalar R44-R62).
-/

namespace Sys2Proof.Machine.State

open Sys2Proof

theorem canonical_raise {s : State} {f : Flags} (h : s.Canonical) : (s.raise f).Canonical := by
  unfold raise
  exact canonical_setWord h

theorem canonical_raisePlane {s : State} {p : ℕ} {f : Flags} (h : s.Canonical) : (s.raisePlane p f).Canonical := by
  unfold raisePlane
  exact canonical_setWord h

theorem canonical_raisePlanes {s : State} {p : ℕ} {fs : List Flags} (h : s.Canonical) :
    (s.raisePlanes p fs).Canonical := by
  induction fs generalizing s p with
  | nil => exact h
  | cons f fs ih => exact ih (canonical_raisePlane h)

theorem canonical_clearFlags {s : State} {mask : BitVec 8} (h : s.Canonical) : (s.clearFlags mask).Canonical := by
  unfold clearFlags
  exact canonical_setWord h

/-! ## Chains (02_scalar R72) -/

theorem canonical_decider {s : State} (h : s.Canonical) : s.decider.Canonical := by
  unfold decider
  exact canonical_ite h h

/-! ## Retiring -/

theorem canonical_retire {s : State} {size : Nat} (h : s.Canonical) : (s.retire size).Canonical := wf_retire h _

theorem canonical_retireAt {s : State} {t : Word} (h : s.Canonical) : (s.retireAt t).Canonical := by
  unfold retireAt
  exact canonical_onCore (canonical_count h)

theorem canonical_retireTo {s : State} {t : Word} (h : s.Canonical) : (s.retireTo t).Canonical := by
  unfold retireTo
  exact canonical_retireAt (canonical_count h)

theorem canonical_waitOn {s : State} {w : WaitCond} (h : s.Canonical) : (s.waitOn w).Canonical := by
  unfold waitOn
  exact canonical_onCore h

/-! ## The scoreboard of COPY tokens (05_memory_isa R150, 16_traps R315) -/

theorem canonical_acquireTokens {s : State} {i : Instr} (h : s.Canonical) : (s.acquireTokens i).Canonical := by
  unfold acquireTokens
  dsimp only
  split
  · exact h
  · exact canonical_acquire (canonical_onCore h)

theorem canonical_takeSoft {s : State} {x : ℕ × ℕ} (h : s.Canonical) : (s.takeSoft x).Canonical := by
  unfold takeSoft
  exact canonical_takeTrap (canonical_onCore h)

theorem canonical_wiped {s : State} {i : Instr} (h : s.Canonical) : (s.wiped i).Canonical := by
  unfold wiped
  split
  · exact h
  · exact canonical_onCore h

theorem canonical_raiseTrap {s : State} {t : Trap} (h : s.Canonical) : (s.raiseTrap t).Canonical := by
  unfold raiseTrap
  exact canonical_takeTrap h

theorem canonical_resNext {size : ℕ} {r : Res} (h : r.state.Canonical) : (r.next size).Canonical := by
  cases r with
  | done s => exact canonical_retire h
  | jump t s => exact canonical_retireTo h
  | goto t s => exact canonical_retireAt h
  | asIs s => exact h
  | trap t s => exact canonical_raiseTrap h
  | wait w s => exact canonical_waitOn h

theorem canonical_resWiped {i : Instr} {r : Res} (h : r.state.Canonical) : (r.wiped i).state.Canonical := by
  cases r with
  | done s => exact canonical_wiped h
  | jump t s => exact h
  | goto t s => exact h
  | asIs s => exact h
  | trap t s => exact h
  | wait w s => exact h

theorem keepsNext_instrIf {i : Instr} {g : Bool} {body : State → Res} {s : State} (h : s.Canonical)
    (hf : ∀ t, t.Canonical → (body t).state.Canonical) : KeepsNext (instrIf i g body s) := by
  refine keepsNext_powered (keepsNext_next ?_)
  split
  · exact canonical_raiseTrap h
  · split
    · exact canonical_waitOn h
    · split
      · exact canonical_takeSoft h
      · split
        · split
          · exact canonical_takeSoft h
          · exact canonical_resNext (canonical_resWiped (hf _ (canonical_acquireTokens h)))
        · exact canonical_retire (canonical_count h)

theorem keepsNext_instr {i : Instr} {g : Guard} {body : State → Res} {s : State}
    (hf : ∀ t : State, t.Canonical → (body t).state.Canonical) (h : s.Canonical) : KeepsNext (instr i g body s) := by
  unfold instr
  exact keepsNext_instrIf h (fun _ ht => hf _ ht)

theorem keepsNext_instrAll {i : Instr} {body : State → Res} {s : State}
    (hf : ∀ t : State, t.Canonical → (body t).state.Canonical) (h : s.Canonical) : KeepsNext (instrAll i body s) := by
  unfold instrAll
  exact keepsNext_instrIf h (fun _ ht => hf _ ht)

theorem keepsNext_event {f : State → State} {s : State} (hf : ∀ (a : State), a.Canonical → (f a).Canonical)
    (h : s.Canonical) : KeepsNext (event f s) := by
  unfold event
  exact keepsNext_powered (keepsNext_next (hf _ h))

/-! ## The shapes of the family -/

theorem keepsNext_scalarOp {i : Instr} {g : Guard} {d a : SReg} {b : OpB} {f : Word → Word → Word} {s : State}
    (h : s.Canonical) : KeepsNext (scalarOp i g d a b f s) := by
  unfold scalarOp
  exact keepsNext_instr (fun _ ht => canonical_setReg ht) h

theorem keepsNext_scalarUn {i : Instr} {g : Guard} {d a : SReg} {f : Word → Word} {s : State} (h : s.Canonical) :
    KeepsNext (scalarUn i g d a f s) := by
  unfold scalarUn
  exact keepsNext_instr (fun _ ht => canonical_setReg ht) h

theorem keepsNext_scalarCmp {i : Instr} {g : Guard} {d : PReg} {a : SReg} {b : OpB} {f : Word → Word → Bool}
    {s : State} (h : s.Canonical) : KeepsNext (scalarCmp i g d a b f s) := by
  unfold scalarCmp
  exact keepsNext_instr (fun _ ht => canonical_setPred ht) h

theorem keepsNext_predOp {i : Instr} {g : Guard} {d a b : PReg} {f : BitVec 32 → BitVec 32 → BitVec 32} {s : State}
    (h : s.Canonical) : KeepsNext (predOp i g d a b f s) := by
  unfold predOp
  exact keepsNext_instr (fun _ ht => canonical_setPred ht) h

/-! ## Special registers (02_scalar R44, R45) -/

theorem canonical_readTime {s : State} (h : s.Canonical) : s.readTime.2.Canonical := by
  unfold readTime
  dsimp only
  exact canonical_onCore (canonical_free h)

theorem canonical_readSpecial {s : State} {idx : BitVec 10} (h : s.Canonical) : (s.readSpecial idx).2.Canonical := by
  unfold readSpecial
  dsimp only
  refine canonical_ite_snd h (canonical_ite_snd (canonical_ite_snd (canonical_free h) h) ?_)
  refine canonical_ite_snd h (canonical_ite_snd h (canonical_ite_snd h (canonical_ite_snd (canonical_readTime h) ?_)))
  exact canonical_ite_snd h (canonical_ite_snd h (canonical_ite_snd h (canonical_ite_snd h h)))

theorem canonical_writeSpecial {s : State} {idx : BitVec 10} {x : Word} (h : s.Canonical) :
    (s.writeSpecial idx x).Canonical := by
  unfold writeSpecial
  exact canonical_setWord h

/-! ## Meanings -/

theorem keepsNext_execMtsWp {g : Guard} {a : SReg} {s : State} (h : s.Canonical) : KeepsNext (execMtsWp g a s) := by
  unfold execMtsWp
  refine keepsNext_instr (fun t ht => ?_) h
  refine Res.canonical_ite ht ?_
  refine Res.canonical_ite ht ?_
  exact Res.canonical_goto (canonical_onCore ht)

/-! ## Asynchronous traps (16_traps R313, R314) -/

theorem canonical_withdraw {s : State} {c : ℕ} (h : s.Canonical) : (s.withdraw c).Canonical := by
  unfold withdraw
  exact h

theorem canonical_takeAsync {s : State} (h : s.Canonical) : s.takeAsync.Canonical := by
  unfold takeAsync
  split
  · exact h
  · exact canonical_ite (canonical_onCore (canonical_kill (canonical_onCore (canonical_withdraw h))))
      (canonical_takeTrap (canonical_onCore (canonical_withdraw h)))

/-! ## The turns of a core (02_scalar R72, 16_traps R312, R316) -/

theorem canonical_setPc {s : State} {pc : Word} (h : s.Canonical) : (s.setPc pc).Canonical := by
  unfold setPc
  exact canonical_onCore h

theorem canonical_fetchNext {s : State} (h : s.Canonical) : s.fetchNext.state.Canonical := canonical_fetchAt h

theorem canonical_endLockstep {s : State} {l : ℕ} (h : s.Canonical) : (s.endLockstep l).Canonical := by
  unfold endLockstep
  exact canonical_ite (canonical_foldl h (fun _ _ ht => canonical_setCoreAt ht)) h

end Sys2Proof.Machine.State
end

section
/-!
PROOFS. That storage stays canonical: the accesses of an instruction, control transfers and the spill stack
(05_memory_isa R138, R139, 02_scalar R63-R83).
-/

namespace Sys2Proof.Machine.State

open Sys2Proof

/-! ## Loads -/

theorem canonical_noToken {s : State} {p : Place} {n : ℕ} : Chk.Keeps (fun _ => True) (s.noToken p n) := by
  unfold noToken
  refine Chk.keeps_ite ?_ trivial
  split
  · exact trivial
  · exact trivial

theorem canonical_checkLoads {s : State} {xs : List (Elem × Place)} :
    Chk.Keeps (fun _ => True) (s.checkLoads xs) := by
  induction xs with
  | nil => exact trivial
  | cons x xs ih =>
    unfold checkLoads
    split
    · next hw => exact canonical_noOverlap.of_error hw
    · split
      · next hw => exact canonical_noToken.of_error hw
      · exact ih

theorem canonical_readElems {s : State} {xs : List (Elem × Place)} (h : s.Canonical) :
    (s.readElems xs).2.2.Canonical := by
  induction xs generalizing s with
  | nil => exact h
  | cons x xs ih => exact ih (canonical_loadAt h)

theorem canonical_loadElems {s : State} {es : List Elem} (h : s.Canonical) :
    Chk.Keeps (fun x => x.2.Canonical) (s.loadElems es) := by
  unfold loadElems
  split
  · next he => exact (canonical_places h).of_error he
  · next s' hs =>
    have hs' : s'.Canonical := (canonical_places h).of_ok hs
    split
    · next hw => exact canonical_checkLoads.of_error hw
    · split
      · exact canonical_onCore hs'
      · dsimp only
        split
        · split
          · exact canonical_machineCheck (canonical_postFault (canonical_readElems hs'))
          · exact canonical_readElems hs'
        · exact canonical_readElems hs'

theorem canonical_coreLoad {s : State} {va : Word} {n : ℕ} (h : s.Canonical) :
    Chk.Keeps (fun x => x.2.Canonical) (s.coreLoad va n) := by
  unfold coreLoad
  split
  · next haligned => exact canonical_aligned.of_error haligned
  · split
    · next hloadelems => exact (canonical_loadElems h).of_error hloadelems
    · next hloadelems => exact canonical_snd ((canonical_loadElems h).of_ok hloadelems)

/-! ## Posted traffic (R139, R296) -/

theorem canonical_sendPort {s : State} {bytes : ℕ} {p : Packet} (h : s.Canonical) :
    (s.sendPort bytes p).Canonical := by
  unfold sendPort
  exact canonical_setSpireAt h

theorem canonical_setEntry {s : State} {k : ℕ} {e : JEntry} (h : s.Canonical) : (s.setEntry k e).Canonical := by
  unfold setEntry
  exact canonical_onCore h

theorem canonical_postStore {s : State} {op : BitVec 6} {ty : BitVec 4} {e : Elem} (h : s.Canonical) :
    (s.postStore op ty e).Canonical := by
  unfold postStore
  exact canonical_sendPort (canonical_setLt (canonical_setEntry h))

/-! ## Stores -/

theorem canonical_guardStores {s : State} {xs : List (Elem × Place)} :
    Chk.Keeps (fun _ => True) (s.guardStores xs) := by
  induction xs with
  | nil => exact trivial
  | cons x xs ih =>
    unfold guardStores
    split
    · next hw => exact canonical_noToken.of_error hw
    · split
      · next hw => exact canonical_portFree.of_error hw
      · split
        · next hw => exact canonical_handleGuard.of_error hw
        · split
          · exact trivial
          · next hw => exact ih.of_error hw

theorem canonical_writeElems {s : State} {xs : List (Elem × Place)} (h : s.Canonical) :
    (s.writeElems xs).Canonical := by
  induction xs generalizing s with
  | nil => exact h
  | cons x xs ih => exact ih (canonical_storeAt h)

theorem canonical_toStore {s : State} {es : List Elem} (h : s.Canonical) :
    Chk.Keeps (fun x => x.2.Canonical) (s.toStore es) := by
  unfold toStore
  split
  · next he => exact (canonical_places h).of_error he
  · next s' hs =>
    have hs' : s'.Canonical := (canonical_places h).of_ok hs
    split
    · next w hw =>
      have hk := canonical_guardStores.of_error hw
      split
      · exact canonical_count hs'
      · exact hs'
      · exact hk
    · exact hs'

theorem canonical_storeElems {s : State} {es : List Elem} {done : State → Res} (h : s.Canonical)
    (hd : ∀ t, t.Canonical → (done t).state.Canonical) : (s.storeElems es done).state.Canonical :=
  (canonical_toStore h).run h fun _ hx => hd _ (canonical_cleanSpans (canonical_writeElems hx))

theorem canonical_coreStore {s : State} {op : BitVec 6} {ty : BitVec 4} {e : Elem} {done : State → Res}
    (h : s.Canonical)
    (hd : ∀ t, t.Canonical → (done t).state.Canonical) : (s.coreStore op ty e done).state.Canonical := by
  unfold coreStore
  split
  · next hx => exact (canonical_aligned.of_error hx).res h
  · exact Res.canonical_ite (Res.canonical_ite h (hd _ (canonical_postStore h))) (canonical_storeElems h hd)

/-! ## Control transfers (02_scalar R72) -/

theorem keepsNext_control {i : Instr} {g : Guard} {write : State → State} {decide : State → Res} {s : State}
    (hf : ∀ (a : State), a.Canonical → (write a).Canonical) (hf1 : ∀ (a : State), a.Canonical →
    (decide a).state.Canonical) (h : s.Canonical) : KeepsNext (control i g write decide s) := by
  unfold control
  exact keepsNext_ite (keepsNext_powered (keepsNext_next h)) (keepsNext_instrIf h (fun _ ht => Res.canonical_ite
    (canonical_ite (hf _ ht) ht) (hf1 _ ht)))

theorem keepsNext_execBr {g : Guard} {off : Offset} {s : State} (h : s.Canonical) : KeepsNext (execBr g off s) := by
  unfold execBr
  exact keepsNext_control (fun _ ht => ht) (fun _ ht => ht) h

theorem keepsNext_execCall {g : Guard} {d : SReg} {off : Offset} {s : State} (h : s.Canonical) :
    KeepsNext (execCall g d off s) := by
  unfold execCall
  exact keepsNext_control (fun _ ht => canonical_setReg ht) (fun _ ht => canonical_setReg ht) h

theorem canonical_jumpTo {t : Word} {write : State → State} {s : State} (h : s.Canonical)
    (hw : ∀ t, t.Canonical → (write t).Canonical) : (jumpTo t write s).state.Canonical :=
  Res.canonical_ite h (hw s h)

theorem keepsNext_execJmp {g : Guard} {d a : SReg} {s : State} (h : s.Canonical) : KeepsNext (execJmp g d a s) := by
  unfold execJmp
  exact keepsNext_control (fun _ ht => canonical_setReg ht) (fun _ ht => canonical_jumpTo ht (fun _ ht' =>
    canonical_setReg ht')) h

theorem keepsNext_execRet {g : Guard} {a : SReg} {s : State} (h : s.Canonical) : KeepsNext (execRet g a s) := by
  unfold execRet
  exact keepsNext_control (fun _ ht => ht) (fun _ ht => canonical_jumpTo ht (fun _ ht' => ht')) h

theorem keepsNext_execBrx {g : Guard} {a b : SReg} {count : BitVec 16} {s : State} (h : s.Canonical) :
    KeepsNext (execBrx g a b count s) := by
  unfold execBrx
  exact keepsNext_control (fun _ ht => ht) (fun _ ht => Res.canonical_ite ht
    ((canonical_coreLoad ht).run ht fun _ hx => canonical_jumpTo hx (fun _ ht' => ht'))) h

theorem keepsNext_execLoop {g : Guard} {a : SReg} {off : BitVec 16} {s : State} (h : s.Canonical) :
    KeepsNext (execLoop g a off s) := by
  unfold execLoop
  exact keepsNext_control (fun _ ht => canonical_setReg ht) (fun _ ht => Res.canonical_ite (canonical_setReg ht)
    (canonical_setReg ht)) h

/-! ## Repetition (02_scalar R78-R81) -/

theorem canonical_scanBody {n : ℕ} {va : Word} {first : Option Word} {s : State} {x : Body × State} (h : s.Canonical)
    (hx : scanBody n va first s = .ok x) : x.2.Canonical := by
  induction n generalizing va first s with
  | zero =>
    unfold scanBody at hx
    cases hx
    exact h
  | succ n ih =>
    have hf := canonical_fetchAt (stagger := id) (fuel := 4194304) (va := va) h
    unfold scanBody at hx
    split at hx
    · cases hx
    · cases hx
    · next hi =>
      rw [hi] at hf
      split at hx
      · cases hx
      · exact ih hf hx

theorem keepsNext_execRep {a : SReg} {lenM1 : BitVec 4} {stride : BitVec 5} {mask : BitVec 4} {s : State}
    (h : s.Canonical) :
    KeepsNext (execRep a lenM1 stride mask s) := by
  unfold execRep
  refine keepsNext_ite (keepsNext_powered (keepsNext_next h)) (keepsNext_instrAll (fun t ht => ?_) h)
  split
  · exact ht
  · next hb =>
    have hu := canonical_scanBody ht hb
    exact Res.canonical_ite hu (Res.canonical_goto (canonical_setWord (canonical_setWord hu)))

/-! ## NOP, HINT, UNCHAIN (02_scalar R82, R83) -/

theorem keepsNext_execHint {g : Guard} {code : BitVec 16} {s : State} (h : s.Canonical) :
    KeepsNext (execHint g code s) := by
  unfold execHint
  refine keepsNext_instr (fun t ht => ?_) h
  exact Res.canonical_done (canonical_onCore ht)

theorem canonical_unchain {s : State} (h : s.Canonical) : s.unchain.Canonical := by
  unfold unchain
  exact canonical_onCore (canonical_foldl h (fun _ _ ht => canonical_setCoreAt ht))

/-! ## The spill stack (02_scalar R63-R65) -/

theorem canonical_rangeWrite {r : RegRange} {s : State} {k : ℕ} {x : Word} (h : s.Canonical) :
    (rangeWrite r s k x).Canonical := by
  unfold rangeWrite
  split
  · exact canonical_setReg h
  · exact canonical_setWord h

theorem canonical_cleanSector {s : State} {va : Word} (h : s.Canonical) : (s.cleanSector va).Canonical := by
  unfold cleanSector
  split
  · exact canonical_ite (canonical_clean h) h
  · exact h

theorem canonical_pushWords {r : RegRange} {base : Word} {ks : List ℕ} {s : State} (h : s.Canonical) :
    (pushWords r base ks s).state.Canonical := by
  induction ks generalizing s with
  | nil => exact h
  | cons k ks ih =>
    have he : (s.storeElems [pushElem r s base k] .done).state.Canonical := canonical_storeElems h fun _ ht => ht
    unfold pushWords
    split
    · next hs =>
      rw [hs] at he
      exact ih (canonical_ite (canonical_cleanSector he) he)
    · exact he

theorem canonical_popWords {r : RegRange} {base : Word} {ks : List ℕ} {s : State} {done : State → Res}
    (h : s.Canonical)
    (hd : ∀ t, t.Canonical → (done t).state.Canonical) : (popWords r base ks s done).state.Canonical := by
  induction ks generalizing s with
  | nil => exact hd s h
  | cons k ks ih => exact (canonical_coreLoad h).run h fun _ hx => ih (canonical_rangeWrite hx)

theorem keepsNext_execPushm {g : Guard} {r : RegRange} {s : State} (h : s.Canonical) :
    KeepsNext (execPushm g r s) := by
  unfold execPushm
  refine keepsNext_instr (fun t ht => ?_) h
  refine Res.canonical_ite ht (Res.canonical_ite ht ?_)
  split
  · exact ht
  · have hp : (pushWords r (t.word Ws.ssp - BitVec.ofNat 64 (8 * rangeWords r))
      (List.range (rangeWords r)) t).state.Canonical :=
      canonical_pushWords ht
    split
    · next hs =>
      rw [hs] at hp
      exact canonical_setWord hp
    · exact hp

theorem keepsNext_execPopm {g : Guard} {r : RegRange} {s : State} (h : s.Canonical) : KeepsNext (execPopm g r s) := by
  unfold execPopm
  refine keepsNext_instr (fun t ht => Res.canonical_ite ht (Res.canonical_ite ht ?_)) h
  split
  · exact ht
  · exact canonical_popWords ht (fun _ ht' => canonical_setWord ht')

end Sys2Proof.Machine.State
end

section
/-!
PROOFS. That storage stays canonical: the scalar floating-point instructions and the shapes of the vector instructions
(02_scalar R66-R71, 04_vector R108).
-/

namespace Sys2Proof.Machine.State

open Sys2Proof

theorem canonical_fpResult {s : State} {d : SReg} {r : ℕ × Flags} (h : s.Canonical) : (s.fpResult d r).Canonical := by
  unfold fpResult
  exact canonical_raise (canonical_setReg h)

theorem keepsNext_fpUn {i : Instr} {g : Guard} {t : Ty} {d a : SReg} {f : Fmt → ℕ → FpVal → ℕ × Flags} {s : State}
    (h : s.Canonical) : KeepsNext (fpUn i g t d a f s) := by
  unfold fpUn
  exact keepsNext_instr (fun _ ht => canonical_fpResult ht) h

theorem keepsNext_fpBin {i : Instr} {g : Guard} {t : Ty} {d a b : SReg} {f : Fmt → ℕ → FpVal → FpVal → ℕ × Flags}
    {s : State} (h : s.Canonical) : KeepsNext (fpBin i g t d a b f s) := by
  unfold fpBin
  exact keepsNext_instr (fun _ ht => canonical_fpResult ht) h

theorem keepsNext_fpFma {i : Instr} {g : Guard} {t : Ty} {d a b c : SReg} {na nc : Bool} {s : State} (h : s.Canonical)
    : KeepsNext (fpFma i g t d a b c na nc s) := by
  unfold fpFma
  exact keepsNext_instr (fun _ ht => canonical_fpResult ht) h

theorem keepsNext_fpSelect {i : Instr} {g : Guard} {t : Ty} {d a b : SReg} {greater : Bool} {s : State}
    (h : s.Canonical) : KeepsNext (fpSelect i g t d a b greater s) := by
  unfold fpSelect
  exact keepsNext_instr (fun _ ht => canonical_fpResult ht) h

theorem keepsNext_fpSign {i : Instr} {g : Guard} {t : Ty} {d a : SReg} {f : Fmt → ℕ → ℕ} {s : State} (h : s.Canonical)
    : KeepsNext (fpSign i g t d a f s) := by
  unfold fpSign
  exact keepsNext_instr (fun _ ht => canonical_setReg ht) h

theorem keepsNext_fpCmp {i : Instr} {g : Guard} {t : Ty} {d : PReg} {a b : SReg} {quiet : Bool}
    {f : FpVal → FpVal → Bool} {s : State} (h : s.Canonical) : KeepsNext (fpCmp i g t d a b quiet f s) := by
  unfold fpCmp
  exact keepsNext_instr (fun _ ht => canonical_raise (canonical_setPred ht)) h

theorem canonical_setGroup {s : State} {d : VReg} {xs : List VWord} (h : s.Canonical) :
    (s.setGroup d xs).Canonical := wf_setGroup h _ _

theorem canonical_writeLanes {s : State} {n : ℕ} {d : VReg} {count : ℕ} {res : List (Option (Jet × List Flags))}
    (h : s.Canonical) : (s.writeLanes n d count res).Canonical := by
  unfold writeLanes
  exact canonical_ite (canonical_setGroup h) (canonical_raisePlanes (canonical_setGroup h))

theorem canonical_vecWrite {s : State} {n : ℕ} {g : Guard} {d : VReg} {count : ℕ} {f : ℕ → Jet × List Flags}
    (h : s.Canonical) : (s.vecWrite n g d count f).Canonical := by
  unfold vecWrite
  exact canonical_writeLanes h

theorem keepsNext_vector {i : Instr} {body : State → State} {s : State}
    (hf : ∀ t : State, t.Canonical → (body t).Canonical) (h : s.Canonical) : KeepsNext (vector i body s) := by
  unfold vector
  exact keepsNext_instrAll (fun _ ht => canonical_count (hf _ ht)) h

end Sys2Proof.Machine.State
end

section
/-!
PROOFS. That storage stays canonical: loads, stores, atomics, reduce packets and cache hints (05_memory_isa
R141-R148).
-/

namespace Sys2Proof.Machine.State

open Sys2Proof

/-! ## Loads and stores (R141) -/

theorem canonical_putJetWords {d : VReg} {s : State} {xs : List ((ℕ × ℕ × Bool × Bool) × Word)} (h : s.Canonical) :
    (putJetWords d s xs).Canonical := by
  induction xs generalizing s with
  | nil => exact h
  | cons x xs ih => exact ih (canonical_setWord h)

/-! ## Gather and scatter (R143) -/

theorem canonical_putLane {s : State} {n : ℕ} {d : VReg} {l k : ℕ} {x : Word} (h : s.Canonical) :
    (putLane s n d l k x).Canonical := by
  unfold putLane
  exact canonical_withMem (Mem.wf_store h _ _ _)

/-! ## Atomics (R145, R147) -/

theorem canonical_atomApply {s : State} {loc : ℕ} {op : AtomOp} {t : Ty} {b c : Word} (h : s.Canonical) :
    (s.atomApply loc op t b c).2.Canonical := by
  unfold atomApply
  exact canonical_ite_snd h (canonical_ite (canonical_of_mem (by dsimp only; exact canonical_poke h))
    (canonical_poke h))

theorem canonical_atomPlace {s : State} {x : Word} {n : ℕ} {domeOnly : Bool} (h : s.Canonical) :
    Chk.Keeps (fun x => x.2.Canonical) (s.atomPlace x n domeOnly) := by
  unfold atomPlace
  split
  · next haligned => exact canonical_aligned.of_error haligned
  · refine Chk.keeps_ite trivial ?_
    split
    · exact trivial
    · next hplace =>
        split
        · exact trivial
        · split
          · next hnooverlap => exact canonical_noOverlap.of_error hnooverlap
          · exact canonical_snd ((canonical_place h).of_some hplace)

theorem canonical_amo {s : State} {op : AtomOp} {t : Ty} {x b c : Word} (h : s.Canonical) :
    Chk.Keeps (fun x => x.2.Canonical) (s.amo op t x b c) := by
  unfold amo
  dsimp only
  split
  · next hatomplace => exact (canonical_atomPlace h).of_error hatomplace
  · next hatomplace =>
      split
      · next hhandleguard => exact canonical_handleGuard.of_error hhandleguard
      · exact Chk.keeps_ite (canonical_machineCheck (canonical_postFault ((canonical_atomPlace h).of_ok hatomplace)))
          (Chk.keeps_ite (canonical_stampAmo ((canonical_atomPlace h).of_ok hatomplace)) (Chk.keeps_ite (canonical_snd
          (canonical_poke (canonical_stampAmo ((canonical_atomPlace h).of_ok hatomplace)))) (canonical_atomApply
          (canonical_stampAmo ((canonical_atomPlace h).of_ok hatomplace)))))

/-! ## Ordered streams (R146, 13_dome_memory R277) -/

theorem canonical_setStreams {s : State} {loc : ℕ} {xs : List (ℕ × BitVec 32)} (h : s.Canonical) :
    (s.setStreams loc xs).Canonical := by
  unfold setStreams
  exact canonical_setDomeAt h

theorem canonical_setHolds {s : State} {loc : ℕ} {xs : List HeldOp} (h : s.Canonical) :
    (s.setHolds loc xs).Canonical := by
  unfold setHolds
  exact canonical_setDomeAt h

theorem canonical_grantOnly {s : State} {loc port : ℕ} (h : s.Canonical) : (s.grantOnly loc port).Canonical := by
  unfold grantOnly
  exact canonical_countBy (canonical_setDomeAt h)

theorem canonical_advance {s : State} {h : HeldOp} (hs : s.Canonical) : (s.advance h).Canonical := by
  unfold advance
  exact canonical_ite (canonical_setStreams hs) (canonical_setHolds (canonical_setStreams hs))

theorem canonical_orderedArrive {s : State} {h : HeldOp} (hs : s.Canonical) : (s.orderedArrive h).Keeps := by
  unfold orderedArrive
  dsimp only
  split
  · exact trivial
  · split
    · split
      · exact trivial
      · exact canonical_advance (canonical_atomApply hs)
    · split
      · exact trivial
      · exact canonical_setHolds (canonical_ite (canonical_setStreams hs) hs)

/-! ## The shapes -/

theorem keepsNext_amoOp {i : Instr} {g : Guard} {t : Ty} {d a b : SReg} {c : Option SReg} {op : AtomOp} {s : State}
    (h : s.Canonical) : KeepsNext (amoOp i g t d a b c op s) := by
  unfold amoOp
  exact keepsNext_instr (fun _ ht => (canonical_amo ht).run ht fun _ hx => canonical_setReg hx) h

theorem canonical_redCheck {s : State} {x : Word} {n : ℕ} : Chk.Keeps (fun _ => True) (redCheck s x n) := by
  unfold redCheck
  split
  · next haligned => exact canonical_aligned.of_error haligned
  · refine Chk.keeps_ite trivial (Chk.keeps_ite trivial ?_)
    split
    · exact trivial
    · exact trivial

theorem canonical_sendRed {s : State} {op : BitVec 6} {t : Ty} {x : Word} {loc n : ℕ} {b : Word}
    {ord : Option (BitVec 32 × Bool)} (h : s.Canonical) : (sendRed s op t x loc n b ord).Canonical := by
  unfold sendRed
  refine canonical_sendPort ?_
  split
  · exact canonical_setEntry (canonical_setLt h)
  · exact canonical_onCore (canonical_setEntry (canonical_setEntry (canonical_setLt h)))

theorem keepsNext_redInstr {i : Instr} {g : Guard} {t : Ty} {a b : SReg} {op : BitVec 6}
    {ord : Option (SReg × BitVec 1)} {s : State} (h : s.Canonical) : KeepsNext (redInstr i g t a b op ord s) := by
  unfold redInstr
  exact keepsNext_instr (fun _ ht => canonical_redCheck.run ht fun _ _ => Res.canonical_ite ht
    (canonical_sendRed ht)) h

/-! ## Cache hints (R148) -/

theorem canonical_dropLine {s : State} {sp ln : ℕ} (h : s.Canonical) : (s.dropLine sp ln).Canonical := by
  unfold dropLine
  split
  · exact h
  · exact canonical_ite (canonical_count (canonical_returnLine h)) (canonical_returnLine h)

theorem canonical_prefetch {s : State} {va : Word} {level : ℕ} (h : s.Canonical) :
    (s.prefetch va level).Canonical := by
  unfold prefetch
  split
  · exact h
  · next hplace =>
      exact canonical_ite (canonical_ite (canonical_onCore (canonical_loadGlobal
        ((canonical_place h).of_some hplace))) (canonical_sliceLine ((canonical_place h).of_some hplace)))
        ((canonical_place h).of_some hplace)

theorem canonical_markFirst {s : State} {sp ln : ℕ} (h : s.Canonical) : (s.markFirst sp ln).Canonical := by
  unfold markFirst
  dsimp only
  split
  · exact h
  · exact canonical_setSpireAt h

theorem canonical_cacheHint {s : State} {va : Word} {hop : ℕ} (h : s.Canonical) : (s.cacheHint va hop).Canonical := by
  unfold cacheHint
  split
  · exact h
  · next hplace =>
      exact canonical_ite (canonical_ite (canonical_dropLine ((canonical_place h).of_some hplace))
        (canonical_markFirst ((canonical_place h).of_some hplace))) ((canonical_place h).of_some hplace)

/-! ## Meanings -/

theorem keepsNext_execVgather {g : Guard} {t : Ty} {d : VReg} {a : SReg} {b : VReg} {stride : BitVec 16} {s : State}
    (h : s.Canonical) : KeepsNext (execVgather g t d a b stride s) := by
  unfold execVgather
  refine keepsNext_instrAll (fun t' ht => ?_) h
  dsimp only
  split
  · exact ht
  · exact (canonical_loadElems ht).run ht fun _ hx => canonical_foldl hx (fun _ _ ht' => canonical_putLane ht')

theorem keepsNext_execVscatter {g : Guard} {t : Ty} {a : SReg} {b c : VReg} {stride : BitVec 16} {s : State}
    (h : s.Canonical) : KeepsNext (execVscatter g t a b c stride s) := by
  unfold execVscatter
  refine keepsNext_instrAll (fun t' ht => ?_) h
  dsimp only
  split
  · exact ht
  · exact canonical_storeElems ht (fun _ ht' => ht')

theorem keepsNext_execAmoFaddOrd {g : Guard} {t : Ty} {d a b c : SReg} {last : BitVec 1} {s : State} (h : s.Canonical)
    :
    KeepsNext (execAmoFaddOrd g t d a b c last s) := by
  unfold execAmoFaddOrd
  refine keepsNext_instr (fun u hu => Res.canonical_ite (Res.canonical_trap (canonical_onCore hu)) ?_) h
  split
  · exact Res.canonical_done (canonical_onCore (canonical_setReg hu))
  · refine (canonical_atomPlace hu).run hu fun x hx => Res.canonical_ite hx ?_
    dsimp only
    split
    · next hr =>
        exact Res.canonical_done (canonical_setReg (canonical_stampAmo ((canonical_orderedArrive hx).applied hr)))
    · next hr =>
        exact Res.canonical_wait (canonical_count (canonical_grantOnly ((canonical_orderedArrive hx).held hr)))
    · exact Res.canonical_trap (canonical_count (canonical_grantOnly hx))
    · exact Res.canonical_trap (canonical_stampAmo hx)

end Sys2Proof.Machine.State
end

section
/-!
PROOFS. That storage stays canonical: barriers, timelines, wakes, and the accesses of the engines (05_memory_isa
R152-R159, 15_consistency R298).
-/

namespace Sys2Proof.Machine.State

open Sys2Proof

/-! ## Barrier objects (R154, R155) -/

theorem canonical_barrierSlot {s : State} {slot : BitVec 8} : Chk.Keeps (fun _ => True) (s.barrierSlot slot) := by
  unfold barrierSlot
  exact Chk.keeps_ite trivial (Chk.keeps_ite trivial trivial)

theorem canonical_setBarrier {s : State} {d obj : ℕ} {o : BObj} (h : s.Canonical) :
    (s.setBarrier d obj o).Canonical := by
  unfold setBarrier
  exact canonical_setDomeAt h

theorem canonical_evaluate {s : State} {d obj : ℕ} (h : s.Canonical) : (s.evaluate d obj).Canonical := by
  unfold evaluate
  exact canonical_ite h (canonical_of_mem (by dsimp only; exact canonical_setBarrier h))

theorem canonical_endBstat {s : State} {x : ℕ × SReg × ℕ × ℕ} (h : s.Canonical) : (s.endBstat x).Canonical := by
  unfold endBstat
  exact canonical_of_mem (by dsimp only; exact canonical_setReg h)

theorem canonical_endCycle {s : State} (h : s.Canonical) : s.endCycle.Canonical := by
  unfold endCycle
  exact canonical_foldl (by exact canonical_of_mem (by dsimp only; exact canonical_foldl (by exact h) (fun _ _ ht =>
    canonical_evaluate ht))) (fun _ _ ht => canonical_endBstat ht)

theorem canonical_settleObjects {s : State} {mine : ℕ × ℕ → Bool} (h : s.Canonical) :
    (s.settleObjects mine).Canonical := by
  unfold settleObjects
  exact canonical_foldl (by exact canonical_of_mem (by dsimp only; exact canonical_foldl (by exact h) (fun _ _ ht =>
    canonical_evaluate ht))) (fun _ _ ht => canonical_endBstat ht)

theorem canonical_dropBstats {s : State} {mine : ℕ → Bool} (h : s.Canonical) : (s.dropBstats mine).Canonical := by
  unfold dropBstats
  exact h

theorem canonical_tick {s : State} {dt : ℕ} (h : s.Canonical) : (s.tick dt).Canonical := by
  unfold tick
  exact canonical_ite h (canonical_of_mem (by dsimp only; exact canonical_endCycle h))

theorem canonical_applyAt {s : State} {d obj : ℕ} {f : BObj → BObj} (h : s.Canonical) :
    (s.applyAt d obj f).Canonical := by
  unfold applyAt
  exact canonical_of_mem (by dsimp only; exact canonical_setBarrier h)

theorem canonical_arrive {s : State} {d obj : ℕ} (h : s.Canonical) : (s.arrive d obj).Canonical := by
  unfold arrive
  exact canonical_applyAt h

theorem canonical_arriveWait {s : State} {slot : BitVec 8} {rechain : Bool} {finish : ℕ → ℕ → Bool → State → Res}
    (h : s.Canonical)
    (hf : ∀ {d o phase t}, t.Canonical →
      (finish d o phase t).state.Canonical) : (s.arriveWait slot rechain finish).state.Canonical := by
  refine canonical_barrierSlot.run h fun x _ => ?_
  dsimp only
  split
  · exact Res.canonical_ite (hf (canonical_onCore (canonical_acquire h))) h
  · have ha := canonical_onCore (f := fun k =>
      { k with bsync := s.arrival x.2 rechain (s.barrierAt x.1 x.2).phase :: k.bsync })
      (canonical_arrive (d := x.1) (obj := x.2) h)
    exact Res.canonical_ite h (Res.canonical_ite (hf (canonical_onCore (canonical_acquire ha))) ha)

/-! ## RECHAIN (02_scalar R84) -/

theorem canonical_rechainAll {s : State} {d o : ℕ} {phase : Bool} (h : s.Canonical) :
    (s.rechainAll d o phase).Canonical := by
  unfold rechainAll
  exact canonical_foldl h (fun _ _ ht => canonical_ite (canonical_countFor (canonical_setCoreAt ht)) ht)

/-! ## Timelines (R152, R153) -/

theorem canonical_onTimeline {s : State} {graver : Bool} {sp n : ℕ} {f : Timeline → Timeline} (h : s.Canonical) :
    (s.onTimeline graver sp n f).Canonical := by
  unfold onTimeline
  exact canonical_ite (canonical_setSpireAt h) (canonical_setSpireAt h)

/-! ## Meanings -/

theorem keepsNext_execBsync {g : Guard} {slot : BitVec 8} {s : State} (h : s.Canonical) :
    KeepsNext (execBsync g slot s) := by
  unfold execBsync
  exact keepsNext_instr (fun _ ht => canonical_arriveWait ht fun hu => hu) h

theorem keepsNext_execBstat {g : Guard} {d : SReg} {slot : BitVec 8} {s : State} (h : s.Canonical) :
    KeepsNext (execBstat g d slot s) := by
  unfold execBstat
  exact keepsNext_instr (fun _ ht => canonical_barrierSlot.run ht fun _ _ => canonical_of_mem
    (by dsimp only; exact canonical_setReg ht)) h

theorem keepsNext_execRechain {slot : BitVec 8} {s : State} (h : s.Canonical) : KeepsNext (execRechain slot s) := by
  unfold execRechain
  exact keepsNext_instrAll (fun _ ht => canonical_arriveWait ht fun hu => canonical_rechainAll hu) h

theorem keepsNext_execTlwait {g : Guard} {a : BitVec 3} {b : OpB} {s : State} (h : s.Canonical) :
    KeepsNext (execTlwait g a b s) := by
  unfold execTlwait
  refine keepsNext_instr (fun t ht => ?_) h
  split
  · exact ht
  · exact Res.canonical_ite (canonical_acquire ht) ht

theorem keepsNext_execTlread {g : Guard} {d : SReg} {a : BitVec 3} {wide : Bool} {selr : BitVec 2} {s : State}
    (h : s.Canonical) : KeepsNext (execTlread g d a wide selr s) := by
  unfold execTlread
  refine keepsNext_instr (fun t ht => ?_) h
  split
  · exact ht
  · split
    · exact canonical_setReg ht
    · exact canonical_setReg ht
    · exact canonical_setReg ht
    · exact canonical_setReg (canonical_onTimeline ht)

theorem canonical_postWake {s : State} {target : ℕ} {mask : Word} {notify : Bool} (h : s.Canonical) :
    (s.postWake target mask notify).Canonical := by
  unfold postWake
  exact canonical_sendPort (canonical_setLt (canonical_setEntry h))

/-! ## Engine traffic (R298) -/

theorem canonical_recallOwn {s : State} {region ln : ℕ} (h : s.Canonical) : (s.recallOwn region ln).Canonical := by
  unfold recallOwn
  split
  · exact canonical_ite (canonical_recallLine h) h
  · exact h

theorem canonical_leaseTo {s : State} {sp lt ln : ℕ} (h : s.Canonical) : (s.leaseTo sp lt ln).Canonical := by
  unfold leaseTo
  split
  · exact h
  · exact canonical_enterSpire (canonical_setSliceLine h)

theorem canonical_engineRead {s : State} {region : ℕ} {via : Option (ℕ × ℕ)} {home kind w loc n : ℕ} (h : s.Canonical)
    : (s.engineRead region via home kind w loc n).2.Canonical := by
  unfold engineRead
  refine canonical_ite_snd ?_ h
  split
  · exact h
  · refine canonical_ite_snd (canonical_ite (canonical_activate (canonical_recallOwn h)) (canonical_demandBeat
      (canonical_activate (canonical_recallOwn h)))) ?_
    dsimp only
    split
    · exact canonical_ite (canonical_leaseTo (canonical_sliceLine (canonical_recallOwn h))) (canonical_sliceLine
        (canonical_recallOwn h))
    · exact canonical_sliceLine (canonical_recallOwn h)

theorem canonical_engineBank {s : State} {loc port : ℕ} (h : s.Canonical) : (s.engineBank loc port).2.Canonical := by
  unfold engineBank
  dsimp only
  exact canonical_countBy (canonical_setDomeAt h)

theorem canonical_engineSlice {s : State} {loc : ℕ} (h : s.Canonical) : (s.engineSlice loc).2.Canonical := by
  unfold engineSlice
  dsimp only
  exact canonical_setSliceAt h

theorem canonical_pokeKept {w : ℕ} {s : State} {loc n : ℕ} {x : BitVec w} (h : s.Canonical) :
    (s.pokeKept loc n x).Canonical := by
  unfold pokeKept
  exact canonical_foldl (canonical_poke h) (fun _ _ ht => canonical_ite (canonical_setPins ht) ht)

theorem canonical_engineUncached {s : State} {home ln : ℕ} (h : s.Canonical) :
    (s.engineUncached home ln).2.Canonical := by
  unfold engineUncached
  dsimp only
  exact canonical_noteGlobal (canonical_setSliceAt (canonical_keepLeases (canonical_activate
    (canonical_recallLine h))))

theorem canonical_engineWrite {w : ℕ} {s : State} {home kind loc n port : ℕ} {x : BitVec w} (h : s.Canonical) :
    (s.engineWrite home kind loc n port x).2.Canonical := by
  unfold engineWrite
  dsimp only
  exact canonical_pokeKept (canonical_ite_snd (canonical_engineBank h) (canonical_ite_snd (canonical_engineSlice h)
    (canonical_ite_snd (canonical_engineUncached h) (canonical_slicedWrite h))))

theorem canonical_engineOutside {s : State} {region loc : ℕ} (h : s.Canonical) :
    (s.engineOutside region loc).Canonical := by
  unfold engineOutside
  exact canonical_machineCheck (canonical_postFault h)

/-! ## Handle checks -/

theorem canonical_handleAccess {s : State} {entry : ℕ} (h : s.Canonical) : (s.handleAccess entry).Canonical := by
  unfold handleAccess
  exact canonical_count (canonical_ite (canonical_demandBeat (canonical_stampUncached h)) (canonical_stampUncached h))

theorem canonical_pin {s : State} {entry : ℕ} (h : s.Canonical) : (s.pin entry).Canonical := by
  unfold pin
  exact canonical_setPins h

theorem canonical_checkHandle {s : State} {tenant : ℕ} {h : BitVec 32} {stale : Trap} (hs : s.Canonical) :
    Chk.Keeps (fun x => x.2.Canonical) (s.checkHandle tenant h stale) := by
  unfold checkHandle
  dsimp only
  split
  · exact canonical_count (canonical_handleAccess hs)
  · exact Chk.keeps_ite trivial (canonical_snd (canonical_handleAccess hs))

theorem canonical_unpinAll {s : State} {pins : List ℕ} (h : s.Canonical) : (s.unpinAll pins).Canonical := by
  unfold unpinAll
  exact canonical_foldl h (fun _ _ ht => canonical_unpin ht)

end Sys2Proof.Machine.State
end

section
/-!
PROOFS. That storage stays canonical: logical cores, and the acceptance of matrix instructions (06_matrix_isa
R168-R188).
-/

namespace Sys2Proof.Machine.State

open Sys2Proof

/-! ## Where a region is -/

theorem canonical_onSaved {s : State} {r : ℕ} {f : Saved → Saved} (h : s.Canonical) : (s.onSaved r f).Canonical := by
  unfold onSaved
  exact h

theorem canonical_onSavedWs {s : State} {r : ℕ} {lc : BitVec 32} {m : ℕ → List Host.Cell → List Host.Cell}
    (h : s.Canonical) : (s.onSavedWs r lc m).Canonical := by
  unfold onSavedWs
  exact canonical_onSaved h

theorem canonical_onLogical {s : State} {r : ℕ} {lc : BitVec 32} {f : Core → Core} (h : s.Canonical) :
    (s.onLogical r lc f).Canonical := by
  unfold onLogical
  split
  · exact canonical_setCoreAt h
  · exact canonical_onSavedCores h

theorem canonical_wsPoke {w : ℕ} {s : State} {r : ℕ} {lc : BitVec 32} {off n : ℕ} {x : BitVec w} (h : s.Canonical) :
    (s.wsPoke r lc off n x).Canonical := by
  unfold wsPoke
  split
  · exact canonical_withMem (Mem.wf_store h _ _ _)
  · exact canonical_onSavedWs h

theorem canonical_onCopyCtx {s : State} {r ls n : ℕ} {f : Timeline → Timeline} (h : s.Canonical) :
    (s.onCopyCtx r ls n f).Canonical := by
  unfold onCopyCtx
  split
  · exact canonical_onSaved h
  · split
    · exact canonical_onTimeline h
    · exact h

theorem canonical_onBarrier {s : State} {r ld idx : ℕ} {f : BObj → BObj} (h : s.Canonical) :
    (s.onBarrier r ld idx f).Canonical := by
  unfold onBarrier
  split
  · exact canonical_onSaved h
  · exact canonical_setBarrier h

theorem canonical_settleBytes {s : State} {r : ℕ} {bar : ℕ × ℕ} {n code ts : ℕ} (h : s.Canonical) :
    (s.settleBytes r bar n code ts).Canonical := by
  unfold settleBytes
  split
  · exact canonical_onBarrier h
  · exact canonical_applyAt h

/-! ## The current core's Graver -/

theorem canonical_setGraverAt {s : State} {sp : ℕ} {g : Graver} (h : s.Canonical) :
    (s.setGraverAt sp g).Canonical := by
  unfold setGraverAt
  exact canonical_setSpireAt h

theorem canonical_setGraver {s : State} {g : Graver} (h : s.Canonical) : (s.setGraver g).Canonical := by
  unfold setGraver
  exact canonical_setGraverAt h

theorem canonical_setQctx {s : State} {q : ℕ} {c : QCtx} (h : s.Canonical) : (s.setQctx q c).Canonical := by
  unfold setQctx
  exact canonical_setGraver h

theorem canonical_setShape {s : State} {q n : ℕ} {x : BitVec 512} (h : s.Canonical) :
    (s.setShape q n x).Canonical := by
  unfold setShape
  exact canonical_setQctx h

/-! ## Which operation starts next (R257-R259) -/

theorem canonical_noteStallAt {s : State} {sp busy : ℕ} (h : s.Canonical) : (s.noteStallAt sp busy).Canonical := by
  unfold noteStallAt
  exact canonical_setGraverAt h

/-! ## The checks of R168 -/

theorem canonical_checkSlots {s : State} {ns : List ℕ} : Chk.Keeps (fun _ => True) (s.checkSlots ns) := by
  unfold checkSlots
  split
  · exact trivial
  · exact trivial

theorem canonical_checkSoft {s : State} {ns : List ℕ} (h : s.Canonical) :
    Chk.Keeps (fun _ => True) (s.checkSoft ns) := by
  unfold checkSoft
  split
  · exact trivial
  · exact canonical_setGraver h

theorem canonical_checkProtected {s : State} {ts : List ℕ} : Chk.Keeps (fun _ => True) (s.checkProtected ts) := by
  unfold checkProtected
  split
  · exact trivial
  · exact trivial

theorem canonical_checkPoison {s : State} {ts : List ℕ} : Chk.Keeps (fun _ => True) (s.checkPoison ts) := by
  unfold checkPoison
  split
  · exact trivial
  · exact trivial

theorem canonical_captureShape {s : State} {x : BitVec 512} (h : s.Canonical) :
    Chk.Keeps (fun x => x.2.2.Canonical) (s.captureShape x) := by
  unfold captureShape
  refine Chk.keeps_ite ?_ h
  split
  · next hcheckhandle => exact (canonical_checkHandle h).of_ok hcheckhandle
  · next hcheckhandle => exact (canonical_checkHandle h).of_error hcheckhandle

theorem canonical_reach {s : State} {acc : Acc} {handle : Option ℕ} {a : ℕ} {phys : Bool} (h : s.Canonical) :
    KeepsSome (fun x => x.2.Canonical) (s.reach acc handle a phys) := by
  unfold reach
  refine keepsSome_ite ?_ ?_
  · split
    · exact trivial
    · exact keepsSome_ite h trivial
  · split
    · exact trivial
    · next houter => exact canonical_snd ((canonical_outer h).of_some houter)

theorem canonical_reachAll {acc : Acc} {handle : Option ℕ} {bs : List (ℕ × Bool)} {r : Reached} (h : r.st.Canonical) :
    (reachAll acc handle bs r).st.Canonical := by
  unfold reachAll
  refine List.foldlRecOn (motive := fun r : Reached => r.st.Canonical) bs _ h fun r hr b _ => ?_
  have hite (b : Prop) [Decidable b]
    (f : Option (ℕ × BitVec 8)) : (if b then { r with fail := f } else r).st.Canonical := by
    split
    · exact hr
    · exact hr
  dsimp only
  split
  · next hp => exact (canonical_reach hr).of_some hp
  · exact hite _ _

theorem canonical_check {r : Reached} (h : r.st.Canonical) : Chk.Keeps (fun x => x.2.Canonical) r.check := by
  unfold Reached.check
  split
  · exact h
  · exact h

/-! ## Acceptance (R167, 11_matrix_engine R256) -/

theorem canonical_submit {s : State} {q : ℕ} {op : GOp} {after : List (ℕ × ℕ)} {pages : List GPage}
    {handles : List (Option ℕ)} {orgs : optParam (List ℕ) []} (h : s.Canonical) :
    (s.submit q op after pages handles orgs).2.Canonical := by
  unfold submit
  dsimp only
  exact canonical_noteStallAt (canonical_onCore (canonical_setQctx (canonical_foldl h (fun _ _ ht =>
    canonical_pin ht))))

theorem canonical_tagSlots {s : State} {ns : List ℕ} {x : BitVec 512} (h : s.Canonical) :
    (s.tagSlots ns x).Canonical := by
  unfold tagSlots
  exact canonical_setGraver h

theorem canonical_numbered {d : SReg} {r : ℕ × State} (h : r.2.Canonical) : (numbered d r).state.Canonical := by
  unfold numbered
  exact canonical_setReg h

theorem keepsNext_matrix {i : Instr} {g : Guard} {q : ℕ} {body : State → Res} {s : State}
    (hf : ∀ t : State, t.Canonical → (body t).state.Canonical) (h : s.Canonical) : KeepsNext
    (matrix i g q body s) := by
  unfold matrix
  exact keepsNext_instr (fun _ ht => Res.canonical_ite (hf _ (canonical_count (canonical_setGraver ht))) ht) h

/-! ## Shape instructions (R173) -/

theorem keepsNext_execMshl {g : Guard} {d : BitVec 4} {a : SReg} {q : BitVec 2} {s : State} (h : s.Canonical) :
    KeepsNext (execMshl g d a q s) := by
  unfold execMshl
  exact keepsNext_matrix (fun _ ht => Res.canonical_ite ht ((canonical_loadElems ht).run ht fun _ hx =>
    Res.canonical_ite (canonical_setShape hx) (canonical_res_shapeStop hx))) h

theorem keepsNext_execMshf {g : Guard} {d : BitVec 4} {a : SReg} {field : BitVec 5} {q : BitVec 2} {s : State}
    (h : s.Canonical) : KeepsNext (execMshf g d a field q s) := by
  unfold execMshf
  exact keepsNext_matrix (fun _ ht => Res.canonical_ite (canonical_res_shapeStop ht) (Res.canonical_ite
    (canonical_res_shapeStop ht) (canonical_setShape ht))) h

theorem keepsNext_execMshs {g : Guard} {a : SReg} {b : BitVec 4} {q : BitVec 2} {s : State} (h : s.Canonical) :
    KeepsNext (execMshs g a b q s) := by
  unfold execMshs
  exact keepsNext_matrix (fun _ ht => Res.canonical_ite ht (canonical_storeElems ht (fun _ ht' => ht'))) h

/-! ## Slots (R175) -/

theorem keepsNext_execMclaim {g : Guard} {d : SReg} {countM1 : BitVec 7} {log2a : BitVec 3} {s : State}
    (h : s.Canonical) : KeepsNext (execMclaim g d countM1 log2a s) := by
  unfold execMclaim
  refine keepsNext_matrix (fun t ht => ?_) h
  dsimp only
  split
  · exact canonical_setReg ht
  · exact canonical_setReg (canonical_setGraver ht)

theorem keepsNext_execMrel {g : Guard} {a : SReg} {countM1 : BitVec 7} {s : State} (h : s.Canonical) :
    KeepsNext (execMrel g a countM1 s) := by
  unfold execMrel
  refine keepsNext_matrix (fun t ht => ?_) h
  dsimp only
  split
  · exact ht
  · exact canonical_setGraver ht

/-! ## Loads (R176, R177) -/

theorem canonical_useShape {x : BitVec 512} {n : ℕ} : Chk.Keeps (fun _ => True) (useShape x n) := by
  unfold useShape
  exact canonical_rule

theorem canonical_acceptLoad {s : State} {d : SReg} {n slot q : ℕ} {tr scaled : Bool} (h : s.Canonical) :
    Chk.Keeps (fun x => x.state.Canonical) (acceptLoad s d n slot q tr scaled) := by
  unfold acceptLoad
  exact canonical_checkSlots.bind fun _ hx => canonical_useShape.bind fun _ hx => canonical_rule.bind fun _ hx =>
    canonical_rule.bind fun _ hx => canonical_rule.bind fun _ hx => (canonical_captureShape h).bind fun _ hx =>
    (canonical_check (canonical_reachAll hx)).bind fun _ hx' => canonical_numbered (canonical_snd (canonical_tagSlots
    (canonical_submit hx')))

theorem keepsNext_execMld {g : Guard} {d : SReg} {a : BitVec 4} {slot : BitVec 7} {tr : BitVec 1} {q : BitVec 2}
    {s : State} (h : s.Canonical) : KeepsNext (execMld g d a slot tr q s) := by
  unfold execMld
  exact keepsNext_matrix (fun _ ht => canonical_accepted (canonical_acceptLoad ht) ht) h

theorem keepsNext_execMldx {g : Guard} {d : SReg} {a : BitVec 4} {slot : BitVec 7} {tr : BitVec 1} {q : BitVec 2}
    {s : State} (h : s.Canonical) : KeepsNext (execMldx g d a slot tr q s) := by
  unfold execMldx
  exact keepsNext_matrix (fun _ ht => canonical_accepted (canonical_acceptLoad ht) ht) h

/-! ## Multiply-accumulate (R178, R179, R182) -/

theorem canonical_acceptMma {s : State} {spec : Bool} {d a b q : ℕ} {c : SReg} (h : s.Canonical) :
    Chk.Keeps (fun x => x.state.Canonical) (acceptMma s spec d a b q c) := by
  unfold acceptMma
  exact canonical_checkSlots.bind fun _ _ => canonical_rule.bind fun _ _ => canonical_rule.bind fun _ _ =>
    canonical_rule.bind fun _ _ => canonical_rule.bind fun _ _ => canonical_rule.bind fun _ _ =>
    (canonical_checkSoft h).bind fun _ _ => Chk.keeps_ite (canonical_rule.bind fun _ _ =>
    canonical_rule.bind fun _ _ => canonical_submit h) (canonical_checkProtected.bind fun _ _ => canonical_submit h)

theorem keepsNext_execMma {g : Guard} {d : BitVec 3} {c : SReg} {slotA slotB : BitVec 7} {q : BitVec 2} {s : State}
    (h : s.Canonical) : KeepsNext (execMma g d c slotA slotB q s) := by
  unfold execMma
  exact keepsNext_matrix (fun _ ht => canonical_accepted (canonical_acceptMma ht) ht) h

theorem keepsNext_execMmaS {g : Guard} {d : BitVec 3} {c : SReg} {slotA slotB : BitVec 7} {q : BitVec 2} {s : State}
    (h : s.Canonical) : KeepsNext (execMmaS g d c slotA slotB q s) := by
  unfold execMmaS
  exact keepsNext_matrix (fun _ ht => canonical_accepted (canonical_acceptMma ht) ht) h

/-! ## Moves and stores (R180, R181) -/

theorem keepsNext_execMzero {g : Guard} {d : BitVec 3} {q : BitVec 2} {s : State} (h : s.Canonical) :
    KeepsNext (execMzero g d q s) := by
  unfold execMzero
  exact keepsNext_matrix (fun _ ht => canonical_checkProtected.run ht fun _ _ => canonical_submit ht) h

theorem keepsNext_awaited {i : Instr} {g : Guard} {q : BitVec 2} {accept : State → Chk (ℕ × State)}
    {finish : GResult → State → Res}
    {s : State} (ha : ∀ t, t.Canonical → Chk.Keeps (fun x => x.2.Canonical) (accept t))
    (hf : ∀ r t, t.Canonical → (finish r t).state.Canonical) (h : s.Canonical) : KeepsNext
      (awaited i g q accept finish s) := by
  unfold awaited
  refine keepsNext_instr (fun t ht => ?_) h
  split
  · split
    · exact hf _ _ (canonical_onCore ht)
    · exact ht
  · have hs : ((t.setGraver { t.graver with portLast := coreInSpire t.cur, acceptAt := some t.clock }).count 5
      1).Canonical :=
      canonical_count (canonical_setGraver ht)
    refine Res.canonical_ite ?_ ht
    exact (ha _ hs).run hs fun _ hx => Res.canonical_wait (canonical_onCore hx)

theorem keepsNext_execMmov {g : Guard} {d : VReg} {a : BitVec 3} {row : BitVec 4} {sh intf : BitVec 1} {q : BitVec 2}
    {s : State}
    (h : s.Canonical) : KeepsNext (execMmov g d a row sh intf q s) := by
  unfold execMmov
  refine keepsNext_awaited (fun t ht => ?_) (fun r t ht => ?_) h
  · exact canonical_checkPoison.bind fun _ _ => canonical_submit ht
  · split
    · exact Res.canonical_done (canonical_setGroup ht)
    · exact Res.canonical_trap ht
    · exact Res.canonical_done ht

theorem keepsNext_execMmovr {g : Guard} {d : BitVec 3} {a : VReg} {row : BitVec 4} {q : BitVec 2} {s : State}
    (h : s.Canonical) : KeepsNext (execMmovr g d a row q s) := by
  unfold execMmovr
  exact keepsNext_matrix (fun _ ht => canonical_checkProtected.run ht fun _ _ => canonical_submit ht) h

theorem canonical_acceptStore {s : State} {d : SReg} {n b q : ℕ} {c : SReg} {sc : ℕ} {cplx : Bool} (h : s.Canonical) :
    Chk.Keeps (fun x => x.state.Canonical) (acceptStore s d n b q c sc cplx) := by
  unfold acceptStore
  refine canonical_useShape.bind fun _ _ => canonical_rule.bind fun _ _ => canonical_rule.bind fun _ _ => ?_
  refine canonical_rule.bind fun _ _ => canonical_rule.bind fun _ _ => (canonical_captureShape h).bind fun x hx => ?_
  refine (canonical_check (canonical_reachAll hx)).bind fun y hy => ?_
  exact (canonical_checkPoison.after hy).bind fun _ _ => canonical_numbered (canonical_submit hy)

theorem keepsNext_execMst {g : Guard} {d : SReg} {a : BitVec 4} {b : BitVec 3} {c : SReg} {sc : BitVec 4}
    {cplx : BitVec 1} {q : BitVec 2} {s : State} (h : s.Canonical) : KeepsNext (execMst g d a b c sc cplx q s) := by
  unfold execMst
  exact keepsNext_matrix (fun _ ht => canonical_accepted (canonical_acceptStore ht) ht) h

/-! ## Speculation (R182): OPEN and SEL take the order of acceptance -/

theorem keepsNext_execMspec {g : Guard} {mask : BitVec 8} {q : BitVec 2} {s : State} (h : s.Canonical) :
    KeepsNext (execMspec g mask q s) := by
  unfold execMspec
  refine keepsNext_matrix (fun t ht => Res.canonical_ite (canonical_res_shapeStop ht) ?_) h
  split
  · exact canonical_res_shapeStop ht
  · exact canonical_setQctx (canonical_submit ht)

theorem keepsNext_resolve {i : Instr} {g : Guard} {q : BitVec 2} {commit : State → Bool} {s : State} (h : s.Canonical)
    : KeepsNext (resolve i g q commit s) := by
  unfold resolve
  exact keepsNext_matrix (fun _ ht => Res.canonical_ite (canonical_setQctx (canonical_submit ht))
    (canonical_res_shapeStop ht)) h

theorem keepsNext_execMresolve {g : Guard} {c : PReg} {q : BitVec 2} {s : State} (h : s.Canonical) :
    KeepsNext (execMresolve g c q s) := by
  unfold execMresolve
  exact keepsNext_resolve h

theorem keepsNext_execMcommit {g : Guard} {q : BitVec 2} {s : State} (h : s.Canonical) :
    KeepsNext (execMcommit g q s) := by
  unfold execMcommit
  exact keepsNext_resolve h

theorem keepsNext_execMdiscard {g : Guard} {q : BitVec 2} {s : State} (h : s.Canonical) :
    KeepsNext (execMdiscard g q s) := by
  unfold execMdiscard
  exact keepsNext_resolve h

/-! ## TGEMM (R183) -/

theorem canonical_pinsFit {s : State} {hs : List (Option ℕ)} : Chk.Keeps (fun _ => True) (pinsFit s hs) := by
  unfold pinsFit
  split
  · exact trivial
  · exact trivial

theorem canonical_acceptTgemm {s : State} {d : SReg} {na nb nc acc slot q : ℕ} {add : Bool} (h : s.Canonical) :
    Chk.Keeps (fun x => x.state.Canonical) (acceptTgemm s d na nb nc acc slot q add) := by
  unfold acceptTgemm
  exact canonical_checkSlots.bind fun _ hx => canonical_rule.bind fun _ hx => canonical_rule.bind fun _ hx =>
    canonical_rule.bind fun _ hx => canonical_rule.bind fun _ hx => canonical_rule.bind fun _ hx =>
    canonical_rule.bind fun _ hx => canonical_rule.bind fun _ hx => canonical_rule.bind fun _ hx =>
    canonical_rule.bind fun _ hx => canonical_rule.bind fun _ hx => canonical_rule.bind fun _ hx =>
    canonical_checkProtected.bind fun _ hx => canonical_rule.bind fun _ hx => canonical_rule.bind fun _ hx =>
    (canonical_captureShape h).bind fun _ hx => (canonical_captureShape hx).bind fun _ hx' =>
    (canonical_captureShape hx').bind fun _ hx'' => canonical_pinsFit.bind fun _ hx''' => (canonical_check
    (canonical_reachAll (canonical_reachAll (canonical_reachAll (canonical_reachAll
    (canonical_reachAll hx'')))))).bind fun _ hx''' => canonical_numbered (canonical_snd (canonical_tagSlots
    (canonical_submit hx''')))

theorem keepsNext_execTgemm {g : Guard} {d : SReg} {a b c : BitVec 4} {acc : BitVec 3} {addc : BitVec 1}
    {slot : BitVec 7} {q : BitVec 2} {s : State} (h : s.Canonical) : KeepsNext
    (execTgemm g d a b c acc addc slot q s) := by
  unfold execTgemm
  exact keepsNext_matrix (fun _ ht => canonical_accepted (canonical_acceptTgemm ht) ht) h

/-! ## Factorisation and solve (R186, R187), and queue control (R188) -/

theorem keepsNext_execTfact {g : Guard} {d : SReg} {a : BitVec 3} {srci ptrap : BitVec 1} {q : BitVec 2} {s : State}
    (h : s.Canonical) :
    KeepsNext (execTfact g d a srci ptrap q s) := by
  unfold execTfact
  split
  · exact keepsNext_instr (fun t ht => Res.canonical_trap (canonical_onCore ht)) h
  · refine keepsNext_awaited (fun t ht => ?_) (fun r t ht => ?_) h
    · exact canonical_checkProtected.bind fun _ _ => canonical_checkPoison.bind fun _ _ => canonical_submit ht
    · split
      · have hs {x : Word} : (t.setReg d x).Canonical := canonical_setReg ht
        exact Res.canonical_ite (Res.canonical_asIs (canonical_onCore hs)) (Res.canonical_ite hs hs)
      · exact ht
      · exact ht

theorem keepsNext_execTsolve {g : Guard} {d a : BitVec 3} {b : SReg} {q : BitVec 2} {s : State} (h : s.Canonical) :
    KeepsNext (execTsolve g d a b q s) := by
  unfold execTsolve
  exact keepsNext_matrix (fun _ ht => canonical_accepted (canonical_rule.bind fun _ _ =>
    canonical_checkProtected.bind fun _ _ => canonical_submit ht) ht) h

theorem keepsNext_execMqpri {g : Guard} {cq pri : BitVec 2} {s : State} (h : s.Canonical) :
    KeepsNext (execMqpri g cq pri s) := by
  unfold execMqpri
  exact keepsNext_matrix (fun _ ht => canonical_setQctx ht) h

theorem keepsNext_execMqsync {g : Guard} {d : SReg} {cq : BitVec 2} {s : State} (h : s.Canonical) :
    KeepsNext (execMqsync g d cq s) := by
  unfold execMqsync
  split
  · exact keepsNext_instr (fun _ ht => Res.canonical_ite (canonical_setReg (canonical_acquire ht)) ht) h
  · exact keepsNext_matrix (fun _ ht => Res.canonical_ite (canonical_setReg (canonical_acquire ht)) ht) h

end Sys2Proof.Machine.State
end

section
/-!
PROOFS. That storage stays canonical: the Graver at work (11_matrix_engine R256-R261).
-/

namespace Sys2Proof.Machine.State

open Sys2Proof

/-! ## Memory of an operation (R177, R181) -/

theorem canonical_fetchUnit {s : State} {sp : ℕ} {e : GEntry} {u : ℕ} (h : s.Canonical) :
    (s.fetchUnit sp e u).2.Canonical := by
  unfold fetchUnit
  exact canonical_ite_snd (canonical_snd (canonical_engineOutside h)) (canonical_engineRead h)

theorem canonical_fetchItems {s : State} {sp : ℕ} {e : GEntry} {locs : List ℕ} (h : s.Canonical) :
    (s.fetchItems sp e locs).2.Canonical := by
  unfold fetchItems
  refine List.foldlRecOn (motive := fun r : GEntry × Option (ℕ × BitVec 256 × Bool) × State =>
    r.2.2.Canonical) locs _ h fun r hr loc _ => ?_
  dsimp only
  split
  · exact canonical_ite_snd hr (canonical_fetchUnit hr)
  · exact canonical_fetchUnit hr

theorem canonical_engineWrites {s : State} {sp : ℕ} {e : GEntry} {ws : List (ℕ × ℕ × BitVec 64)} (h : s.Canonical) :
    (s.engineWrites sp e ws).2.Canonical := by
  unfold engineWrites
  dsimp only
  exact canonical_cleanSpans (canonical_foldl_snd h (fun _ _ hy => canonical_ite_snd (canonical_snd
    (canonical_engineOutside hy)) (canonical_snd (canonical_engineWrite hy))))

theorem canonical_setEntryAt {s : State} {sp q : ℕ} {e : GEntry} (h : s.Canonical) :
    (s.setEntryAt sp q e).Canonical := by
  unfold setEntryAt
  exact canonical_setGraverAt h

theorem canonical_countStep {s : State} {e : GEntry} {f code : ℕ} (h : s.Canonical) :
    (s.countStep e f code).Canonical := by
  unfold countStep
  exact canonical_onRegion (canonical_ite (canonical_countFor (canonical_countFor h)) (canonical_countFor h))

/-! ## Loads and stores as operations -/

theorem canonical_fillSlot {s : State} {sp : ℕ} {e : GEntry} (h : s.Canonical) : (s.fillSlot sp e).Canonical := by
  unfold fillSlot
  split
  · exact canonical_countFor (canonical_setGraverAt h)
  · exact h

theorem canonical_makeItems {s : State} {sp : ℕ} {e : GEntry} {n : ℕ} (h : s.Canonical) :
    (s.makeItems sp e n).2.Canonical := by
  unfold makeItems
  dsimp only
  split
  · exact canonical_fetchItems h
  · exact canonical_engineWrites h

theorem canonical_startItems {s : State} {sp : ℕ} {e : GEntry} (h : s.Canonical) :
    (s.startItems sp e).2.Canonical := by
  unfold startItems
  dsimp only
  exact canonical_ite (canonical_fillSlot (canonical_makeItems h)) (canonical_makeItems h)

theorem canonical_startStore {s : State} {sp : ℕ} {e : GEntry} {tiles : List ℕ} (h : s.Canonical) :
    (s.startStore sp e tiles).2.Canonical := by
  unfold startStore
  exact canonical_ite_snd (canonical_snd (canonical_countFor h)) (canonical_startItems (canonical_countFor h))

/-! ## TGEMM (R183, R184, R265) -/

theorem canonical_setResume {s : State} {sp q : ℕ} {w : Word} (h : s.Canonical) : (s.setResume sp q w).Canonical := by
  unfold setResume
  exact canonical_setGraverAt h

theorem canonical_loadC {s : State} {sp : ℕ} {e : GEntry} {xc : BitVec 512} {acc : ℕ} {pair : Bool} (h : s.Canonical)
    : (s.loadC sp e xc acc pair).2.Canonical := by
  unfold loadC
  exact canonical_ite_snd (canonical_countFor (canonical_setGraverAt (canonical_fetchItems h))) (canonical_snd
    (canonical_setGraverAt (canonical_fetchItems h)))

theorem canonical_beginTile {s : State} {sp q : ℕ} {e : GEntry} {xc : BitVec 512} {acc : ℕ} {add pair : Bool}
    (h : s.Canonical) : (s.beginTile sp q e xc acc add pair).2.Canonical := by
  unfold beginTile
  exact canonical_ite_snd (canonical_ite_snd (canonical_snd (canonical_countFor (canonical_setResume h)))
    (canonical_loadC (canonical_setResume h))) (canonical_snd (canonical_setGraverAt (canonical_setResume h)))

theorem canonical_fillWorking {s : State} {sp b : ℕ} {x y : Operand} (h : s.Canonical) :
    (s.fillWorking sp b x y).Canonical := by
  unfold fillWorking
  exact canonical_setGraverAt (canonical_free h)

theorem canonical_gemmStep {s : State} {sp : ℕ} {e : GEntry} {xa xb xc : BitVec 512} {acc b : ℕ} (h : s.Canonical) :
    (s.gemmStep sp e xa xb xc acc b).2.Canonical := by
  unfold gemmStep
  dsimp only
  exact canonical_countStep (canonical_setGraverAt (canonical_fillWorking (canonical_fetchItems
    (canonical_fetchItems h))))

theorem canonical_storeC {s : State} {sp : ℕ} {e : GEntry} {xc : BitVec 512} {acc rm : ℕ} {pair : Bool}
    (h : s.Canonical) : (s.storeC sp e xc acc rm pair).2.Canonical := by
  unfold storeC
  exact canonical_engineWrites h

theorem canonical_startGemm {s : State} {sp q : ℕ} {e : GEntry} (h : s.Canonical) :
    (s.startGemm sp q e).2.Canonical := by
  unfold startGemm
  split
  · exact canonical_ite_snd h (canonical_ite_snd (canonical_snd (canonical_setResume (canonical_ite_snd
      (canonical_gemmStep (canonical_ite_snd (canonical_beginTile h) h)) (canonical_ite_snd
      (canonical_beginTile h) h)))) (canonical_ite_snd (canonical_storeC (canonical_ite_snd (canonical_gemmStep
      (canonical_ite_snd (canonical_beginTile h) h)) (canonical_ite_snd (canonical_beginTile h) h)))
      (canonical_ite_snd (canonical_gemmStep (canonical_ite_snd (canonical_beginTile h) h)) (canonical_ite_snd
      (canonical_beginTile h) h))))
  · exact h

/-! ## Starting an operation (R257-R259) -/

theorem canonical_startOp {s : State} {sp q : ℕ} {e : GEntry} (h : s.Canonical) : (s.startOp sp q e).2.Canonical := by
  unfold startOp
  split
  · exact canonical_startItems h
  · dsimp only
    exact canonical_countStep (canonical_setGraverAt h)
  · dsimp only
    exact canonical_setGraverAt h
  · dsimp only
    exact h
  · dsimp only
    exact canonical_setGraverAt h
  · exact canonical_startStore h
  · dsimp only
    exact canonical_setGraverAt h
  · dsimp only
    exact canonical_ite (canonical_setGraverAt h) h
  · exact canonical_startGemm h
  · dsimp only
    split
    · exact h
    · exact canonical_snd (canonical_setGraverAt h)
  · exact canonical_ite_snd (canonical_snd (canonical_countFor (canonical_setGraverAt h))) (canonical_setGraverAt h)

theorem canonical_ageHead {s : State} {sp q : ℕ} (h : s.Canonical) : (s.ageHead sp q).Canonical := by
  unfold ageHead
  dsimp only
  split
  · exact canonical_setEntryAt h
  · exact h

theorem canonical_graverStart {s : State} {sp : ℕ} (h : s.Canonical) : (s.graverStart sp).Canonical := by
  unfold graverStart
  dsimp only
  split
  · exact h
  · exact canonical_noteStallAt (canonical_ageHead (canonical_setEntryAt (canonical_actingFor (canonical_setGraverAt
      (canonical_ite (canonical_countFor h) h)) (fun _ ht => canonical_startOp ht))))

/-! ## Bank grants (13_dome_memory R274-R277) -/

theorem canonical_grantBurst {s : State} {sp q : ℕ} {e : GEntry} {b : Burst} (h : s.Canonical) :
    (s.grantBurst sp q e b).Canonical := by
  unfold grantBurst
  exact canonical_noteStallAt (canonical_setEntryAt (canonical_setDomeAt (canonical_ite (canonical_fillSlot
    (canonical_actingFor (canonical_countFor h) (fun _ ht => canonical_makeItems ht))) (canonical_actingFor
    (canonical_countFor h) (fun _ ht => canonical_makeItems ht)))))

theorem canonical_applyHeld {s : State} {h : HeldOp} (hs : s.Canonical) : (s.applyHeld h).Canonical := by
  unfold applyHeld
  split
  · exact canonical_of_mem (by dsimp only; exact canonical_countFor (canonical_onLogical (canonical_countFor
      (canonical_setDomeAt (canonical_ite (canonical_setHolds hs) (canonical_advance (canonical_atomApply
      (canonical_setHolds hs))))))))
  · exact canonical_countFor (canonical_setCoreAt (canonical_countFor (canonical_setDomeAt (canonical_ite
      (canonical_setHolds hs) (canonical_advance (canonical_atomApply (canonical_setHolds hs)))))))

theorem canonical_bankGrant {s : State} {d bank : ℕ} (h : s.Canonical) : (s.bankGrant d bank).Canonical := by
  unfold bankGrant
  refine canonical_ite h ?_
  split
  · exact h
  · exact canonical_grantBurst h
  · exact canonical_applyHeld h

/-! ## Cycles counted (22_host_compat R381) -/

theorem canonical_countCycles {s : State} {dt : ℕ} (h : s.Canonical) : (s.countCycles dt).Canonical := by
  unfold countCycles
  exact canonical_ite h (canonical_foldl (canonical_foldl h (fun _ _ ht => canonical_ite (canonical_foldl ht
    (fun _ _ ht' => canonical_countFor ht')) ht)) (fun _ _ ht => canonical_countFor ht))

/-! ## Completion (R261) -/

theorem canonical_deliver {s : State} {sp q : ℕ} {e : GEntry} (h : s.Canonical) : (s.deliver sp q e).Canonical := by
  unfold deliver
  split
  · exact h
  · dsimp only
    split
    · exact canonical_ite (canonical_setCoreAt h) h
    · exact h

theorem canonical_completeOp {s : State} {sp q : ℕ} {e : GEntry} (h : s.Canonical) :
    (s.completeOp sp q e).Canonical := by
  unfold completeOp
  exact canonical_noteStallAt (canonical_deliver (canonical_setGraverAt (canonical_unpinAll h)))

theorem canonical_graverComplete {s : State} {sp q : ℕ} (h : s.Canonical) : (s.graverComplete sp q).Canonical := by
  unfold graverComplete
  split
  · exact canonical_completeOp h
  · exact h

/-! ## The coprocessor port as a step of its own (R256) -/

theorem keepsNext_matrixExec {i : Instr} {s : State} (h : s.Canonical) : KeepsNext (matrixExec i s) := by
  unfold matrixExec
  split
  · exact keepsNext_execMshl h
  · exact keepsNext_execMshf h
  · exact keepsNext_execMshs h
  · exact keepsNext_execMclaim h
  · exact keepsNext_execMrel h
  · exact keepsNext_execMld h
  · exact keepsNext_execMldx h
  · exact keepsNext_execMma h
  · exact keepsNext_execMmaS h
  · exact keepsNext_execMzero h
  · exact keepsNext_execMmov h
  · exact keepsNext_execMmovr h
  · exact keepsNext_execMst h
  · exact keepsNext_execMspec h
  · exact keepsNext_execMresolve h
  · exact keepsNext_execMcommit h
  · exact keepsNext_execMdiscard h
  · exact keepsNext_execTgemm h
  · exact keepsNext_execTfact h
  · exact keepsNext_execTsolve h
  · exact keepsNext_execMqpri h
  · exact keepsNext_execMqsync h
  · exact keepsNext_powered (keepsNext_next h)

/-! ## Meanings of the Graver's steps -/

theorem keepsNext_execCoprocessorPortAccept {spire : ℕ} {s : State} (h : s.Canonical) :
    KeepsNext (execCoprocessorPortAccept spire s) := by
  unfold execCoprocessorPortAccept
  split
  · exact keepsNext_powered (keepsNext_next h)
  · next c _ =>
    have hf : ({ s with cur := c } : State).fetchNext.state.Canonical := canonical_fetchNext h
    dsimp only
    split
    · next hs =>
      split at hs
      · exact keepsNext_matrixExec (canonical_setPc (canonical_of_instr hf (Option.some.inj hs)))
      · cases hs
    · exact keepsNext_powered (keepsNext_next h)

theorem keepsNext_execGraverOpStart {spire : ℕ} {s : State} (h : s.Canonical) :
    KeepsNext (execGraverOpStart spire s) := by
  unfold execGraverOpStart
  exact keepsNext_event (fun _ ht => canonical_graverStart ht) h

theorem keepsNext_execGraverOpComplete {spire ctx : ℕ} {s : State} (h : s.Canonical) :
    KeepsNext (execGraverOpComplete spire ctx s) := by
  unfold execGraverOpComplete
  exact keepsNext_event (fun _ ht => canonical_graverComplete ht) h

theorem keepsNext_execBankGrant {dome bank : ℕ} {s : State} (h : s.Canonical) :
    KeepsNext (execBankGrant dome bank s) := by
  unfold execBankGrant
  exact keepsNext_event (fun _ ht => canonical_bankGrant ht) h

end Sys2Proof.Machine.State
end

section
/-!
PROOFS. That storage stays canonical: COPY, COPYH and the streamers (05_memory_isa R149-R151, 21_memory_system R363).
-/

namespace Sys2Proof.Machine.State

open Sys2Proof

/-! ## Moving bytes (R363) -/

theorem canonical_openBytes {was : List Host.Cell} {loc : ℕ} {bs : List Byte} {s : State} (h : s.Canonical) :
    (openBytes was loc bs s).2.Canonical := by
  induction bs generalizing loc s with
  | nil => exact h
  | cons b bs ih =>
    refine ih ?_
    split
    · exact canonical_free h
    · exact h

theorem canonical_copyRead {op : CopyOp} {fuel k n : ℕ} {s : State} (h : s.Canonical) :
    (copyRead op fuel k n s).2.2.Canonical := by
  induction fuel generalizing k n s with
  | zero => exact h
  | succ fuel ih =>
    unfold copyRead
    split
    · exact h
    · split
      · exact h
      · dsimp only
        split
        · exact canonical_engineOutside h
        · split
          · exact canonical_engineRead h
          · exact ih (canonical_ite_snd (canonical_engineRead h) (canonical_openBytes (canonical_engineRead h)))

theorem canonical_copyMove {s : State} {unit fuel n : ℕ} {op : CopyOp} (h : s.Canonical) :
    (s.copyMove unit fuel n op).2.Canonical := by
  induction fuel generalizing s n op with
  | zero => exact h
  | succ fuel ih =>
    unfold copyMove
    refine canonical_ite_snd h ?_
    split
    · exact h
    · next p _ =>
      have hr := canonical_copyRead (op := op) (fuel := 64) (k := op.moved)
        (n := min n (unitBytes p.loc - p.loc % unitBytes p.loc)) h
      refine canonical_ite_snd h (ih (canonical_ite hr ?_))
      exact canonical_ite_snd (canonical_engineOutside hr) (canonical_engineWrite hr)

/-! ## Streamers (R363) -/

theorem canonical_setStreamer {s : State} {u : ℕ} {x : Streamer} (h : s.Canonical) :
    (s.setStreamer u x).Canonical := by
  unfold setStreamer
  exact canonical_ite (canonical_setDomeAt h) (canonical_setSliceAt h)

theorem canonical_offerCopy {s : State} {u tries : ℕ} {op : CopyOp} (h : s.Canonical) :
    (s.offerCopy u tries op).Canonical := by
  unfold offerCopy
  exact canonical_ite (canonical_setStreamer h) (canonical_ite (canonical_setStreamer h) (canonical_countFor
    (canonical_setSpireAt (canonical_free h))))

theorem canonical_copyUnit {s : State} {op : CopyOp} (h : s.Canonical) : (s.copyUnit op).2.2.Canonical := by
  unfold copyUnit
  split
  · exact h
  · dsimp only
    split
    · exact h
    · split
      · exact h
      · split
        · next htranslate => exact (canonical_translate h).of_some htranslate
        · exact h

theorem canonical_endCopy {s : State} {op : CopyOp} (h : s.Canonical) : (s.endCopy op).Canonical := by
  unfold endCopy
  split
  · split
    · split
      · exact canonical_of_mem (by dsimp only; exact canonical_countFor (canonical_unpin (canonical_settleBytes h)))
      · exact canonical_of_mem (by dsimp only; exact canonical_countFor (canonical_settleBytes h))
    · split
      · exact canonical_of_mem (by dsimp only; exact canonical_countFor (canonical_unpin h))
      · exact canonical_of_mem (by dsimp only; exact canonical_countFor h)
  · split
    · exact canonical_of_mem (by dsimp only; exact canonical_countFor (canonical_unpin h))
    · exact canonical_of_mem (by dsimp only; exact canonical_countFor h)

theorem canonical_movePiece {s : State} {u : ℕ} {op : CopyOp} (h : s.Canonical) : (s.movePiece u op).2.Canonical := by
  unfold movePiece
  exact canonical_ite_snd h (canonical_ite_snd h (canonical_copyMove h))

theorem canonical_streamerPiece {s : State} {u : ℕ} (h : s.Canonical) : (s.streamerPiece u).Canonical := by
  unfold streamerPiece
  split
  · exact h
  · refine canonical_ite (canonical_endCopy (canonical_setStreamer ?_)) (canonical_setStreamer ?_)
    · split
      · exact canonical_ite (canonical_onRegion (canonical_countFor (canonical_actingFor h (fun _ ht =>
          canonical_movePiece ht)))) (canonical_settleBytes (canonical_onRegion (canonical_countFor
          (canonical_actingFor h (fun _ ht => canonical_movePiece ht)))))
      · exact canonical_onRegion (canonical_countFor (canonical_actingFor h (fun _ ht => canonical_movePiece ht)))
    · split
      · exact canonical_ite (canonical_onRegion (canonical_countFor (canonical_actingFor h (fun _ ht =>
          canonical_movePiece ht)))) (canonical_settleBytes (canonical_onRegion (canonical_countFor
          (canonical_actingFor h (fun _ ht => canonical_movePiece ht)))))
      · exact canonical_onRegion (canonical_countFor (canonical_actingFor h (fun _ ht => canonical_movePiece ht)))

/-! ## Issue (R149, R150) -/

theorem canonical_copyBarrier {s : State} {bar : BitVec 1} {slot : BitVec 8} :
    Chk.Keeps (fun _ => True) (s.copyBarrier bar slot) := by
  unfold copyBarrier
  refine Chk.keeps_ite trivial ?_
  split
  · exact trivial
  · next hbarrierslot => exact canonical_barrierSlot.of_error hbarrierslot

theorem canonical_copyTimeline {s : State} {tls : BitVec 1} {tlk : BitVec 3} :
    Chk.Keeps (fun _ => True) (s.copyTimeline tls tlk) := by
  unfold copyTimeline
  refine Chk.keeps_ite trivial ?_
  split
  · exact trivial
  · exact trivial

theorem canonical_copyRanges {op : CopyOp} {len : Word} : Chk.Keeps (fun _ => True) (copyRanges op len) := by
  unfold copyRanges
  refine Chk.keeps_ite trivial ?_
  split
  · exact trivial
  · split
    · exact trivial
    · exact trivial

theorem canonical_endAtIssue {s : State} {d : SReg} {bar : Option (ℕ × ℕ)} {tl : Option ℕ} {code : ℕ}
    {evaluate : Bool} (h : s.Canonical) : (s.endAtIssue d bar tl code evaluate).Canonical := by
  unfold endAtIssue
  split
  · split
    · split
      · exact canonical_setReg (canonical_onTimeline (canonical_count h))
      · exact canonical_setReg (canonical_count h)
    · split
      · exact canonical_setReg (canonical_onTimeline (canonical_count h))
      · exact canonical_setReg (canonical_count h)
  · split
    · split
      · split
        · exact canonical_setReg (canonical_onTimeline (canonical_count (canonical_settleBytes h)))
        · exact canonical_setReg (canonical_count (canonical_settleBytes h))
      · split
        · exact canonical_setReg (canonical_onTimeline (canonical_count (canonical_settleBytes h)))
        · exact canonical_setReg (canonical_count (canonical_settleBytes h))
    · split
      · split
        · exact canonical_setReg (canonical_onTimeline (canonical_count (canonical_onBarrier h)))
        · exact canonical_setReg (canonical_count (canonical_onBarrier h))
      · split
        · exact canonical_setReg (canonical_onTimeline (canonical_count (canonical_onBarrier h)))
        · exact canonical_setReg (canonical_count (canonical_onBarrier h))

theorem canonical_issueCopy {s : State} {d : SReg} {op : CopyOp} {bar : Option (ℕ × ℕ)} {tl : Option ℕ}
    (h : s.Canonical) : Chk.Keeps (fun x => x.Canonical) (s.issueCopy d op bar tl) := by
  unfold issueCopy
  refine Chk.keeps_ite (canonical_endAtIssue ?_) (Chk.keeps_ite (canonical_endAtIssue ?_) (Chk.keeps_ite trivial
    (canonical_offerCopy (canonical_copyUnit (canonical_onCore ?_)))))
  · split
    · exact canonical_unpin h
    · exact h
  · split
    · exact canonical_unpin h
    · exact h
  · split
    · dsimp only
      refine canonical_setReg (canonical_onTimeline ?_)
      split
      · exact canonical_onBarrier h
      · exact h
    · refine canonical_ite_snd (canonical_onCore (canonical_setReg ?_)) ?_
      · split
        · exact canonical_onBarrier h
        · exact h
      · split
        · exact canonical_snd (canonical_onBarrier h)
        · exact h

theorem canonical_copyHandle {s : State} {b len : Word} {src : Bool} (h : s.Canonical) :
    Chk.Keeps (fun x => x.2.Canonical) (s.copyHandle b len src) := by
  unfold copyHandle
  dsimp only
  split
  · next he =>
    have ht := (canonical_checkHandle h).of_ok he
    exact Chk.keeps_ite ht (Chk.keeps_ite ht ht)
  · next he =>
    have ht := (canonical_checkHandle h).of_error he
    exact Chk.keeps_ite ht ht
  · next he => exact (canonical_checkHandle h).of_error he

theorem canonical_landCopy {s : State} {l : Landing} (h : s.Canonical) : (s.landCopy l).Canonical := by
  unfold landCopy
  refine canonical_onLogical ?_
  split
  · refine canonical_onCopyCtx ?_
    split
    · exact canonical_wsPoke h
    · exact h
  · split
    · exact canonical_wsPoke h
    · exact h

/-! ## Meanings -/

theorem keepsNext_execCopy {g : Guard} {d a b c : SReg} {bslot : BitVec 8} {bar : BitVec 1} {tlk : BitVec 3}
    {tls : BitVec 1} {s : State}
    (h : s.Canonical) : KeepsNext (execCopy g d a b c bslot bar tlk tls s) := by
  refine keepsNext_instr (fun t ht => ?_) h
  refine Chk.Keeps.run (P := State.Canonical) ?_ ht fun _ hx => hx
  refine canonical_copyRanges.bind fun _ _ => canonical_copyTimeline.bind fun _ _ => ?_
  exact canonical_copyBarrier.bind fun _ _ => canonical_issueCopy ht

theorem keepsNext_execCopyh {g : Guard} {d a b c : SReg} {bslot : BitVec 8} {bar : BitVec 1} {tlk : BitVec 3}
    {tls hfrom : BitVec 1}
    {s : State} (h : s.Canonical) : KeepsNext (execCopyh g d a b c bslot bar tlk tls hfrom s) := by
  refine keepsNext_instr (fun t ht => ?_) h
  refine Chk.Keeps.run (P := State.Canonical) ?_ ht fun _ hx => hx
  refine (canonical_copyHandle ht).bind fun x hx => (canonical_copyRanges.after hx).bind fun _ _ => ?_
  refine (canonical_copyTimeline.after hx).bind fun _ _ => (canonical_copyBarrier.after hx).bind fun _ _ => ?_
  split
  · exact canonical_endAtIssue hx
  · exact canonical_issueCopy (canonical_pin hx)

theorem keepsNext_execStreamerPiece {unit : ℕ} {s : State} (h : s.Canonical) :
    KeepsNext (execStreamerPiece unit s) := by
  unfold execStreamerPiece
  exact keepsNext_event (fun _ ht => canonical_streamerPiece ht) h

theorem keepsNext_execCopyStatusLanding {k : ℕ} {s : State} (h : s.Canonical) :
    KeepsNext (execCopyStatusLanding k s) := by
  unfold execCopyStatusLanding
  refine keepsNext_event (fun t ht => ?_) h
  split
  · exact canonical_landCopy ht
  · exact ht

theorem keepsNext_execSliceRetryHint {spire : ℕ} {s : State} (h : s.Canonical) :
    KeepsNext (execSliceRetryHint spire s) := by
  unfold execSliceRetryHint
  refine keepsNext_event (fun t ht => ?_) h
  dsimp only
  split
  · split
    · exact canonical_offerCopy (canonical_setSpireAt ht)
    · exact ht
  · exact ht

end Sys2Proof.Machine.State
end

section
/-!
PROOFS. That storage stays canonical: channels (05_memory_isa R160-R163).
-/

namespace Sys2Proof.Machine.State

open Sys2Proof

/-! ## Accesses of SEND and RECV: engine traffic, through the core's own port (15_consistency R290, R301, R279) -/

theorem canonical_quietLoad {s : State} {va : Word} {n : ℕ} (h : s.Canonical) : (s.quietLoad va n).2.2.Canonical := by
  unfold quietLoad
  split
  · exact h
  · next hplace =>
      split
      · exact (canonical_place h).of_some hplace
      · split
        · exact canonical_machineCheck (canonical_postFault ((canonical_place h).of_some hplace))
        · split
          · exact canonical_engineBank ((canonical_place h).of_some hplace)
          · exact canonical_engineRead ((canonical_place h).of_some hplace)

theorem canonical_quietStore {s : State} {va : Word} {n : ℕ} {x : Word} (h : s.Canonical) :
    (s.quietStore va n x).Canonical := by
  unfold quietStore
  split
  · exact h
  · next hplace =>
      exact canonical_ite (canonical_storeAt ((canonical_place h).of_some hplace)) (canonical_ite
        (canonical_machineCheck (canonical_postFault ((canonical_place h).of_some hplace))) (canonical_onCore
        (canonical_engineWrite ((canonical_place h).of_some hplace))))

theorem canonical_mayLoad {s : State} {es : List Elem} (h : s.Canonical) :
    Chk.Keeps (fun x => x.Canonical) (s.mayLoad es) := by
  unfold mayLoad
  split
  · next hplaces => exact (canonical_places h).of_error hplaces
  · next hplaces =>
      split
      · next hcheckloads => exact canonical_checkLoads.of_error hcheckloads
      · exact (canonical_places h).of_ok hplaces

theorem canonical_mayStore {s : State} {es : List Elem} (h : s.Canonical) :
    Chk.Keeps (fun x => x.Canonical) (s.mayStore es) := by
  unfold mayStore
  split
  · next hplaces => exact (canonical_places h).of_error hplaces
  · next hplaces =>
      split
      · next hguardstores => exact canonical_guardStores.of_error hguardstores
      · exact (canonical_places h).of_ok hplaces

/-! ## Header operations (13_dome_memory R279, R280) -/

theorem canonical_lockGrant {s : State} {h : Word} (hs : s.Canonical) : (s.lockGrant h).Canonical := by
  unfold lockGrant
  split
  · exact canonical_grantOnly hs
  · exact hs

theorem canonical_releaseLock {s : State} {h : Word} {head : ℕ} (hs : s.Canonical) :
    (s.releaseLock h head).Canonical := by
  unfold releaseLock
  exact canonical_of_mem (by dsimp only; exact canonical_lockGrant hs)

theorem canonical_headerLoads {s : State} {h : Word} (hs : s.Canonical) : (s.headerLoads h).2.2.Canonical := by
  unfold headerLoads
  exact canonical_quietLoad (canonical_quietLoad (canonical_lockGrant hs))

theorem canonical_waitChannel {s : State} {h : Word} {head : ℕ} (hs : s.Canonical) :
    (s.waitChannel h head).state.Canonical := by
  unfold waitChannel
  exact canonical_releaseLock hs

theorem canonical_openChannel {s : State} {h : Word} {acc : Acc} {poisonTraps : Bool} (hs : s.Canonical) :
    Chk.Keeps (fun x => x.2.2.Canonical) (s.openChannel h acc poisonTraps) := by
  unfold openChannel
  refine canonical_aligned.bind fun _ _ => Chk.keeps_ite trivial ((canonical_mayLoad hs).bind fun x hx => ?_)
  refine Chk.keeps_ite (canonical_quietLoad hx) (Chk.keeps_ite trivial (Chk.keeps_ite trivial ?_))
  split
  · exact canonical_quietLoad hx
  · exact trivial

/-! ## SEND (R162) -/

theorem canonical_notifyWake {s : State} {n : Word} (h : s.Canonical) : (s.notifyWake n).Canonical := by
  unfold notifyWake
  exact canonical_ite (canonical_postWake h) h

theorem canonical_sendChecks {s : State} {h src len : Word} (hs : s.Canonical) :
    Chk.Keeps (fun x => x.2.2.2.2.Canonical) (s.sendChecks h src len) := by
  unfold sendChecks
  exact canonical_aligned.bind fun _ hx => canonical_aligned.bind fun _ hx =>
    (canonical_openChannel hs).bind fun _ hx => Chk.keeps_ite trivial ((canonical_mayLoad hx).bind fun _ hx' =>
    Chk.keeps_ite trivial (Chk.keeps_ite hx' (Chk.keeps_ite hx' (Chk.keeps_ite hx'
    (canonical_aligned.bind fun _ hx'' => (canonical_mayStore hx').bind fun _ hx'' => hx'')))))

theorem canonical_reserve {s : State} {nb : Bool} {d : SReg} {h src len : Word} (hs : s.Canonical) :
    (s.reserve nb d h src len).state.Canonical := by
  unfold reserve
  refine (canonical_sendChecks hs).run hs fun x hx => ?_
  refine Res.canonical_ite ?_ ?_
  · refine Res.canonical_ite ?_ ?_
    · exact Res.canonical_done (canonical_setReg (canonical_releaseLock (canonical_headerLoads hx)))
    · exact canonical_waitChannel (canonical_headerLoads hx)
  · exact Res.canonical_asIs (canonical_onCore (canonical_releaseLock (canonical_quietStore
      (canonical_headerLoads hx))))

theorem canonical_sendWord {s : State} {r : Resv} {h src : Word} (hs : s.Canonical) :
    (s.sendWord r h src).Canonical := by
  unfold sendWord
  exact canonical_onCore (canonical_quietStore (canonical_quietLoad hs))

theorem canonical_publishMessage {s : State} {r : Resv} {h len : Word} (hs : s.Canonical) :
    (s.publishMessage r h len).Canonical := by
  unfold publishMessage
  refine canonical_count (canonical_onCore (canonical_notifyWake (canonical_quietLoad (canonical_releaseLock ?_))))
  split
  · exact canonical_setDomeAt (canonical_quietStore (canonical_quietLoad (canonical_quietStore
      (canonical_lockGrant hs))))
  · exact canonical_quietStore (canonical_quietLoad (canonical_quietStore (canonical_lockGrant hs)))

theorem canonical_sendOn {s : State} {r : Resv} {d : SReg} {h src len : Word} (hs : s.Canonical) :
    (s.sendOn r d h src len).state.Canonical := by
  unfold sendOn
  exact Res.canonical_ite (canonical_sendWord hs) (Res.canonical_ite hs (canonical_setReg
    (canonical_publishMessage hs)))

theorem canonical_sendMessage {s : State} {nb : Bool} {d : SReg} {h src len : Word} (hs : s.Canonical) :
    (s.sendMessage nb d h src len).state.Canonical := by
  unfold sendMessage
  split
  · exact canonical_sendOn hs
  · exact canonical_reserve hs

/-! ## RECV (R163) -/

theorem canonical_takeWords {h c : Word} {s : State} {t : Word} {es : List Elem} (hs : s.Canonical) :
    (takeWords h c s t es).2.Canonical := by
  induction es generalizing s t with
  | nil => exact hs
  | cons e es ih => exact ih (canonical_quietStore (canonical_quietLoad hs))

theorem canonical_take {s : State} {d : SReg} {h dst c hd w : Word} {bad : Bool} {head : ℕ} (hs : s.Canonical) :
    (s.take d h dst c hd w bad head).state.Canonical := by
  unfold take
  refine canonical_setReg (canonical_releaseLock (canonical_quietStore (canonical_quietLoad (canonical_quietStore
    (canonical_quietStore ?_)))))
  split
  · exact canonical_acquire (canonical_setDomeAt (canonical_onCore (canonical_takeWords (canonical_onCore hs))))
  · exact canonical_onCore (canonical_takeWords (canonical_onCore hs))

theorem canonical_recvChecks {s : State} {h dst : Word} (hs : s.Canonical) :
    Chk.Keeps (fun x => x.2.2.2.2.Canonical) (s.recvChecks h dst) := by
  unfold recvChecks
  exact canonical_aligned.bind fun _ hx => (canonical_openChannel hs).bind fun _ hx => Chk.keeps_ite
    ((canonical_mayStore hx).bind fun _ hx' => hx') (canonical_aligned.bind fun _ hx' =>
    (canonical_mayLoad hx).bind fun _ hx' => (canonical_mayStore hx').bind fun _ hx'' => Chk.keeps_ite
    ((canonical_mayLoad hx'').bind fun _ hx''' => hx''') hx'')

theorem canonical_loadsNothing {s : State} {h c hd : Word} (hs : s.Canonical) :
    (s.loadsNothing h c hd).Canonical := by
  unfold loadsNothing
  exact canonical_ite (canonical_headerLoads hs) (canonical_quietLoad (canonical_headerLoads hs))

theorem canonical_recvMessage {s : State} {nb : Bool} {d : SReg} {h dst : Word} (hs : s.Canonical) :
    (s.recvMessage nb d h dst).state.Canonical := by
  unfold recvMessage
  exact (canonical_recvChecks hs).run hs fun _ hx => Res.canonical_ite (canonical_take (canonical_quietLoad
    (canonical_headerLoads hx))) (Res.canonical_ite (canonical_setReg (canonical_releaseLock
    (canonical_loadsNothing hx))) (canonical_waitChannel (canonical_loadsNothing hx)))

/-! ## Meanings -/

theorem keepsNext_execSend {g : Guard} {d a b c : SReg} {s : State} (h : s.Canonical) :
    KeepsNext (execSend g d a b c s) := by
  unfold execSend
  exact keepsNext_instr (fun _ ht => canonical_sendMessage ht) h

theorem keepsNext_execRecv {g : Guard} {d a b : SReg} {s : State} (h : s.Canonical) :
    KeepsNext (execRecv g d a b s) := by
  unfold execRecv
  exact keepsNext_instr (fun _ ht => canonical_recvMessage ht) h

theorem keepsNext_execChannelRetry {core : ℕ} {s : State} (h : s.Canonical) :
    KeepsNext (execChannelRetry core s) := by
  have hf : ({ s with cur := core } : State).fetchNext.state.Canonical := canonical_fetchNext h
  unfold execChannelRetry
  dsimp only
  split
  · refine keepsNext_ite ?_ (keepsNext_powered (keepsNext_next h))
    split
    · next hs => exact keepsNext_execSend (canonical_setPc (canonical_of_instr hf hs))
    · next hs => exact keepsNext_execRecv (canonical_setPc (canonical_of_instr hf hs))
    · exact keepsNext_powered (keepsNext_next h)
  · exact keepsNext_powered (keepsNext_next h)

end Sys2Proof.Machine.State
end

section
/-!
PROOFS. That storage stays canonical: the mesh (05_memory_isa R139, R146, R158, R159).
-/

namespace Sys2Proof.Machine.State

open Sys2Proof

/-! ## The Spire port (R248) -/

theorem canonical_launchPackets {s : State} {rs : List PortReq} (h : s.Canonical) :
    (s.launchPackets rs).Canonical := by
  unfold launchPackets
  refine canonical_foldl h (fun t x ht => ?_)
  exact canonical_countFor ht

theorem canonical_portSend {s : State} {sp : ℕ} (h : s.Canonical) : (s.portSend sp).Canonical := by
  unfold portSend
  dsimp only
  split
  · exact canonical_launchPackets (canonical_setSpireAt h)
  · split
    · split
      · split
        · exact canonical_launchPackets (canonical_setSpireAt h)
        · exact h
      · exact h
    · exact h

/-! ## Arrivals (R139, R146, R147) -/

theorem canonical_answer {s : State} {p : Packet} {refused : Bool} (h : s.Canonical) :
    (s.answer p refused).Canonical := by
  unfold answer
  exact canonical_of_mem (by dsimp only; exact canonical_ite (canonical_countFor h) h)

theorem canonical_grantPosted {s : State} {p : Packet} {loc ts : ℕ} (h : s.Canonical) :
    (s.grantPosted p loc ts).Canonical := by
  unfold grantPosted
  exact canonical_countFor (canonical_onLogical (canonical_setDomeAt h))

theorem canonical_takePacket {s : State} {k : ℕ} (h : s.Canonical) :
    KeepsSome (fun x => x.2.Canonical) (s.takePacket k) := by
  unfold takePacket
  split
  · exact keepsSome_ite h trivial
  · exact trivial

theorem canonical_storeArrives {s : State} {p : Packet} {loc n : ℕ} {data ts : Word} (h : s.Canonical) :
    (s.storeArrives p loc n data ts).Canonical := by
  unfold storeArrives
  exact canonical_ite (canonical_answer h) (canonical_answer (canonical_poke (canonical_grantPosted h)))

theorem canonical_redArrives {s : State} {p : Packet} {loc n : ℕ} {op : BitVec 6} {ty : Ty} {data : Word}
    {ord : Option (BitVec 32 × Bool)} (h : s.Canonical) : (s.redArrives p loc n op ty data ord).Canonical := by
  unfold redArrives
  refine canonical_ite (canonical_answer h) ?_
  split
  · exact canonical_answer (canonical_countFor (canonical_atomApply (canonical_grantPosted h)))
  · dsimp only
    split
    · next hr =>
        exact canonical_answer (canonical_countFor (canonical_grantPosted ((canonical_orderedArrive h).applied hr)))
    · next hr => exact canonical_countFor (canonical_grantOnly ((canonical_orderedArrive h).held hr))
    · exact canonical_answer (canonical_countFor (canonical_grantOnly h))
    · exact h

/-! ## Wakes (R158, R159) -/

theorem canonical_undeliverable {s : State} {r : ℕ} (h : s.Canonical) : (s.undeliverable r).Canonical := by
  unfold undeliverable
  split
  · exact canonical_countFor (canonical_onRegion h)
  · exact h

theorem canonical_ctxPlace {s : State} {tenant : ℕ} {ctx : BitVec 16} {va : ℕ} (h : s.Canonical) :
    KeepsSome (fun x => x.2.Canonical) (s.ctxPlace tenant ctx va) := by
  unfold ctxPlace
  refine keepsSome_ite trivial ?_
  split
  · exact trivial
  · next hwalk =>
      split
      · exact keepsSome_ite trivial (canonical_snd (canonical_of_snd (canonical_walk h) hwalk))
      · exact trivial

theorem canonical_ctxFetch {s : State} {p : Place} {off n : ℕ} (h : s.Canonical) :
    (s.ctxFetch p off n).Canonical := by
  unfold ctxFetch
  exact canonical_foldl h (fun _ _ ht => canonical_ite (canonical_activate ht) (canonical_ite (canonical_demandBeat
    (canonical_activate ht)) (canonical_sliceLine (canonical_activate ht))))

theorem canonical_ctxWrite {s : State} {p : Place} {off : ℕ} {x : Word} (h : s.Canonical) :
    (s.ctxWrite p off x).Canonical := by
  unfold ctxWrite
  exact canonical_engineWrite h

theorem canonical_mailbox {s : State} {r : Region} {lc : ℕ} (h : s.Canonical) :
    KeepsSome (fun x => x.2.Canonical) (s.mailbox r lc) := by
  unfold mailbox
  exact keepsSome_ite trivial (canonical_ctxPlace h)

theorem canonical_orWake {s : State} {r : ℕ} {lc : BitVec 32} {k : Core} {mask : Word} {ts : ℕ} (h : s.Canonical) :
    (s.orWake r lc k mask ts).Canonical := by
  unfold orWake
  exact canonical_onLogical (canonical_wsPoke h)

theorem canonical_deliverWake {s : State} {r target : ℕ} {mask : Word} {ts : ℕ} {posted : Bool} (h : s.Canonical) :
    (s.deliverWake r target mask ts posted).2.Canonical := by
  unfold deliverWake
  split
  · split
    · split
      · next hmailbox =>
          dsimp only
          split
          · exact canonical_ite_snd (canonical_ite_snd h (canonical_snd (canonical_undeliverable h))) (canonical_snd
              (canonical_countFor (canonical_orWake h)))
          · exact canonical_snd (canonical_onRegion (canonical_countFor (canonical_ctxWrite (canonical_ctxFetch
              ((canonical_mailbox h).of_some hmailbox)))))
      · dsimp only
        split
        · exact canonical_ite_snd (canonical_ite_snd h (canonical_snd (canonical_undeliverable h))) (canonical_snd
            (canonical_countFor (canonical_orWake h)))
        · exact canonical_snd (canonical_undeliverable h)
    · dsimp only
      split
      · exact canonical_ite_snd (canonical_ite_snd h (canonical_snd (canonical_undeliverable h))) (canonical_snd
          (canonical_countFor (canonical_orWake h)))
      · exact canonical_ite_snd h (canonical_snd (canonical_undeliverable h))
  · dsimp only
    split
    · exact canonical_ite_snd (canonical_ite_snd h (canonical_snd (canonical_undeliverable h))) (canonical_snd
        (canonical_countFor (canonical_orWake h)))
    · exact h

theorem canonical_wakeArrives {s : State} {p : Packet} {target : ℕ} {mask : Word} {ts : ℕ} (h : s.Canonical) :
    (s.wakeArrives p target mask ts).Canonical := by
  unfold wakeArrives
  exact canonical_answer (canonical_actingFor h (fun _ ht => canonical_deliverWake ht))

/-! ## Acknowledgements and refusals (R139, 14_prog_sampling R286) -/

theorem canonical_takeAck {s : State} {k : ℕ} {refused : Bool} {f : JEntry → JEntry} (h : s.Canonical) :
    (s.takeAck k refused f).Canonical := by
  unfold takeAck
  split
  · exact canonical_ite (canonical_onLogical h) h
  · exact h

/-! ## Resuming (R251) -/

theorem canonical_resume {s : State} {c : ℕ} (h : s.Canonical) : (s.resume c).Canonical := by
  unfold resume
  dsimp only
  split
  · exact canonical_ite (canonical_onCore h) h
  · exact h

/-! ## Soft errors (07_system_isa R222, 13_dome_memory R272) -/

theorem canonical_strikeBeat {s : State} {k : ℕ} {f : Option BeatErr → BeatErr} (h : s.Canonical) :
    (s.strikeBeat k f).Canonical := by
  unfold strikeBeat
  exact h

theorem canonical_strikeSoft {s : State} {unit at_ : ℕ} (h : s.Canonical) : (s.strikeSoft unit at_).Canonical := by
  unfold strikeSoft
  split
  · next hfree =>
      split
      · refine canonical_ite ?_ ?_
        · exact canonical_of_mem (by dsimp only; exact Mem.wf_store (canonical_of_snd (canonical_free h) hfree) _ _ _)
        · exact canonical_of_snd (canonical_free h) hfree
      · exact canonical_setCoreAt (canonical_of_mem
          (by dsimp only; exact Mem.wf_store (canonical_of_snd (canonical_free h) hfree) _ _ _))
      · exact canonical_setCoreAt (canonical_of_snd (canonical_free h) hfree)
      · refine canonical_ite ?_ ?_
        · exact canonical_strikeBeat (canonical_of_snd (canonical_free h) hfree)
        · exact canonical_of_snd (canonical_free h) hfree
      · refine canonical_ite ?_ ?_
        · exact canonical_strikeBeat (canonical_of_snd (canonical_free h) hfree)
        · exact canonical_of_snd (canonical_free h) hfree
      · exact canonical_strikeBeat (canonical_of_snd (canonical_free h) hfree)
      · refine canonical_ite ?_ ?_
        · exact canonical_setHbmLine (canonical_of_snd (canonical_free h) hfree)
        · exact canonical_of_snd (canonical_free h) hfree
      · exact canonical_setSpireAt (canonical_of_snd (canonical_free h) hfree)

/-! ## Die-to-die ports (16_traps R322) -/

theorem canonical_retrain {s : State} {link failures : ℕ} {held : List ℕ} (h : s.Canonical) :
    (s.retrain link failures held).Canonical := by
  unfold retrain
  exact canonical_ite (canonical_countFor (canonical_countFor h)) (canonical_foldl (canonical_countFor
    (canonical_countFor h)) (fun _ _ ht => canonical_machineCheck ht))

/-! ## Meanings -/

theorem keepsNext_execSpirePortSend {spire : ℕ} {s : State} (h : s.Canonical) :
    KeepsNext (execSpirePortSend spire s) := by
  unfold execSpirePortSend
  exact keepsNext_event (fun _ ht => canonical_portSend ht) h

theorem keepsNext_execPostedStoreArrival {k : ℕ} {s : State} (h : s.Canonical) :
    KeepsNext (execPostedStoreArrival k s) := by
  unfold execPostedStoreArrival
  refine keepsNext_event (fun t ht => ?_) h
  split
  · next htakepacket =>
      split
      · exact canonical_storeArrives ((canonical_takePacket ht).of_some htakepacket)
      · exact ht
  · exact ht

theorem keepsNext_execRedPacketArrival {k : ℕ} {s : State} (h : s.Canonical) :
    KeepsNext (execRedPacketArrival k s) := by
  unfold execRedPacketArrival
  refine keepsNext_event (fun t ht => ?_) h
  split
  · next htakepacket =>
      split
      · exact canonical_redArrives ((canonical_takePacket ht).of_some htakepacket)
      · exact ht
  · exact ht

theorem keepsNext_execWakeDelivery {k : ℕ} {s : State} (h : s.Canonical) : KeepsNext (execWakeDelivery k s) := by
  unfold execWakeDelivery
  refine keepsNext_event (fun t ht => ?_) h
  split
  · next htakepacket =>
      split
      · exact canonical_wakeArrives ((canonical_takePacket ht).of_some htakepacket)
      · exact ht
  · exact ht

theorem keepsNext_execPostedAcknowledge {k : ℕ} {s : State} (h : s.Canonical) :
    KeepsNext (execPostedAcknowledge k s) := by
  unfold execPostedAcknowledge
  exact keepsNext_event (fun _ ht => canonical_takeAck ht) h

theorem keepsNext_execPostedRefusal {k : ℕ} {s : State} (h : s.Canonical) : KeepsNext (execPostedRefusal k s) := by
  unfold execPostedRefusal
  exact keepsNext_event (fun _ ht => canonical_takeAck ht) h

end Sys2Proof.Machine.State
end

section
/-!
PROOFS. That storage stays canonical: regions, launches, gate calls, system registers and PUBLISH (07_system_isa
R195-R209).
-/

namespace Sys2Proof.Machine.State

open Sys2Proof

/-! ## The RCB (R229, R230) -/

theorem canonical_readRcb {s : State} {tenant : ℕ} {ctx : BitVec 16} {va : ℕ} (h : s.Canonical) :
    KeepsSome (fun x => x.2.2.Canonical) (s.readRcb tenant ctx va) := by
  unfold readRcb
  split
  · exact trivial
  · split
    · exact trivial
    · next p u hp =>
      have hu : u.Canonical := (canonical_ctxPlace h).of_some hp
      have ht : (u.ctxFetch p 0 256).Canonical := canonical_ctxFetch hu
      dsimp only
      generalize u.ctxFetch p 0 256 = t at ht
      exact keepsSome_ite trivial ht

/-! ## MSI-X (22_host_compat R373) -/

theorem canonical_raiseVector {s : State} {t v : ℕ} (h : s.Canonical) : (s.raiseVector t v).Canonical := by
  unfold raiseVector
  exact h

/-! ## Completion (R244) -/

theorem canonical_writeStatus {s : State} {r : Region} {done : Bool} {code nextst : ℕ} (h : s.Canonical) :
    (s.writeStatus r done code nextst).2.Canonical := by
  unfold writeStatus
  split
  · split
    · dsimp only
      exact h
    · next hctxplace =>
        dsimp only
        exact canonical_ctxWrite (canonical_ctxWrite (canonical_ctxWrite (canonical_ctxWrite
          ((canonical_ctxPlace h).of_some hctxplace))))
  · split
    · dsimp only
      exact h
    · next hctxplace =>
        dsimp only
        exact canonical_ctxWrite (canonical_ctxWrite (canonical_ctxWrite (canonical_ctxWrite
          ((canonical_ctxPlace h).of_some hctxplace))))

theorem canonical_wakeParent {s : State} {r : Region} (h : s.Canonical) : (s.wakeParent r).Canonical := by
  unfold wakeParent
  split
  · exact canonical_deliverWake h
  · exact h

theorem canonical_interruptHost {s : State} {r : Region} (h : s.Canonical) : (s.interruptHost r).Canonical := by
  unfold interruptHost
  exact canonical_ite (canonical_raiseVector h) h

theorem canonical_close {s : State} {r : Region} (h : s.Canonical) : (s.close r).Canonical := by
  unfold close
  exact canonical_onRegion h

theorem canonical_complete {s : State} {r : Region} {code nextst ty : ℕ} (h : s.Canonical) :
    (s.complete r code nextst ty).Canonical := by
  unfold complete
  exact canonical_traceRec (canonical_interruptHost (canonical_wakeParent (canonical_writeStatus h)))

/-! ## Launch FIFOs (R231) -/

theorem canonical_setLstat {s : State} {tenant bit : ℕ} (h : s.Canonical) : (s.setLstat tenant bit).Canonical := by
  unfold setLstat
  exact h

theorem canonical_refuseUnread {s : State} {tenant n : ℕ} {l : Launch} {level : ℕ} (h : s.Canonical) :
    (s.refuseUnread tenant n l level).Canonical := by
  unfold refuseUnread
  split
  · exact canonical_deliverWake (canonical_traceRec (canonical_countFor (canonical_setLstat h)))
  · exact canonical_traceRec (canonical_countFor (canonical_setLstat h))

/-! ## Virtual time (R237) -/

theorem canonical_settleVtime {s : State} (h : s.Canonical) : s.settleVtime.Canonical := by
  unfold settleVtime
  exact h

theorem canonical_joinVtime {s : State} {t : ℕ} (h : s.Canonical) : (s.joinVtime t).Canonical := by
  unfold joinVtime
  refine canonical_ite (canonical_settleVtime h) ?_
  split
  · exact canonical_settleVtime h
  · exact canonical_of_mem (by dsimp only; exact canonical_settleVtime h)

theorem canonical_pushLaunch {s : State} {tenant n : ℕ} {l : Launch} (h : s.Canonical) :
    (s.pushLaunch tenant n l).Canonical := by
  unfold pushLaunch
  exact canonical_traceRec (canonical_countFor (canonical_of_mem (by dsimp only; exact canonical_joinVtime h)))

/-! ## Entering and leaving a Keep (R199-R201) -/

theorem canonical_setArgs {s : State} {xs : List Word} (h : s.Canonical) : (s.setArgs xs).Canonical := by
  unfold setArgs
  exact canonical_foldl h (fun _ _ ht => canonical_setReg ht)

theorem canonical_writeFrame {s : State} {n : ℕ} {ret w2 w1 : Word} {g : ℕ} (h : s.Canonical) :
    (s.writeFrame n ret w2 w1 g).Canonical := by
  unfold writeFrame
  exact canonical_wipeRange (canonical_withMem (Mem.wf_store (Mem.wf_store (Mem.wf_store (Mem.wf_store
    (Mem.wf_store h _ _ _) _ _ _) _ _ _) _ _ _) _ _ _))

theorem canonical_scrubAll {s : State} (h : s.Canonical) : s.scrubAll.Canonical := by
  unfold scrubAll
  exact canonical_wipeRange (canonical_wipeRange (canonical_wipeRange (canonical_withMem (Mem.wf_clear (Mem.wf_clear
    (Mem.wf_clear h _ _) _ _) _ _))))

theorem canonical_enter {s : State} {wp : BitVec 14} {priv : BitVec 2} {depth : BitVec 3} (h : s.Canonical) :
    (s.enter wp priv depth).Canonical := by
  unfold enter
  exact canonical_onCore h

theorem canonical_gateEnter {s : State} {g : ℕ} {w1 w2 : Word} (h : s.Canonical) :
    (s.gateEnter g w1 w2).Canonical := by
  unfold gateEnter
  exact canonical_count (canonical_wipeRange (canonical_setWord (canonical_setArgs (canonical_scrubAll
    (canonical_enter (canonical_writeFrame h))))))

theorem canonical_scrubArgs {s : State} {wp n : ℕ} (h : s.Canonical) : (s.scrubArgs wp n).Canonical := by
  unfold scrubArgs
  exact canonical_wipeRange (canonical_withMem (Mem.wf_clear h _ _))

theorem canonical_gateLeave {s : State} {counts : ℕ × ℕ} {abort : Bool} {xs : List Word} {scrub : ℕ} (h : s.Canonical)
    : (s.gateLeave counts abort xs scrub).2.Canonical := by
  unfold gateLeave
  dsimp only
  exact canonical_ite (canonical_count (canonical_setWord (canonical_setPred (canonical_foldl (canonical_wipeRange
    (canonical_wipeRange (canonical_setArgs (canonical_enter (canonical_scrubArgs h))))) (fun _ _ ht =>
    canonical_setPred ht))))) (canonical_setWord (canonical_setPred (canonical_foldl (canonical_wipeRange
    (canonical_wipeRange (canonical_setArgs (canonical_enter (canonical_scrubArgs h))))) (fun _ _ ht =>
    canonical_setPred ht))))

theorem canonical_followersReturn {s : State} {counts : ℕ × ℕ} {abort : Bool} {code ret : Word} (h : s.Canonical) :
    (s.followersReturn counts abort code ret).Canonical := by
  unfold followersReturn
  refine canonical_foldl h (fun t x ht => ?_)
  refine canonical_ite ht ?_
  exact canonical_onCore (canonical_gateLeave ht)

theorem canonical_rejoin {s : State} (h : s.Canonical) : s.rejoin.Canonical := by
  unfold rejoin
  exact canonical_ite (canonical_foldl h (fun _ _ ht => canonical_ite ht (canonical_setCoreAt ht))) h

/-! ## EXIT and YIELD (R196, R197) -/

theorem canonical_freeEntryAt {s : State} {k : ℕ} (h : s.Canonical) : (s.freeEntryAt k).Canonical := by
  unfold freeEntryAt
  exact canonical_onCore (canonical_setEntry h)

theorem canonical_endYield {s : State} {d : SReg} {x : Word} (h : s.Canonical) :
    (s.endYield d x).state.Canonical := by
  unfold endYield
  exact Res.canonical_done (canonical_onCore (canonical_setReg h))

/-! ## Meanings -/

theorem keepsNext_execLaunch {d a : SReg} {pwake : BitVec 6} {pwen : BitVec 1} {s : State} (h : s.Canonical) :
    KeepsNext (execLaunch d a pwake pwen s) := by
  unfold execLaunch
  refine keepsNext_ite (keepsNext_powered (keepsNext_next h)) (keepsNext_instrAll (fun t ht => Res.canonical_ite
    (canonical_setReg ht) ?_) h)
  split
  · exact ht
  · exact Res.canonical_ite ht ((canonical_places ht).run ht fun _ hx => Res.canonical_ite hx
      ((canonical_loadElems (canonical_acquire hx)).run hx fun _ hx' => Res.canonical_ite (canonical_setReg hx')
      (canonical_setReg (canonical_pushLaunch hx'))))

theorem keepsNext_execExit {s : State} (h : s.Canonical) : KeepsNext (execExit s) := by
  unfold execExit
  refine keepsNext_instrAll (fun t ht => ?_) h
  split
  · exact ht
  · refine Res.canonical_ite ht ?_
    split
    · refine Res.canonical_ite ?_ ht
      exact Res.canonical_asIs (canonical_takeAsync ht)
    · exact Res.canonical_asIs (canonical_onCore (canonical_retire ht))

theorem keepsNext_execYield {d : SReg} {s : State} (h : s.Canonical) : KeepsNext (execYield d s) := by
  unfold execYield
  refine keepsNext_instrAll (fun t ht => ?_) h
  split
  · exact ht
  · split
    · exact canonical_endYield ht
    · refine Res.canonical_ite ?_ ?_
      · exact canonical_endYield ht
      · split
        · refine Res.canonical_ite ?_ ht
          exact canonical_endYield ht
        · refine Res.canonical_ite ?_ ?_
          · exact canonical_endYield ht
          · exact Res.canonical_wait (canonical_onCore ht)

theorem keepsNext_execGcall {gate : BitVec 12} {s : State} (h : s.Canonical) : KeepsNext (execGcall gate s) := by
  unfold execGcall
  refine keepsNext_ite (keepsNext_powered (keepsNext_next h)) (keepsNext_instrAll (fun t ht => ?_) h)
  split
  · exact canonical_gateEnter ht
  · dsimp only
    split
    · exact ht
    · exact canonical_gateEnter ht

theorem keepsNext_execGret {a : SReg} {abort : BitVec 1} {s : State} (h : s.Canonical) :
    KeepsNext (execGret a abort s) := by
  unfold execGret
  refine keepsNext_ite ?_ ?_
  · exact keepsNext_powered (keepsNext_next h)
  · refine keepsNext_instrAll (fun t ht => ?_) h
    refine Res.canonical_ite ht ?_
    refine Res.canonical_ite ?_ ?_
    · refine Res.canonical_asIs (canonical_onCore (canonical_retireAt (canonical_ite ?_ ?_)))
      · exact canonical_followersReturn (canonical_onCore (canonical_gateLeave ht))
      · exact canonical_onCore (canonical_gateLeave ht)
    · exact Res.canonical_goto (canonical_gateLeave ht)

theorem keepsNext_execYieldTimeout {core : ℕ} {s : State} (h : s.Canonical) :
    KeepsNext (execYieldTimeout core s) := by
  have hf : ({ s with cur := core } : State).fetchNext.state.Canonical := canonical_fetchNext h
  unfold execYieldTimeout
  dsimp only
  split
  · refine keepsNext_ite ?_ (keepsNext_powered (keepsNext_next h))
    split
    · next hs => exact keepsNext_execYield (canonical_setPc (canonical_of_instr hf hs))
    · exact keepsNext_powered (keepsNext_next h)
  · exact keepsNext_powered (keepsNext_next h)

/-! ## The staged image (R207) -/

theorem canonical_addObject {s : State} {o : CodeObj} {bytes : List Byte} (h : s.Canonical) :
    (s.addObject o bytes).Canonical := by
  unfold addObject
  exact canonical_of_mem (by dsimp only; exact Mem.wf_writeBytes h _ _)

theorem canonical_publish {s : State} {d : SReg} {a c : Word} {store : Bool} (h : s.Canonical) :
    (s.publish d a c store).state.Canonical := by
  unfold publish
  refine (canonical_loadElems h).run h fun x hx => Res.canonical_ite (canonical_setReg (canonical_count hx))
    ((canonical_loadElems hx).run hx fun x' hx' => ?_)
  split
  · next hx' =>
      split
      · dsimp only
        split
        · exact canonical_setReg (canonical_count hx')
        · exact canonical_aligned.run hx' fun _ _ => canonical_storeElems hx' (fun _ ht => canonical_setReg
            (canonical_count (canonical_addObject ht)))
      · dsimp only
        split
        · exact canonical_setReg (canonical_count hx')
        · exact canonical_setReg (canonical_count (canonical_addObject hx'))

end Sys2Proof.Machine.State
end

section
/-!
PROOFS. That storage stays canonical: translation and cache maintenance, and the memory controllers (07_system_isa
R210-R217).
-/

namespace Sys2Proof.Machine.State

open Sys2Proof

/-! ## Row locators (R213, 21_memory_system R364) -/

theorem canonical_located {s : State} {w : Word} {f : ℕ → Res} (h : s.Canonical)
    (hf : ∀ (a : ℕ), (f a).state.Canonical) : (s.located w f).state.Canonical := by
  unfold located
  split
  · exact hf _
  · exact h

theorem canonical_blankRow {s : State} {pa : ℕ} (h : s.Canonical) : (s.blankRow pa).Canonical := by
  unfold blankRow
  exact canonical_foldl h (fun _ _ ht => canonical_of_mem
    (by dsimp only; exact canonical_ite (canonical_setHbmLine ht) (canonical_dropMarks (canonical_setHbmLine ht))))

theorem canonical_untrack {s : State} {pa : ℕ} (h : s.Canonical) : (s.untrack pa).Canonical := by
  unfold untrack
  split
  · exact h
  · exact h

/-! ## MSCRUB (R214) -/

theorem canonical_scrubBeat {s : State} {pa : ℕ} (h : s.Canonical) : (s.scrubBeat pa).2.2.Canonical := by
  unfold scrubBeat
  dsimp only
  split
  · exact canonical_of_mem (by dsimp only; exact canonical_countCorrected h)
  · exact canonical_of_mem (by dsimp only; exact canonical_countCorrected h)
  · exact canonical_of_mem (by dsimp only; exact canonical_postFault (canonical_countBy h))
  · exact canonical_of_mem (by dsimp only; exact canonical_postFault (canonical_countBy h))
  · exact h
  · exact h
  · exact h

theorem canonical_scrubRow {s : State} {pa : ℕ} (h : s.Canonical) : (s.scrubRow pa).2.2.Canonical := by
  have hs : (s.countBy 45 1).Canonical := canonical_countBy h
  unfold scrubRow
  dsimp only
  split
  · exact List.foldlRecOn (motive := fun x : ℕ × ℕ × State => x.2.2.Canonical) _ _ hs fun _ hx _ _ =>
      canonical_scrubBeat hx
  · exact hs

theorem canonical_scrubOn {s : State} {d : SReg} {pa n : ℕ} (h : s.Canonical) :
    (s.scrubOn d pa n).state.Canonical := by
  unfold scrubOn
  refine Res.canonical_ite ?_ ?_
  · exact Res.canonical_done (canonical_setReg (canonical_onCore h))
  · refine Res.canonical_ite ?_ ?_
    · exact Res.canonical_done (canonical_setReg (canonical_onCore h))
    · refine Res.canonical_ite ?_ ?_
      · exact Res.canonical_done (canonical_setReg (canonical_onCore (canonical_scrubRow h)))
      · exact Res.canonical_asIs (canonical_onCore (canonical_scrubRow h))

/-! ## Remapping (R215, R216, R368) -/

theorem canonical_lowerLines {s : State} {lns : List ℕ} (h : s.Canonical) : (s.lowerLines lns).2.Canonical := by
  unfold lowerLines
  exact canonical_foldl_snd h (fun _ _ hy => canonical_withMem (Mem.wf_store (canonical_keepLeases hy) _ _ _))

theorem canonical_raiseLine {s : State} {x : ℕ × BitVec 1024} (h : s.Canonical) : (s.raiseLine x).Canonical := by
  unfold raiseLine
  refine canonical_ite (canonical_ite (canonical_setSliceLine (canonical_withMem (Mem.wf_store h _ _ _))) ?_)
    (canonical_dropMarks h)
  split
  · exact canonical_setSpireAt (canonical_withMem (Mem.wf_store h _ _ _))
  · exact canonical_withMem (Mem.wf_store h _ _ _)

theorem canonical_setRemap {s : State} {ch e : ℕ} {x : Word} (h : s.Canonical) : (s.setRemap ch e x).Canonical := by
  unfold setRemap
  exact canonical_foldl (by exact canonical_of_mem (by dsimp only; exact canonical_lowerLines h)) (fun _ _ ht =>
    canonical_raiseLine ht)

theorem canonical_spareNotLive {s : State} {pa sp e : ℕ} (h : s.Canonical) : (s.spareNotLive pa sp e).Canonical := by
  unfold spareNotLive
  exact canonical_setRemap (canonical_of_mem (by dsimp only; exact Mem.wf_clear h _ _))

theorem canonical_spareBeats {s : State} {pa : ℕ} (h : s.Canonical) : (s.spareBeats pa).2.Canonical := by
  unfold spareBeats
  refine canonical_foldl_snd h (fun y x hy => ?_)
  dsimp only
  split
  · exact canonical_snd (canonical_postFault (canonical_countBy hy))
  · exact canonical_snd (canonical_postFault (canonical_countBy hy))
  · exact canonical_snd (canonical_countBy hy)
  · exact canonical_snd (canonical_countBy hy)
  · exact hy
  · exact hy
  · exact hy

theorem canonical_spareTakes {s : State} {ch : ℕ} {c : SpareCopy} (h : s.Canonical) :
    (s.spareTakes ch c).Canonical := by
  have hv : ((s.spareBeats (c.row * 1024)).2.untrack (c.row * 1024)).Canonical := canonical_untrack
    (canonical_spareBeats h)
  unfold spareTakes
  refine canonical_countBy (canonical_setRemap (canonical_of_mem ?_))
  dsimp only
  exact List.foldlRecOn (motive := fun m => Mem.wf m = true) _ _ hv fun m hm k _ => Mem.wf_store hm _ _ _

theorem canonical_spareEnd {s : State} {ch : ℕ} (h : s.Canonical) : (s.spareEnd ch).Canonical := by
  unfold spareEnd
  split
  · exact h
  · split
    · dsimp only
      split
      · exact canonical_ite (canonical_setCoreAt (canonical_actFor h (fun _ ht => canonical_spareTakes ht)))
          (canonical_actFor h (fun _ ht => canonical_spareTakes ht))
      · exact canonical_actFor h (fun _ ht => canonical_spareTakes ht)
    · dsimp only
      split
      · exact canonical_ite (canonical_setCoreAt (canonical_actFor h (fun _ ht => canonical_spareTakes ht)))
          (canonical_actFor h (fun _ ht => canonical_spareTakes ht))
      · exact canonical_actFor h (fun _ ht => canonical_spareTakes ht)

theorem canonical_spareRow {s : State} {d : SReg} {pa sp : ℕ} (h : s.Canonical) :
    (s.spareRow d pa sp).state.Canonical := by
  unfold spareRow
  split
  · exact Res.canonical_done (canonical_setReg (canonical_onCore h))
  · exact h
  · split
    · exact Res.canonical_done (canonical_setReg h)
    · refine Res.canonical_ite ?_ ?_
      · exact Res.canonical_done (canonical_setReg (canonical_spareNotLive h))
      · exact Res.canonical_wait (canonical_onCore h)

/-! ## MLIVE (R217) -/

theorem canonical_markRow {s : State} {pa : ℕ} {on : Bool} (h : s.Canonical) : (s.markRow pa on).Canonical := by
  unfold markRow
  exact canonical_ite (canonical_of_mem (by dsimp only; exact canonical_blankRow h)) (canonical_untrack
    (canonical_of_mem (by dsimp only; exact canonical_blankRow h)))

theorem canonical_markRows {s : State} {d : SReg} {pa n : ℕ} {on : Bool} (h : s.Canonical) :
    (s.markRows d pa n on).state.Canonical := by
  unfold markRows
  exact Res.canonical_ite h (canonical_setReg (canonical_foldl h (fun _ _ ht => canonical_markRow ht)))

theorem canonical_writeBeat {s : State} {b : ℕ} {x : BitVec 256} (h : s.Canonical) : (s.writeBeat b x).Canonical := by
  unfold writeBeat
  exact canonical_ite (canonical_of_mem (by dsimp only; exact canonical_setHbmLine (canonical_touchRow h)))
    (canonical_of_mem (by dsimp only; exact canonical_setHbmLine (canonical_touchRow h)))

/-! ## LFLUSH (R211) -/

theorem canonical_flushPlace {s : State} {base : ℕ} (h : s.Canonical) :
    KeepsSome (fun x => x.2.Canonical) (s.flushPlace base) := by
  have ht (acc : Acc) := canonical_translate (spire := s.mySpire) (tenant := s.core.tenant) (ctx := s.ctx)
    (acc := acc) (va := base) h
  exact KeepsSome.map (f := fun p : Place × State => (p.1.loc, p.2)) (((ht .load).or (ht .store)).or (ht .fetch))

theorem canonical_flushPages {s : State} {va len : ℕ} (h : s.Canonical) : (s.flushPages va len).2.Canonical := by
  unfold flushPages
  refine canonical_ite_snd h (canonical_foldl_snd h (fun y x hy => ?_))
  dsimp only
  split
  · next hflushplace => exact canonical_snd ((canonical_flushPlace hy).of_some hflushplace)
  · exact hy

theorem canonical_flushLine {s : State} {sp ln : ℕ} {inv : Bool} (h : s.Canonical) :
    (s.flushLine sp ln inv).Canonical := by
  unfold flushLine
  exact canonical_ite (canonical_returnLine (canonical_ite (canonical_count (canonical_writeToSlice h)) h))
    (canonical_ite (canonical_count (canonical_writeToSlice h)) h)

theorem canonical_flushRange {s : State} {va len : ℕ} {inv : Bool} {reach : ℕ} (h : s.Canonical) :
    (s.flushRange va len inv reach).Canonical := by
  unfold flushRange
  exact canonical_ite (canonical_foldl (canonical_foldl (canonical_foldl (canonical_flushPages h) (fun _ _ ht =>
    canonical_ite (canonical_foldl ht (fun _ _ ht' => canonical_ite (canonical_flushLine ht') ht')) ht))
    (fun _ _ ht => canonical_ite (canonical_ite (canonical_leaveSet (canonical_evictAt ht)) ht) ht)) (fun _ _ ht =>
    canonical_ite (canonical_leaveSet (canonical_evictAt ht)) ht)) (canonical_foldl (canonical_flushPages h)
    (fun _ _ ht => canonical_ite (canonical_foldl ht (fun _ _ ht' => canonical_ite
    (canonical_flushLine ht') ht')) ht))

/-! ## TLBINV (R210) -/

theorem canonical_dropTlb {s : State} {ctx : Option (BitVec 16)} {va : Option ℕ} {reach : ℕ} (h : s.Canonical) :
    (s.dropTlb ctx va reach).Canonical := by
  unfold dropTlb
  exact h

/-! ## L2CFG (R212) -/

theorem canonical_zeroWay {s : State} {sl w : ℕ} (h : s.Canonical) : (s.zeroWay sl w).Canonical := by
  unfold zeroWay
  exact canonical_of_mem (by dsimp only; exact Mem.wf_clear h _ _)

theorem canonical_emptyWay {s : State} {sl w : ℕ} (h : s.Canonical) : (s.emptyWay sl w).Canonical := by
  unfold emptyWay
  refine canonical_foldl h (fun t x ht => ?_)
  split
  · exact canonical_leaveSet (canonical_evictAt ht)
  · exact ht

theorem canonical_convertWays {s : State} {sl tenant : ℕ} {mask : BitVec 16} {toScratch : Bool} (h : s.Canonical) :
    (s.convertWays sl tenant mask toScratch).2.Canonical := by
  unfold convertWays
  exact canonical_ite_snd h (canonical_ite_snd (canonical_ite_snd h (canonical_setSliceAt (canonical_foldl h
    (fun _ _ ht => canonical_emptyWay ht)))) (canonical_setSliceAt (canonical_foldl h (fun _ _ ht =>
    canonical_zeroWay ht))))

/-! ## Meanings -/

theorem keepsNext_execTlbinv {g : Guard} {a b : SReg} {kind reach : BitVec 2} {s : State} (h : s.Canonical) :
    KeepsNext (execTlbinv g a b kind reach s) := by
  unfold execTlbinv
  refine keepsNext_instr (fun t ht => ?_) h
  split
  · split
    · split
      · exact Res.canonical_done (canonical_count ht)
      · refine Res.canonical_ite ?_ ?_
        · exact Res.canonical_wait (canonical_dropTlb ht)
        · exact Res.canonical_done (canonical_count (canonical_dropTlb ht))
    · split
      · exact Res.canonical_done (canonical_count ht)
      · refine Res.canonical_ite ?_ ?_
        · exact Res.canonical_wait (canonical_dropTlb ht)
        · exact Res.canonical_done (canonical_count (canonical_dropTlb ht))
  · split
    · split
      · exact Res.canonical_done (canonical_count ht)
      · refine Res.canonical_ite ?_ ?_
        · exact Res.canonical_wait (canonical_dropTlb ht)
        · exact Res.canonical_done (canonical_count (canonical_dropTlb ht))
    · split
      · exact Res.canonical_done (canonical_count ht)
      · refine Res.canonical_ite ?_ ?_
        · exact Res.canonical_wait (canonical_dropTlb ht)
        · exact Res.canonical_done (canonical_count (canonical_dropTlb ht))

theorem keepsNext_execTlbWalkComplete {spire tenant : ℕ} {ctx : BitVec 16} {va : Word} {s : State} (h : s.Canonical) :
    KeepsNext (execTlbWalkComplete spire tenant ctx va s) := by
  unfold execTlbWalkComplete
  refine keepsNext_event (fun t ht => ?_) h
  split
  · next hwalk => exact canonical_countFor (canonical_fillTlb (canonical_of_snd (canonical_walk ht) hwalk))
  · next hwalk => exact canonical_countFor (canonical_countFor (canonical_of_snd (canonical_walk ht) hwalk))
  · exact ht

theorem keepsNext_execHbmDemandAccess {pa : ℕ} {data : Option (BitVec 256)} {s : State} (h : s.Canonical) :
    KeepsNext (execHbmDemandAccess pa data s) := by
  unfold execHbmDemandAccess
  refine keepsNext_event (fun t ht => ?_) h
  split
  · exact canonical_demandBeat ht
  · exact canonical_countBy (canonical_writeBeat ht)

theorem keepsNext_execTrackerLeak {s : State} (h : s.Canonical) : KeepsNext (execTrackerLeak s) := by
  unfold execTrackerLeak
  exact keepsNext_event (fun _ ht => canonical_ite ht ht) h

theorem keepsNext_execMspareCopyEnd {channel : ℕ} {s : State} (h : s.Canonical) :
    KeepsNext (execMspareCopyEnd channel s) := by
  unfold execMspareCopyEnd
  exact keepsNext_event (fun _ ht => canonical_spareEnd ht) h

end Sys2Proof.Machine.State
end

section
/-!
PROOFS. That storage stays canonical: the slot table, dispatch and the gang switch (07_system_isa R220, R221).
-/

namespace Sys2Proof.Machine.State

open Sys2Proof

/-! ## Bind records (R240) -/

theorem canonical_releaseSlots {s : State} {sps : List ℕ} (h : s.Canonical) : (s.releaseSlots sps).Canonical := by
  unfold releaseSlots
  exact h

/-! ## Banks of a Spire -/

theorem canonical_closeStreams {s : State} {sp : ℕ} (h : s.Canonical) : (s.closeStreams sp).Canonical := by
  unfold closeStreams
  exact canonical_setDomeAt h

/-! ## A fresh start (R241) -/

theorem canonical_putCells {s : State} {loc n : ℕ} {cs : List Host.Cell} (h : s.Canonical) :
    (s.putCells loc n cs).Canonical :=
  canonical_withMem (List.foldlRecOn (motive := fun m => Mem.wf m = true) _ _ (Mem.wf_clear h _ _) fun _ hm _ _ =>
    Mem.wf_write hm _ _)

theorem canonical_freshWorkspace {s : State} {c : ℕ} {e : BitVec 512} {rcb : BitVec 2048} {image : List Host.Cell}
    {wake : Word}
    (h : s.Canonical) : (s.freshWorkspace c e rcb image wake).Canonical := by
  have hargs : Mem.wf ((List.range 4).foldl (fun m k => Mem.store m (wsLoc c 0 + 8 * (k + 1)) 8 (Rcb.arg rcb k))
      (Mem.clear s.mem (wsLoc c 0) 1536)) = true :=
    List.foldlRecOn (motive := fun m => Mem.wf m = true) _ _ (Mem.wf_clear h _ _) fun _ hm _ _ =>
      Mem.wf_store hm _ _ _
  unfold freshWorkspace
  refine canonical_putCells (canonical_withMem ?_)
  refine Mem.wf_store (Mem.wf_store (Mem.wf_store (Mem.wf_store ?_ _ _ _) _ _ _) _ _ _) _ _ _
  exact Mem.wf_store (Mem.wf_store (Mem.wf_store hargs _ _ _) _ _ _) _ _ _

theorem canonical_takeMailbox {s : State} {r : Region} {lc : ℕ} (h : s.Canonical) :
    (s.takeMailbox r lc).2.2.Canonical := by
  unfold takeMailbox
  split
  · next hmailbox =>
      exact canonical_onRegion (canonical_ctxWrite (canonical_ctxFetch ((canonical_mailbox h).of_some hmailbox)))
  · exact h

theorem canonical_startCore {s : State} {r : Region} {e : BitVec 512} {image : List Host.Cell} {ls c : ℕ}
    (h : s.Canonical) : (s.startCore r e image ls c).Canonical := by
  unfold startCore
  exact canonical_ite (canonical_setCoreAt (canonical_freshWorkspace (canonical_takeMailbox h)))
    (canonical_setCoreAt h)

theorem canonical_startSpire {s : State} {r : Region} {image : List Host.Cell} {ls sp : ℕ} (h : s.Canonical) :
    (s.startSpire r image ls sp).Canonical := by
  unfold startSpire
  exact canonical_foldl (canonical_dropBstats (canonical_closeStreams (canonical_setSpireAt h))) (fun _ _ ht =>
    canonical_startCore ht)

theorem canonical_setBarriers {s : State} {sp0 : ℕ} {f : ℕ → BObj} (h : s.Canonical) :
    (s.setBarriers sp0 f).Canonical := by
  unfold setBarriers
  exact canonical_foldl (by exact h) (fun _ _ ht => canonical_setBarrier ht)

theorem canonical_adopt {s : State} {e : BitVec 512} {sps : List ℕ} (h : s.Canonical) :
    KeepsSome (fun x => x.2.Canonical) (s.adopt e sps) := by
  unfold adopt
  refine keepsSome_ite trivial (KeepsSome.map ((canonical_readRcb h).mono fun x hx => ?_))
  refine canonical_of_mem ?_
  dsimp only
  exact canonical_settleVtime hx

/-! ## Owed flushes (R245) -/

theorem canonical_flushRegion {s : State} {sp r : ℕ} (h : s.Canonical) : (s.flushRegion sp r).Canonical := by
  unfold flushRegion
  exact canonical_foldl h (fun _ _ ht => canonical_writeToSlice ht)

theorem canonical_flushEverywhere {s : State} {r : ℕ} (h : s.Canonical) : (s.flushEverywhere r).Canonical := by
  unfold flushEverywhere
  exact canonical_foldl h (fun _ _ ht => canonical_flushRegion ht)

theorem canonical_flushOwed {s : State} {rs : List ℕ} (h : s.Canonical) : (s.flushOwed rs).Canonical := by
  unfold flushOwed
  exact canonical_of_mem (by dsimp only; exact canonical_foldl h (fun _ _ ht => canonical_flushEverywhere ht))

theorem canonical_flushChain {s : State} {before : Option ℕ} (h : s.Canonical) : (s.flushChain before).Canonical := by
  unfold flushChain
  dsimp only
  split
  · exact h
  · exact canonical_flushOwed h

/-! ## Flushes at placement (R245) -/

theorem canonical_settleFlush {s : State} {r : Region} {sps : List ℕ} (h : s.Canonical) :
    (s.settleFlush r sps).Canonical := by
  unfold settleFlush
  exact canonical_ite (canonical_countFor h) (canonical_ite h (canonical_countFor (canonical_flushOwed h)))

theorem canonical_bindFlush {s : State} {e : BitVec 512} {sp : ℕ} (h : s.Canonical) :
    (s.bindFlush e sp).Canonical := by
  unfold bindFlush
  split
  · split
    · exact h
    · exact canonical_ite h (canonical_countFor (canonical_flushOwed h))
  · split
    · exact h
    · exact canonical_ite h (canonical_countFor (canonical_flushOwed h))

theorem canonical_placedRegion {s : State} {part : ℕ} {sps : List ℕ} (h : s.Canonical) :
    KeepsSome (fun x => x.2.Canonical) (s.placedRegion part sps) := by
  unfold placedRegion
  split
  · exact canonical_settleVtime h
  · dsimp only
    split
    · exact canonical_settleVtime (canonical_settleFlush h)
    · exact KeepsSome.map ((canonical_adopt h).mono fun _ hx => canonical_settleFlush hx)

theorem canonical_writeStart {s : State} {r : Region} (h : s.Canonical) : (s.writeStart r).Canonical := by
  unfold writeStart
  split
  · next hctxplace => exact canonical_ctxWrite ((canonical_ctxPlace h).of_some hctxplace)
  · exact h

theorem canonical_nowRunning {s : State} {id : ℕ} (h : s.Canonical) : (s.nowRunning id).Canonical := by
  unfold nowRunning
  exact canonical_onRegion h

theorem canonical_freshStart {s : State} {part : ℕ} (h : s.Canonical) : (s.freshStart part).Canonical := by
  unfold freshStart
  split
  · exact h
  · split
    · exact h
    · next hplacedregion =>
        exact canonical_traceRec (canonical_writeStart (canonical_nowRunning (canonical_onRegion (canonical_foldl
          (canonical_setBarriers ((canonical_placedRegion h).of_some hplacedregion)) (fun _ _ ht =>
          canonical_startSpire ht)))))

/-! ## Arming (R221) -/

theorem canonical_armSwitch {s : State} {part t : ℕ} (h : s.Canonical) :
    KeepsSome (fun x => x.2.Canonical) (s.armSwitch part t) := by
  unfold armSwitch
  split
  · exact trivial
  · exact h

theorem canonical_armRegion {s : State} {r : Region} (h : s.Canonical) : (s.armRegion r).Canonical := by
  unfold armRegion
  split
  · next harmswitch => exact (canonical_armSwitch h).of_some harmswitch
  · exact h

/-! ## YIELD (07_system_isa R197) -/

theorem canonical_armYields {s : State} (h : s.Canonical) : s.armYields.Canonical := by
  unfold armYields
  exact canonical_foldl h (fun _ _ ht => canonical_armRegion ht)

/-! ## Stopping and saving (R316-R319) -/

theorem canonical_withdrawOps {s : State} {sp : ℕ} (h : s.Canonical) : (s.withdrawOps sp).Canonical := by
  unfold withdrawOps
  refine canonical_foldl h (fun t x ht => canonical_foldl ht (fun t' x' ht' => ?_))
  dsimp only
  split
  · exact canonical_ite (canonical_setCoreAt (canonical_completeOp ht')) ht'
  · exact ht'

theorem canonical_writeSavedPc {s : State} {c : ℕ} (h : s.Canonical) : (s.writeSavedPc c).Canonical := by
  unfold writeSavedPc
  dsimp only
  split
  · exact h
  · exact h
  · exact canonical_withMem (Mem.wf_store h _ _ _)

theorem canonical_writeSaveArea {s : State} {r : Region} {agreed : ℕ} (h : s.Canonical) :
    (s.writeSaveArea r agreed).Canonical := by
  unfold writeSaveArea
  exact canonical_foldl (canonical_putWords h) (fun _ _ ht => canonical_foldl ht (fun _ _ ht' =>
    canonical_putWords ht'))

theorem canonical_saveOut {s : State} {r : Region} {agreed : ℕ} (h : s.Canonical) :
    (s.saveOut r agreed).Canonical := by
  unfold saveOut
  exact canonical_traceRec (canonical_countFor (canonical_of_mem
    (by dsimp only; exact canonical_onRegion (canonical_releaseSlots (canonical_settleVtime (canonical_foldl
    (by exact canonical_of_mem (by dsimp only; exact canonical_countFor (canonical_writeSaveArea (canonical_foldl
    (canonical_settleObjects h) (fun _ _ ht => canonical_foldl ht (fun _ _ ht' => canonical_withdraw
    (canonical_writeSavedPc ht'))))))) (fun _ _ ht => canonical_foldl (canonical_ite (canonical_closeStreams
    (canonical_setSpireAt ht)) (canonical_setSpireAt ht)) (fun _ _ ht' => canonical_setCoreAt ht'))))))))

theorem canonical_noteStops {s : State} (h : s.Canonical) : s.noteStops.Canonical := by
  unfold noteStops
  exact canonical_ite (canonical_armYields h) (canonical_of_mem (by dsimp only; exact canonical_armYields h))

theorem canonical_switchOut {s : State} {part : ℕ} (h : s.Canonical) : (s.switchOut part).Canonical := by
  unfold switchOut
  split
  · exact canonical_ite (canonical_ite (canonical_saveOut (canonical_foldl h (fun _ _ ht =>
      canonical_withdrawOps ht))) h) h
  · exact h

/-! ## Resumption (R320, R287, R303) -/

theorem canonical_restoreSpire {s : State} {keep : Bool} {wd : Option Word} {sp : ℕ} {v : SavedSpire}
    (h : s.Canonical) : (s.restoreSpire keep wd sp v).Canonical := by
  unfold restoreSpire
  exact canonical_ite (canonical_of_mem (by dsimp only; exact canonical_setDomeAt (canonical_putCells
    (canonical_of_mem (by dsimp only; exact canonical_foldl (canonical_closeStreams (canonical_setSpireAt
    (canonical_putCells h))) (fun _ _ ht => canonical_setCoreAt ht)))))) (canonical_of_mem
    (by dsimp only; exact canonical_foldl (canonical_closeStreams (canonical_setSpireAt
    (canonical_putCells h))) (fun _ _ ht => canonical_setCoreAt ht)))

theorem canonical_resumePart {s : State} {part : ℕ} (h : s.Canonical) : (s.resumePart part).Canonical := by
  unfold resumePart
  split
  · exact h
  · split
    · exact h
    · split
      · exact h
      · exact canonical_traceRec (canonical_nowRunning (canonical_onRegion (canonical_of_mem
          (by dsimp only; exact canonical_ite (canonical_setBarriers (canonical_foldl (canonical_settleVtime h)
          (fun _ _ ht => canonical_restoreSpire ht))) (canonical_foldl (canonical_settleVtime h) (fun _ _ ht =>
          canonical_restoreSpire ht))))))

/-! ## Meanings -/

theorem keepsNext_execBind {g : Guard} {d a b : SReg} {s : State} (h : s.Canonical) :
    KeepsNext (execBind g d a b s) := by
  unfold execBind
  exact keepsNext_instr (fun _ ht => canonical_aligned.run ht fun _ hx => (canonical_loadElems ht).run ht fun _ hx =>
    Res.canonical_ite (canonical_setReg hx) (Res.canonical_ite (canonical_setReg hx) (canonical_setReg
    (canonical_of_mem (by dsimp only; exact canonical_bindFlush hx))))) h

theorem keepsNext_execGswitchCancel {g : Guard} {d a b : SReg} {s : State} (h : s.Canonical) :
    KeepsNext (execGswitchCancel g d a b s) := by
  unfold execGswitchCancel
  refine keepsNext_instr (fun t ht => ?_) h
  dsimp only
  split
  · exact Res.canonical_ite (canonical_setReg ht) (canonical_setReg ht)
  · exact canonical_setReg ht

theorem keepsNext_execGswitchArm {g : Guard} {d a b : SReg} {s : State} (h : s.Canonical) :
    KeepsNext (execGswitchArm g d a b s) := by
  unfold execGswitchArm
  refine keepsNext_instr (fun t ht => ?_) h
  split
  · next harmswitch => exact canonical_setReg ((canonical_armSwitch ht).of_some harmswitch)
  · exact canonical_setReg ht

theorem keepsNext_execDispatchFreshStart {part : ℕ} {s : State} (h : s.Canonical) :
    KeepsNext (execDispatchFreshStart part s) := by
  unfold execDispatchFreshStart
  exact keepsNext_event (fun _ ht => canonical_freshStart ht) h

theorem keepsNext_execPartitionResume {part : ℕ} {s : State} (h : s.Canonical) :
    KeepsNext (execPartitionResume part s) := by
  unfold execPartitionResume
  exact keepsNext_event (fun _ ht => canonical_resumePart ht) h

theorem keepsNext_execGangSwitch {part : ℕ} {s : State} (h : s.Canonical) : KeepsNext (execGangSwitch part s) := by
  unfold execGangSwitch
  exact keepsNext_event (fun _ ht => canonical_switchOut ht) h

end Sys2Proof.Machine.State
end

section
/-!
PROOFS. That storage stays canonical: the management block and the Belfry (22_host_compat R375-R386).
-/

namespace Sys2Proof.Machine.State

open Sys2Proof

/-! ## Semaphores (R375, R376) -/

theorem canonical_reply {s : State} {port : Bool} {bs : List Byte} (h : s.Canonical) :
    (s.reply port bs).Canonical := by
  unfold reply
  exact h

theorem canonical_take1 {s : State} {port : Bool} {n : ℕ} (h : s.Canonical) : (s.take1 port n).Canonical := by
  unfold take1
  exact canonical_ite (canonical_reply h) (canonical_of_mem (by dsimp only; exact canonical_reply h))

theorem canonical_semWrite {s : State} {port : Bool} {n : ℕ} {v : Word} (h : s.Canonical) :
    (s.semWrite port n v).Canonical := by
  unfold semWrite
  exact canonical_ite h (canonical_ite h (canonical_countFor h))

theorem canonical_semAccess {s : State} {port : Bool} {n : ℕ} {a : SemAccess} (h : s.Canonical) :
    (s.semAccess port n a).Canonical := by
  unfold semAccess
  split
  · exact canonical_take1 h
  · exact canonical_reply h
  · exact canonical_semWrite h

theorem canonical_semTie {s : State} {n : ℕ} {a b : SemAccess} (h : s.Canonical) : (s.semTie n a b).Canonical := by
  unfold semTie
  exact canonical_ite h (canonical_of_mem (by dsimp only; exact canonical_semAccess (canonical_semAccess h)))

theorem canonical_semTake {s : State} {port : Bool} {n : ℕ} {tie : Bool} (h : s.Canonical) :
    (s.semTake port n tie).Canonical := by
  unfold semTake
  exact canonical_ite h (canonical_ite (canonical_semTie h) (canonical_take1 h))

theorem canonical_portReset {s : State} {port : Bool} (h : s.Canonical) : (s.portReset port).Canonical := by
  unfold portReset
  exact h

/-! ## The Belfry mailbox (R377) -/

theorem canonical_command {s : State} {port : Bool} {c : Command} (h : s.Canonical) :
    (s.command port c).Canonical := by
  unfold command
  exact canonical_ite h h

theorem canonical_setRecord {s : State} {t lo n x : ℕ} (h : s.Canonical) : (s.setRecord t lo n x).Canonical := by
  unfold setRecord
  exact h

theorem canonical_putShare {s : State} {t : ℕ} {share : BitVec 8} (h : s.Canonical) :
    (s.putShare t share).Canonical := by
  unfold putShare
  exact canonical_ite h (canonical_setRecord (canonical_settleVtime h))

theorem canonical_putWdcfg {s : State} {t n : ℕ} {v : Word} (h : s.Canonical) : (s.putWdcfg t n v).Canonical := by
  unfold putWdcfg
  exact canonical_ite h (canonical_setRecord h)

theorem canonical_traceControl {s : State} {enable : Bool} {base log2 : ℕ} (h : s.Canonical) :
    (s.traceControl enable base log2).Canonical := by
  unfold traceControl
  exact canonical_ite (canonical_ite (canonical_traceHeader (canonical_poke h)) h) h

theorem canonical_carryOut {s : State} {c : Command} (h : s.Canonical) : (s.carryOut c).Canonical := by
  unfold carryOut
  split
  · exact canonical_putShare h
  · exact canonical_putWdcfg h
  · exact canonical_traceControl h
  · exact canonical_reply h

theorem canonical_applyCommands {s : State} (h : s.Canonical) : s.applyCommands.Canonical := by
  unfold applyCommands
  exact canonical_foldl (by exact h) (fun _ _ ht => canonical_carryOut ht)

/-! ## The launch block (R231, 22_host_compat R373) -/

theorem canonical_launchWrite {s : State} {port : Bool} {tenant n : ℕ} {v : Word} (h : s.Canonical) :
    (s.launchWrite port tenant n v).Canonical := by
  unfold launchWrite
  exact canonical_ite h (canonical_ite (canonical_setLstat h) (canonical_ite (canonical_countFor
    (canonical_setLstat h)) (canonical_pushLaunch h)))

theorem canonical_lstatWrite {s : State} {port : Bool} {tenant : ℕ} {v : Word} (h : s.Canonical) :
    (s.lstatWrite port tenant v).Canonical := by
  unfold lstatWrite
  exact canonical_ite h h

/-! ## Taking an entry (R230, R231, R233) -/

theorem canonical_takeLaunch {s : State} {tenant n : ℕ} {l : Launch} (h : s.Canonical) :
    (s.takeLaunch tenant n l).Canonical := by
  unfold takeLaunch
  split
  · exact canonical_refuseUnread (canonical_flushChain (canonical_countFor h))
  · next hreadrcb =>
      dsimp only
      split
      · exact canonical_countFor (canonical_complete (canonical_flushChain (canonical_countFor
          ((canonical_readRcb h).of_some hreadrcb))))
      · exact canonical_of_mem (by dsimp only; exact (canonical_readRcb h).of_some hreadrcb)

theorem canonical_refuseCodeless {s : State} (h : s.Canonical) : s.refuseCodeless.Canonical := by
  unfold refuseCodeless
  refine canonical_foldl h (fun t x ht => ?_)
  split
  · exact canonical_close (canonical_countFor (canonical_complete (canonical_flushChain (canonical_countWaits ht))))
  · exact ht

theorem canonical_takeAll {s : State} (h : s.Canonical) : s.takeAll.Canonical := by
  unfold takeAll
  exact canonical_foldl h (fun _ _ ht => canonical_ite ht (canonical_foldl (by exact ht) (fun _ _ ht' =>
    canonical_takeLaunch ht')))

/-! ## Placement (R228, R235, R240) -/

theorem canonical_bindRegion {s : State} {r : Region} {sps : List ℕ} (h : s.Canonical) :
    (s.bindRegion r sps).Canonical := by
  unfold bindRegion
  split
  · exact h
  · exact canonical_onRegion (canonical_of_mem (by dsimp only; exact canonical_countFor (canonical_ite
      (canonical_settleVtime (canonical_settleFlush h)) (canonical_traceRec (canonical_countFor (canonical_writeStatus
      (canonical_settleVtime (canonical_settleFlush h))))))))

/-! ## Admission (R238) -/

theorem canonical_admitRanked {order : List ℕ} {rs : List Region} {head : Option Region} {s : State} (h : s.Canonical)
    :
    (admitRanked order rs head s).2.Canonical := by
  induction rs generalizing head s with
  | nil => exact h
  | cons r rs ih =>
    unfold admitRanked
    refine canonical_ite_snd (ih h) ?_
    split
    · exact ih h
    · exact ih (canonical_ite (canonical_bindRegion h) h)

/-! ## Pre-emption (R239) -/

theorem canonical_preemptFor {s : State} {h : Region} {order : List ℕ} (hs : s.Canonical) :
    (s.preemptFor h order).Canonical := by
  unfold preemptFor
  dsimp only
  split
  · exact hs
  · exact canonical_foldl hs (fun _ _ ht => canonical_countFor (canonical_armRegion ht))

theorem canonical_admission {s : State} {order : List ℕ} (h : s.Canonical) : (s.admission order).Canonical := by
  unfold admission
  refine canonical_armYields ?_
  split
  · exact canonical_preemptFor (canonical_admitRanked (canonical_countFor (canonical_refuseCodeless (canonical_takeAll
      (canonical_applyCommands h)))))
  · exact canonical_admitRanked (canonical_countFor (canonical_refuseCodeless (canonical_takeAll
      (canonical_applyCommands h))))

/-! ## Ageing (R236) -/

theorem canonical_ageRegion {s : State} {id : ℕ} (h : s.Canonical) : (s.ageRegion id).Canonical := by
  unfold ageRegion
  split
  · exact h
  · exact canonical_ite (canonical_onRegion (canonical_ite (canonical_countFor (canonical_countFor h))
      (canonical_countFor h))) h

/-! ## Retirement (R244, R245) -/

theorem canonical_nextOf {s : State} {r : Region} (h : s.Canonical) : (s.nextOf r).2.Canonical := by
  unfold nextOf
  split
  · next hctxplace =>
      dsimp only
      exact canonical_ctxFetch ((canonical_ctxPlace h).of_some hctxplace)
  · exact h

theorem canonical_successor {s : State} {r : Region} (h : s.Canonical) : (s.successor r).2.2.Canonical := by
  have hn : (s.nextOf r).2.Canonical := canonical_nextOf h
  unfold successor
  dsimp only
  split
  · exact hn
  · split
    · exact hn
    · split
      · exact canonical_refuseUnread hn
      · next hr =>
        have hu := (canonical_readRcb hn).of_some hr
        split
        · exact hu
        · exact hu

theorem canonical_releaseEngines {s : State} {r : Region} (h : s.Canonical) : (s.releaseEngines r).Canonical := by
  unfold releaseEngines
  exact canonical_unpinAll (canonical_foldl h (fun _ _ ht => canonical_setSpireAt ht))

theorem canonical_releaseFlush {s : State} {r : Region} {defer : Bool} (h : s.Canonical) :
    (s.releaseFlush r defer).Canonical := by
  unfold releaseFlush
  exact canonical_ite (canonical_foldl h (fun _ _ ht => canonical_setSpireAt ht)) (canonical_countFor
    (canonical_flushOwed h))

theorem canonical_retireSteps {s : State} {r : Region} (h : s.Canonical) : (s.retireSteps r).Canonical := by
  unfold retireSteps
  refine canonical_of_mem ?_
  dsimp only
  refine canonical_close (canonical_releaseSlots (canonical_settleVtime (canonical_traceRec (canonical_interruptHost
    (canonical_wakeParent ?_)))))
  split
  · exact canonical_pushLaunch (canonical_writeStatus (canonical_releaseFlush (canonical_successor
      (canonical_releaseEngines h))))
  · exact canonical_writeStatus (canonical_releaseFlush (canonical_successor (canonical_releaseEngines h)))

theorem canonical_retireUnplaced {s : State} {r : Region} (h : s.Canonical) : (s.retireUnplaced r).Canonical := by
  unfold retireUnplaced
  split
  · dsimp only
    split
    · exact canonical_close (canonical_refuseUnread (canonical_flushChain h))
    · next hreadrcb =>
        exact canonical_close (canonical_complete ((canonical_readRcb (canonical_flushChain h)).of_some hreadrcb))
  · dsimp only
    split
    · exact canonical_close (canonical_refuseUnread (canonical_flushChain h))
    · next hreadrcb =>
        exact canonical_close (canonical_complete ((canonical_readRcb (canonical_flushChain h)).of_some hreadrcb))

theorem canonical_retireRegion {s : State} {id : ℕ} (h : s.Canonical) : (s.retireRegion id).Canonical := by
  unfold retireRegion
  split
  · exact h
  · exact canonical_ite (canonical_retireUnplaced h) (canonical_ite (canonical_retireSteps h) h)

/-! ## Budgets and watchdogs (R246, R247) -/

theorem canonical_killIf {s : State} {id code : ℕ} {test : Region → Bool} (h : s.Canonical) :
    (s.killIf id code test).Canonical := by
  unfold killIf
  split
  · exact canonical_ite (canonical_kill h) h
  · exact h

theorem canonical_watchdog {s : State} {id : ℕ} (h : s.Canonical) : (s.watchdog id).Canonical := by
  unfold watchdog
  split
  · exact h
  · exact canonical_ite (canonical_ite (canonical_countFor (canonical_armRegion (canonical_onRegion h)))
      (canonical_onRegion h)) h

/-! ## Meanings -/

theorem keepsNext_execBelfryAdmission {order : List ℕ} {s : State} (h : s.Canonical) :
    KeepsNext (execBelfryAdmission order s) := by
  unfold execBelfryAdmission
  exact keepsNext_event (fun _ ht => canonical_admission ht) h

theorem keepsNext_execAgeingStep {region : ℕ} {s : State} (h : s.Canonical) :
    KeepsNext (execAgeingStep region s) := by
  unfold execAgeingStep
  exact keepsNext_event (fun _ ht => canonical_ageRegion ht) h

theorem keepsNext_execRegionRetire {region : ℕ} {s : State} (h : s.Canonical) :
    KeepsNext (execRegionRetire region s) := by
  unfold execRegionRetire
  exact keepsNext_event (fun _ ht => canonical_retireRegion ht) h

theorem keepsNext_execMaxrunExpiry {region : ℕ} {s : State} (h : s.Canonical) :
    KeepsNext (execMaxrunExpiry region s) := by
  unfold execMaxrunExpiry
  exact keepsNext_event (fun _ ht => canonical_killIf ht) h

theorem keepsNext_execGstepsExpiry {region : ℕ} {s : State} (h : s.Canonical) :
    KeepsNext (execGstepsExpiry region s) := by
  unfold execGstepsExpiry
  exact keepsNext_event (fun _ ht => canonical_killIf ht) h

theorem keepsNext_execWatchdogTimeout {region : ℕ} {s : State} (h : s.Canonical) :
    KeepsNext (execWatchdogTimeout region s) := by
  unfold execWatchdogTimeout
  exact keepsNext_event (fun _ ht => canonical_watchdog ht) h

theorem keepsNext_execWatchdogSwitchTimeout {region : ℕ} {s : State} (h : s.Canonical) :
    KeepsNext (execWatchdogSwitchTimeout region s) := by
  unfold execWatchdogSwitchTimeout
  exact keepsNext_event (fun _ ht => canonical_killIf ht) h

end Sys2Proof.Machine.State
end

section
/-!
PROOFS. That storage stays canonical: the host's other accesses, bring-up, power and temperature (22_host_compat
R372-R374).
-/

namespace Sys2Proof.Machine.State

open Sys2Proof

/-! ## MSI-X (R373) -/

theorem canonical_unmaskVector {s : State} {t v : ℕ} (h : s.Canonical) : (s.unmaskVector t v).Canonical := by
  unfold unmaskVector
  exact canonical_ite h h

theorem canonical_writeMsix {s : State} {t k : ℕ} {v : Word} (h : s.Canonical) : (s.writeMsix t k v).Canonical := by
  unfold writeMsix
  exact canonical_ite (canonical_unmaskVector h) h

/-! ## Registers (R372, R373, 00_scope R9) -/

theorem canonical_writePage {s : State} {port : Bool} {t off : ℕ} {v : Word} (h : s.Canonical) :
    (s.writePage port t off v).Canonical := by
  unfold writePage
  exact canonical_ite h (canonical_ite (canonical_launchWrite h) (canonical_ite (canonical_lstatWrite h)
    (canonical_ite (canonical_writeMsix h) h)))

theorem canonical_writeRegister {s : State} {port : Bool} {bar off : ℕ} {v : Word} (h : s.Canonical) :
    (s.writeRegister port bar off v).Canonical := by
  unfold writeRegister
  exact canonical_ite (canonical_writePage h) (canonical_ite (canonical_semWrite h) (canonical_ite
    (canonical_countFor h) h))

theorem canonical_readRegister {s : State} {port : Bool} {bar off : ℕ} (h : s.Canonical) :
    (s.readRegister port bar off).Canonical := by
  unfold readRegister
  exact canonical_ite (canonical_ite h (canonical_reply h)) (canonical_ite (canonical_ite (canonical_semAccess h)
    (canonical_ite (canonical_reply h) (canonical_reply h))) h)

theorem canonical_appendBadPage {s : State} {e : BadPage} (h : s.Canonical) : (s.appendBadPage e).Canonical := by
  unfold appendBadPage
  exact canonical_ite h h

theorem canonical_outsideAccess {s : State} {a : Access} (h : s.Canonical) : (s.outsideAccess a).Canonical := by
  unfold outsideAccess
  split
  · exact canonical_readRegister h
  · exact canonical_semTie h
  · exact canonical_reply h
  · exact canonical_appendBadPage h

/-! ## BAR4 (R374) -/

theorem canonical_hostWrite {bs : List Byte} {pa : ℕ} {s : State} (h : s.Canonical) :
    (hostWrite bs pa s).Canonical := by
  induction bs generalizing pa s with
  | nil => exact h
  | cons b bs ih => exact ih (canonical_poke (canonical_ite (canonical_slicedWrite h) h))

theorem canonical_hostRead {n pa : ℕ} {s : State} (h : s.Canonical) : (hostRead n pa s).2.Canonical := by
  unfold hostRead
  refine canonical_foldl_snd h (fun y x hy => ?_)
  dsimp only
  exact canonical_engineRead hy

theorem canonical_hostAccess {s : State} {port : Bool} {pa len : ℕ} {data : Option (List Byte)} (h : s.Canonical) :
    (s.hostAccess port pa len data).Canonical := by
  unfold hostAccess
  refine canonical_ite h (canonical_actFor h (fun t ht => ?_))
  split
  · exact canonical_ite (canonical_cleanRange (canonical_hostWrite (canonical_ite ht (canonical_slicedWrite ht))))
      (canonical_countBy ht)
  · exact canonical_ite (canonical_reply (canonical_hostRead ht)) (canonical_reply (canonical_countBy ht))

/-! ## The Thatur loader (R383) -/

theorem canonical_loadThatur {s : State} {t : ℕ} {ctx : BitVec 16} {va : ℕ} (h : s.Canonical) :
    (s.loadThatur t ctx va).Canonical := by
  unfold loadThatur
  split
  · exact h
  · refine canonical_reply (canonical_ite_snd (canonical_snd (canonical_countFor h)) ?_)
    dsimp only
    split
    · exact canonical_snd (canonical_countFor h)
    · exact canonical_snd (canonical_countFor (canonical_addObject h))

/-! ## Bring-up (R379, R380) -/

theorem canonical_publishKeep {s : State} {n : ℕ} {bs : List Byte} (h : s.Canonical) :
    (s.publishKeep n bs).Canonical := by
  unfold publishKeep
  dsimp only
  split
  · split
    · exact canonical_of_mem (by dsimp only; exact canonical_countFor (canonical_ite h (canonical_poke h)))
    · exact canonical_of_mem (by dsimp only; exact canonical_countFor h)
  · split
    · split
      · exact canonical_of_mem (by dsimp only; exact canonical_countFor (canonical_ite h (canonical_poke h)))
      · exact canonical_of_mem (by dsimp only; exact canonical_countFor h)
    · exact canonical_countFor (canonical_addObject h)

theorem canonical_reinstall {s : State} {w : Word} (h : s.Canonical) : (s.reinstall w).Canonical := by
  unfold reinstall
  split
  · exact h
  · dsimp only
    split
    · exact canonical_ite (canonical_setRemap h) h
    · exact h

theorem canonical_applyBadList {s : State} (h : s.Canonical) : s.applyBadList.Canonical := by
  unfold applyBadList
  exact canonical_ite (canonical_foldl (by exact h) (fun _ _ ht => canonical_reinstall ht)) h

theorem canonical_configure {s : State} (h : s.Canonical) : s.configure.Canonical := by
  unfold configure
  exact canonical_foldl (canonical_foldl (canonical_foldl (by exact h) (fun _ _ ht => canonical_poke ht))
    (fun _ _ ht => canonical_poke ht)) (fun _ _ ht => canonical_publishKeep ht)

theorem canonical_bringUp {s : State} : s.bringUp.Canonical := by
  have hreset : reset.Canonical := rfl
  unfold bringUp
  refine canonical_ite (by exact hreset) (canonical_ite (by exact hreset) (canonical_of_mem ?_))
  dsimp only
  exact canonical_configure (canonical_applyBadList (by exact hreset))

/-! ## Power and temperature (R386) -/

theorem canonical_capDome {s : State} {d : ℕ} {stop : Bool} (h : s.Canonical) : (s.capDome d stop).Canonical := by
  unfold capDome
  refine canonical_ite h ?_
  dsimp only
  split
  · exact canonical_setDomeAt h
  · exact canonical_countFor (canonical_setDomeAt h)
  · exact h

theorem canonical_alarm {s : State} (h : s.Canonical) : s.alarm.Canonical := by
  unfold alarm
  exact canonical_foldl h (fun _ _ ht => canonical_machineCheck ht)

/-! ## Meanings -/

theorem keepsNext_execDeviceReset {s : State} : KeepsNext (execDeviceReset s) := by
  unfold execDeviceReset
  exact keepsNext_next canonical_bringUp

end Sys2Proof.Machine.State
end

section
/-!
PROOFS. That storage stays canonical: the vector instructions (04_vector R113-R133).
-/

namespace Sys2Proof.Machine.State

open Sys2Proof

theorem keepsNext_vecFp1 {i : Instr} {g : Guard} {t : Ty} {d a : VReg}
    {f : Fmt → ℕ → ℕ → List FpVal → List (ℕ × Flags)} {s : State} (h : s.Canonical) : KeepsNext
    (vecFp1 i g t d a f s) := by
  unfold vecFp1
  exact keepsNext_vector (fun _ ht => canonical_vecWrite ht) h

theorem keepsNext_vecFp2 {i : Instr} {g : Guard} {t : Ty} {d a b : VReg}
    {f : Fmt → ℕ → ℕ → List FpVal → List FpVal → List (ℕ × Flags)} {s : State} (h : s.Canonical) : KeepsNext
    (vecFp2 i g t d a b f s) := by
  unfold vecFp2
  exact keepsNext_vector (fun _ ht => canonical_vecWrite ht) h

theorem keepsNext_vecFma {i : Instr} {g : Guard} {t : Ty} {d a b c : VReg} {na nc : Bool} {s : State}
    (h : s.Canonical) : KeepsNext (vecFma i g t d a b c na nc s) := by
  unfold vecFma
  exact keepsNext_vector (fun _ ht => canonical_vecWrite ht) h

theorem keepsNext_vecPick {i : Instr} {g : Guard} {t : Ty} {d a b : VReg} {greater : Bool} {s : State}
    (h : s.Canonical) : KeepsNext (vecPick i g t d a b greater s) := by
  unfold vecPick
  exact keepsNext_vector (fun _ ht => canonical_vecWrite ht) h

theorem keepsNext_vecSign {i : Instr} {g : Guard} {t : Ty} {d a : VReg} {always : Bool} {s : State} (h : s.Canonical)
    : KeepsNext (vecSign i g t d a always s) := by
  unfold vecSign
  exact keepsNext_vector (fun _ ht => canonical_vecWrite ht) h

theorem keepsNext_vecCmp {i : Instr} {g : Guard} {t : Ty} {d : PReg} {a b : VReg} {quiet : Bool}
    {f : FpVal → FpVal → Bool} {s : State} (h : s.Canonical) : KeepsNext (vecCmp i g t d a b quiet f s) := by
  unfold vecCmp
  exact keepsNext_vector (fun _ ht => canonical_ite (canonical_raisePlane (canonical_setPred ht))
    (canonical_setPred ht)) h

/-! ## Reductions (R125, 03_formats R103) -/

theorem canonical_redWrite {s : State} {n : ℕ} {d : VReg} {x : Jet} {fl : List Flags} (h : s.Canonical) :
    (redWrite s n d x fl).Canonical := by
  unfold redWrite
  exact canonical_ite (canonical_setGroup h) (canonical_raisePlanes (canonical_setGroup h))

theorem keepsNext_vecInt {i : Instr} {g : Guard} {t : Ty} {d a : VReg} {b : OpBV} {f : Bool → ℕ → ℕ → ℕ → ℕ → ℕ}
    {s : State} (h : s.Canonical) : KeepsNext (vecInt i g t d a b f s) := by
  unfold vecInt
  exact keepsNext_vector (fun _ ht => canonical_vecWrite ht) h

theorem keepsNext_vecIntPick {i : Instr} {g : Guard} {t : Ty} {d a : VReg} {b : OpBV} {f : ℤ → ℤ → Bool} {s : State}
    (h : s.Canonical) : KeepsNext (vecIntPick i g t d a b f s) := by
  unfold vecIntPick
  exact keepsNext_vector (fun _ ht => canonical_vecWrite ht) h

theorem keepsNext_vecIntCmp {i : Instr} {g : Guard} {t : Ty} {d : PReg} {a : VReg} {b : OpBV} {f : ℤ → ℤ → Bool}
    {s : State} (h : s.Canonical) : KeepsNext (vecIntCmp i g t d a b f s) := by
  unfold vecIntCmp
  exact keepsNext_vector (fun _ ht => canonical_setPred ht) h

theorem keepsNext_vecIntMul {i : Instr} {g : Guard} {t : Ty} {d a b : VReg} {f : Bool → ℕ → Jet → Jet → Jet → ℕ → ℕ}
    {s : State} (h : s.Canonical) : KeepsNext (vecIntMul i g t d a b f s) := by
  unfold vecIntMul
  exact keepsNext_vector (fun _ ht => canonical_vecWrite ht) h

theorem keepsNext_vecDot {i : Instr} {gd : Guard} {t : Ty} {d a b : VReg} {g m : ℕ} {s : State} (h : s.Canonical) :
    KeepsNext (vecDot i gd t d a b g m s) := by
  unfold vecDot
  exact keepsNext_vector (fun _ ht => canonical_vecWrite ht) h

/-! ## Complex lanes (R129, R130) -/

theorem keepsNext_vecCplx {i : Instr} {g : Guard} {d a b : VReg} {f : Jet → Jet → Jet → ℕ → ℕ} {s : State}
    (h : s.Canonical) : KeepsNext (vecCplx i g d a b f s) := by
  unfold vecCplx
  exact keepsNext_vector (fun _ ht => canonical_vecWrite ht) h

theorem keepsNext_vecBfly {i : Instr} {g : Guard} {d a b c : VReg} {up low : ℤ → ℤ → ℕ} {s : State} (h : s.Canonical)
    : KeepsNext (vecBfly i g d a b c up low s) := by
  unfold vecBfly
  exact keepsNext_vector (fun _ ht => canonical_vecWrite ht) h

/-! ## Reductions (R125) -/

theorem keepsNext_vecRed {i : Instr} {g : Guard} {t : Ty} {d a : VReg} {op : ℕ} {s : State} (h : s.Canonical) :
    KeepsNext (vecRed i g t d a op s) := by
  unfold vecRed
  exact keepsNext_vector (fun _ ht => canonical_redWrite ht) h

theorem keepsNext_vecPermute {i : Instr} {g : Guard} {t : Ty} {d a : VReg} {src : State → ℕ → ℕ → ℕ} {s : State}
    (h : s.Canonical) : KeepsNext (vecPermute i g t d a src s) := by
  unfold vecPermute
  exact keepsNext_vector (fun _ ht => canonical_vecWrite ht) h

/-! ## Meanings -/

theorem keepsNext_execVins {g : Guard} {t : Ty} {d : VReg} {a : SReg} {j : BitVec 5} {s : State} (h : s.Canonical) :
    KeepsNext (execVins g t d a j s) := by
  unfold execVins
  exact keepsNext_instrIf h (fun _ ht => canonical_count (canonical_writeLanes ht))

theorem keepsNext_execVext {g : Guard} {t : Ty} {d : SReg} {a : VReg} {j : BitVec 5} {s : State} (h : s.Canonical) :
    KeepsNext (execVext g t d a j s) := by
  unfold execVext
  exact keepsNext_instrIf h (fun _ ht => canonical_count (canonical_setReg ht))

end Sys2Proof.Machine.State
end

section
/-!
PROOFS. That storage stays canonical: every instruction, and the step of the device (01_encoding R30).
-/

namespace Sys2Proof.Machine.State

open Sys2Proof

theorem keepsNext_exec {i : Instr} {s : State} (h : s.Canonical) : KeepsNext (exec i s) := by
  cases i
  case fill =>
    dsimp only [exec, execFill]
    exact keepsNext_event (fun _ ht => canonical_setPc ht) h
  case add | sub | and | or | xor | andn | shl | shr | sar | ror | min | max | mul | mulh | div | rem =>
    dsimp only [exec, execAdd, execSub, execAnd, execOr, execXor, execAndn, execShl, execShr, execSar, execRor,
      execMin,
      execMax, execMul, execMulh, execDiv, execRem]
    exact keepsNext_scalarOp h
  case clz | ctz | popc | brev | bswap | bext | sext | zext =>
    dsimp only [exec, execClz, execCtz, execPopc, execBrev, execBswap, execBext, execSext, execZext]
    exact keepsNext_scalarUn h
  case bins | movi | mov | lea | sel | qcap | rndc | fclass | sysr =>
    dsimp only [exec, execBins, execMovi, execMov, execLea, execSel, execQcap, execRndc, execFclass, execSysr]
    exact keepsNext_instr (fun _ ht => canonical_setReg ht) h
  case cmpEq | cmpNe | cmpLt | cmpLe | cmpGt | cmpGe =>
    dsimp only [exec, execCmpEq, execCmpNe, execCmpLt, execCmpLe, execCmpGt, execCmpGe]
    exact keepsNext_scalarCmp h
  case pand | por | pxor | pandn =>
    dsimp only [exec, execPand, execPor, execPxor, execPandn]
    exact keepsNext_predOp h
  case pnot | pmov | pset =>
    dsimp only [exec, execPnot, execPmov, execPset]
    exact keepsNext_instr (fun _ ht => canonical_setPred ht) h
  case mfs =>
    dsimp only [exec, execMfs]
    exact keepsNext_instr (fun _ ht => canonical_setReg (canonical_readSpecial ht)) h
  case mts =>
    dsimp only [exec, execMts]
    exact keepsNext_instr (fun _ ht => canonical_writeSpecial ht) h
  case mtsWp => exact keepsNext_execMtsWp h
  case pushm => exact keepsNext_execPushm h
  case popm => exact keepsNext_execPopm h
  case fadd | fsub | fmul | fdiv =>
    dsimp only [exec, execFadd, execFsub, execFmul, execFdiv]
    exact keepsNext_fpBin h
  case fsqrt =>
    dsimp only [exec, execFsqrt]
    exact keepsNext_fpUn h
  case fmin | fmax =>
    dsimp only [exec, execFmin, execFmax]
    exact keepsNext_fpSelect h
  case fneg | fabs =>
    dsimp only [exec, execFneg, execFabs]
    exact keepsNext_fpSign h
  case fma | fms | fnma | fnms =>
    dsimp only [exec, execFma, execFms, execFnma, execFnms]
    exact keepsNext_fpFma h
  case fcmpEq | fcmpLt | fcmpLe | fcmpUn =>
    dsimp only [exec, execFcmpEq, execFcmpLt, execFcmpLe, execFcmpUn]
    exact keepsNext_fpCmp h
  case fcvt =>
    dsimp only [exec, execFcvt]
    exact keepsNext_instr (fun _ ht => canonical_raise (canonical_setReg ht)) h
  case br => exact keepsNext_execBr h
  case call => exact keepsNext_execCall h
  case jmp => exact keepsNext_execJmp h
  case ret => exact keepsNext_execRet h
  case brx => exact keepsNext_execBrx h
  case loop => exact keepsNext_execLoop h
  case rep => exact keepsNext_execRep h
  case nop | sysw =>
    dsimp only [exec, execNop, execSysw]
    exact keepsNext_instr (fun _ ht => ht) h
  case hint => exact keepsNext_execHint h
  case unchain =>
    dsimp only [exec, execUnchain]
    exact keepsNext_instrAll (fun _ ht => canonical_unchain ht) h
  case rechain => exact keepsNext_execRechain h
  case vadd | vsub | vmul | vdiv =>
    dsimp only [exec, execVadd, execVsub, execVmul, execVdiv]
    exact keepsNext_vecFp2 h
  case vmin | vmax =>
    dsimp only [exec, execVmin, execVmax]
    exact keepsNext_vecPick h
  case vneg | vabs =>
    dsimp only [exec, execVneg, execVabs]
    exact keepsNext_vecSign h
  case vfma | vfms | vfnma | vfnms =>
    dsimp only [exec, execVfma, execVfms, execVfnma, execVfnms]
    exact keepsNext_vecFma h
  case vrcp | vsqrt | vrsqrt | vexp | vlog | vtanh | vsigm =>
    dsimp only [exec, execVrcp, execVsqrt, execVrsqrt, execVexp, execVlog, execVtanh, execVsigm]
    exact keepsNext_vecFp1 h
  case vsincos | vsel | vsat | vshuf | vmov | vsplat | jseed | jext =>
    dsimp only [exec, execVsincos, execVsel, execVsat, execVshuf, execVmov, execVsplat, execJseed, execJext]
    exact keepsNext_vector (fun _ ht => canonical_vecWrite ht) h
  case vcmpEq | vcmpNe | vcmpLt | vcmpLe =>
    dsimp only [exec, execVcmpEq, execVcmpNe, execVcmpLt, execVcmpLe]
    exact keepsNext_vecCmp h
  case vcvt | jplane =>
    dsimp only [exec, execVcvt, execJplane]
    exact keepsNext_vector (fun _ ht => canonical_writeLanes ht) h
  case vqmx =>
    dsimp only [exec, execVqmx]
    exact keepsNext_instr (fun _ ht => canonical_count (canonical_raisePlane (canonical_setReg
      (canonical_setVreg ht)))) h
  case vdqmx =>
    dsimp only [exec, execVdqmx]
    exact keepsNext_instr (fun _ ht => canonical_count (canonical_raisePlane (canonical_setGroup ht))) h
  case vredAdd | vredMin | vredMax =>
    dsimp only [exec, execVredAdd, execVredMin, execVredMax]
    exact keepsNext_vecRed h
  case vaddInt | vsubInt | vand | vor | vxor | vshl | vshr | vsar | vadds | vsubs =>
    dsimp only [exec, execVaddInt, execVsubInt, execVand, execVor, execVxor, execVshl, execVshr, execVsar, execVadds,
      execVsubs]
    exact keepsNext_vecInt h
  case vminInt | vmaxInt =>
    dsimp only [exec, execVminInt, execVmaxInt]
    exact keepsNext_vecIntPick h
  case vcmpEqInt | vcmpNeInt | vcmpLtInt | vcmpLeInt =>
    dsimp only [exec, execVcmpEqInt, execVcmpNeInt, execVcmpLtInt, execVcmpLeInt]
    exact keepsNext_vecIntCmp h
  case vmulInt | vmulh | vmac =>
    dsimp only [exec, execVmulInt, execVmulh, execVmac]
    exact keepsNext_vecIntMul h
  case vdot4 | vdot2 =>
    dsimp only [exec, execVdot4, execVdot2]
    exact keepsNext_vecDot h
  case vcmul | vcmac | vconj =>
    dsimp only [exec, execVcmul, execVcmac, execVconj]
    exact keepsNext_vecCplx h
  case vbfly | vbflys =>
    dsimp only [exec, execVbfly, execVbflys]
    exact keepsNext_vecBfly h
  case vperm | vrot | vbcast =>
    dsimp only [exec, execVperm, execVrot, execVbcast]
    exact keepsNext_vecPermute h
  case vins => exact keepsNext_execVins h
  case vext => exact keepsNext_execVext h
  case jclr =>
    dsimp only [exec, execJclr]
    exact keepsNext_instr (fun _ ht => canonical_count (canonical_clearFlags ht)) h
  case ld =>
    dsimp only [exec, execLd]
    exact keepsNext_instr (fun _ ht => (canonical_coreLoad ht).run ht fun _ hx => canonical_setReg hx) h
  case st =>
    dsimp only [exec, execSt]
    exact keepsNext_instr (fun _ ht => canonical_coreStore ht (fun _ ht' => ht')) h
  case vld =>
    dsimp only [exec, execVld]
    exact keepsNext_instrAll (fun _ ht => Res.canonical_ite ht (canonical_aligned.run ht fun _ hx =>
      (canonical_loadElems ht).run ht fun _ hx => canonical_putJetWords hx)) h
  case vst =>
    dsimp only [exec, execVst]
    exact keepsNext_instrAll (fun _ ht => Res.canonical_ite ht (canonical_aligned.run ht fun _ _ =>
      canonical_storeElems ht (fun _ ht' => ht'))) h
  case vgather => exact keepsNext_execVgather h
  case vscatter => exact keepsNext_execVscatter h
  case ldb =>
    dsimp only [exec, execLdb]
    exact keepsNext_instr (fun _ ht => Res.canonical_ite ht (Res.canonical_ite ht
      ((canonical_loadElems ht).run ht fun _ hx => canonical_count (canonical_setGroup hx)))) h
  case amoAdd | amoAnd | amoOr | amoXor | amoMin | amoMax | amoSwap | amoCas | amoFadd =>
    dsimp only [exec, execAmoAdd, execAmoAnd, execAmoOr, execAmoXor, execAmoMin, execAmoMax, execAmoSwap, execAmoCas,
      execAmoFadd]
    exact keepsNext_amoOp h
  case amoFaddOrd => exact keepsNext_execAmoFaddOrd h
  case redAdd | redMin | redMax | redAddOrd | redMinOrd | redMaxOrd =>
    dsimp only [exec, execRedAdd, execRedMin, execRedMax, execRedAddOrd, execRedMinOrd, execRedMaxOrd]
    exact keepsNext_redInstr h
  case pref =>
    dsimp only [exec, execPref]
    exact keepsNext_instr (fun _ ht => canonical_prefetch ht) h
  case chint =>
    dsimp only [exec, execChint]
    exact keepsNext_instr (fun _ ht => canonical_cacheHint ht) h
  case copy => exact keepsNext_execCopy h
  case copyh => exact keepsNext_execCopyh h
  case binit =>
    dsimp only [exec, execBinit]
    exact keepsNext_instr (fun _ ht => canonical_barrierSlot.run ht fun _ _ => canonical_setBarrier ht) h
  case barrive =>
    dsimp only [exec, execBarrive]
    exact keepsNext_instr (fun _ ht => canonical_barrierSlot.run ht fun _ _ => Res.canonical_ite ht (canonical_setReg
      (canonical_arrive ht))) h
  case bwait =>
    dsimp only [exec, execBwait]
    exact keepsNext_instr (fun _ ht => canonical_barrierSlot.run ht fun _ _ => Res.canonical_ite
      (canonical_acquire ht) ht) h
  case bsync => exact keepsNext_execBsync h
  case bstat => exact keepsNext_execBstat h
  case tlwait => exact keepsNext_execTlwait h
  case tlread => exact keepsNext_execTlread h
  case fence =>
    dsimp only [exec, execFence]
    exact keepsNext_instr (fun _ ht => Res.canonical_ite (canonical_ite (canonical_acquire ht) ht) ht) h
  case wake =>
    dsimp only [exec, execWake]
    exact keepsNext_instr (fun _ ht => Res.canonical_ite ht (Res.canonical_ite ht (canonical_postWake ht))) h
  case wait =>
    dsimp only [exec, execWait]
    exact keepsNext_instr (fun _ ht => Res.canonical_ite (canonical_setReg ht) (Res.canonical_ite ht (canonical_setReg
      (canonical_onCore (canonical_acquire (canonical_setWord ht)))))) h
  case chinit =>
    dsimp only [exec, execChinit]
    exact keepsNext_instr (fun _ ht => Res.canonical_ite ht (Res.canonical_ite ht (Res.canonical_ite ht
      (Res.canonical_ite ht (canonical_storeElems ht (fun _ ht' => ht')))))) h
  case send => exact keepsNext_execSend h
  case sendNb =>
    dsimp only [exec, execSendNb]
    exact keepsNext_instr (fun _ ht => canonical_sendMessage ht) h
  case recv => exact keepsNext_execRecv h
  case recvNb =>
    dsimp only [exec, execRecvNb]
    exact keepsNext_instr (fun _ ht => canonical_recvMessage ht) h
  case mshl => exact keepsNext_execMshl h
  case mshf => exact keepsNext_execMshf h
  case mshs => exact keepsNext_execMshs h
  case mclaim => exact keepsNext_execMclaim h
  case mrel => exact keepsNext_execMrel h
  case mld => exact keepsNext_execMld h
  case mldx => exact keepsNext_execMldx h
  case mma => exact keepsNext_execMma h
  case mmaS => exact keepsNext_execMmaS h
  case mzero => exact keepsNext_execMzero h
  case mmov => exact keepsNext_execMmov h
  case mmovr => exact keepsNext_execMmovr h
  case mst => exact keepsNext_execMst h
  case mspec => exact keepsNext_execMspec h
  case mresolve => exact keepsNext_execMresolve h
  case mcommit => exact keepsNext_execMcommit h
  case mdiscard => exact keepsNext_execMdiscard h
  case tgemm => exact keepsNext_execTgemm h
  case tfact => exact keepsNext_execTfact h
  case tsolve => exact keepsNext_execTsolve h
  case mqpri => exact keepsNext_execMqpri h
  case mqsync => exact keepsNext_execMqsync h
  case launch => exact keepsNext_execLaunch h
  case exit => exact keepsNext_execExit h
  case yield => exact keepsNext_execYield h
  case halt =>
    dsimp only [exec, execHalt]
    exact keepsNext_instrAll (fun _ ht => Res.canonical_ite ht ht) h
  case gcall => exact keepsNext_execGcall h
  case gret => exact keepsNext_execGret h
  case trap =>
    dsimp only [exec, execTrap]
    exact keepsNext_instrAll (fun _ ht => canonical_takeTrap ht) h
  case eret =>
    dsimp only [exec, execEret]
    exact keepsNext_instrAll (fun _ ht => canonical_rejoin (canonical_returnFromTrap (canonical_onCore
      (canonical_count ht)))) h
  case publish =>
    dsimp only [exec, execPublish]
    exact keepsNext_instrAll (fun _ ht => Res.canonical_ite ht (Res.canonical_ite ht (canonical_publish
      (canonical_acquire ht)))) h
  case tlbinv => exact keepsNext_execTlbinv h
  case lflush =>
    dsimp only [exec, execLflush]
    exact keepsNext_instr (fun _ ht => canonical_flushRange ht) h
  case l2cfg =>
    dsimp only [exec, execL2cfg]
    exact keepsNext_instr (fun _ ht => canonical_setReg (canonical_convertWays ht)) h
  case mscrub =>
    dsimp only [exec, execMscrub]
    exact keepsNext_instr (fun _ ht => canonical_located ht (fun _ => canonical_scrubOn ht)) h
  case mspare =>
    dsimp only [exec, execMspare]
    exact keepsNext_instr (fun _ ht => canonical_located ht (fun _ => canonical_spareRow ht)) h
  case mrmapRead | mrmapSpareBitmap =>
    dsimp only [exec, execMrmapRead, execMrmapSpareBitmap]
    exact keepsNext_instr (fun _ ht => canonical_located ht (fun _ => canonical_setReg ht)) h
  case mrmapWrite =>
    dsimp only [exec, execMrmapWrite]
    exact keepsNext_instr (fun _ ht => canonical_located ht (fun _ => Res.canonical_ite ht (canonical_setReg
      (canonical_ite (canonical_setRemap ht) ht)))) h
  case mrmapInvalidate =>
    dsimp only [exec, execMrmapInvalidate]
    exact keepsNext_instr (fun _ ht => canonical_located ht (fun _ => canonical_setReg (canonical_setRemap ht))) h
  case mliveNotLive | mliveLive =>
    dsimp only [exec, execMliveNotLive, execMliveLive]
    exact keepsNext_instr (fun _ ht => canonical_located ht (fun _ => canonical_markRows ht)) h
  case jrnl =>
    dsimp only [exec, execJrnl]
    exact keepsNext_instr (fun _ ht => Res.canonical_ite ht (canonical_setReg (canonical_ite
      (canonical_freeEntryAt ht) ht))) h
  case msave =>
    dsimp only [exec, execMsave]
    exact keepsNext_instr (fun _ ht => Res.canonical_ite ht (Res.canonical_ite ht (canonical_storeElems ht
      (fun _ ht' => canonical_setReg ht')))) h
  case bind => exact keepsNext_execBind h
  case gswitchCancel => exact keepsNext_execGswitchCancel h
  case gswitchArm => exact keepsNext_execGswitchArm h
  case asyncTrapTaken =>
    dsimp only [exec, execAsyncTrapTaken]
    exact keepsNext_event (fun _ ht => canonical_ite (canonical_takeAsync (canonical_dropBstats ht)) ht) h
  case waitConditionMet =>
    dsimp only [exec, execWaitConditionMet]
    exact keepsNext_event (fun _ ht => canonical_resume ht) h
  case coprocessorPortAccept => exact keepsNext_execCoprocessorPortAccept h
  case graverOpStart => exact keepsNext_execGraverOpStart h
  case graverOpComplete => exact keepsNext_execGraverOpComplete h
  case bankGrant => exact keepsNext_execBankGrant h
  case postedStoreArrival => exact keepsNext_execPostedStoreArrival h
  case redPacketArrival => exact keepsNext_execRedPacketArrival h
  case wakeDelivery => exact keepsNext_execWakeDelivery h
  case postedAcknowledge => exact keepsNext_execPostedAcknowledge h
  case postedRefusal => exact keepsNext_execPostedRefusal h
  case streamerPiece => exact keepsNext_execStreamerPiece h
  case copyStatusLanding => exact keepsNext_execCopyStatusLanding h
  case channelRetry => exact keepsNext_execChannelRetry h
  case tlbWalkComplete => exact keepsNext_execTlbWalkComplete h
  case sliceRetryHint => exact keepsNext_execSliceRetryHint h
  case linkRetrain =>
    dsimp only [exec, execLinkRetrain]
    exact keepsNext_event (fun _ ht => canonical_retrain ht) h
  case hbmDemandAccess => exact keepsNext_execHbmDemandAccess h
  case trackerLeak => exact keepsNext_execTrackerLeak h
  case mspareCopyEnd => exact keepsNext_execMspareCopyEnd h
  case launchRegisterWrite =>
    dsimp only [exec, execLaunchRegisterWrite]
    exact keepsNext_event (fun _ ht => canonical_launchWrite ht) h
  case lstatWrite =>
    dsimp only [exec, execLstatWrite]
    exact keepsNext_event (fun _ ht => canonical_lstatWrite ht) h
  case belfryAdmission => exact keepsNext_execBelfryAdmission h
  case ageingStep => exact keepsNext_execAgeingStep h
  case dispatchFreshStart => exact keepsNext_execDispatchFreshStart h
  case partitionResume => exact keepsNext_execPartitionResume h
  case gangSwitch => exact keepsNext_execGangSwitch h
  case regionRetire => exact keepsNext_execRegionRetire h
  case maxrunExpiry => exact keepsNext_execMaxrunExpiry h
  case gstepsExpiry => exact keepsNext_execGstepsExpiry h
  case watchdogTimeout => exact keepsNext_execWatchdogTimeout h
  case watchdogSwitchTimeout => exact keepsNext_execWatchdogSwitchTimeout h
  case yieldTimeout => exact keepsNext_execYieldTimeout h
  case semaphoreTake =>
    dsimp only [exec, execSemaphoreTake]
    exact keepsNext_event (fun _ ht => canonical_semTake ht) h
  case semaphoreRelease =>
    dsimp only [exec, execSemaphoreRelease]
    exact keepsNext_event (fun _ ht => canonical_semWrite ht) h
  case setshare | setwdcfg | traceCommand | attest =>
    dsimp only [exec, execSetshare, execSetwdcfg, execTraceCommand, execAttest]
    exact keepsNext_event (fun _ ht => canonical_command ht) h
  case msixVectorUnmask =>
    dsimp only [exec, execMsixVectorUnmask]
    exact keepsNext_event (fun _ ht => canonical_unmaskVector ht) h
  case hostBar4Access =>
    dsimp only [exec, execHostBar4Access]
    exact keepsNext_event (fun _ ht => canonical_hostAccess ht) h
  case functionLevelReset =>
    dsimp only [exec, execFunctionLevelReset]
    exact keepsNext_event (fun _ ht => canonical_portReset ht) h
  case registerWrite =>
    dsimp only [exec, execRegisterWrite]
    exact keepsNext_event (fun _ ht => canonical_writeRegister ht) h
  case thaturLoad =>
    dsimp only [exec, execThaturLoad]
    exact keepsNext_event (fun _ ht => canonical_loadThatur ht) h
  case deviceReset => exact keepsNext_execDeviceReset
  case powerCap =>
    dsimp only [exec, execPowerCap]
    exact keepsNext_event (fun _ ht => canonical_capDome ht) h
  case thermalAlarm =>
    dsimp only [exec, execThermalAlarm]
    exact keepsNext_event (fun _ ht => canonical_alarm ht) h
  case thermalShutdown =>
    dsimp only [exec, execThermalShutdown]
    exact keepsNext_event (fun _ ht => ht) h
  case spirePortSend => exact keepsNext_execSpirePortSend h
  case softError =>
    dsimp only [exec, execSoftError]
    exact keepsNext_event (fun _ ht => canonical_strikeSoft ht) h

theorem canonical_pass {s : State} {dt : ℕ} (h : s.Canonical) : (s.pass dt).Canonical := by
  unfold pass
  exact canonical_of_mem (by dsimp only; exact canonical_tick (canonical_countCycles (canonical_noteStops h)))

theorem keepsNext_ownMove {m : Move} {s : State} (h : s.Canonical) : KeepsNext (ownMove m s) := by
  unfold ownMove
  split
  · exact keepsNext_next h
  · exact keepsNext_next h
  · split
    · split
      · exact keepsNext_execPostedStoreArrival h
      · exact keepsNext_execRedPacketArrival h
      · exact keepsNext_execWakeDelivery h
    · exact keepsNext_next h
  · split
    · exact keepsNext_ite (keepsNext_execPostedRefusal h) (keepsNext_execPostedAcknowledge h)
    · exact keepsNext_next h
  · exact keepsNext_execCopyStatusLanding h
  · exact keepsNext_execStreamerPiece h
  · exact keepsNext_execSpirePortSend h
  · exact keepsNext_execSliceRetryHint h
  · exact keepsNext_execBankGrant h
  · exact keepsNext_execGraverOpComplete h
  · exact keepsNext_execGraverOpStart h
  · exact keepsNext_execMspareCopyEnd h
  · exact keepsNext_execTrackerLeak h
  · exact keepsNext_execRegionRetire h
  · exact keepsNext_execMaxrunExpiry h
  · exact keepsNext_execGstepsExpiry h
  · exact keepsNext_execWatchdogTimeout h
  · exact keepsNext_execWatchdogSwitchTimeout h
  · exact keepsNext_execGangSwitch h
  · exact keepsNext_execDispatchFreshStart h
  · exact keepsNext_execPartitionResume h
  · exact keepsNext_execAgeingStep h
  · exact keepsNext_execBelfryAdmission h

theorem keepsNext_runFetched {f : Fetched} (h : f.state.Canonical) : KeepsNext (runFetched f) := by
  cases f with
  | instr at_ i s => exact keepsNext_exec (canonical_setPc h)
  | trap at_ t s => exact keepsNext_next (canonical_raiseTrap (canonical_setPc h))
  | skip at_ s => exact keepsNext_next (canonical_setPc h)

theorem keepsNext_stepCore {s : State} (h : s.Canonical) : KeepsNext (stepCore s) := by
  have hd : (s.dropBstats fun c => c == s.cur).Canonical := canonical_dropBstats h
  refine keepsNext_ite (keepsNext_next (canonical_onCore hd)) (keepsNext_ite (keepsNext_next
    (canonical_takeAsync hd)) ?_)
  exact keepsNext_ite (keepsNext_runFetched (canonical_fetchNext hd)) (keepsNext_next hd)

theorem keepsNext_stepMembers {cs : List ℕ} {s : State} (h : s.Canonical) : KeepsNext (stepMembers cs s) := by
  induction cs generalizing s with
  | nil => exact keepsNext_next h
  | cons c cs ih =>
    have hc : ({ s with cur := c } : State).Canonical := h
    unfold stepMembers
    refine keepsNext_ite (ih hc) ?_
    split
    · next hs => exact ih (keepsNext_stepCore hc _ hs)
    · exact nofun
    · exact nofun

theorem keepsNext_stepChain {s : State} (h : s.Canonical) : KeepsNext (stepChain s) := by
  unfold stepChain
  dsimp only
  split
  · next hs => exact keepsNext_next (canonical_endLockstep (keepsNext_stepMembers h _ hs))
  · exact nofun
  · exact nofun

theorem keepsNext_coreTurn {c : ℕ} {s : State} (h : s.Canonical) : KeepsNext (coreTurn c s) := by
  unfold coreTurn
  exact keepsNext_ite (keepsNext_stepChain h) (keepsNext_stepCore h)

theorem keepsNext_runTurn {t : Turn} {s : State} (h : s.Canonical) : KeepsNext (runTurn t s) := by
  unfold runTurn
  split
  · exact keepsNext_next h
  · exact keepsNext_ite (keepsNext_exec h) (keepsNext_next h)
  · exact keepsNext_next (canonical_outsideAccess h)
  · exact keepsNext_coreTurn h

theorem keepsNext_runMove {s : State} (h : s.Canonical) : KeepsNext (runMove s) := by
  unfold runMove
  split
  · exact keepsNext_coreTurn h
  · exact keepsNext_ownMove h

theorem keepsNext_step {s : State} (h : s.Canonical) : KeepsNext (step s) := by
  unfold step
  refine keepsNext_ite (keepsNext_next canonical_bringUp) (keepsNext_powered ?_)
  split
  · exact keepsNext_runTurn (canonical_pass h)
  · exact keepsNext_runMove (canonical_pass h)

end Sys2Proof.Machine.State

namespace Sys2Proof.Machine

/-- Settles O56: every function that changes the state keeps storage canonical, up to the step. -/
theorem stepKeepsStorageCanonical : Obligations.StepKeepsStorageCanonical :=
  fun _ _ h hs => State.keepsNext_step h _ hs

end Sys2Proof.Machine
end

section
/-!
PROOFS. A gather that writes over a published code object (05_memory_isa R143, 21_memory_system R361). The model names what a
slice holds of a line beside its active home by `splitKey`, slice times 2^32 plus line; but the lines of code objects have
numbers from 2^37 on, so slice 0 names line 2^37 + k as slice 32 names line k of HBM4E. A gather of two lanes reads line k
through a page of home 0 while slice 32 holds it, which puts slice 32's bytes aside, and then the object's line, for which
slice 0 takes those bytes as its own.
-/

namespace Sys2Proof.Machine

open Sys2Proof

namespace SplitKeys

/-- A page of 64 KiB at 0x1_0000_0000 that may be read, of home 0, at physical address 0x100000. -/
def page : TlbEntry :=
  { tenant := 0, ctx := 0, vpage := 0x10000, leaf := BitVec.ofNat 64 (2 ^ 63 + 2 ^ 62 + 2 ^ 59 + 0x100000), level := 3 }

/-- A published object of one line at 0x2_0000_0000, whose bytes are kept 0x100000 into the store of code objects. -/
def object : CodeObj := { keep := 0, tenant := 0, base := 0x200000000, len := 128, store := 0x100000, hash := 0 }

/-- Core 0 runs alone with `page` in its TLB. Slice 32 holds the first line of the page, whose first byte is 1; the bytes of
`object` are zeros. Lane 1 of v2 leads from w3, the page, to the object. -/
def state : State :=
  (({ State.reset with
      boot := .up, tenants := [(0, BitVec.ofNat 2048 (2 ^ 63 + 2 ^ 39 * 2 ^ 1216))]
      spires := [(0, { tlb := [page] })], cores := [(0, { status := .running })], objects := [object]
      mem := Mem.store (Mem.store [] 0 8 (0x8000000000000000 : Word)) 0x100000 1 (1 : Byte)
      lines := [(0x2000, { held := true, home := 32 })] } : State).setReg 3 0x100000000).setVreg 2 (0x40000000 <<< 32)

/-- VGATHER.s32 v1, [w3 + v2], every lane. -/
def gather : Instr := .vgather ⟨0, false⟩ .s32 1 3 2 0

/-- The elements of the gather. -/
def elems (s : State) : List Elem := (gatherElems s ⟨0, false⟩ 32 3 2 0).map fun e => { va := e.2.2, n := 4 }

/-- The first byte of the object. -/
def objectByte : Nat := Config.objectStore + 0x100000

/-- What is answered without a trap and without a wait, and passes a test. -/
def okWith {α : Type} (c : Chk α) (p : α → Bool) : Bool :=
  match c with
  | .ok x => p x
  | .error _ => false

theorem exists_of_okWith {α : Type} {c : Chk α} {p : α → Bool} (h : okWith c p = true) : ∃ x, c = .ok x ∧ p x = true := by
  cases c with
  | ok x => exact ⟨x, rfl, h⟩
  | error e => exact absurd h Bool.false_ne_true

theorem exists_of_next {o : Out} {p : State → Bool} (h : (next? o).any p = true) : ∃ u, o = .next u ∧ p u = true := by
  cases o with
  | next u => exact ⟨u, rfl, h⟩
  | fault _ => exact absurd h Bool.false_ne_true
  | refused _ => exact absurd h Bool.false_ne_true

theorem wf_state : Mem.wf state.mem = true := by decide +kernel

theorem issues_gather : state.issues gather (State.always state) = true := by decide +kernel

theorem aligned_gather :
    ∀ e ∈ gatherElems (state.acquireTokens gather) ⟨0, false⟩ 32 3 2 0, e.2.2.toNat % 4 = 0 := by decide +kernel

/-- The page's line, where the gather reads HBM4E, ends below the object. -/
theorem places_gather : ∃ ps s',
    (state.acquireTokens gather).places .load ((elems (state.acquireTokens gather)).map (·.va)) = .ok (ps, s') ∧
      ∀ p ∈ ps, isHbm p.loc = true → s'.storeLoc (p.loc / 128 * 128) + 128 ≤ objectByte := by
  obtain ⟨⟨ps, s'⟩, hplaces, hbelow⟩ := exists_of_okWith
    (c := (state.acquireTokens gather).places .load ((elems (state.acquireTokens gather)).map (·.va)))
    (p := fun x => decide (∀ p ∈ x.1, isHbm p.loc = true → x.2.storeLoc (p.loc / 128 * 128) + 128 ≤ objectByte))
    (by decide +kernel)
  exact ⟨ps, s', hplaces, of_decide_eq_true hbelow⟩

theorem loadElems_gather : ∃ xs s'', (state.acquireTokens gather).loadElems (elems (state.acquireTokens gather)) = .ok (xs, s'') := by
  obtain ⟨⟨xs, s''⟩, hloads, _⟩ := exists_of_okWith
    (c := (state.acquireTokens gather).loadElems (elems (state.acquireTokens gather))) (p := fun _ => true) (by decide +kernel)
  exact ⟨xs, s'', hloads⟩

/-- The gather completes, and the object begins with the first byte of the page. -/
theorem exec_gather : ∃ u, exec gather state = .next u ∧ u.byte objectByte = 1 := by
  obtain ⟨u, hu, hbyte⟩ := exists_of_next (o := exec gather state) (p := fun u => u.byte objectByte == 1) (by decide +kernel)
  exact ⟨u, hu, eq_of_beq hbyte⟩

theorem byte_state : state.byte objectByte = 0 := by decide +kernel

/-- The live workspace lies below the store of code objects. -/
theorem live_state_lt {off : Nat} (h : off < 0x600) : state.live off + 0x20 ≤ objectByte := by
  have hlive : state.live off = Config.wsBase + off := by
    have hwp : state.core.wp.toNat = 0 := by decide +kernel
    have hcur : state.cur = 0 := by decide +kernel
    simp only [State.live, State.wsLoc, hwp, hcur, Nat.zero_mul, Nat.add_zero, Nat.zero_add]
  have hbelow : Config.wsBase + 0x620 ≤ objectByte := by decide +kernel
  omega

theorem not_laneBytes : ¬ state.laneBytes ⟨0, false⟩ 32 1 objectByte := by
  rintro ⟨k, hk, l, hl, -, -, hhi⟩
  have hsize : state.gsize = 1 := by decide +kernel
  have hv1 : (1 : VReg).toNat = 1 := rfl
  have hlive := live_state_lt (off := 0x100 + 32 * ((1 : VReg).toNat + k)) (by omega)
  omega

theorem not_repByte : ¬ state.repByte objectByte := by
  rintro ⟨hactive, -⟩
  exact absurd hactive (by decide +kernel)

theorem not_reportByte : ¬ state.reportByte objectByte := by
  rintro (⟨q, n, hqueue, -⟩ | ⟨n, htrace, -⟩)
  · exact absurd hqueue (by simp [show state.faultQueue = none from rfl])
  · exact absurd htrace (by decide +kernel)

theorem not_staleByte : ¬ state.staleByte objectByte := by
  have hlines : state.lines = [(0x2000, { held := true, home := 32 })] := rfl
  have hsplit : state.split = [] := rfl
  rintro ⟨ln, -, ⟨l, hl, -, hunder⟩ | ⟨n, hn⟩⟩
  · simp only [hlines, Tab.find?] at hl
    split at hl
    · cases hl
      exact absurd hunder Bool.false_ne_true
    · split at hl <;> cases hl
  · rw [hsplit] at hn
    exact absurd hn Bool.false_ne_true

end SplitKeys

open SplitKeys in
/-- Refutes O52: a gather of two lanes takes what slice 32 holds of an HBM4E line for slice 0's own bytes of a code object's
line, which the frame of a load does not name. -/
theorem not_memoryFrame : ¬ Obligations.MemoryFrame := by
  rintro ⟨hloads, -⟩
  obtain ⟨ps, s', hplaces, hbelow⟩ := places_gather
  obtain ⟨xs, s'', helems⟩ := loadElems_gather
  obtain ⟨u, hu, hbyte⟩ := exec_gather
  have hframe := hloads gather ⟨0, false⟩ State.always _ elems _
    (.inr (.inr (.inl ⟨.s32, 1, 3, 2, 0, rfl, rfl, rfl, rfl, rfl⟩))) state s' s'' u ps xs wf_state issues_gather
    aligned_gather hplaces helems hu
  refine absurd (hframe objectByte ?_) (by rw [hbyte, byte_state]; decide)
  rintro (hlane | hrep | hreport | hstale | ⟨p, hp, hhbm, hcovers, -⟩)
  · exact not_laneBytes hlane
  · exact not_repByte hrep
  · exact not_reportByte hreport
  · exact not_staleByte hstale
  · exact absurd hcovers.2 (not_lt_of_ge (hbelow p hp hhbm))

end Sys2Proof.Machine
end

section
/-!
PROOFS. How a matrix instruction runs: it presents itself to the port, and acts when the port takes it (06_matrix_isa R167,
11_matrix_engine R256).
-/

namespace Sys2Proof.Machine

open Sys2Proof

namespace State

theorem acquireTokens_status (s : State) (i : Instr) : (s.acquireTokens i).core.status = s.core.status := by rw [acquireTokens_core]

theorem acquireTokens_gop (s : State) (i : Instr) : (s.acquireTokens i).core.gop = s.core.gop := by rw [acquireTokens_core]

theorem acquireTokens_mySpire (s : State) (i : Instr) : (s.acquireTokens i).mySpire = s.mySpire := by rw [acquireTokens_frame]; rfl

theorem acquireTokens_clock (s : State) (i : Instr) : (s.acquireTokens i).clock = s.clock := by rw [acquireTokens_frame]; rfl

/-- A Spire is clocked with its dome. -/
theorem domeClock_mySpire (s : State) : s.domeClock (s.mySpire / 32) = s.clock := by
  rw [clock, myDome, mySpire, domeOf, spireOf, Nat.div_div_eq_div_mul]

/-- The port takes no instruction of a core that presents none (R256). -/
theorem portTurn_of_running {s : State} (h : s.core.status = .running) (sp q : Nat) : s.portTurn sp q = false := by
  have hpresents : s.presents s.cur = false := by
    have hstatus : (s.coreAt s.cur).status = .running := h
    simp only [presents, hstatus]
  refine Bool.eq_false_iff.2 fun hturn => ?_
  have hfound : (s.portOrder sp).find? s.presents = some s.cur := eq_of_beq (Bool.and_eq_true_iff.1 hturn).2
  exact absurd (List.find?_some hfound) (ne_true_of_eq_false hpresents)

/-- A core that presents an instruction for the first time presents it since this core cycle (assumption log 86). -/
theorem presenting_of_running {s : State} (h : s.core.status = .running) (q : Nat) :
    s.presenting s.mySpire q = .queue s.mySpire q s.clock := by
  simp only [presenting, h, domeClock_mySpire]

/-- The port takes the instruction of the current core (R256). -/
def portTakes (s : State) : State :=
  (s.setGraver { s.graver with portLast := coreInSpire s.cur, acceptAt := some s.clock }).count 5 1

end State

/-- A matrix instruction that the port takes and whose body completes completes. -/
theorem completesWhen_matrix {i : Instr} {g : Guard} {q : Nat} {body : State → Res} {c : State → State → Prop}
    (hexec : ∀ s, exec i s = matrix i g q body s) (hbody : ∀ s u, c s u → body s = .done u) :
    CompletesWhen i (State.whole g) fun s u => s.portTurn s.mySpire q = true ∧ c s.portTakes u := by
  rintro s u hissues ⟨hturn, hc⟩
  exact (hexec s).trans (matrix_done hissues hturn (hbody _ u hc))

/-- An instruction that begins by presenting itself to the port waits for it. -/
theorem instr_presents {i : Instr} {g : Guard} {q : Nat} {body : State → Res} {s : State}
    (hissues : s.issues i (State.whole g s) = true) (hrunning : s.core.status = .running)
    (hbody : let v := s.acquireTokens i
      ∃ accept, body v = if v.portTurn v.mySpire q then accept else .wait (v.presenting v.mySpire q) v) :
    instr i g body s = .next ((s.acquireTokens i).waitOn (.queue s.mySpire q s.clock)) := by
  have hstatus : (s.acquireTokens i).core.status = .running := (State.acquireTokens_status s i).trans hrunning
  obtain ⟨accept, hbody⟩ := hbody
  refine instrIf_wait (g := s.guardLane g 0) hissues (hbody.trans ?_)
  rw [State.portTurn_of_running hstatus, if_neg Bool.false_ne_true, State.presenting_of_running hstatus, State.acquireTokens_mySpire,
    State.acquireTokens_clock]

/-- A matrix instruction presents itself to the port first, and waits for it (R256). -/
theorem matrix_presents {i : Instr} {g : Guard} {q : Nat} {body : State → Res} {s : State} (hexec : exec i s = matrix i g q body s)
    (hissues : s.issues i (State.whole g s) = true) (hrunning : s.core.status = .running) :
    exec i s = .next ((s.acquireTokens i).waitOn (.queue s.mySpire q s.clock)) :=
  hexec.trans (instr_presents hissues hrunning ⟨_, rfl⟩)

/-- A matrix instruction that the port takes and whose body waits leaves the core waiting. -/
theorem matrix_waits {i : Instr} {g : Guard} {q : Nat} {body : State → Res} {w : WaitCond} {s u : State}
    (hexec : exec i s = matrix i g q body s) (hissues : s.issues i (State.whole g s) = true)
    (hturn : (s.acquireTokens i).portTurn (s.acquireTokens i).mySpire q = true)
    (hbody : body (s.acquireTokens i).portTakes = .wait w u) : exec i s = .next (u.waitOn w) := by
  rw [hexec]
  unfold matrix instr
  exact instrIf_wait (g := s.guardLane g 0) hissues ((if_pos hturn).trans hbody)

section
variable {i : Instr} {g : Guard} {q : BitVec 2} {accept : State → Chk (Nat × State)} {finish : GResult → State → Res} {s : State}

/-- An instruction that has no operation yet presents itself (R167). -/
theorem awaited_presents (hexec : exec i s = awaited i g q accept finish s) (hissues : s.issues i (State.whole g s) = true)
    (hgop : s.core.gop = none) (hrunning : s.core.status = .running) :
    exec i s = .next ((s.acquireTokens i).waitOn (.queue s.mySpire q.toNat s.clock)) := by
  have hgop' : (s.acquireTokens i).core.gop = none := (State.acquireTokens_gop s i).trans hgop
  refine hexec.trans (instr_presents hissues hrunning ?_)
  dsimp only
  rw [hgop']
  exact ⟨_, rfl⟩

/-- An instruction whose operation has a result finishes with it (R167). -/
theorem awaited_finishes {num : Nat} {r : GResult} {u : State} (hexec : exec i s = awaited i g q accept finish s)
    (hissues : s.issues i (State.whole g s) = true)
    (hgop : (s.acquireTokens i).core.gop = some num) (hgres : (s.acquireTokens i).core.gres = some r)
    (hfinish : finish r ((s.acquireTokens i).onCore answered) = .done u) : exec i s = .next (u.completed i) := by
  rw [hexec]
  unfold awaited instr
  refine instrIf_done (g := s.guardLane g 0) hissues ?_
  dsimp only
  rw [hgop]
  dsimp only
  rw [hgres]
  exact hfinish

end

end Sys2Proof.Machine
end

section
/-!
PROOFS. The shape, slot and queue instructions of the Graver (06_matrix_isa R173, R175, R188).
-/

namespace Sys2Proof.Machine

open Sys2Proof

/-- What MQSYNC does once accepted, for the operations counted up to number n (R188). -/
def mqsyncEnds (d : SReg) (cq : BitVec 2) (n : Nat) (s : State) : Res :=
  let t := s.timeline true s.mySpire cq.toNat
  if n ≤ t.comp then .done ((s.acquire (t.tsUpTo n)).setReg d t.err) else .wait (.timeline true s.mySpire cq.toNat n) s

section
variable {g : Guard} {d : SReg} {cq : BitVec 2} {s : State}

/-- An MQSYNC that waits goes on with the number it counted when it was accepted. -/
theorem exec_mqsync_timeline {gr : Bool} {sp k n : Nat} (h : s.core.status = .waiting (.timeline gr sp k n)) :
    exec (.mqsync g d cq) s = instr (.mqsync g d cq) g (mqsyncEnds d cq n) s := by
  rw [exec_mqsync, execMqsync]
  simp only [h]
  rfl

/-- An MQSYNC not yet accepted counts the operations submitted when the port takes it. -/
theorem exec_mqsync_port (h : ∀ gr sp k n, s.core.status ≠ .waiting (.timeline gr sp k n)) :
    exec (.mqsync g d cq) s =
      matrix (.mqsync g d cq) g 4 (fun s => mqsyncEnds d cq (s.timeline true s.mySpire cq.toNat).sub s) s := by
  rw [exec_mqsync, execMqsync]
  split
  · next heq => exact absurd heq (h _ _ _ _)
  · rfl

/-- A core that presents its MQSYNC to the port has not been accepted. -/
theorem exec_mqsync_queue {i : Instr} {sp q since : Nat} (h : (s.acquireTokens i).core.status = .waiting (.queue sp q since)) :
    exec (.mqsync g d cq) s =
      matrix (.mqsync g d cq) g 4 (fun s => mqsyncEnds d cq (s.timeline true s.mySpire cq.toNat).sub s) s :=
  exec_mqsync_port fun _ _ _ _ => by rw [← State.acquireTokens_status s i, h]; nofun

end

/-- Settles O26: an instruction presents itself, and does what its rule says when the port takes it; MQSYNC may wait once more. -/
theorem shapesAndSlotsComplete : Obligations.ShapesAndSlotsComplete := by
  unfold Obligations.ShapesAndSlotsComplete
  intro taken
  have htaken : ∀ {i g q body c}, (∀ s, exec i s = matrix i g q body s) → (∀ s u, c s u → body s = .done u) → taken i g q c :=
    completesWhen_matrix
  clear_value taken
  refine ⟨fun g n a q => ⟨?mshl, fun field => ?mshf, ?mshs⟩, fun g d countM1 log2a => ?mclaim, fun g a countM1 => ?mrel,
    fun g cq pri => ?mqpri, fun i g hi s u hissues => ?presents, fun g d cq s u hissues => ?counts, fun g d cq s u hissues => ?ends,
    fun g d cq s u hissues => ?endsAtOnce⟩
  case mshl =>
    refine htaken (exec_mshl · g n a q) fun s u => ?_
    rintro ⟨halign, ws, s', hload, hlegal, rfl⟩
    dsimp only
    rw [if_neg (not_not_intro halign), run_of_passes hload]
    exact if_pos hlegal
  case mshf =>
    refine htaken (exec_mshf · g n a field q) fun s u => ?_
    rintro ⟨hfits, hassigned, rfl⟩
    dsimp only
    rw [if_neg (Nat.not_le.2 hfits), if_neg (ne_false_of_eq_true hassigned)]
  case mshs =>
    refine htaken (exec_mshs · g a n q) fun s u => ?_
    rintro ⟨halign, hstores⟩
    exact (if_neg (not_not_intro halign)).trans (State.storeElems_done hstores _)
  case mclaim =>
    refine htaken (exec_mclaim · g d countM1 log2a) fun s u hu => ?_
    dsimp only at hu ⊢
    cases hfree : freeSlots s.graver.slots (countM1.toNat + 1) (2 ^ log2a.toNat) with
    | none => rw [hfree] at hu; exact congrArg Res.done hu.symm
    | some b => rw [hfree] at hu; exact congrArg Res.done hu.symm
  case mrel =>
    refine htaken (exec_mrel · g a countM1) fun s u => ?_
    rintro ⟨hclaimed, rfl⟩
    have hnone : ((List.range (countM1.toNat + 1)).find? fun k =>
        decide (127 < (s.reg a).toNat + k) || !(s.slotAt ((s.reg a).toNat + k)).claimed) = none := by
      simpa [List.find?_eq_none] using hclaimed
    dsimp only
    rw [hnone]
  case mqpri =>
    exact htaken (exec_mqpri · g cq pri) fun s u hu => congrArg Res.done hu.symm
  case presents =>
    rintro ⟨hrunning, rfl⟩
    rw [State.acquireTokens_status] at hrunning
    rw [State.acquireTokens_mySpire, State.acquireTokens_clock]
    obtain ⟨n, a, q, rfl⟩ | ⟨n, a, f, q, rfl⟩ | ⟨a, n, q, rfl⟩ | ⟨d, n, l, rfl⟩ | ⟨a, n, rfl⟩ | ⟨q, p, rfl⟩ | ⟨d, q, rfl⟩ := hi
    · exact matrix_presents (exec_mshl ..) hissues hrunning
    · exact matrix_presents (exec_mshf ..) hissues hrunning
    · exact matrix_presents (exec_mshs ..) hissues hrunning
    · exact matrix_presents (exec_mclaim ..) hissues hrunning
    · exact matrix_presents (exec_mrel ..) hissues hrunning
    · exact matrix_presents (exec_mqpri ..) hissues hrunning
    · exact matrix_presents (exec_mqsync_port fun _ _ _ _ => by rw [hrunning]; nofun) hissues hrunning
  case counts =>
    rintro ⟨⟨sp, q, since, hstatus⟩, hturn, hpending, rfl⟩
    exact matrix_waits (exec_mqsync_queue hstatus) hissues hturn (if_neg (Nat.not_le.2 hpending))
  case ends =>
    rintro ⟨gr, sp, k, n, hstatus, hdone, rfl⟩
    rw [State.acquireTokens_status] at hstatus
    exact (exec_mqsync_timeline hstatus).trans (instrIf_done (g := s.guardLane g 0) hissues (if_pos hdone))
  case endsAtOnce =>
    rintro ⟨⟨sp, q, since, hstatus⟩, hturn, hdone, rfl⟩
    exact (exec_mqsync_queue hstatus).trans (matrix_done hissues hturn (if_pos hdone))

end Sys2Proof.Machine
end

section
/-!
PROOFS. The acceptance of matrix operations whose checks pass (06_matrix_isa R168, R176-R187).
-/

namespace Sys2Proof.Machine

open Sys2Proof

/-! ## The checks of R168 one after another -/

/-- A check that passes hands its result to the checks after it. -/
theorem Passes.next {α β : Type} {c : Chk α} {f : α → Chk β} {x : α} {y : β} (h : Passes c x) (h' : Passes (f x) y) :
    Passes (c >>= f) y :=
  (congrArg (Passes · y) h.bind).mpr h'

theorem passes_rule {b : Bool} {e : Stop} (h : b = true) : Passes (rule b e) () := rule_ok h

theorem run_accepted {c : Chk Res} {u : State} (h : Passes c (.done u)) (s : State) : accepted c s = .done u := run_of_passes h s id

/-- A shape is usable if it is legal and its layer exists (R168, R172). -/
theorem passes_useShape {x : BitVec 512} (hlegal : Shape.legal x = true) (hlayer : Shape.layer x < Shape.depth x) (n : Nat) :
    Passes (useShape x n) () := by
  refine passes_rule ?_
  rw [hlegal, decide_eq_true hlayer, Bool.and_self]

/-- A pair begins at an even number (R168). -/
theorem passes_pairRule {pair : Bool} {n : Nat} (h : pair = true → n % 2 = 0) (e : Stop) : Passes (rule (!(pair && n % 2 == 1)) e) () := by
  refine passes_rule ?_
  cases pair with
  | false => rfl
  | true => simp [h rfl]

/-- A field above the low n bits of a word is zero. -/
theorem ushiftRight_eq_zero {x : Word} {n : Nat} (h : x.toNat < 2 ^ n) : x >>> n = 0 :=
  BitVec.eq_of_toNat_eq (by rw [BitVec.toNat_ushiftRight, Nat.shiftRight_eq_div_pow, Nat.div_eq_of_lt h]; rfl)

/-- An MLD or MLDX whose checks pass is accepted (R176). -/
theorem acceptLoad_passes {s t v : State} {q slot n org : Nat} {d : SReg} {x : BitVec 512} {h : Option Nat} {pages : List GPage}
    {tr scaled : Bool} (hx : x = s.shapeReg q n)
    (hslots : Passes (s.checkSlots (if Shape.wide (Shape.fmt x) then [slot, slot + 1] else [slot])) ())
    (huse : Passes (useShape x n) ())
    (halign : Shape.alignedTo x (alignUnit (Shape.fmt x)) = true)
    (hblock : Shape.fmt x = 14 → (if tr = true then Shape.row0 x else Shape.col0 x) % 32 = 0)
    (hfmt : Shape.operand (Shape.fmt x) = true ∧ (scaled = true → Shape.fmt x = 14))
    (heven : Shape.wide (Shape.fmt x) = true → slot % 2 = 0)
    (hcapture : Passes (s.captureShape x) (org, h, t))
    (hreach : Passes (State.reachAll .load h (loadBytes x org tr scaled (Shape.layer x) (Shape.row0 x) (Shape.col0 x)) { st := t }).check
      (pages, v)) :
    let w := v.submit q (.mld scaled tr slot x) [] pages [h] [org]
    Passes (acceptLoad s d n slot q tr scaled)
      (.done ((w.2.tagSlots (slotKeys (Shape.fmt x) slot) x).setReg d (BitVec.ofNat 64 w.1))) := by
  subst hx
  unfold acceptLoad
  refine hslots.next <| huse.next <| (passes_rule ?_).next <| (passes_rule ?_).next <| (passes_pairRule heven _).next <|
    hcapture.next <| hreach.next rfl
  · simpa [halign, or_iff_not_imp_left] using hblock
  · obtain ⟨hoperand, hscaled⟩ := hfmt
    cases scaled with
    | false => rw [hoperand]; rfl
    | true => rw [hoperand, hscaled rfl]; rfl

/-- The slots an MMA consumes, of a format f. -/
abbrev mmaSlots (f a b : Nat) : List Nat := slotKeys f a ++ slotKeys f b

/-- The tile, or pair of tiles, that an operation on a format updates. -/
abbrev mmaTiles (f t : Nat) : List Nat := if f = 13 then [t, t + 1] else [t]

/-- An MMA or MMA.S whose checks pass is accepted (R178, R182). -/
theorem acceptMma_passes {s : State} {spec : Bool} {t a b q f : Nat} {c : SReg} (hf : (s.slotAt a).fmt.toNat = f)
    (hsame : (s.slotAt b).fmt.toNat = f) (hslots : Passes (s.checkSlots (mmaSlots f a b)) ())
    (hfilled : ∀ k ∈ mmaSlots f a b, (s.slotAt k).fmt ≠ 0)
    (hwide : Shape.wide f = true → a % 2 = 0 ∧ b % 2 = 0) (hpair : f = 13 → t % 2 = 0) (hmask : f = 14 ∨ s.reg c >>> 48 = 0)
    (hsoft : Passes (s.checkSoft (mmaSlots f a b)) ())
    (htiles : if spec then (s.qctx q).isOpen = true ∧ ∀ k ∈ mmaTiles f t, (s.qctx q).sel.getLsbD k = true
      else Passes (s.checkProtected (mmaTiles f t)) ()) :
    Passes (acceptMma s spec t a b q c)
      (.done (s.submit q (.mma spec (if spec then 8 + t else t) a b (s.reg c) (s.slotAt a).fmt) [] [] []).2) := by
  subst hf
  unfold acceptMma
  rw [hsame]
  refine hslots.next <| (passes_rule ?filled).next <| (passes_rule (beq_self_eq_true _)).next <| (passes_rule ?wide).next <|
    (passes_pairRule (fun h => hpair (eq_of_beq h)) _).next <| (passes_rule ?mask).next <| hsoft.next ?_
  case filled => simpa [List.filter_eq_nil_iff, or_imp, forall_and] using hfilled
  case wide =>
    cases hw : Shape.wide (s.slotAt a).fmt.toNat with
    | false => rfl
    | true => simp [hwide hw]
  case mask => simpa using hmask
  simp only [beq_iff_eq]
  cases spec with
  | false => exact htiles.next rfl
  | true =>
    obtain ⟨hopen, hsel⟩ := htiles
    exact (passes_rule hopen).next ((passes_rule (List.all_eq_true.2 hsel)).next rfl)

/-- The formats that MST writes, and what its operands ask of them (R168, R181). -/
theorem storeFormat_of {f : Nat} {cplx : BitVec 1} {sc : BitVec 4} (hfmt : f ∈ [9, 10, 11, 13, 15]) (hcplx : cplx = 1 → f = 13 ∨ f = 15)
    (hscale : sc = 0 ∨ f = 13) :
    ([9, 10, 11, 13, 15].contains f && !(cplx == 1 && f != 13 && f != 15) && (sc.toNat == 0 || f == 13)) = true := by
  refine Bool.and_eq_true_iff.2 ⟨Bool.and_eq_true_iff.2 ⟨List.contains_iff_mem.2 hfmt, ?_⟩, ?_⟩
  · by_cases hc : cplx = 1
    · rcases hcplx hc with rfl | rfl <;> simp
    · rw [beq_false_of_ne hc]; rfl
  · rcases hscale with rfl | rfl <;> simp

/-- The formats of C that a TGEMM may write, and its pair of tiles (R168, R183). -/
theorem gemmFormats_of {f fc t : Nat} (h : if f = 13 then fc ∈ [13, 15] ∧ t % 2 = 0 else fc ∈ [9, 10, 11, 15]) :
    (if f == 13 then fc == 13 || fc == 15 else [9, 10, 11, 15].contains fc) = true ∧ ((f == 13) = true → t % 2 = 0) := by
  by_cases hf : f = 13
  · rw [if_pos hf] at h
    simpa [hf] using h
  · rw [if_neg hf] at h
    simpa [hf] using h

/-- No tile of a mask lies in an OPEN SEL (R182). -/
theorem find?_selected_none {s : State} {mask : BitVec 8}
    (h : ∀ n ∈ selected mask, ∀ c ∈ s.graver.ctx, c.isOpen = true → c.sel.getLsbD n = false) :
    ((selected mask).find? fun n => s.graver.ctx.any fun c => c.isOpen && c.sel.getLsbD n) = none := by
  simpa [List.find?_eq_none] using h

/-- A shape of a TGEMM is usable if it is legal and has a layer (R183). -/
theorem passes_gemmShape {x : BitVec 512} (hlegal : Shape.legal x = true) (hdepth : Shape.depth x ≠ 0) (e : Stop) :
    Passes (rule (Shape.legal x && decide (Shape.depth x ≠ 0)) e) () := by
  refine passes_rule ?_
  rw [hlegal, decide_eq_true hdepth, Bool.and_self]

/-- An MRESOLVE, MCOMMIT or MDISCARD presents itself (R182). -/
theorem resolve_presents {i : Instr} {g : Guard} {q : BitVec 2} {commit : State → Bool} {s : State}
    (hexec : exec i s = resolve i g q commit s) (hissues : s.issues i (State.whole g s) = true) (hrunning : s.core.status = .running) :
    exec i s = .next ((s.acquireTokens i).waitOn (.queue s.mySpire q.toNat s.clock)) := by
  unfold resolve at hexec
  exact matrix_presents hexec hissues hrunning

/-- The row that MMOV moves, as the words of a group of four vector registers (R180). -/
def rowGroup (data : BitVec 1024) (intf : BitVec 1) : List VWord :=
  (List.range 4).map fun k =>
    BitVec.ofNat 256 ((List.range 4).foldl (fun z j => z + (rowLane data (intf == 1) (4 * k + j)).toNat * 2 ^ (64 * j)) 0)

/-- MMOV waits for the result of its operation, and moves its row (R180). -/
theorem exec_mmov_awaited (g : Guard) (d : VReg) (t : BitVec 3) (row : BitVec 4) (sh intf : BitVec 1) (q : BitVec 2) (s : State) :
    ∃ accept finish, exec (.mmov g d t row sh intf q) s = awaited (.mmov g d t row sh intf q) g q accept finish s ∧
      ∀ data v, finish (.row data) v = .done (v.setGroup d (rowGroup data intf)) := by
  rw [exec_mmov, execMmov]
  exact ⟨_, _, rfl, fun _ _ => rfl⟩

/-- A TFACT with no PIVOT trap to take waits for the result of its operation, and completes with its status if it is not to trap or met
no small pivot (R186, 16_traps R321). -/
theorem exec_tfact_awaited {g : Guard} {d : SReg} {t : BitVec 3} {srci ptrap : BitVec 1} {q : BitVec 2} {s : State} (h : s.pivotHere = none) :
    ∃ accept finish, exec (.tfact g d t srci ptrap q) s = awaited (.tfact g d t srci ptrap q) g q accept finish s ∧
      ∀ status v, (ptrap = 0 ∨ status = 0) → finish (.fact status) v = .done (v.setReg d (status.setWidth 64)) := by
  rw [exec_tfact, execTfact]
  dsimp only
  rw [h]
  refine ⟨_, _, rfl, fun status v hgood => ?_⟩
  have hpivot : ¬ (ptrap = 1 ∧ status ≠ 0) := by
    rintro ⟨rfl, hstatus⟩
    exact hgood.elim (by decide) hstatus
  dsimp only
  rw [if_neg fun h => hpivot ⟨h.1, h.2.1⟩, if_neg hpivot]

/-! ## The statement -/

/-- Settles O27: an operation presents itself, passes its checks one after another when the port takes it, and is accepted; MMOV and
TFACT finish with their result. -/
theorem matrixOperationsComplete : Obligations.MatrixOperationsComplete := by
  unfold Obligations.MatrixOperationsComplete
  intro taken
  have htaken : ∀ {i g q body c}, (∀ s, exec i s = matrix i g (BitVec.toNat q) body s) → (∀ s u, c s u → body s = .done u) →
      taken i g q c :=
    completesWhen_matrix
  clear_value taken
  intro g q
  refine ⟨fun d n slot tr => ?loads, fun t c x y => ?mmas, fun i hi s hissues hpivot hgop hrunning => ?presents, fun t => ?mzero,
    fun d t row sh intf s u hissues => ?mmov, fun t a row => ?mmovr, fun d n t c sc cplx => ?mst, fun mask => ?mspec, ?resolves,
    fun d a b c t addc slot => ?tgemm, fun d t srci ptrap s u hissues => ?tfact, fun x f b => ?tsolve⟩
  case loads =>
    intro load
    have hload : ∀ scaled s u, load scaled s u → Passes (acceptLoad s d n.toNat slot.toNat q.toNat (tr == 1) scaled) (.done u) := by
      rintro scaled s u ⟨hslots, hlegal, hlayer, halign, hblock, hoperand, hscaled, heven, org, h, t, pages, v, hcapture, hreach, rfl⟩
      exact acceptLoad_passes rfl hslots (passes_useShape hlegal hlayer _) halign (by simpa using hblock) ⟨hoperand, hscaled⟩ heven
        hcapture hreach
    exact ⟨htaken (exec_mld · g d n slot tr q) fun s u h => run_accepted (hload false s u h) s,
      htaken (exec_mldx · g d n slot tr q) fun s u h => run_accepted (hload true s u h) s⟩
  case mmas =>
    intro mma
    have hmma : ∀ spec s u, mma spec s u → Passes (acceptMma s spec t.toNat x.toNat y.toNat q.toNat c) (.done u) := by
      rintro spec s u ⟨hsame, hslots, hfilled, hwide, hpair, hmask, hsoft, htiles, rfl⟩
      exact acceptMma_passes rfl hsame hslots hfilled hwide hpair hmask hsoft htiles
    exact ⟨htaken (exec_mma · g t c x y q) fun s u h => run_accepted (hmma false s u h) s,
      htaken (exec_mmaS · g t c x y q) fun s u h => run_accepted (hmma true s u h) s⟩
  case presents =>
    obtain ⟨d, n, k, tr, rfl⟩ | ⟨d, n, k, tr, rfl⟩ | ⟨t, c, x, y, rfl⟩ | ⟨t, c, x, y, rfl⟩ | ⟨t, rfl⟩ | ⟨d, t, r, sh, f, rfl⟩ |
      ⟨t, a, r, rfl⟩ | ⟨d, n, t, c, sc, x, rfl⟩ | ⟨m, rfl⟩ | ⟨c, rfl⟩ | rfl | rfl | ⟨d, a, b, c, t, ad, k, rfl⟩ | ⟨d, t, x, p, rfl⟩ |
      ⟨x, f, b, rfl⟩ := hi
    · exact matrix_presents (exec_mld ..) hissues hrunning
    · exact matrix_presents (exec_mldx ..) hissues hrunning
    · exact matrix_presents (exec_mma ..) hissues hrunning
    · exact matrix_presents (exec_mmaS ..) hissues hrunning
    · exact matrix_presents (exec_mzero ..) hissues hrunning
    · obtain ⟨accept, finish, hexec, -⟩ := exec_mmov_awaited g d t r sh f q s
      exact awaited_presents hexec hissues hgop hrunning
    · exact matrix_presents (exec_mmovr ..) hissues hrunning
    · exact matrix_presents (exec_mst ..) hissues hrunning
    · exact matrix_presents (exec_mspec ..) hissues hrunning
    · exact resolve_presents (exec_mresolve ..) hissues hrunning
    · exact resolve_presents (exec_mcommit ..) hissues hrunning
    · exact resolve_presents (exec_mdiscard ..) hissues hrunning
    · exact matrix_presents (exec_tgemm ..) hissues hrunning
    · obtain ⟨accept, finish, hexec, -⟩ := exec_tfact_awaited hpivot
      exact awaited_presents hexec hissues hgop hrunning
    · exact matrix_presents (exec_tsolve ..) hissues hrunning
  case mzero =>
    refine htaken (exec_mzero · g t q) fun s u => ?_
    rintro ⟨hprotected, rfl⟩
    exact run_of_passes hprotected s _
  case mmov =>
    rintro ⟨num, data, hgop, hgres, rfl⟩
    obtain ⟨accept, finish, hexec, hfinish⟩ := exec_mmov_awaited g d t row sh intf q s
    exact awaited_finishes hexec hissues hgop hgres (hfinish data _)
  case mmovr =>
    refine htaken (exec_mmovr · g t a row q) fun s u => ?_
    rintro ⟨hprotected, rfl⟩
    exact run_of_passes hprotected s _
  case mst =>
    refine htaken (exec_mst · g d n t c sc cplx q) fun s u => ?_
    rintro ⟨hlegal, hlayer, halign, hfmt, hcplx, hscale, hpair, hmask, org, h, z, pages, v, hcapture, hreach, hpoison, rfl⟩
    refine run_accepted ?_ s
    unfold acceptStore
    refine (passes_useShape hlegal hlayer _).next <| (passes_rule halign).next <| (passes_rule (storeFormat_of hfmt hcplx hscale)).next <|
      (passes_pairRule hpair _).next <| (passes_rule (beq_iff_eq.2 hmask)).next <| hcapture.next <| hreach.next <| (hpoison.after v).next rfl
  case mspec =>
    refine htaken (exec_mspec · g mask q) fun s u => ?_
    rintro ⟨hclosed, hfree, rfl⟩
    dsimp only
    rw [if_neg (ne_true_of_eq_false hclosed), find?_selected_none hfree]
  case resolves =>
    intro ends
    have hends : ∀ i commit, (∀ s, exec i s = resolve i g q commit s) → ends i commit := by
      refine fun i commit hexec => htaken hexec fun s u => ?_
      rintro ⟨hopen, rfl⟩
      exact if_pos hopen
    exact ⟨fun c => hends _ _ (exec_mresolve · g c q), hends _ _ (exec_mcommit · g q), hends _ _ (exec_mdiscard · g q)⟩
  case tgemm =>
    refine htaken (exec_tgemm · g d a b c t addc slot q) fun s u => ?_
    rintro ⟨hslots, hshapes, hoperand, hsame, hformats, hprotected, hrows, hinner, hcols, hdepthA, hdepthB, hshare, oa, ha, s1, ob, hb, s2, oc,
      hc, s3, pages, v, hcaptureA, hcaptureB, hcaptureC, hpins, hreach, rfl⟩
    refine run_accepted ?_ s
    obtain ⟨⟨hlegalA, hlayerA, halignA⟩, ⟨hlegalB, hlayerB, halignB⟩, hlegalC, hlayerC, halignC⟩ := by
      simpa using hshapes
    obtain ⟨hformats, hpair⟩ := gemmFormats_of hformats
    unfold acceptTgemm
    refine hslots.next <| (passes_gemmShape hlegalA hlayerA _).next <| (passes_gemmShape hlegalB hlayerB _).next <|
      (passes_gemmShape hlegalC hlayerC _).next <| (passes_rule halignA).next <| (passes_rule halignB).next <| (passes_rule halignC).next <|
      (passes_rule hoperand).next <| (passes_rule (hsame ▸ hoperand)).next <| (passes_rule (beq_iff_eq.2 hsame.symm)).next <|
      (passes_rule hformats).next <| (passes_pairRule hpair _).next ?_
    simp only [beq_iff_eq]
    refine hprotected.next <| (passes_rule ?extents).next <| (passes_rule ?apart).next <| hcaptureA.next <| hcaptureB.next <|
      hcaptureC.next <| hpins.next <| hreach.next rfl
    · simp [hrows, hinner, hcols, hdepthA, hdepthB]
    · exact congrArg not hshare
  case tfact =>
    rintro ⟨num, status, hgop, hgres, hgood, rfl⟩
    obtain ⟨hwhole, hpivot⟩ : s.issues (.tfact g d t srci ptrap q) (State.whole g s) = true ∧ s.pivotHere = none := by
      simpa [State.issues, and_assoc] using hissues
    obtain ⟨accept, finish, hexec, hfinish⟩ := exec_tfact_awaited hpivot
    exact awaited_finishes hexec hwhole hgop hgres (hfinish status _ hgood)
  case tsolve =>
    refine htaken (exec_tsolve · g x f b q) fun s u => ?_
    rintro ⟨hfits, hprotected, rfl⟩
    refine run_accepted ?_ s
    refine (passes_rule (beq_iff_eq.2 (ushiftRight_eq_zero hfits))).next ?_
    exact hprotected.next rfl

end Sys2Proof.Machine
end

section
/-!
PROOFS. Packets, acknowledgements, copies and landings: what a visit of a Spire's port sends (09_execution R248), what a bank does
with an ordered packet (05_memory_isa R146), and how a streamer moves a piece of a copy (21_memory_system R363).
-/

namespace Sys2Proof.Machine

open Sys2Proof

/-- An event that does f goes on with what f makes of the state. -/
theorem exec_next_of_event {i : Instr} {f : State → State} {s u : State} (hexec : exec i s = event f s) (hon : s.on = true)
    (h : f s = u) : exec i s = .next u := by
  rw [hexec, event_on hon, h]

namespace State

variable {s v : State}

/-! ## The Spire port (R248) -/

/-- A port without requests finds no core to visit. -/
theorem cyclic_eq_none {ok : Nat → Bool} (h : ∀ c, ok c = false) (start : Nat) : cyclic start ok = none :=
  List.find?_eq_none.2 fun c _ => ne_true_of_eq_false (h c)

theorem portSend_weighted {sp c : Nat} {x : Spire} (hx : s.spireAt sp = x)
    (hc : cyclic x.visit (fun c => (x.port.any fun r => r.core == c) && decide (1 ≤ s.portWeight sp c)) = some c) :
    s.portSend sp =
      let r := sendWhile c (nth x.deficit c 0 + 5 * s.portWeight sp c) x.port
      (s.setSpireAt sp { x with
        port := r.2.1
        deficit := x.deficit.set c (if r.2.1.any fun q => q.core == c then r.2.2 else 0)
        visit := (c + 1) % 32 }).launchPackets r.1 := by
  subst hx
  simp only [portSend, hc]

theorem portSend_unweighted {sp c i : Nat} {r : PortReq} {x : Spire} (hx : s.spireAt sp = x)
    (hnone : cyclic x.visit (fun c => (x.port.any fun r => r.core == c) && decide (1 ≤ s.portWeight sp c)) = none)
    (hc : cyclic x.visit0 (fun c => x.port.any fun r => r.core == c) = some c)
    (hi : x.port.findIdx? (fun r => r.core == c) = some i) (hr : x.port[i]? = some r) :
    s.portSend sp = (s.setSpireAt sp { x with port := x.port.eraseIdx i, visit0 := (c + 1) % 32 }).launchPackets [r] := by
  subst hx
  simp only [portSend, hnone, hc, hi, hr]

theorem portSend_nil {sp : Nat} (h : (s.spireAt sp).port = []) : s.portSend sp = s := by
  simp only [portSend, h, List.any_nil, Bool.false_and, cyclic_eq_none fun _ => rfl]

/-! ## Ordered packets (R146) -/

/-- A bank that holds an operation changes its dome alone. -/
theorem orderedArrive_held_frame {h : HeldOp} (hheld : s.orderedArrive h = .held v) : v = { s with domes := v.domes } := by
  unfold orderedArrive at hheld
  dsimp only at hheld
  split_ifs at hheld <;> cases hheld <;> rfl

theorem pktTenant_of_held {h : HeldOp} (hheld : s.orderedArrive h = .held v) (p : Packet) : v.pktTenant p = s.pktTenant p := by
  rw [orderedArrive_held_frame hheld]
  rfl

/-- The operation that an ordered packet brings to its bank (R146). -/
def packetOp (p : Packet) (loc n : Nat) (op : BitVec 6) (ty : Ty) (data : Word) (q : BitVec 32) (last : Bool) : HeldOp :=
  { loc := loc, q := q, last := last, port := 1057, pkt := some p, op := op, ty := ty, n := n, data := data }

section
variable {p : Packet} {loc n : Nat} {op : BitVec 6} {ty : Ty} {data : Word} {q : BitVec 32} {last : Bool}

theorem redArrives_applied {x : Word} (hopen : s.bankRefuses p loc = false)
    (h : s.orderedArrive (packetOp p loc n op ty data q last) = .applied x v) :
    s.redArrives p loc n op ty data (some (q, last)) = ((v.grantPosted p loc 0).countFor (v.pktTenant p) 12 1).answer p false := by
  rw [packetOp] at h
  simp only [redArrives, hopen, h, Bool.false_eq_true, if_false]

theorem redArrives_held (hopen : s.bankRefuses p loc = false)
    (h : s.orderedArrive (packetOp p loc n op ty data q last) = .held v) :
    s.redArrives p loc n op ty data (some (q, last)) = (v.grantOnly loc 1057).countFor (s.pktTenant p) 13 1 := by
  rw [← pktTenant_of_held h]
  rw [packetOp] at h
  simp only [redArrives, hopen, h, Bool.false_eq_true, if_false]

theorem redArrives_refused (hopen : s.bankRefuses p loc = false)
    (h : s.orderedArrive (packetOp p loc n op ty data q last) = .refused) :
    s.redArrives p loc n op ty data (some (q, last)) = ((s.grantOnly loc 1057).countFor (s.pktTenant p) 14 1).answer p true := by
  rw [packetOp] at h
  simp only [redArrives, hopen, h, Bool.false_eq_true, if_false]

end

/-! ## A piece of a copy (R363) -/

variable {unit k n : Nat} {op op' : CopyOp} {p q : Place}

theorem copyRead_zero (op : CopyOp) (fuel k : Nat) (s : State) : copyRead op fuel k 0 s = ([], 0, s) := by
  cases fuel with
  | zero => rfl
  | succ fuel => exact if_pos rfl

/-- Bytes of one unit of the source are read at once. -/
theorem copyRead_unit (hn : n ≠ 0) (hwas : op.was = []) (hplace : s.copyPlace op .load op.src op.srcObj k = some p)
    (hinside : p.outside = false) (hunit : n ≤ unitBytes p.loc - p.loc % unitBytes p.loc)
    (hgood : (s.engineRead op.region none p.home p.kind 256 p.loc n).1.2 = false) (fuel : Nat) :
    copyRead op (fuel + 1) k n s =
      let r := s.engineRead op.region none p.home p.kind 256 p.loc n
      (toBytes n r.1.1, 0, r.2) := by
  simp only [copyRead, if_neg hn, hplace, Nat.min_eq_left hunit, hinside, hgood, hwas, List.isEmpty_nil, Nat.sub_self, copyRead_zero,
    List.append_nil, Bool.false_eq_true, if_false, if_true]

theorem copyMove_zero (s : State) (unit fuel : Nat) (op : CopyOp) : s.copyMove unit fuel 0 op = (op, s) := by
  cases fuel with
  | zero => rfl
  | succ fuel => exact if_pos (.inl rfl)

/-- Bytes that lie in one unit of the source and in one of the destination move at once. -/
theorem copyMove_unit (hn : n ≠ 0) (hcode : op.code = 0) (hwas : op.was = [])
    (hsrc : s.copyPlace op .load op.src op.srcObj op.moved = some p) (hdst : s.copyPlace op .store op.dst op.dstObj op.moved = some q)
    (hinside : p.outside = false) (hdstInside : q.outside = false)
    (hunit : n ≤ unitBytes p.loc - p.loc % unitBytes p.loc) (hdstUnit : n ≤ unitBytes q.loc - q.loc % unitBytes q.loc)
    (hfree : (isDome q.loc && !(isDome q.loc && locDome q.loc == unit) && s.meshHeld q.loc) = false)
    (hgood : (s.engineRead op.region none p.home p.kind 256 p.loc n).1.2 = false) (fuel : Nat) :
    s.copyMove unit (fuel + 1) n op =
      let r := s.engineRead op.region none p.home p.kind 256 p.loc n
      let w := r.2.engineWrite q.home q.kind q.loc n (if isDome q.loc && locDome q.loc == unit then 1056 else 1057)
        (ofBytes 256 (toBytes n r.1.1))
      ({ r.2.noteWas op q.loc n with moved := op.moved + n, ts := max op.ts w.1, code := 0 }, w.2) := by
  have hcontinues : ¬ (n = 0 ∨ op.code ≠ 0) := by simp [hn, hcode]
  simp only [copyMove, if_neg hcontinues, hdst, hfree, Bool.false_eq_true, if_false, Nat.min_eq_left hdstUnit,
    copyRead_unit hn hwas hsrc hinside hunit hgood, length_toBytes, hdstInside, if_neg hn, Nat.sub_self, copyMove_zero]

theorem movePiece_over (hcode : op.code ≠ 0) : s.movePiece unit op = (op, s) := if_pos hcode

theorem movePiece_overlapping (hcode : op.code = 0) (hmoved : op.moved = 0) (hover : copyOverlaps op = true) :
    s.movePiece unit op = ({ op with code := 4 }, s) := by
  unfold movePiece
  dsimp only
  rw [if_neg (not_not_intro hcode), if_pos (.inl ⟨hmoved, hover⟩)]

/-- A copy that is not refused moves up to 512 bytes. -/
theorem movePiece_moves (hcode : op.code = 0) (hn : min 512 (op.len - op.moved) = n) (hapart : op.moved = 0 → copyOverlaps op = false)
    (hdst : s.foreignBank op op.dst op.dstObj op.moved (if op.moved = 0 then op.len else n) = false)
    (hsrc : s.foreignBank op op.src op.srcObj op.moved (if op.moved = 0 then op.len else n) = false) :
    s.movePiece unit op = s.copyMove unit (n + 1) n op := by
  subst hn
  unfold movePiece
  dsimp only
  rw [if_neg (not_not_intro hcode), if_neg]
  rintro (⟨hmoved, hover⟩ | hforeign | hforeign)
  · exact absurd hover (ne_true_of_eq_false (hapart hmoved))
  · exact absurd hforeign (ne_true_of_eq_false hdst)
  · exact absurd hforeign (ne_true_of_eq_false hsrc)

theorem unitBytes_le (loc : Nat) : unitBytes loc ≤ 32 := by
  unfold unitBytes
  split <;> omega

/-- After a piece of its next copy `op` has left the copy as `op'`, a streamer counts the bytes moved, and ends the copy or takes
it up again last (R363). -/
def endPiece (s : State) (unit : Nat) (op : CopyOp) (rest : List CopyOp) (op' : CopyOp) : State :=
  let m := op'.moved - op.moved
  let w := (s.countFor op.tenant 36 ((m + 31) / 32)).onRegion op.region fun g => { g with progBytes := g.progBytes + m }
  let x := match op'.bar with
    | some b => if m = 0 then w else w.settleBytes op.region b m 0 op'.ts
    | none => w
  if op'.code ≠ 0 ∨ op'.moved = op'.len then (x.setStreamer unit (fillActive { x.streamerAt unit with active := rest })).endCopy op'
  else x.setStreamer unit { x.streamerAt unit with active := rest ++ [op'] }

theorem streamerPiece_cons {rest : List CopyOp} (hactive : (s.streamerAt unit).active = op :: rest)
    (hmove : ({ s with acting := some op.tenant } : State).movePiece unit op = (op', v)) :
    s.streamerPiece unit = ({ v with acting := s.acting } : State).endPiece unit op rest op' := by
  simp only [streamerPiece, hactive, actingFor, hmove]
  rfl

/-- A copy that failed before a byte of the piece moved, and counts in no barrier object, only ends. -/
theorem endPiece_unmoved (hcode : op'.code ≠ 0) (hmoved : op'.moved = op.moved) (hbar : op'.bar = none) (rest : List CopyOp) :
    s.endPiece unit op rest op' =
      let w := (s.countFor op.tenant 36 0).onRegion op.region fun g => { g with progBytes := g.progBytes + 0 }
      (w.setStreamer unit (fillActive { w.streamerAt unit with active := rest })).endCopy op' := by
  simp only [endPiece, hmoved, Nat.sub_self, hbar]
  exact if_pos (.inl hcode)

end State

/-! ## The statement -/

/-- Settles O34: an arrival, an answer, a landing and a request presented again are plain functions of what they find; the port visits
the next core in turn; a streamer moves a piece of its next copy and ends it. -/
theorem meshEventsHappen : Obligations.MeshEventsHappen := by
  intro s hon
  refine ⟨fun sp c hc => ?weighted, fun sp c i r hnone hc hi hr => ?unweighted, fun sp hport => ?noRequest,
    fun k p u loc n data ts hp hkind => ?store, fun k p u loc n op ty data hp hkind => ?reduce,
    fun k p u loc n op ty data q last v hp hkind hopen => ?ordered, fun k p u target mask ts hp hkind => ?wake,
    fun k a ha hgranted => ?acknowledge, fun k a ha hrefused => ?refusal,
    fun unit op rest hactive hcode _ hmoved hover hbar => ?overlap, fun unit op rest hactive => ?piece, fun k l hl => ?landing,
    fun sp k r hk hr => ?retry, fun link failures held => ?retrain⟩
  case weighted => exact exec_next_of_event (exec_spirePortSend s sp) hon (State.portSend_weighted rfl hc)
  case unweighted => exact exec_next_of_event (exec_spirePortSend s sp) hon (State.portSend_unweighted rfl hnone hc hi hr)
  case noRequest => exact exec_next_of_event (exec_spirePortSend s sp) hon (State.portSend_nil hport)
  case store =>
    refine exec_next_of_event (exec_postedStoreArrival s k) hon ?_
    simp only [hp, hkind]
    rfl
  case reduce =>
    refine exec_next_of_event (exec_redPacketArrival s k) hon ?_
    simp only [hp, hkind]
    rfl
  case ordered =>
    have hexec : exec (.redPacketArrival k) s = .next (u.redArrives p loc n op ty data (some (q, last))) := by
      refine exec_next_of_event (exec_redPacketArrival s k) hon ?_
      simp only [hp, hkind]
    exact ⟨fun ⟨x, h⟩ => hexec.trans (congrArg _ (State.redArrives_applied hopen h)),
      fun h => hexec.trans (congrArg _ (State.redArrives_held hopen h)),
      fun h => hexec.trans (congrArg _ (State.redArrives_refused hopen h))⟩
  case wake =>
    refine exec_next_of_event (exec_wakeDelivery s k) hon ?_
    simp only [hp, hkind]
    rfl
  case acknowledge =>
    refine exec_next_of_event (exec_postedAcknowledge s k) hon ?_
    simp only [State.takeAck, ha, if_pos hgranted]
  case refusal =>
    refine exec_next_of_event (exec_postedRefusal s k) hon ?_
    simp only [State.takeAck, ha, if_pos hrefused]
  case overlap =>
    refine exec_next_of_event (exec_streamerPiece s unit) hon ?_
    exact (State.streamerPiece_cons hactive (State.movePiece_overlapping hcode hmoved hover)).trans
      (State.endPiece_unmoved (op' := { op with code := 4 }) four_ne_zero rfl hbar rest)
  case piece =>
    intro ends z
    have hexec : ∀ op' v, z.movePiece unit op = (op', v) →
        exec (.streamerPiece unit) s = .next (ends op' { v with acting := s.acting }) :=
      fun op' v hmove => exec_next_of_event (exec_streamerPiece s unit) hon (State.streamerPiece_cons hactive hmove)
    refine ⟨fun hcode => hexec op z (State.movePiece_over hcode), fun op' v _ => hexec op' v, fun p q hcode hleft hwas hsrc hdst hinside
      hdstInside => ?_⟩
    intro n part near r hunit hdstUnit hapart hdstBank hsrcBank hfree hgood
    refine hexec _ _ ?_
    have hle := State.unitBytes_le p.loc
    have hn : min 512 (op.len - op.moved) = n := Nat.min_eq_right (by omega)
    rw [State.movePiece_moves hcode hn hapart hdstBank hsrcBank]
    exact State.copyMove_unit (by omega) hcode hwas hsrc hdst hinside hdstInside hunit hdstUnit hfree hgood n
  case landing =>
    refine exec_next_of_event (exec_copyStatusLanding s k) hon ?_
    simp only [hl]
  case retry =>
    refine exec_next_of_event (exec_sliceRetryHint s sp) hon ?_
    simp only [hk, hr]
  case retrain => exact exec_next_of_event (exec_linkRetrain s link failures held) hon rfl

end Sys2Proof.Machine
end

section
/-!
PROOFS. A gang switch takes one entry of its partition out of the list of armed partitions (16_traps R316, 07_system_isa R221). That
list is plain: `Tab.put` lists a number once, but the statement on scheduling speaks of every state and asks for no such list, and a
partition that stands in the list twice stays armed.
-/

namespace Sys2Proof.Machine

open Sys2Proof

namespace State

/-! ## What leaves the agreed times as they are -/

theorem foldl_armed {α : Type} {f : State → α → State} (hf : ∀ s x, (f s x).armed = s.armed) :
    ∀ (xs : List α) (s : State), (xs.foldl f s).armed = s.armed
  | [], _ => rfl
  | x :: xs, s => (foldl_armed hf xs (f s x)).trans (hf s x)

@[simp] theorem touchRow_armed (s : State) (loc : Nat) : (s.touchRow loc).armed = s.armed := by
  simp only [touchRow, apply_ite State.armed, ite_self]

@[simp] theorem touch_armed (s : State) (loc : Nat) : (s.touch loc).armed = s.armed := by
  unfold touch
  split
  · split
    · split <;> rfl
    · rfl
  · exact touchRow_armed s loc

@[simp] theorem clean_armed (s : State) (loc n : Nat) : (s.clean loc n).armed = s.armed := by
  simp only [clean, apply_ite State.armed, ite_self]

@[simp] theorem cleanRange_armed (s : State) (base len : Nat) : (s.cleanRange base len).armed = s.armed := by
  refine foldl_armed (fun s k => ?_) _ s
  dsimp only
  split
  · exact clean_armed _ _ _
  · rfl

@[simp] theorem poke_armed {w : Nat} (s : State) (loc n : Nat) (x : BitVec w) : (s.poke loc n x).armed = s.armed := by simp [poke]

@[simp] theorem putWords_armed (s : State) (loc : Nat) (ws : List Word) : (s.putWords loc ws).armed = s.armed :=
  (cleanRange_armed _ _ _).trans (foldl_armed (fun _ _ => poke_armed _ _ _ _) _ s)

@[simp] theorem traceHeader_armed (s : State) : s.traceHeader.armed = s.armed := by simp [traceHeader]

@[simp] theorem traceRec_armed (s : State) (ty tenant level region lcore : Nat) (arg : Word) :
    (s.traceRec ty tenant level region lcore arg).armed = s.armed := by
  unfold traceRec
  split
  · split <;> simp
  · rfl

@[simp] theorem evaluate_armed (s : State) (d obj : Nat) : (s.evaluate d obj).armed = s.armed := by
  unfold evaluate
  dsimp only
  split <;> rfl

@[simp] theorem endBstat_armed (s : State) (x : Nat × SReg × Nat × Nat) : (s.endBstat x).armed = s.armed := setReg_armed _ _ _

@[simp] theorem settleObjects_armed (s : State) (mine : Nat × Nat → Bool) : (s.settleObjects mine).armed = s.armed :=
  (foldl_armed endBstat_armed _ _).trans (foldl_armed (fun s _ => evaluate_armed s _ _) _ _)

@[simp] theorem writeSavedPc_armed (s : State) (c : Nat) : (s.writeSavedPc c).armed = s.armed := by
  unfold writeSavedPc
  dsimp only
  split <;> rfl

@[simp] theorem writeSaveArea_armed (s : State) (r : Region) (agreed : Nat) : (s.writeSaveArea r agreed).armed = s.armed :=
  (foldl_armed (fun s _ => foldl_armed (fun s _ => putWords_armed s _ _) _ s) _ _).trans (putWords_armed s _ _)

theorem withdraw_armed (s : State) (c : Nat) : (s.withdraw c).armed = s.armed := rfl

/-- The cores of a Spire write where they go on, and withdraw what they hold at a bank (R316). -/
theorem withdrawCores_armed (s : State) (sp : Nat) :
    ((List.range 32).foldl (fun (s : State) n => (s.writeSavedPc (sp * 32 + n)).withdraw (sp * 32 + n)) s).armed = s.armed :=
  foldl_armed (fun s _ => (withdraw_armed _ _).trans (writeSavedPc_armed s _)) _ s

/-- The partition leaves a Spire and its cores, and its streams when its banks are kept (R316, R285). -/
theorem leaveSpire_armed (keep : Bool) (s : State) (sp : Nat) :
    ((List.range 32).foldl (fun (s : State) n => s.setCoreAt (sp * 32 + n) (s.leftCore (sp * 32 + n)))
      (if keep then (s.setSpireAt sp (leftSpire (s.spireAt sp))).closeStreams sp
        else s.setSpireAt sp (leftSpire (s.spireAt sp)))).armed = s.armed := by
  refine (foldl_armed (fun _ _ => setCoreAt_armed _ _ _) _ _).trans ?_
  split <;> rfl

/-- A partition that is saved loses one entry of its number (R316). -/
theorem saveOut_armed (s : State) (r : Region) (agreed : Nat) : (s.saveOut r agreed).armed = Tab.del s.armed r.part := by
  refine (traceRec_armed _ _ _ _ _ _ _).trans (congrArg (Tab.del · r.part) ?_)
  exact (foldl_armed (leaveSpire_armed (keepsBanks r)) r.spires _).trans <| (writeSaveArea_armed _ r agreed).trans <|
    (foldl_armed withdrawCores_armed r.spires _).trans (settleObjects_armed s _)

/-- A running partition whose agreed time has come, and all of whose cores have stopped, is saved (R316). -/
theorem switchOut_ready {s : State} {part t : Nat} {r : Region} (hr : s.partRegion part .running = some r)
    (ht : Tab.find? s.armed part = some t) (hnow : t ≤ s.time)
    (hready : (r.spires.foldl (fun (u : State) sp => u.withdrawOps sp) s).switchReady r = true) :
    s.switchOut part = (r.spires.foldl (fun (u : State) sp => u.withdrawOps sp) s).saveOut r t := by
  simp only [switchOut, hr, ht, if_pos hnow, hready, if_true]

end State

namespace ArmedTwice

/-- A running region of one core on Spire 0, in partition 0. -/
def region : Region :=
  { id := 1, tenant := 0, prio := 0, fifo := 0, rcbAddr := 0x1000, ctx := 0
    rcb := BitVec.ofNat 2048 ((1 + 2 ^ 16 + 2 ^ 32) * 2 ^ 64), status := .running, spires := [0], begun := true }

/-- Partition 0 stands in the list of armed partitions twice, with an agreed time that has passed; its core is between two
instructions. -/
def state : State :=
  { State.reset with
    boot := .up, cycle := 2 ^ 10, regions := [region], armed := [(0, 5), (0, 5)], cores := [(0, { status := .running, region := 1 })] }

/-- The state once the operations that the cores of the partition wait for are withdrawn. -/
def stopped : State := region.spires.foldl (fun (u : State) sp => u.withdrawOps sp) state

theorem on_state : state.on = true := rfl

theorem partRegion_state : state.partRegion 0 .running = some region := rfl

theorem agreed_le_time : 5 ≤ state.time := by decide

theorem switchReady_stopped : stopped.switchReady region = true := by decide

theorem exec_gangSwitch_state : exec (.gangSwitch 0) state = .next (stopped.saveOut region 5) :=
  exec_next_of_event (Machine.exec_gangSwitch state 0) on_state
    (State.switchOut_ready partRegion_state rfl agreed_le_time switchReady_stopped)

/-- Partition 0 is still armed after its switch. -/
theorem armed_saveOut : Tab.find? (stopped.saveOut region 5).armed 0 = some 5 := by
  rw [State.saveOut_armed]
  rfl

end ArmedTwice

open ArmedTwice in
/-- Refutes O36: the clause on a gang switch lets no partition stay armed, in any state, but a partition that stands in the list of
armed partitions twice does. -/
theorem not_schedulingEventsHappen : ¬ Obligations.SchedulingEventsHappen := by
  intro h
  obtain ⟨-, -, -, -, -, -, hswitch, -⟩ := h state on_state
  obtain ⟨u, hu, -, hdisarmed, -⟩ := hswitch 0 region 5 partRegion_state rfl agreed_le_time switchReady_stopped
  obtain rfl : stopped.saveOut region 5 = u := Host.Outcome.next.inj (exec_gangSwitch_state.symm.trans hu)
  exact Option.some_ne_none 5 (armed_saveOut.symm.trans hdisarmed)

end Sys2Proof.Machine
end

section
/-!
PROOFS. The Gravers, the banks, the walker and the memory controllers: which operation of a Graver starts and which completes
(11_matrix_engine R257-R261), what a bank grants (13_dome_memory R275, R277), how the trackers leak (21_memory_system R367), and what
a soft error strikes (07_system_isa R222).
-/

namespace Sys2Proof.Machine

open Sys2Proof

/-! ## Tables and lists -/

theorem Tab.find?_mapKeyed {α β : Type} (f : Nat → α → β) (t : Tab α) (k : Nat) :
    find? (t.map fun kx => (kx.1, f kx.1 kx.2)) k = (find? t k).map (f k) := by
  induction t with
  | nil => rfl
  | cons kx t ih =>
    obtain ⟨j, x⟩ := kx
    simp only [List.map_cons, find?]
    split_ifs with h
    · rw [h]
      rfl
    · rfl
    · exact ih

theorem nth_modify {α : Type} (f : α → α) (l : List α) (n m : Nat) (d : α) :
    nth (l.modify n f) m d = if m = n ∧ n < l.length then f (nth l m d) else nth l m d := by
  simp only [nth, List.getD_eq_getElem?_getD, List.getElem?_modify]
  split_ifs with hmn hin hin
  · obtain ⟨rfl, hlt⟩ := hin
    rw [List.getElem?_eq_getElem hlt]
    simp
  · subst hmn
    rw [List.getElem?_eq_none (by omega)]
    rfl
  · exact absurd hin.1.symm hmn
  · simp

namespace State

variable {s v w : State}

/-! ## Gravers (R257-R261) -/

/-- Whether the start of an operation passes over a TGEMM that has started and has k-steps left (R259). -/
def passesOver (g : Graver) (e : GEntry) : Bool :=
  g.ctx.any fun c => c.queue.any fun x => x.isGemm && x.started && x.tilesLeft && !(x.num == e.num && e.isGemm)

/-- The state in which the operation that the arbiter of a Graver has chosen does what it does (R258). -/
def withChosen (s : State) (sp q : Nat) (e : GEntry) : State :=
  (if passesOver (s.graverAt sp) e then s.countFor e.tenant 22 1 else s).setGraverAt sp
    { s.graverAt sp with arbLast := q, startAt := some (s.domeClock (sp / 32)) }

/-- The entry of an operation that starts: a TGEMM keeps the priority of its first k-step (R259). -/
def startedEntry (g : Graver) (q : Nat) (e : GEntry) : GEntry :=
  { e with started := true, began := true, pri := if e.began then e.pri else (nth g.ctx q {}).prio.toNat }

theorem domeClock_countIf (s : State) (c : Prop) [Decidable c] (t i n d : Nat) :
    (if c then s.countFor t i n else s).domeClock d = s.domeClock d := by
  split <;> rfl

/-- The chosen operation starts in a running dome, at most one in a core cycle (R257). -/
theorem graverStart_choose {sp q : Nat} {e e' : GEntry} (hgoes : s.spireStopping sp = false)
    (hruns : (s.domeAt (sp / 32)).stopAt = none) (hfirst : (s.graverAt sp).startAt ≠ some (s.domeClock (sp / 32)))
    (hchoose : (s.graverAt sp).choose (sp / 32) (s.gclock sp (s.graverAt sp)) = some (q, e))
    (hstart : (s.withChosen sp q e).actingFor e.tenant (fun v => v.startOp sp q (startedEntry (s.graverAt sp) q e)) = (e', w)) :
    s.graverStart sp = ((w.setEntryAt sp q e').ageHead sp q).noteStallAt sp 1 := by
  have hmay : ¬ (s.spireStopping sp || (s.domeAt (sp / 32)).stopAt.isSome ||
      (s.graverAt sp).startAt == some (s.domeClock (sp / 32))) = true := by simp [hgoes, hruns, hfirst]
  unfold graverStart
  dsimp only
  rw [if_neg hmay, hchoose]
  dsimp only
  rw [domeClock_countIf]
  unfold withChosen passesOver startedEntry at hstart
  rw [hstart]

/-- An MZERO clears its tile and the tile's status (R180). -/
theorem startOp_mzero {e : GEntry} {t : Nat} (hop : e.op = .mzero t) (v : State) (sp q who : Nat) :
    v.actingFor who (fun v => v.startOp sp q e) = (e, v.setGraverAt sp (((v.graverAt sp).setTile t []).setTileStat t 0)) := by
  simp only [actingFor, startOp, hop]
  rfl

theorem graverComplete_finished {sp q : Nat} {e : GEntry}
    (h : (nth (s.graverAt sp).ctx q {}).queue.find? GEntry.finished = some e) : s.graverComplete sp q = s.completeOp sp q e := by
  simp only [graverComplete, h]

/-! ## Banks (R274-R277) -/

theorem bankGrant_stopped {d : Nat} (h : (s.domeAt d).stopAt.isSome = true) (bank : Nat) : s.bankGrant d bank = s := if_pos h

theorem bankGrant_burst {d bank sp q : Nat} {e : GEntry} {b : Burst} (hruns : (s.domeAt d).stopAt = none)
    (hchoose : s.chooseGrant d bank = some (.burst sp q e b)) : s.bankGrant d bank = s.grantBurst sp q e b := by
  simp only [bankGrant, hruns, Option.isSome_none, Bool.false_eq_true, if_false, hchoose]

theorem bankGrant_held {d bank : Nat} {h : HeldOp} (hruns : (s.domeAt d).stopAt = none)
    (hchoose : s.chooseGrant d bank = some (.held h)) : s.bankGrant d bank = s.applyHeld h := by
  simp only [bankGrant, hruns, Option.isSome_none, Bool.false_eq_true, if_false, hchoose]

@[simp] theorem domeAt_setGraverAt (s : State) (sp : Nat) (g : Graver) (d : Nat) : (s.setGraverAt sp g).domeAt d = s.domeAt d := rfl

@[simp] theorem domeAt_setEntryAt (s : State) (sp q : Nat) (e : GEntry) (d : Nat) : (s.setEntryAt sp q e).domeAt d = s.domeAt d := rfl

@[simp] theorem domeAt_noteStallAt (s : State) (sp busy d : Nat) : (s.noteStallAt sp busy).domeAt d = s.domeAt d := rfl

@[simp] theorem domeAt_countFor (s : State) (t i n d : Nat) : (s.countFor t i n).domeAt d = s.domeAt d := rfl

@[simp] theorem domeAt_setCoreAt (s : State) (c : Nat) (k : Core) (d : Nat) : (s.setCoreAt c k).domeAt d = s.domeAt d := rfl

/-- The pointer of a bank stands at the port it has granted (R275). -/
theorem grantBurst_ptr (s : State) (sp q : Nat) (e : GEntry) (b : Burst) :
    Tab.get ((s.grantBurst sp q e b).domeAt (b.bank / 4096)).ptr (b.bank % 4096) 1057 = graverPort sp (b.bank / 4096) := by
  simp only [grantBurst, domeAt_noteStallAt, domeAt_setEntryAt, domeAt_setDomeAt_same, Tab.get_put_same]

/-! ### Released ordered operations (R146, R277) -/

@[simp] theorem coreAt_countFor (s : State) (t i n c : Nat) : (s.countFor t i n).coreAt c = s.coreAt c := rfl

theorem isPoisoned_setHolds (s : State) (loc : Nat) (xs : List HeldOp) (at_ : Nat) :
    (s.setHolds loc xs).isPoisoned at_ = s.isPoisoned at_ := rfl

/-- The bank after a grant to a released operation at timestamp `ts` (R275, R293). -/
def grantedBank (x : Dome) (h : HeldOp) (ts : Nat) : Dome :=
  { x with bclk := Tab.put x.bclk (locBank h.loc) ts, ptr := Tab.put x.ptr (locBank h.loc) h.port }

/-- An AMO that meets poison raises it at its core, and no storage changes (R138). -/
theorem applyHeld_poisoned {h : HeldOp} (hcore : h.pkt = none) (hbad : s.isPoisoned h.loc = true) :
    (∃ ts, (s.applyHeld h).coreAt h.core = { s.coreAt h.core with amoBad := true, lt := ts }) ∧ (s.applyHeld h).mem = s.mem := by
  simp only [applyHeld, hcore, isPoisoned_setHolds, hbad, Option.isNone_none, Bool.and_self, if_true, coreAt_countFor,
    coreAt_setCoreAt_same]
  exact ⟨⟨_, rfl⟩, rfl⟩

/-- An AMO whose word is good returns what the word held, at the timestamp of its bank (R146, R293). -/
theorem applyHeld_good {h : HeldOp} (hcore : h.pkt = none) (hgood : s.isPoisoned h.loc = false) :
    ∃ (ts : Nat) (old : Word) (k : Core) (x : Dome), (s.applyHeld h).coreAt h.core = { k with amo := some old, lt := ts } ∧
      (s.applyHeld h).domeAt (locDome h.loc) = grantedBank x h ts := by
  simp only [applyHeld, hcore, isPoisoned_setHolds, hgood, Option.isNone_none, Bool.and_false, Bool.false_eq_true, if_false,
    coreAt_countFor, coreAt_setCoreAt_same, domeAt_countFor, domeAt_setCoreAt, domeAt_setDomeAt_same]
  exact ⟨_, _, _, _, rfl, rfl⟩

/-- A packet is acknowledged (R139). -/
theorem applyHeld_acks {h : HeldOp} {p : Packet} (hpkt : h.pkt = some p) :
    ({ region := p.region, lcore := p.lcore, entry := p.entry, refused := false } : Ack) ∈ (s.applyHeld h).acks := by
  simp only [applyHeld, hpkt]
  exact List.mem_append_right _ (List.mem_singleton_self _)

/-! ## Demand accesses (R365, R371) -/

@[simp] theorem countBy_hbm (s : State) (i n : Nat) : (s.countBy i n).hbm = s.hbm := rfl

@[simp] theorem hbmLoc_countBy (s : State) (i n pa : Nat) : (s.countBy i n).hbmLoc pa = s.hbmLoc pa := rfl

section
variable {b : Nat}

/-- A row that is not live reads zeros and is not accessed (R371). -/
theorem demandBeat_notLive (hb : b / 32 * 32 = b) (hlive : Tab.find? s.hbm.live (s.hbmLoc b / 1024) = none) :
    s.demandBeat b = (s.countBy 44 1).deliverSector b false := by
  simp only [demandBeat, hb, hlive, Option.isNone_none, if_true]

variable (hb : b / 32 * 32 = b) (hlive : Tab.find? s.hbm.live (s.hbmLoc b / 1024) = some ())
include hb hlive

theorem demandBeat_clean (herr : Tab.find? s.hbm.errs (s.hbmLoc b / 32) = none) :
    s.demandBeat b = (s.countBy 40 1).deliverSector b false := by
  simp only [demandBeat, hb, hlive, Option.isNone_some, Bool.false_eq_true, if_false, countBy_hbm, hbmLoc_countBy, herr]

theorem demandBeat_marked (herr : Tab.find? s.hbm.errs (s.hbmLoc b / 32) = some .mark ∨
      Tab.find? s.hbm.errs (s.hbmLoc b / 32) = some .stuckMark) :
    s.demandBeat b = (s.countBy 40 1).deliverSector b true := by
  obtain herr | herr := herr <;>
    simp only [demandBeat, hb, hlive, Option.isNone_some, Bool.false_eq_true, if_false, countBy_hbm, hbmLoc_countBy, herr]

theorem demandBeat_corrected (herr : Tab.find? s.hbm.errs (s.hbmLoc b / 32) = some .correctable ∨
      Tab.find? s.hbm.errs (s.hbmLoc b / 32) = some .stuck) :
    s.demandBeat b = ((s.countBy 40 1).deliverSector b false).countCorrected 0 b := by
  obtain herr | herr := herr <;>
    simp only [demandBeat, hb, hlive, Option.isNone_some, Bool.false_eq_true, if_false, countBy_hbm, hbmLoc_countBy, herr]

theorem demandBeat_beyond (herr : Tab.find? s.hbm.errs (s.hbmLoc b / 32) = some .uncorrectable ∨
      Tab.find? s.hbm.errs (s.hbmLoc b / 32) = some .stuckBad) :
    s.demandBeat b = (((s.countBy 40 1).countBy 43 1).postFault 2 0 b).deliverSector b true := by
  obtain herr | herr := herr <;>
    simp only [demandBeat, hb, hlive, Option.isNone_some, Bool.false_eq_true, if_false, countBy_hbm, hbmLoc_countBy, herr]

end

/-! ## Leaks of the trackers (R367) -/

/-- Whether the row of a tracker entry is being copied to a spare: its counter stands still (R356). -/
def rowHeld (s : State) (ch row : Nat) : Bool :=
  match Tab.find? s.hbm.copies ch with
  | some c => c.row == row
  | none => false

theorem rowHeld_iff {ch row : Nat} : s.rowHeld ch row = true ↔ ∃ c, Tab.find? s.hbm.copies ch = some c ∧ c.row = row := by
  unfold rowHeld
  split
  case h_1 c hc => simp [hc]
  case h_2 hc => simp [hc]

/-- The tracker of a channel after a leak: a counter that reaches 0 frees its entry. -/
def leakTrack (held : Nat → Bool) (t : Tab (Nat × Nat)) : Tab (Nat × Nat) :=
  t.filterMap fun x => if held x.2.1 then some x else if x.2.2 ≤ 1 then none else some (x.1, x.2.1, x.2.2 - 1)

theorem mem_leakTrack {held : Nat → Bool} {t : Tab (Nat × Nat)} {e row n : Nat} :
    (e, row, n) ∈ leakTrack held t ↔
      ((e, row, n + 1) ∈ t ∧ n ≠ 0 ∧ ¬ held row = true) ∨ ((e, row, n) ∈ t ∧ held row = true) := by
  rw [leakTrack, List.mem_filterMap]
  constructor
  · rintro ⟨⟨e', row', n'⟩, hmem, hx⟩
    dsimp only at hx
    split_ifs at hx with hheld hlast
    · cases hx
      exact .inr ⟨hmem, hheld⟩
    · cases hx
      exact .inl ⟨by rwa [Nat.sub_add_cancel (by omega)], by omega, hheld⟩
  · rintro (⟨hmem, hn, hheld⟩ | ⟨hmem, hheld⟩)
    · exact ⟨_, hmem, by rw [if_neg hheld, if_neg (by simpa using hn)]; rfl⟩
    · exact ⟨_, hmem, if_pos hheld⟩

/-- The trackers leak once (R367). -/
def leaked (s : State) : State :=
  { s with hbm := { s.hbm with
    leaks := s.hbm.leaks + 1
    track := s.hbm.track.map fun ct => (ct.1, leakTrack (s.rowHeld ct.1) ct.2) } }

theorem exec_trackerLeak_due (hon : s.on = true) (hdue : s.hbm.leaks < s.time / 16800000) :
    exec .trackerLeak s = .next s.leaked := by
  rw [exec_trackerLeak, execTrackerLeak, event_on hon, if_pos hdue]
  rfl

theorem leaked_track (s : State) (ch : Nat) :
    Tab.get s.leaked.hbm.track ch [] = leakTrack (s.rowHeld ch) (Tab.get s.hbm.track ch []) := by
  rw [Tab.get, leaked, Tab.find?_mapKeyed fun ch => leakTrack (s.rowHeld ch), Tab.get]
  cases Tab.find? s.hbm.track ch <;> rfl

/-! ## The end of a copy to a spare row (R215) -/

theorem spareEnd_waited {ch : Nat} {c : SpareCopy} (hc : s.reserved ch = some c)
    (hw : s.actFor (s.coreAt c.core).tenant (fun s => s.spareTakes ch c) = w) (hwaits : (w.coreAt c.core).spare = some (ch, none)) :
    s.spareEnd ch = w.setCoreAt c.core { w.coreAt c.core with
      spare := some (ch, some (spareStatus (if (s.spareBeats (c.row * 1024)).1.isEmpty then 0 else 4) c.entry)) } := by
  simp only [spareEnd, hc, hw, hwaits, if_true]

/-! ## Soft errors (R222, R272, R365) -/

/-- A word of workspace memory is marked (unit 1). -/
theorem strikeSoft_workspace (s : State) (c : Nat) {off : Nat} (hoff : off < 16384) (hword : off % 8 = 0) :
    s.strikeSoft 1 (16384 * c + off) =
      let w : State := { s.free.2 with mem := Mem.store s.free.2.mem (wsLoc c off) 8 s.free.1 }
      w.setCoreAt c { w.coreAt c with soft := (w.coreAt c).soft ++ [(1, off)] } := by
  have hcore : (16384 * c + off) / 16384 = c := by omega
  have hat : (16384 * c + off) % 16384 / 8 * 8 = off := by omega
  simp only [strikeSoft, hcore, hat]
  rfl

/-- A byte of an operand slot is marked (unit 3); the other slots keep their marks. -/
theorem strikeSoft_slot (s : State) (sp : Nat) {n b : Nat} (hn : n < 128) (hb : b < 512) (m : Nat) :
    (nth ((s.strikeSoft 3 (65536 * sp + 512 * n + b)).graverAt sp).slots m {}).soft =
      if m = n ∧ n < (s.graverAt sp).slots.length then some b else (nth (s.graverAt sp).slots m {}).soft := by
  have hspire : (65536 * sp + 512 * n + b) / 65536 = sp := by omega
  have hslot : (65536 * sp + 512 * n + b) % 65536 / 512 = n := by omega
  have hbyte : (65536 * sp + 512 * n + b) % 512 = b := by omega
  simp only [strikeSoft, hspire, hslot, hbyte, graverAt, spireAt_setSpireAt_same, nth_modify, apply_ite Slot.soft]
  rfl

/-- A row that is not live holds no data to strike (units 4 and 5, R371). -/
theorem strikeSoft_notLive {unit at_ : Nat} (hunit : unit = 4 ∨ unit = 5) (hlive : Tab.find? s.hbm.live (at_ / 1024) = none) :
    s.strikeSoft unit at_ = s.free.2 := by
  have hlive' : Tab.find? s.free.2.hbm.live (at_ / 1024) = none := hlive
  obtain rfl | rfl := hunit <;> simp only [strikeSoft, hlive', Option.isSome_none, Bool.false_eq_true, if_false]

theorem strikeSoft_symbol {at_ : Nat} (hlive : Tab.find? s.hbm.live (at_ / 1024) = some ()) :
    s.strikeSoft 4 at_ = s.free.2.strikeBeat (at_ / 32) struckSymbol := if_pos (Option.isSome_of_eq_some hlive)

theorem strikeSoft_beyond {at_ : Nat} (hlive : Tab.find? s.hbm.live (at_ / 1024) = some ()) :
    s.strikeSoft 5 at_ = s.free.2.strikeBeat (at_ / 32) struckBeyond := if_pos (Option.isSome_of_eq_some hlive)

end State

/-! ## The statement -/

/-- Settles O35: a Graver starts what its arbiter chose and completes what is over; a bank grants what it chose; a demand access
ends by the error of its beat; a leak takes one from each counter that no copy holds; a soft error strikes what its unit names. -/
theorem memoryEventsHappen : Obligations.MemoryEventsHappen := by
  intro s hon
  refine ⟨fun sp q e => ?start, fun sp q e hover => ?complete, fun d bank hstopped => ?stopped, fun sp q e b hruns hgrant => ?burst,
    fun d bank h hruns hgrant hcore hbad => ?poisoned, fun d bank h hruns hgrant hcore hgood => ?amo,
    fun d bank h p hruns hgrant hpkt => ?packet, fun sp t ctx va leaf level u hmiss hwalk => ?walk,
    fun sp t ctx va u hmiss hwalk => ?failedWalk, fun pa => ?demand, fun hdue => ?leak, fun hnone => ?noLeak,
    fun ch c hc => ?spare, ?soft⟩
  case start =>
    intro g clk hgoes hruns hfirst hchoose passes v e'
    have hexec : ∀ e'' w, v.actingFor e.tenant (fun v => v.startOp sp q e') = (e'', w) →
        exec (.graverOpStart sp) s = .next (((w.setEntryAt sp q e'').ageHead sp q).noteStallAt sp 1) :=
      fun e'' w hstart => exec_next_of_event (exec_graverOpStart s sp) hon
        (State.graverStart_choose hgoes hruns hfirst hchoose hstart)
    exact ⟨hexec, fun t hop => hexec _ _ (State.startOp_mzero (e := e') hop v sp q e.tenant)⟩
  case complete => exact exec_next_of_event (exec_graverOpComplete s sp q) hon (State.graverComplete_finished hover)
  case stopped => exact exec_next_of_event (exec_bankGrant s d bank) hon (State.bankGrant_stopped hstopped bank)
  case burst =>
    exact ⟨_, exec_next_of_event (exec_bankGrant s _ _) hon (State.bankGrant_burst hruns hgrant), rfl,
      State.grantBurst_ptr s sp q e b⟩
  case poisoned =>
    obtain ⟨⟨ts, hat⟩, hmem⟩ := State.applyHeld_poisoned hcore hbad
    exact ⟨_, exec_next_of_event (exec_bankGrant s d bank) hon (State.bankGrant_held hruns hgrant), rfl, by rw [hat],
      by rw [hat], hmem⟩
  case amo =>
    obtain ⟨ts, old, k, x, hat, hbank⟩ := State.applyHeld_good hcore hgood
    refine ⟨_, exec_next_of_event (exec_bankGrant s d bank) hon (State.bankGrant_held hruns hgrant), rfl, ⟨old, by rw [hat]⟩, ?_, ?_⟩
    · rw [hat, hbank]
      exact Tab.get_put_same _ _ _ _
    · rw [hbank]
      exact Tab.get_put_same _ _ _ _
  case packet =>
    exact ⟨_, exec_next_of_event (exec_bankGrant s d bank) hon (State.bankGrant_held hruns hgrant), rfl, State.applyHeld_acks hpkt⟩
  case walk =>
    refine exec_next_of_event (exec_tlbWalkComplete s sp t ctx va) hon ?_
    simp only [hmiss, hwalk]
  case failedWalk =>
    refine exec_next_of_event (exec_tlbWalkComplete s sp t ctx va) hon ?_
    simp only [hmiss, hwalk]
  case demand =>
    intro b live err
    have hb : b / 32 * 32 = b := by omega
    have hexec : ∀ {u}, s.demandBeat b = u → exec (.hbmDemandAccess pa none) s = .next u :=
      fun h => exec_next_of_event (exec_hbmDemandAccess s pa none) hon h
    refine ⟨fun x => exec_next_of_event (exec_hbmDemandAccess s pa (some x)) hon rfl,
      fun hlive => hexec (State.demandBeat_notLive hb hlive), fun hlive =>
        ⟨fun herr => ?_, fun herr => ?_, fun herr => ?_, fun herr => ?_⟩⟩
    · exact hexec (State.demandBeat_clean hb hlive herr)
    · exact hexec (State.demandBeat_marked hb hlive herr)
    · exact hexec (State.demandBeat_corrected hb hlive herr)
    · exact hexec (State.demandBeat_beyond hb hlive herr)
  case leak =>
    refine ⟨s.leaked, State.exec_trackerLeak_due hon hdue, rfl, rfl, fun ch e row n => ?_⟩
    rw [State.leaked_track, State.mem_leakTrack, State.rowHeld_iff]
  case noLeak => exact exec_next_of_event (exec_trackerLeak s) hon (if_neg (not_lt.2 hnone))
  case spare =>
    intro pa z v a moved w hwaits
    have hw : s.actFor (s.coreAt c.core).tenant (fun s => s.spareTakes ch c) = w := by
      unfold State.actFor State.spareTakes
      dsimp only [w, moved, a, v, z, pa]
    exact exec_next_of_event (exec_mspareCopyEnd s ch) hon (State.spareEnd_waited (w := w) hc hw hwaits)
  case soft =>
    intro x v
    have hexec : ∀ {unit at_ u}, s.strikeSoft unit at_ = u → exec (.softError unit at_) s = .next u :=
      fun h => exec_next_of_event (exec_softError s _ _) hon h
    refine ⟨fun at_ hdome => hexec (if_pos hdome), fun c off hoff hword => hexec (State.strikeSoft_workspace s c hoff hword),
      fun c => hexec rfl, fun sp n b hn hb => ⟨_, hexec rfl, State.strikeSoft_slot s sp hn hb⟩, fun at_ => ?beat,
      fun at_ hhbm hlive => hexec (if_pos ⟨hhbm, Option.isSome_of_eq_some hlive⟩)⟩
    intro e beat
    exact ⟨fun unit hunit hlive => hexec (State.strikeSoft_notLive hunit hlive),
      fun hlive => ⟨hexec (State.strikeSoft_symbol hlive), hexec (State.strikeSoft_beyond hlive)⟩, hexec rfl⟩

end Sys2Proof.Machine
end

section
/-!
PROOFS. What the device reports by itself: the trace buffer (22_host_compat R382), which lies in HBM4E, where a write reaches its own
bytes and what the memory notes of them alone (21_memory_system R364, R365, R371).
-/

namespace Sys2Proof.Machine.State

open Sys2Proof

variable {s t u : State}

/-! ## A report changes storage and what the memory notes of it -/

/-- What a write to HBM4E and the trace may change besides bytes: the slices' lines, the marks, the live rows and the errors, the counts of
the trace, and the counters. -/
def sameButReports (s t : State) : Prop :=
  t = { s with
    mem := t.mem, lines := t.lines, poison := t.poison, hbm := { s.hbm with live := t.hbm.live, errs := t.hbm.errs }
    trace := { s.trace with next := t.trace.next, dropped := t.trace.dropped }, counters := t.counters }

theorem sameButReports_refl (s : State) : s.sameButReports s := rfl

theorem sameButReports.trans (h : s.sameButReports t) (h' : t.sameButReports u) : s.sameButReports u :=
  Eq.trans h' (congrArg (fun x : State => { x with
    mem := u.mem, lines := u.lines, poison := u.poison, hbm := { x.hbm with live := u.hbm.live, errs := u.hbm.errs }
    trace := { x.trace with next := u.trace.next, dropped := u.trace.dropped }, counters := u.counters }) h)

theorem sameButReports_ite {c : Prop} [Decidable c] (ht : s.sameButReports t) (hu : s.sameButReports u) :
    s.sameButReports (if c then t else u) := by
  split
  · exact ht
  · exact hu

theorem sameButReports_touch (s : State) (loc : Nat) : s.sameButReports (s.touch loc) := by
  refine sameButReports_ite ?_ (sameButReports_ite rfl rfl)
  split
  · exact sameButReports_ite rfl rfl
  · rfl

theorem sameButReports_clean (s : State) (loc n : Nat) : s.sameButReports (s.clean loc n) := sameButReports_ite rfl rfl

theorem sameButReports_poke {w : Nat} (s : State) (loc n : Nat) (x : BitVec w) : s.sameButReports (s.poke loc n x) :=
  ((sameButReports_touch s loc).trans (sameButReports_clean _ loc n)).trans rfl

theorem sameButReports_cleanRange (s : State) (base len : Nat) : s.sameButReports (s.cleanRange base len) := by
  refine List.foldlRecOn _ _ (motive := s.sameButReports) (sameButReports_refl s) fun t ht k _ => ?_
  exact sameButReports_ite (ht.trans (sameButReports_clean t _ 32)) ht

theorem sameButReports.core (h : s.sameButReports t) : t.core = s.core := by rw [h]; rfl

theorem sameButReports.regions (h : s.sameButReports t) : t.regions = s.regions := by rw [h]

/-- A physical address stays where it is. -/
theorem sameButReports.storeLoc (h : s.sameButReports t) (loc : Nat) : t.storeLoc loc = s.storeLoc loc := by rw [h]; rfl

/-- A write of n bytes changes those bytes of storage alone. -/
theorem sameBytesBut_poke {w : Nat} (hwf : Mem.wf s.mem = true) (loc n : Nat) (x : BitVec w) :
    s.sameBytesBut (s.poke loc n x) (covers (s.storeLoc loc) n) := by
  intro b hb
  have hloc : ((s.touch loc).clean loc n).storeLoc loc = s.storeLoc loc :=
    ((sameButReports_touch s loc).trans (sameButReports_clean _ loc n)).storeLoc loc
  rw [byte, poke_mem, hloc]
  exact Mem.read_store_other hwf n x (by simp only [covers] at hb; omega)

/-! ## The words of the trace buffer (R382) -/

/-- The address of a word of the trace buffer that the device writes: the count of records, the drop count, or a word of a record. -/
def traceWord (s : State) (a : Nat) : Prop :=
  s.trace.on = true ∧ traceFits s.trace.base s.trace.log2 = true ∧
    ∃ n, (n = 0 ∨ n = 2 ∨ 8 ≤ n) ∧ n < 8 + 4 * 2 ^ s.trace.log2 ∧ a = s.trace.base + 8 * n

/-- A byte of those words. -/
def traceByte (s : State) (loc : Nat) : Prop := ∃ a, s.traceWord a ∧ covers (s.storeLoc a) 8 loc

theorem reportByte_of_traceByte {loc : Nat} (h : s.traceByte loc) : s.reportByte loc := by
  obtain ⟨-, ⟨hon, hfits, n, hn, hlt, rfl⟩, hcovers⟩ := h
  exact .inr ⟨n, hon, hfits, hn, hlt, hcovers⟩

theorem traceByte_congr (htrace : t.trace = s.trace) (hhbm : t.hbm = s.hbm) (loc : Nat) : t.traceByte loc ↔ s.traceByte loc := by
  simp only [traceByte, traceWord, storeLoc, hbmLoc, remapOf, htrace, hhbm]

/-- A row of HBM4E and a spare row both lie below the dome memory. -/
theorem hbmLoc_lt {pa : Nat} (h : pa < Config.hbmSize) (s : State) : s.hbmLoc pa + 8 ≤ Config.domeBase := by
  have hsize : Config.hbmSize = 2 ^ 39 := rfl
  have hspare : Config.spareBase = 2 ^ 40 := rfl
  have hdome : Config.domeBase = 2 ^ 41 := rfl
  unfold hbmLoc
  split
  · next sp hsp =>
    obtain ⟨ke, -, rfl⟩ := Option.map_eq_some_iff.1 hsp
    have hlt := (ke.2.extractLsb' 0 5).isLt
    simp only [chanOf]
    omega
  · omega

/-- The trace buffer lies in HBM4E, apart from the workspace memories. -/
theorem traceByte_lt {loc : Nat} (h : s.traceByte loc) : loc < Config.wsBase := by
  obtain ⟨a, ⟨-, hfits, n, -, hlt, rfl⟩, -, hloc⟩ := h
  have hws : Config.domeBase ≤ Config.wsBase := by decide
  have hin : s.trace.base + 8 * n < Config.hbmSize := by
    have := of_decide_eq_true hfits
    omega
  have := hbmLoc_lt hin s
  rw [storeLoc, if_pos (show isHbm _ = true from decide_eq_true hin)] at hloc
  omega

/-! ## Trace records -/

/-- From s to t the device has written trace records and nothing else. -/
structure Reports (s t : State) : Prop where
  frame : s.sameButReports t
  wf : Mem.wf s.mem = true → Mem.wf t.mem = true
  bytes : Mem.wf s.mem = true → s.sameBytesBut t s.traceByte

theorem Reports.refl (s : State) : s.Reports s := ⟨rfl, id, fun _ _ _ => rfl⟩

theorem sameButReports.traceWord (h : s.sameButReports t) (a : Nat) : t.traceWord a ↔ s.traceWord a := by
  rw [h]
  rfl

theorem sameButReports.traceByte (h : s.sameButReports t) (loc : Nat) : t.traceByte loc ↔ s.traceByte loc := by
  simp only [State.traceByte, h.traceWord, h.storeLoc]

theorem Reports.trans (h : s.Reports t) (h' : t.Reports u) : s.Reports u where
  frame := h.frame.trans h'.frame
  wf hs := h'.wf (h.wf hs)
  bytes hs loc hloc := (h'.bytes (h.wf hs) loc (hloc ∘ (h.frame.traceByte loc).1)).trans (h.bytes hs loc hloc)

theorem reports_poke {a : Nat} (ha : s.traceWord a) (x : Word) : s.Reports (s.poke a 8 x) where
  frame := sameButReports_poke s a 8 x
  wf hs := wf_poke hs a 8 x
  bytes hs loc hloc := sameBytesBut_poke hs a 8 x loc fun hin => hloc ⟨a, ha, hin⟩

theorem Reports.poke (h : s.Reports t) {a : Nat} (ha : s.traceWord a) (x : Word) : s.Reports (t.poke a 8 x) :=
  h.trans (reports_poke ((h.frame.traceWord a).2 ha) x)

theorem Reports.cleanRange (h : s.Reports t) (base len : Nat) : s.Reports (t.cleanRange base len) :=
  h.trans
    { frame := sameButReports_cleanRange t base len
      wf := fun ht => by rwa [cleanRange_mem]
      bytes := fun _ loc _ => by rw [byte, cleanRange_mem, byte] }

/-- The device counts its records. -/
theorem Reports.withCounts (h : s.Reports t) (next dropped : Nat) :
    s.Reports { t with trace := { t.trace with next := next, dropped := dropped } } :=
  h.trans ⟨rfl, id, fun _ _ _ => rfl⟩

/-- The device writes the header of the buffer. -/
theorem Reports.traceHeader (h : s.Reports t) (hon : s.trace.on = true) (hfits : traceFits s.trace.base s.trace.log2 = true) :
    s.Reports t.traceHeader := by
  have hbase : t.trace.base = s.trace.base := by rw [h.frame]
  have hpos : 0 < 2 ^ s.trace.log2 := Nat.two_pow_pos _
  unfold State.traceHeader
  rw [hbase]
  exact (h.poke ⟨hon, hfits, 0, by omega, by omega, rfl⟩ _).poke ⟨hon, hfits, 2, by omega, by omega, rfl⟩ _

/-- The device writes the four words of a record. -/
theorem reports_record {a : Nat} (ha : ∀ k < 4, s.traceWord (a + 8 * k)) (w0 w1 w2 w3 : Word) :
    s.Reports ((((s.poke a 8 w0).poke (a + 8) 8 w1).poke (a + 16) 8 w2).poke (a + 24) 8 w3) :=
  (((reports_poke (ha 0 (by decide)) w0).poke (ha 1 (by decide)) w1).poke (ha 2 (by decide)) w2).poke (ha 3 (by decide)) w3

/-- A trace record is a report, when it is written, when it is dropped, and when tracing is off. -/
theorem reports_traceRec (s : State) (ty tenant level region lcore : Nat) (arg : Word) :
    s.Reports (s.traceRec ty tenant level region lcore arg) := by
  unfold traceRec
  split
  · next hbuffer =>
    obtain ⟨hon, hfits⟩ := Bool.and_eq_true_iff.1 hbuffer
    split
    · have hplace := Nat.mod_lt s.trace.next (Nat.two_pow_pos s.trace.log2)
      have hwords : ∀ k < 4, s.traceWord (s.trace.base + 64 + 32 * (s.trace.next % 2 ^ s.trace.log2) + 8 * k) := fun k hk =>
        ⟨hon, hfits, 8 + 4 * (s.trace.next % 2 ^ s.trace.log2) + k, by omega, by omega, by omega⟩
      exact (((reports_record hwords _ _ _ _).cleanRange _ 32).withCounts _ _).traceHeader hon hfits
    · exact ((Reports.refl s).withCounts _ _).traceHeader hon hfits
  · exact Reports.refl s

end Sys2Proof.Machine.State
end

section
/-!
PROOFS. A kill (09_execution R246): it stops the regions of a fault domain, and writes no storage but the reports of it.
-/

namespace Sys2Proof.Machine.State

open Sys2Proof

variable {s : State}

/-! ## What it stops -/


/-- A region lies in its own fault domain. -/
theorem inDomain_self (s : State) (r : Nat) : s.inDomain r r = true := by
  have hself : ∀ n, r ∈ s.ancestors n r := fun n => by
    cases n with
    | zero => exact List.mem_singleton_self r
    | succ n =>
      unfold ancestors
      split
      · split
        · exact List.mem_cons_self
        · exact List.mem_singleton_self r
      · exact List.mem_singleton_self r
  unfold inDomain
  split
  · exact beq_self_eq_true r
  · next reg hreg =>
    split
    · exact beq_self_eq_true r
    · exact List.contains_iff_mem.2 (hself _)
    · exact beq_self_eq_true _
    · rw [hreg]; exact beq_self_eq_true _

/-- The ticks waited are counted, and nothing else changes. -/
theorem countWaits_frame (s : State) (ids : List Nat) : s.countWaits ids = { s with counters := (s.countWaits ids).counters } :=
  foldl_frame _ (fun t x => by split <;> rfl) s.regions s

/-- Removing the launches of a fault domain from the FIFOs leaves the regions there are as they are. -/
theorem killLaunches_frame (s : State) (r code : Nat) : ∃ fs rs n cs,
    s.killLaunches r code = { s with fifos := fs, regions := s.regions ++ rs, regNext := n, counters := cs } := by
  refine List.foldlRecOn _ _ (motive := fun t : State => ∃ fs rs n cs,
    t = { s with fifos := fs, regions := s.regions ++ rs, regNext := n, counters := cs }) ⟨s.fifos, [], s.regNext, s.counters, ?_⟩
    fun t ⟨fs, rs, n, cs, ht⟩ kl _ => ?_
  · rw [List.append_nil]
  · dsimp only
    rw [foldl_frame _ (fun _ _ => rfl)]
    subst ht
    exact ⟨_, _, _, _, by rw [List.append_assoc]⟩

/-- The regions that a kill of region r stops: those of its fault domain that are not over. -/
def doomed (s : State) (r : Nat) : List Nat :=
  (s.regions.filter fun x => s.inDomain r x.id && x.status != .retired && x.status != .killed).map (·.id)

/-- A region that a kill stops. -/
def killedRegion (s : State) (dead : List Nat) (code : Nat) (x : Region) : Region :=
  if dead.contains x.id then
    { x with status := .killed, kill := code, pins := s.pinsOfRegion x.id, spires := if x.status = .switched then [] else x.spires }
  else x

/-- Everything a kill stops, before it is reported. -/
def stopDoomed (s : State) (dead : List Nat) (code : Nat) : State :=
  { s with
    cores := s.killCores dead
    regions := s.regions.map (s.killedRegion dead code)
    spires := s.spires.map fun ps => (ps.1, dropSpire dead ps.2)
    domes := s.domes.map fun dd => (dd.1, dropDome s.cores dead dd.2)
    slices := s.slices.map fun dd => (dd.1, { dd.2 with streamer := dropCopies dead dd.2.streamer })
    landings := s.landings.filter fun l => !dead.contains l.region
    saved := s.saved.filter fun v => !dead.contains v.region }

/-- The trace record of a region that is killed. -/
def reportKill (code : Nat) (s : State) (r : Nat) : State :=
  match s.region? r with
  | some x => (s.countFor x.tenant 71 1).traceRec 8 x.tenant x.level x.id 0xFFFFFFFF (BitVec.ofNat 64 (2 ^ 63 + code * 2 ^ 56 + s.time % 2 ^ 48))
  | none => s

/-- A kill removes launches, counts waits, stops what is in the fault domain, and reports it. -/
theorem kill_eq (s : State) (r code : Nat) : s.kill r code =
    let v := s.killLaunches r code
    (v.doomed r).foldl (reportKill code) (((v.countWaits (v.doomed r)).stopDoomed (v.doomed r)) code) := rfl

theorem reports_count (s : State) (tenant i n : Nat) : s.Reports (s.countFor tenant i n) := ⟨rfl, id, fun _ _ _ => rfl⟩

theorem reports_reportKill (code : Nat) (s : State) (r : Nat) : s.Reports (s.reportKill code r) := by
  unfold reportKill
  split
  · exact (reports_count s _ _ _).trans (reports_traceRec _ _ _ _ _ _ _)
  · exact Reports.refl s

theorem kill_reports (s : State) (r code : Nat) :
    let v := s.killLaunches r code
    ((v.countWaits (v.doomed r)).stopDoomed (v.doomed r) code).Reports (s.kill r code) :=
  List.foldlRecOn _ _ (Reports.refl _) fun t ht d _ => ht.trans (reports_reportKill code t d)

/-! ## What it leaves -/

/-- A kill writes no storage but its reports. -/
theorem sameBytesBut_kill (hwf : Mem.wf s.mem = true) (r code : Nat) : s.sameBytesBut (s.kill r code) s.traceByte := by
  have hreports := kill_reports s r code
  dsimp only at hreports
  rw [countWaits_frame] at hreports
  obtain ⟨fs, rs, n, cs, hlaunches⟩ := killLaunches_frame s r code
  rw [hlaunches] at hreports
  exact hreports.bytes hwf

theorem region?_stopDoomed (s : State) (dead : List Nat) (code r : Nat) :
    (s.stopDoomed dead code).region? r = (s.region? r).map (s.killedRegion dead code) := by
  have hid : (fun x : Region => x.id == r) ∘ s.killedRegion dead code = fun x => x.id == r := by
    funext x
    simp only [Function.comp_apply, killedRegion]
    split <;> rfl
  rw [region?, stopDoomed, List.find?_map, hid, region?]

theorem id_of_region? {r : Nat} {x : Region} (h : s.region? r = some x) : x.id = r := by
  have hid := List.find?_some h
  exact beq_iff_eq.1 hid

theorem mem_doomed {r : Nat} {x : Region} (h : s.region? r = some x) (hkilled : x.status ≠ .killed) (hretired : x.status ≠ .retired) :
    (s.doomed r).contains r = true := by
  have hid : x.id = r := id_of_region? h
  refine List.contains_iff_mem.2 (List.mem_map.2 ⟨x, List.mem_filter.2 ⟨List.mem_of_find?_eq_some h, ?_⟩, hid⟩)
  simp [hid, inDomain_self, hkilled, hretired]

/-- A region that is neither over nor killed is killed. -/
theorem region?_kill {r : Nat} {x : Region} (h : s.region? r = some x) (hkilled : x.status ≠ .killed) (hretired : x.status ≠ .retired)
    (code : Nat) : ∃ x', (s.kill r code).region? r = some x' ∧ x'.status = .killed ∧ x'.kill = code := by
  obtain ⟨fs, rs, n, cs, hlaunches⟩ := killLaunches_frame s r code
  have hlaunched : (s.killLaunches r code).region? r = some x := by
    rw [hlaunches]
    exact List.find?_append.trans (by rw [show s.regions.find? _ = some x from h]; rfl)
  have hcounted : ((s.killLaunches r code).countWaits ((s.killLaunches r code).doomed r)).region? r = some x := by
    rw [countWaits_frame]
    exact hlaunched
  have hregions := (kill_reports s r code).frame.regions
  rw [region?, hregions, ← region?, region?_stopDoomed, hcounted, Option.map_some, killedRegion, if_pos]
  · exact ⟨_, rfl, rfl, rfl⟩
  · rw [id_of_region? h]
    exact mem_doomed hlaunched hkilled hretired

end Sys2Proof.Machine.State
end

section
/-!
PROOFS. Taking a trap (16_traps R309-R312): what the handler's workspace receives and how the core goes on, and that a trap which
is not entered kills the region of its core.
-/

namespace Sys2Proof.Machine.State

open Sys2Proof

variable {s : State}

/-! ## TCAUSE (07_system_isa R202) -/

/-- A bit of TCAUSE, by the field it stands in. -/
theorem getLsbD_tcauseWord (async : Bool) (twp : BitVec 14) (ppriv : BitVec 2) (code : BitVec 8) (i : Nat) :
    (tcauseWord async twp ppriv code).getLsbD i =
      if i < 8 then code.getLsbD i else if i < 10 then ppriv.getLsbD (i - 8) else if i < 16 then false
      else if i < 30 then twp.getLsbD (i - 16) else if i < 63 then false else decide (i = 63) && async := by
  simp only [tcauseWord, BitVec.getLsbD_append, BitVec.getLsbD_ofBool]
  split_ifs <;> grind

/-- What TCAUSE says of a trap; its other bits are 0. -/
def namesTrap (w : Word) (async : Bool) (twp : BitVec 14) (ppriv : BitVec 2) (code : BitVec 8) : Prop :=
  w.extractLsb' 0 8 = code ∧ w.extractLsb' 8 2 = ppriv ∧ w.extractLsb' 16 14 = twp ∧ w.getLsbD 63 = async ∧
    w.extractLsb' 10 6 = 0 ∧ w.extractLsb' 30 33 = 0

theorem namesTrap_tcauseWord (async : Bool) (twp : BitVec 14) (ppriv : BitVec 2) (code : BitVec 8) :
    namesTrap (tcauseWord async twp ppriv code) async twp ppriv code := by
  refine ⟨?code, ?level, ?wp, ?async, ?low, ?high⟩
  case async => rw [getLsbD_tcauseWord]; simp
  all_goals
    refine BitVec.eq_of_getLsbD_eq fun i hi => ?_
    rw [BitVec.getLsbD_extractLsb', getLsbD_tcauseWord]
    grind

/-! ## Entering the handler (16_traps R310) -/

/-- Store words, each at its address, one after another. -/
def storeWords (m : Mem) (ws : List (Nat × Word)) : Mem := ws.foldl (fun m w => Mem.store m w.1 8 w.2) m

/-- Two words of storage share no byte. -/
def apart (a b : Nat × Word) : Prop := a.1 + 8 ≤ b.1 ∨ b.1 + 8 ≤ a.1

theorem wf_storeWords {m : Mem} (h : Mem.wf m = true) (ws : List (Nat × Word)) : Mem.wf (storeWords m ws) = true :=
  List.foldlRecOn _ _ (motive := fun m => Mem.wf m = true) h fun _ hm _ _ => Mem.wf_store hm _ _ _

/-- A byte outside the words stored is as before. -/
theorem read_storeWords_other {m : Mem} {ws : List (Nat × Word)} {loc : Nat} (h : Mem.wf m = true) (hout : ∀ w ∈ ws, ¬ covers w.1 8 loc) :
    Mem.read (storeWords m ws) loc = Mem.read m loc := by
  induction ws generalizing m with
  | nil => rfl
  | cons w ws ih =>
    have hw := hout w List.mem_cons_self
    refine (ih (Mem.wf_store h _ _ _) fun x hx => hout x (List.mem_cons_of_mem w hx)).trans (Mem.read_store_other h 8 w.2 ?_)
    simp only [covers] at hw
    omega

/-- Of words that lie apart each reads back what was stored. -/
theorem load_storeWords {m : Mem} {ws : List (Nat × Word)} {w : Nat × Word} (h : Mem.wf m = true) (hapart : ws.Pairwise apart) (hw : w ∈ ws) :
    Mem.load (storeWords m ws) 64 w.1 8 = w.2 := by
  induction ws generalizing m with
  | nil => cases hw
  | cons x ws ih =>
    obtain ⟨hx, hws⟩ := List.pairwise_cons.1 hapart
    obtain rfl | hw := List.mem_cons.1 hw
    · have hafter : ∀ k < 8, Mem.read (storeWords (Mem.store m w.1 8 w.2) ws) (w.1 + k) = Mem.read (Mem.store m w.1 8 w.2) (w.1 + k) :=
        fun k hk => read_storeWords_other (Mem.wf_store h _ _ _) fun y hy hin => by
          have := hx y hy
          simp only [apart, covers] at this hin
          omega
      exact (congrArg (ofBytes 64) (List.map_congr_left fun k hk => hafter k (List.mem_range.1 hk))).trans (Mem.load_store h (by decide) w.1 w.2)
    · exact ih (Mem.wf_store h _ _ _) hws hw

/-- The words that trap entry writes to the handler's workspace. -/
def trapWords (base : Nat) (tc pc : Word) (t : Trap) : List (Nat × Word) :=
  [(base + Ws.tcause, tc), (base + Ws.tpc, pc), (base + Ws.tval, t.tval), (base + Ws.tjrnl, t.tjrnl), (base + Ws.repState, 0)]

/-- Storage with the trap words stored. -/
def trapStores (m : Mem) (base : Nat) (tc pc : Word) (t : Trap) : Mem :=
  let m := Mem.store m (base + Ws.tcause) 8 tc
  let m := Mem.store m (base + Ws.tpc) 8 pc
  let m := Mem.store m (base + Ws.tval) 8 t.tval
  let m := Mem.store m (base + Ws.tjrnl) 8 t.tjrnl
  Mem.store m (base + Ws.repState) 8 (0 : Word)

theorem trapStores_eq (m : Mem) (base : Nat) (tc pc : Word) (t : Trap) :
    trapStores m base tc pc t = storeWords m (trapWords base tc pc t) := by
  simp only [trapStores, storeWords, trapWords, List.foldl]

theorem trapWords_apart (base : Nat) (tc pc : Word) (t : Trap) : (trapWords base tc pc t).Pairwise apart := by
  simp [trapWords, apart, Ws.tcause, Ws.tpc, Ws.tval, Ws.tjrnl, Ws.repState]

/-- The trap words are the four from TCAUSE on, and REP_STATE. -/
theorem covers_of_trapWords {base : Nat} {tc pc : Word} {t : Trap} {w : Nat × Word} (hw : w ∈ trapWords base tc pc t) {loc : Nat}
    (h : covers w.1 8 loc) : covers (base + 0x540) 32 loc ∨ covers (base + 0x5D0) 8 loc := by
  simp only [trapWords, Ws.tcause, Ws.tpc, Ws.tval, Ws.tjrnl, Ws.repState, List.mem_cons, List.not_mem_nil, or_false] at hw
  obtain rfl | rfl | rfl | rfl | rfl := hw <;> (simp only [covers] at *; omega)

theorem stopFollowers_frame (s : State) : ∃ ks, s.stopFollowers = { s with cores := ks } := by
  unfold stopFollowers
  split <;> exact ⟨_, rfl⟩

/-- The handler's workspace receives the trap words, which wipes their corruption, and the followers of a leader stop (R310, R312). -/
def storeTrap (s : State) (hwp : BitVec 14) (tc pc : Word) (t : Trap) : State :=
  ((({ s with mem := trapStores s.mem (wsLoc s.cur hwp.toNat) tc pc t } : State).wipeRange (hwp.toNat + Ws.tcause) 32).wipeRange
    (hwp.toNat + Ws.repState) 8).stopFollowers

theorem storeTrap_frame (s : State) (hwp : BitVec 14) (tc pc : Word) (t : Trap) : ∃ ks, s.storeTrap hwp tc pc t =
    { s with mem := storeWords s.mem (trapWords (wsLoc s.cur hwp.toNat) tc pc t), cores := ks } := by
  have hwipe : ∀ (u : State) lo n, ∃ ks, u.wipeRange lo n = { u with cores := ks } := fun u lo n => ⟨_, wipeRange_frame u lo n⟩
  rw [storeTrap, trapStores_eq]
  generalize storeWords s.mem _ = m
  obtain ⟨k1, h1⟩ := hwipe { s with mem := m } (hwp.toNat + Ws.tcause) 32
  obtain ⟨k2, h2⟩ := hwipe { s with mem := m, cores := k1 } (hwp.toNat + Ws.repState) 8
  obtain ⟨k3, h3⟩ := stopFollowers_frame { s with mem := m, cores := k2 }
  exact ⟨k3, by rw [h1, h2, h3]⟩

/-- The record of a core in its handler: at level `priv` with workspace `hwp`, from `entry` on, issuing at cycle `due`; the trap
was taken at `pc`. -/
def handlerCore (hwp : BitVec 14) (priv : BitVec 2) (entry pc : Word) (due : Nat) (k : Core) : Core :=
  { k with
    wp := hwp, priv := priv, pc := entry, status := .running, done := false, released := false
    detached := k.detached || k.follower
    away := if k.chained && k.pos == 0 then k.away + 1 else k.away
    leftAt := if k.away = 0 then pc else k.leftAt
    holdUntil := due }

/-- The workspace that the handler enters. -/
def handlerWp (s : State) : BitVec 14 := fixWp s.handler.2.1

/-- A trap is fatal when the handler's workspace is live, or a word of it is corrupted (R311). -/
def trapFatal (s : State) : Prop := s.handlerWp = s.core.wp ∨ s.softEntry s.handlerWp = true

/-- TCAUSE of a trap of the current core. -/
def tcauseOf (s : State) (async : Bool) (t : Trap) : Word := tcauseWord async s.core.wp s.core.priv t.code

/-- The words that the entry of a trap of the current core writes. -/
def entryWords (s : State) (async : Bool) (pc : Word) (t : Trap) : List (Nat × Word) :=
  trapWords (wsLoc s.cur s.handlerWp.toNat) (s.tcauseOf async t) pc t

/-- The state in which the handler begins, before the trap is reported. -/
def inHandler (s : State) (async : Bool) (pc : Word) (t : Trap) : State :=
  let v := (s.count (if async then 73 else 72) 1).storeTrap s.handlerWp (s.tcauseOf async t) pc t
  v.onCore (handlerCore s.handlerWp (v.fixPriv s.handler.1) s.handler.2.2 pc (v.clock + 56))

section
variable (async : Bool) (pc : Word) (t : Trap)

/-- A trap that finds the handler's workspace live or corrupted is not entered: it kills the region (R311). -/
theorem takeTrap_fatal (h : s.trapFatal) :
    s.takeTrap async pc t = ((s.count (if async then 73 else 72) 1).kill s.core.region 1).onCore fun k => { k with status := .exited } :=
  if_pos h

/-- Every other trap is entered, and then reported (R310). -/
theorem takeTrap_reports (h : ¬ s.trapFatal) : (s.inHandler async pc t).Reports (s.takeTrap async pc t) := by
  have hentered : s.takeTrap async pc t = (s.inHandler async pc t).traceRec 9 s.core.tenant
      ((s.inHandler async pc t).levelOf s.core.region) s.core.region s.core.lcore.toNat (s.tcauseOf async t) :=
    if_neg h
  rw [hentered]
  exact reports_traceRec _ _ _ _ _ _ _

/-- The trap words are stored, and the core goes on in its handler. -/
theorem inHandler_eq : ∃ ks cs k,
    s.inHandler async pc t = { s with
      mem := storeWords s.mem (s.entryWords async pc t)
      cores := ks, counters := cs } ∧
    (s.inHandler async pc t).core = handlerCore s.handlerWp (s.fixPriv s.handler.1) s.handler.2.2 pc (s.clock + 56) k := by
  unfold inHandler
  generalize (if async then 73 else 72) = n
  obtain ⟨ks, hstored⟩ : ∃ ks, (s.count n 1).storeTrap s.handlerWp (s.tcauseOf async t) pc t =
      { s.count n 1 with mem := storeWords s.mem (s.entryWords async pc t), cores := ks } := storeTrap_frame _ _ _ _ _
  generalize storeWords s.mem _ = m at hstored ⊢
  dsimp only
  rw [hstored, core_onCore]
  exact ⟨_, _, _, rfl, rfl⟩

end

theorem inHandler_mem (s : State) (async : Bool) (pc : Word) (t : Trap) : (s.inHandler async pc t).mem =
    storeWords s.mem (s.entryWords async pc t) := by
  obtain ⟨ks, cs, -, hframe, -⟩ := inHandler_eq (s := s) async pc t
  rw [hframe]

theorem inHandler_traceByte (s : State) (async : Bool) (pc : Word) (t : Trap) (loc : Nat) :
    (s.inHandler async pc t).traceByte loc ↔ s.traceByte loc := by
  obtain ⟨ks, cs, -, hframe, -⟩ := inHandler_eq (s := s) async pc t
  exact traceByte_congr (by rw [hframe]) (by rw [hframe]) loc

/-- Reports reach no workspace memory. -/
theorem Reports.load_ws {u : State} (h : s.Reports u) (hwf : Mem.wf s.mem = true) {a : Nat} (ha : Config.wsBase ≤ a) (w n : Nat) :
    Mem.load u.mem w a n = Mem.load s.mem w a n :=
  congrArg (ofBytes w) (List.map_congr_left fun k _ => h.bytes hwf _ fun hin => by
    have := traceByte_lt hin
    omega)

section
variable {async : Bool} {pc : Word} {t : Trap}

/-- The handler's core, once its trap has been reported (R310). -/
theorem takeTrap_core (h : ¬ s.trapFatal) : ∃ k,
    (s.takeTrap async pc t).core = handlerCore s.handlerWp (s.fixPriv s.handler.1) s.handler.2.2 pc (s.clock + 56) k := by
  obtain ⟨-, -, k, -, hcore⟩ := inHandler_eq (s := s) async pc t
  exact ⟨k, (takeTrap_reports async pc t h).frame.core.trans hcore⟩

/-- The handler's workspace holds the trap words once the trap is taken (R310). -/
theorem load_takeTrap (hwf : Mem.wf s.mem = true) (h : ¬ s.trapFatal) {w : Nat × Word} (hw : w ∈ s.entryWords async pc t) :
    Mem.load (s.takeTrap async pc t).mem 64 w.1 8 = w.2 := by
  have hws : Config.wsBase ≤ w.1 := by
    have hbase : Config.wsBase ≤ wsLoc s.cur s.handlerWp.toNat := by simp only [wsLoc]; omega
    obtain hin | hin := covers_of_trapWords hw (loc := w.1) ⟨le_refl _, by omega⟩ <;> (simp only [covers] at hin; omega)
  rw [(takeTrap_reports async pc t h).load_ws (inHandler_mem s async pc t ▸ wf_storeWords hwf _) hws, inHandler_mem]
  exact load_storeWords hwf (trapWords_apart _ _ _ _) hw

/-- Taking a trap writes the trap words and its report (R310). -/
theorem sameBytesBut_takeTrap (hwf : Mem.wf s.mem = true) (h : ¬ s.trapFatal) :
    s.sameBytesBut (s.takeTrap async pc t) fun loc => covers (wsLoc s.cur s.handlerWp.toNat + 0x540) 32 loc ∨
      covers (wsLoc s.cur s.handlerWp.toNat + 0x5D0) 8 loc ∨ s.reportByte loc := by
  intro loc hloc
  obtain ⟨hwords, hrep, hreport⟩ := by simpa only [not_or] using hloc
  have htrace : ¬ (s.inHandler async pc t).traceByte loc := fun hin =>
    hreport (reportByte_of_traceByte ((inHandler_traceByte s async pc t loc).1 hin))
  refine ((takeTrap_reports async pc t h).bytes (inHandler_mem s async pc t ▸ wf_storeWords hwf _) loc htrace).trans ?_
  rw [byte, inHandler_mem]
  exact read_storeWords_other hwf fun w hw hin => (covers_of_trapWords hw hin).elim hwords hrep

end

end Sys2Proof.Machine.State

namespace Sys2Proof.Machine

open State

/-! ## The statements -/

/-- Settles O38: the trap words are stored apart from one another and from the trace, and the core goes on in its handler. -/
theorem trapEntry : Obligations.TrapEntry := by
  intro s async tpc t hwp base u hwf hlive hsoft hfix hpriv
  have hwp_eq : s.handlerWp = hwp := hfix
  have henters : ¬ s.trapFatal := by
    rw [trapFatal, hwp_eq, not_or, Bool.not_eq_true]
    exact ⟨hlive, hsoft⟩
  have hload : ∀ w ∈ trapWords base (s.tcauseOf async t) tpc t, Mem.load u.mem 64 w.1 8 = w.2 :=
    fun w hw => load_takeTrap hwf henters (by rwa [entryWords, hwp_eq])
  have hbytes := sameBytesBut_takeTrap (async := async) (pc := tpc) (t := t) hwf henters
  obtain ⟨k, hcore⟩ := takeTrap_core (async := async) (pc := tpc) (t := t) henters
  rw [hwp_eq] at hbytes
  rw [hwp_eq, hpriv] at hcore
  refine ⟨?tcause, hload (base + 0x548, tpc) ?_, hload (base + 0x550, t.tval) ?_, hload (base + 0x558, t.tjrnl) ?_,
    hload (base + 0x5D0, 0) ?_, congrArg Core.wp hcore, congrArg Core.priv hcore, congrArg Core.pc hcore, congrArg Core.holdUntil hcore, hbytes⟩
  case tcause =>
    rw [hload (base + 0x540, s.tcauseOf async t) (by simp [trapWords, Ws.tcause])]
    exact namesTrap_tcauseWord async s.core.wp s.core.priv t.code
  all_goals simp [trapWords, Ws.tpc, Ws.tval, Ws.tjrnl, Ws.repState]

/-- Settles O39: a kill reaches the region of the core, which is not over; it writes nothing but its reports. -/
theorem fatalTrapKillsTheRegion : Obligations.FatalTrapKillsTheRegion := by
  intro s async tpc t r hwf hfatal hregion hkilled hretired u
  have hkill : u = ((s.count (if async then 73 else 72) 1).kill s.core.region 1).onCore fun k => { k with status := .exited } :=
    takeTrap_fatal async tpc t hfatal
  obtain ⟨r', hr', hstatus, hcode⟩ := region?_kill (s := s.count (if async then 73 else 72) 1) hregion hkilled hretired 1
  rw [hkill, id_of_region? hregion]
  refine ⟨by rw [core_onCore], fun loc hloc => ?_, r', hr', hstatus, hcode⟩
  exact sameBytesBut_kill (s := s.count (if async then 73 else 72) 1) hwf s.core.region 1 loc fun hin =>
    hloc (reportByte_of_traceByte ((traceByte_congr rfl rfl loc).1 hin))

end Sys2Proof.Machine
end

section
/-!
PROOFS. What the device does to a core (16_traps R313, 09_execution R243, R251): asynchronous traps, waits that end, and instructions that
a waiting core tries again.
-/

namespace Sys2Proof.Machine

open Sys2Proof

/-! ## Asynchronous traps and waits -/

namespace State

variable {s : State} {c : Nat}

/-- The asynchronous trap that is due is taken at the boundary the core stands at: it is entered, or a fatal one kills the region
(R313, R314). -/
theorem asyncTrap_taken {t : Trap} {fatal : Bool} (hasync : s.asyncNow = true) (hkilled : s.killedNow = false)
    (hdue : s.asyncDue = some (t, fatal)) (mine : Nat → Bool) :
    (if s.asyncNow && !s.killedNow then (s.dropBstats mine).takeAsync else s) =
      let v := ((s.dropBstats mine).withdraw s.cur).onCore (takenCore t.code t.tjrnl.toNat)
      if fatal then (v.kill v.core.region 1).onCore fun k => { k with status := .exited } else v.takeTrap true v.boundaryPc t := by
  have hdue' : (s.dropBstats mine).asyncDue = some (t, fatal) := hdue
  rw [hasync, hkilled]
  refine (if_pos rfl).trans ?_
  rw [takeAsync, hdue']
  rfl

/-- What a core waits for has come, and its instruction needs to know no more of the wait (R251). -/
theorem resume_met {w : WaitCond} (hwaits : ({ s with cur := c } : State).core.status = .waiting w)
    (hmet : ({ s with cur := c } : State).condHolds w = true) (hkeeps : keepsStatus w = false) :
    s.resume c = ({ s with cur := c } : State).onCore fun k => { k with status := .running } := by
  simp only [resume, hwaits, hmet, hkeeps, Bool.not_false, Bool.and_self, if_true]

end State

/-- The port carries out a matrix instruction as any turn would: those of the major codes of the coprocessor. -/
theorem matrixExec_of_major {i : Instr} (h : (decide (0x60 ≤ i.major) && decide (i.major ≤ 0x68)) = true) (s : State) :
    matrixExec i s = exec i s := by
  cases i
  case mshl | mshf | mshs | mclaim | mrel | mld | mldx | mma | mmaS | mzero | mmov | mmovr | mst | mspec | mresolve | mcommit | mdiscard |
    tgemm | tfact | tsolve | mqpri | mqsync => rfl
  all_goals cases h

/-! ## YIELD (07_system_isa R197) -/

/-- A YIELD that completes leaves no sign of its wait. -/
def State.yieldEnded (s : State) (d : SReg) (x : Word) : State := (s.setReg d x).onCore fun k => { k with yieldAt := none, yielded := false }

/-- The YIELD of a region that has waited ends with 1 by the switch, or with 0 after 64,000 ticks where none is agreed. -/
theorem completesWhen_yield (d : SReg) : CompletesWhen (.yield d) State.always fun s u => s.inCall = none ∧ ∃ r, s.myRegion = some r ∧
    (s.core.yielded = true ∧ u = s.yieldEnded d 1 ∨
      s.core.yielded = false ∧ (∃ t, s.core.yieldAt = some t ∧ t + 64000 ≤ s.time) ∧ s.armedAt r = none ∧ u = s.yieldEnded d 0) := by
  refine completesWhen_instrAll (exec_yield · d) fun s u => ?_
  rintro ⟨hcall, r, hregion, ⟨hyielded, rfl⟩ | ⟨hyielded, ⟨t, hsince, hlate⟩, harmed, rfl⟩⟩
  · simp only [hcall, hregion, hyielded, if_true]
    rfl
  · simp only [hcall, hregion, hyielded, hsince, hlate, harmed, Bool.false_eq_true, if_false, Option.isNone_none, and_self, if_true]
    rfl

/-! ## A waiting core tries its instruction again -/

/-- The current core may issue, and takes no asynchronous trap and no kill first (R313, 09_execution R246). -/
def State.mayAct (s : State) : Prop := s.mayIssue = true ∧ s.asyncNow = false ∧ s.killedNow = false

section
variable {s s' u : State} {c : Nat} {pc : Word}

/-- A core that waits on a channel runs its SEND or RECV again (13_dome_memory R280). -/
theorem channelRetry_runs {h due : Nat} {i : Instr} (hcur : { s with cur := c } = s') (hwaits : s'.core.status = .waiting (.channel h due))
    (hacts : s'.mayAct) (hfetch : s'.fetchNext = .instr pc i u) (hi : (∃ g d a b e, i = .send g d a b e) ∨ ∃ g d a b, i = .recv g d a b) :
    exec (.channelRetry c) s = exec i (u.setPc pc) := by
  rw [exec_channelRetry, execChannelRetry, hcur, hwaits]
  obtain ⟨g, d, a, b, e, rfl⟩ | ⟨g, d, a, b, rfl⟩ := hi
  · exact (if_pos hacts).trans (by rw [hfetch]; rfl)
  · exact (if_pos hacts).trans (by rw [hfetch]; rfl)

/-- A core in YIELD runs it again (07_system_isa R197). -/
theorem yieldTimeout_runs {d : SReg} (hcur : { s with cur := c } = s') (hwaits : s'.core.status = .waiting .yield)
    (hacts : s'.mayAct) (hfetch : s'.fetchNext = .instr pc (.yield d) u) : exec (.yieldTimeout c) s = exec (.yield d) (u.setPc pc) := by
  rw [exec_yieldTimeout, execYieldTimeout, hcur, hwaits]
  exact (if_pos hacts).trans (by rw [hfetch]; rfl)

/-- The port takes the matrix instruction that the next core presents (11_matrix_engine R256). -/
theorem portAccept_runs {sp : Nat} {i : Instr} (hpick : s.portPick sp = some c) (hcur : { s with cur := c } = s') (hacts : s'.mayAct)
    (hfetch : s'.fetchNext = .instr pc i u) (hmajor : (decide (0x60 ≤ i.major) && decide (i.major ≤ 0x68)) = true) :
    exec (.coprocessorPortAccept sp) s = exec i (u.setPc pc) := by
  obtain ⟨hissue, hasync, hkilled⟩ := hacts
  rw [exec_coprocessorPortAccept, execCoprocessorPortAccept, hpick]
  simp only [hcur, hissue, hasync, hkilled, hfetch, Bool.not_false, Bool.and_self, if_true]
  exact matrixExec_of_major hmajor _

end

/-! ## The statement -/

/-- Settles O33: each event is the trap, the end of the wait, or the turn of the instruction that the core waits in. -/
theorem coreEventsHappen : Obligations.CoreEventsHappen := by
  intro s c hon s' acts
  refine ⟨?async, ?met, fun h due pc u hwaits hacts => ⟨?send, ?recv⟩, ?yield, fun sp pc u hpick hacts => ⟨?mqpri, ?mzero, ?other⟩⟩
  case async =>
    intro t fatal hasync hkilled hdue
    exact exec_next_of_event (exec_asyncTrapTaken s c) hon (State.asyncTrap_taken hasync hkilled hdue _)
  case met =>
    intro w hwaits hmet hkeeps
    exact exec_next_of_event (exec_waitConditionMet s c) hon (State.resume_met hwaits hmet hkeeps)
  case send =>
    intro g d a b e t hfetch hissues hreserves
    rw [channelRetry_runs rfl hwaits hacts hfetch (.inl ⟨g, d, a, b, e, rfl⟩)]
    exact answers_instr (exec_sendForm false g d a b e) (fun s t h => State.sendMessage_reserves h false) _ _ hissues hreserves
  case recv =>
    intro g d a b cap head hd m x hfetch hissues z hfinds y
    refine ⟨_, rfl, ?_⟩
    rw [channelRetry_runs rfl hwaits hacts hfetch (.inr ⟨g, d, a, b, rfl⟩)]
    exact completesWhen_instr (exec_recvForm false g d a b) (fun s t h => h) _ _ hissues (State.recvMessage_takes hfinds false)
  case yield =>
    intro pc d u r early hwaits hacts hfetch v hissues hcall hregion hyielded hover
    rw [yieldTimeout_runs rfl hwaits hacts hfetch]
    refine completesWhen_yield d _ _ hissues ⟨hcall, r, hregion, ?_⟩
    cases early with
    | true => exact .inl ⟨hyielded, rfl⟩
    | false =>
      obtain ⟨hlate, harmed⟩ := hover rfl
      exact .inr ⟨hyielded, hlate, harmed, rfl⟩
  case mqpri =>
    intro g q pri hfetch hissues x hturn
    rw [portAccept_runs hpick rfl hacts hfetch rfl]
    exact completesWhen_matrix (exec_mqpri · g q pri) (c := fun s u => u = s.setQctx q.toNat { s.qctx q.toNat with prio := pri })
      (fun s u h => h ▸ rfl) _ _ hissues ⟨hturn, rfl⟩
  case mzero =>
    intro g t q hfetch hissues x hturn hpasses
    rw [portAccept_runs hpick rfl hacts hfetch rfl]
    exact completesWhen_matrix (exec_mzero · g t q) (c := fun s u => Passes (s.checkProtected [t.toNat]) () ∧
      u = (s.submit q.toNat (.mzero t.toNat) [] [] []).2) (fun s u h => by rw [run_of_passes h.1, h.2]) _ _ hissues ⟨hturn, hpasses, rfl⟩
  case other =>
    intro i t hfetch hlow hhigh hexec
    rw [portAccept_runs hpick rfl hacts hfetch (by simp [hlow, hhigh])]
    exact hexec

end Sys2Proof.Machine
end

section
/-!
PROOFS. An access stays with its owner (05_memory_isa R135, R136, 18_protection R334): each window of a data access, and what its check
says of the place it gives.
-/

namespace Sys2Proof.Machine

open Sys2Proof

/-- A word of the interleaved view lies among the bytes of its dome (05_memory_isa R136). -/
theorem domeLoc_eq_add (d : Nat) {off : Nat} (hoff : off < 2 ^ 23) : ∃ w < 2 ^ 23, domeLoc d off = Config.domeBase + d * 2 ^ 23 + w := by
  refine ⟨off / 8 % 4096 * 2048 + off / 32768 * 8 + off % 8, ?_, ?_⟩
  · omega
  · unfold domeLoc
    omega

/-- A choice gives what satisfies `P` when each side does where it is taken. -/
theorem keepsSome_ite_of {α : Type} {P : α → Prop} {b : Prop} [Decidable b] {o o' : Option α} (h : b → KeepsSome P o)
    (h' : ¬ b → KeepsSome P o') : KeepsSome P (if b then o else o') := by
  split
  · next hb => exact h hb
  · next hb => exact h' hb

namespace State

/-- A place, with the state its translation leaves, that a context of a tenant may reach from a state: in global memory a 64 KiB page
of its owner's windows unless the memory refuses it (18_protection R334), in dome memory a bank of the tenant (05_memory_isa R136). -/
def OwnPlace (s : State) (tenant : Nat) (ctx : BitVec 16) (x : Place × State) : Prop :=
  (isHbm x.1.loc = true → x.1.outside = false →
    x.2.ownerWindow tenant (x.2.ctxKeep tenant ctx) (x.1.loc / 65536 * 65536) (x.1.loc / 65536 * 65536 + 65536) = true) ∧
  (isDome x.1.loc = true → s.bankTenant (locDome x.1.loc) (locBank x.1.loc) = some tenant)

section
variable {s : State} {tenant : Nat} {ctx : BitVec 16} {x : Place × State}

/-! ## What each kind of storage asks -/

/-- Workspace memory, scratchpads and published objects are neither global nor dome memory. -/
theorem ownPlace_of_wsBase_le (h : Config.wsBase ≤ x.1.loc) : s.OwnPlace tenant ctx x := by
  have hbases : Config.hbmSize ≤ Config.wsBase := by decide
  have hhbm : isHbm x.1.loc = false := by simp only [isHbm, decide_eq_false_iff_not]; omega
  have hdome : isDome x.1.loc = false := by simp only [isDome, Bool.and_eq_false_iff, decide_eq_false_iff_not]; omega
  simp [OwnPlace, hhbm, hdome]

/-- In a dome's memory it is the bank that counts. -/
theorem ownPlace_of_bank {d w : Nat} (hloc : x.1.loc = Config.domeBase + d * 2 ^ 23 + w) (hw : w < 2 ^ 23)
    (hbank : s.bankTenant d (locBank x.1.loc) = some tenant) : s.OwnPlace tenant ctx x := by
  have hbases : Config.hbmSize ≤ Config.domeBase := by decide
  have hhbm : isHbm x.1.loc = false := by simp only [isHbm, decide_eq_false_iff_not]; omega
  have hd : locDome x.1.loc = d := by unfold locDome; omega
  exact ⟨by simp [hhbm], fun _ => hd ▸ hbank⟩

/-- In global memory it is the mark of the memory's refusal that counts. -/
theorem ownPlace_of_window (hhbm : isHbm x.1.loc = true) (hmark : x.1.outside =
      !x.2.ownerWindow tenant (x.2.ctxKeep tenant ctx) (x.1.loc / 65536 * 65536) (x.1.loc / 65536 * 65536 + 65536)) :
    s.OwnPlace tenant ctx x := by
  have hdome : isDome x.1.loc = false := by
    have hbases : Config.hbmSize ≤ Config.domeBase := by decide
    simp only [isHbm, decide_eq_true_eq] at hhbm
    simp only [isDome, Bool.and_eq_false_iff, decide_eq_false_iff_not]
    omega
  exact ⟨fun _ hinside => by simpa [hinside] using hmark, by simp [hdome]⟩

/-! ## What each window gives (05_memory_isa R135) -/

/-- The workspace window gives workspace memory. -/
theorem wsPlace_own {acc : Acc} {off : Nat} : KeepsSome (fun p => s.OwnPlace tenant ctx (p, s)) (s.wsPlace acc off) := by
  refine keepsSome_ite trivial (ownPlace_of_wsBase_le ?_)
  show Config.wsBase ≤ Config.wsBase + s.cur * 16384 + off
  omega

/-- The interleaved and the remote windows give a bank of the tenant. -/
theorem domePlace_own {d off : Nat} (hoff : off < 2 ^ 23) :
    KeepsSome (fun p => s.OwnPlace tenant ctx (p, s)) (s.domePlace tenant d off) := by
  obtain ⟨w, hw, hloc⟩ := domeLoc_eq_add d hoff
  exact keepsSome_ite_of (fun hbank => ownPlace_of_bank hloc hw hbank) fun _ => trivial

/-- A leaf gives a place in global memory, marked where it lies outside the owner's windows. -/
theorem leafPlace_own {t : State} {acc : Acc} {va level : Nat} {leaf : Word} :
    KeepsSome (fun p => s.OwnPlace tenant ctx (p, t)) (t.leafPlace tenant ctx acc va level leaf) := by
  refine keepsSome_ite_of (fun hok => ?_) fun _ => trivial
  obtain ⟨-, hhbm⟩ := Bool.and_eq_true_iff.1 hok
  exact ownPlace_of_window hhbm rfl

/-- The global window gives a published object, or the place of a leaf. -/
theorem translate_own {spire : Nat} {acc : Acc} {va : Nat} : KeepsSome (s.OwnPlace tenant ctx) (s.translate spire tenant ctx acc va) := by
  unfold translate
  split
  · next o _ =>
    refine keepsSome_ite trivial (ownPlace_of_wsBase_le ?_)
    have hbases : Config.wsBase ≤ Config.objectStore := by decide
    show Config.wsBase ≤ Config.objectStore + o.store + (va - o.base)
    omega
  · split
    · exact leafPlace_own.map
    · split
      · trivial
      · exact leafPlace_own.map

/-- Every window but the workspace's gives a place of the owner. -/
theorem outer_own {spire d : Nat} {belfry : Bool} {acc : Acc} {va : Nat} :
    KeepsSome (s.OwnPlace tenant ctx) (s.outer spire d tenant ctx belfry acc va) := by
  unfold outer
  refine keepsSome_ite_of (fun hinterleaved => ?interleaved) fun _ => keepsSome_ite_of (fun hsequential => ?sequential) fun _ =>
    keepsSome_ite (keepsSome_ite_of (fun hremote => ?remote) fun _ => trivial) <|
      keepsSome_ite ?scratch (keepsSome_ite translate_own trivial)
  case interleaved => exact keepsSome_ite trivial (domePlace_own (by omega)).map
  case sequential => exact keepsSome_ite trivial (keepsSome_ite_of (fun hbank => ownPlace_of_bank rfl (by omega) hbank) fun _ => trivial)
  case remote => exact KeepsSome.map (domePlace_own (by omega))
  case scratch =>
    refine keepsSome_ite (ownPlace_of_wsBase_le ?_) trivial
    exact Nat.le_trans (by decide : Config.wsBase ≤ Config.scratchBase) (Nat.le_add_right _ _)

end

/-- The place of a data access of a core is one that its context may reach. -/
theorem place_own (s : State) (acc : Acc) (va : Word) : KeepsSome (s.OwnPlace s.core.tenant s.ctx) (s.place acc va) :=
  keepsSome_ite wsPlace_own.map outer_own

end State

/-! ## The statement -/

/-- Settles O58: every window gives a place that the context of the core may reach. -/
theorem accessesStayWithTheOwner : Obligations.AccessesStayWithTheOwner :=
  fun s _ acc va _ hplace => (s.place_own acc va).of_some hplace

end Sys2Proof.Machine
end

section
/-!
PROOFS. What a device reset leaves (22_host_compat R380): the tables of reset are empty, so each core and each Spire reads as one that
nothing has placed.
-/

namespace Sys2Proof.Machine

open Sys2Proof

/-- A dome core that nothing has placed (09_execution R243). -/
theorem Core.init_dome {c : Nat} (h : c < Config.domeCores) : Core.init c = { leader := BitVec.ofNat 5 c } := if_pos h

/-- A Belfry core runs at SYSTEM level from reset on (07_system_isa R191). -/
theorem Core.init_belfry {c : Nat} (hdome : Config.domeCores ≤ c) (h : c < Config.domeCores + 4) :
    Core.init c = { priv := 2, status := .running, region := 0 } := by
  rw [Core.init, if_neg (Nat.not_lt.2 hdome), if_pos h]

/-- Beyond the Belfry's there is no core. -/
theorem Core.init_beyond {c : Nat} (h : Config.domeCores + 4 ≤ c) : Core.init c = {} := by
  rw [Core.init, if_neg (by omega), if_neg (by omega)]

namespace State

@[simp] theorem coreAt_reset (c : Nat) : reset.coreAt c = Core.init c := rfl

@[simp] theorem spireAt_reset (sp : Nat) : reset.spireAt sp = {} := rfl

@[simp] theorem byte_reset (loc : Nat) : reset.byte loc = 0 := rfl

end State

/-- Settles O48: the fields of reset hold nothing, and what an empty table gives for a core goes by its number. -/
theorem resetLeavesNothingPlaced : Obligations.ResetLeavesNothingPlaced := by
  unfold Obligations.ResetLeavesNothingPlaced
  intro s
  refine ⟨rfl, rfl, rfl, rfl, rfl, rfl, rfl, rfl, rfl, rfl, rfl, rfl, State.byte_reset, fun c hc => ?dome, fun c hc hlt => ?belfry,
    fun c hc => ?beyond, fun sp => ?spire⟩
  case dome => rw [State.coreAt_reset, Core.init_dome hc]; exact ⟨rfl, rfl⟩
  case belfry => rw [State.coreAt_reset, Core.init_belfry hc hlt]; exact ⟨rfl, rfl⟩
  case beyond => rw [State.coreAt_reset, Core.init_beyond hc]
  case spire => rw [State.spireAt_reset]; exact ⟨rfl, rfl, rfl⟩

end Sys2Proof.Machine
end

section
/-!
PROOFS. What the host does to the device (22_host_compat R372-R386): the semaphores and the mailbox they guard, the registers, HBM4E through
BAR4, the Thatur loader, and the power cap.
-/

namespace Sys2Proof.Machine

open Sys2Proof

namespace State

variable {s : State}

/-! ## Semaphores and the mailbox (R375-R377) -/

section
variable {port : Bool} {n : Nat}

/-- A read of TAKE takes a free semaphore, and answers the word as it was. -/
theorem take1_free (hfree : Sem.held (Tab.get s.semaphores n 0) = false) :
    s.take1 port n = { s.reply port (toBytes 8 (Sem.free (Tab.get s.semaphores n 0))) with
      semaphores := Tab.put s.semaphores n (Sem.taken (Tab.get s.semaphores n 0) port) } := by
  simp only [take1, hfree, Bool.false_eq_true, if_false]
  rfl

/-- A read of TAKE leaves a held semaphore, and answers its word. -/
theorem take1_held (hheld : Sem.held (Tab.get s.semaphores n 0) = true) :
    s.take1 port n = s.reply port (toBytes 8 (Tab.get s.semaphores n 0)) := by
  simp only [take1, hheld, if_true]

variable (hopen : s.barOpen = true) (hn : n < 64)
include hopen hn

/-- BAR0 serves its 64 semaphores. -/
theorem semaphore_served : ¬ (s.barOpen = false ∨ 64 ≤ n) := by
  rintro (hclosed | hbeyond)
  · simp [hopen] at hclosed
  · omega

theorem semTake_alone : s.semTake port n false = s.take1 port n := if_neg (semaphore_served hopen hn)

/-- In a tie the port that lost the last one reads first (R376). -/
theorem semTake_tie : s.semTake port n true = { (s.take1 (!s.lastTie) n).take1 s.lastTie n with lastTie := !s.lastTie } := by
  have hserved := semaphore_served hopen hn
  simp only [semTake, semTie, if_neg hserved, if_true, ite_self, semAccess, Bool.not_not]

theorem semWrite_release {v : Word} (hv : v.getLsbD 63 = false) (hheld : Sem.held (Tab.get s.semaphores n 0) = true)
    (howner : Sem.owner (Tab.get s.semaphores n 0) = port) :
    s.semWrite port n v = { s with semaphores := Tab.put s.semaphores n (Sem.free (Tab.get s.semaphores n 0)) } :=
  (if_neg (semaphore_served hopen hn)).trans (if_pos ⟨hv, hheld, howner⟩)

theorem semWrite_ignored {v : Word} (h : v.getLsbD 63 = true ∨ Sem.held (Tab.get s.semaphores n 0) = false ∨
      Sem.owner (Tab.get s.semaphores n 0) ≠ port) : s.semWrite port n v = s.countFor (portTenant port) 77 1 := by
  refine (if_neg (semaphore_served hopen hn)).trans (if_neg ?_)
  rintro ⟨hv, hheld, howner⟩
  obtain hset | hfree | hother := h
  · exact Bool.false_ne_true (hv.symm.trans hset)
  · exact Bool.false_ne_true (hfree.symm.trans hheld)
  · exact hother howner

end

/-- The Belfry takes a command from the holder of semaphore 0. -/
theorem command_accepted {port : Bool} (h : s.holdsZero port = true) (c : Command) :
    s.command port c = { s with commands := s.commands ++ [c] } := if_pos h

/-! ## MSI-X and the registers (R372, R373) -/

theorem unmaskVector_pend {t v : Nat} (ht : t < 16) (hv : v < 64) :
    let m := s.msixAt t
    let tab := Tab.put m.table (2 * v + 1) (Tab.get m.table (2 * v + 1) 0x100000000 &&& 0xFFFFFFFEFFFFFFFF)
    s.unmaskVector t v = { s with msix := Tab.put s.msix t (if m.pend.getLsbD v = true then
      { m with table := tab, pend := m.pend &&& ~~~((1 : BitVec 64) <<< v), sent := m.sent ++ [v] } else { m with table := tab }) } :=
  if_neg (by omega)

/-- A write to the table that clears no mask keeps the word without its reserved bits. -/
theorem writeMsix_plain {t k : Nat} {v : Word} (hmasked : ¬ (k % 2 = 1 ∧ v.getLsbD 32 = false)) :
    s.writeMsix t k v = { s with msix := Tab.put s.msix t { s.msixAt t with
      table := Tab.put (s.msixAt t).table k (if k % 2 = 0 then v &&& 0xFFFFFFFFFFFFFFFC else v &&& 0x1FFFFFFFF) } } := by
  refine if_neg ?_
  rintro ⟨hodd, hclear⟩
  rw [if_neg (by omega)] at hclear
  exact hmasked ⟨hodd, by simpa using hclear⟩

/-- BAR2 holds a page of 64 KiB for each tenant (R373). -/
theorem writeRegister_page (port : Bool) (t : Nat) {off : Nat} (hpage : off < 0x10000) (hword : off % 8 = 0) (v : Word) :
    s.writeRegister port 2 (0x10000 * t + off) v = s.writePage port t off v := by
  have htenant : (0x10000 * t + off) / 0x10000 = t := by omega
  have hoff : (0x10000 * t + off) % 0x10000 / 8 * 8 = off := by omega
  rw [writeRegister, if_pos rfl, htenant, hoff]

theorem writePage_launch (port : Bool) (t : Nat) {n : Nat} (hn : n < 12) (v : Word) :
    s.writePage port t (8 * n) v = s.launchWrite port t n v := by
  have hreg : 8 * n / 8 = n := by omega
  rw [writePage, if_pos (by omega : 8 * n < 0x60), hreg]
  split
  · next hdead => exact (if_pos (.inl hdead)).symm
  · rfl

theorem writePage_lstat (port : Bool) (t : Nat) (v : Word) : s.writePage port t 0x60 v = s.lstatWrite port t v := by
  rw [writePage]
  split
  · next hdead => exact (if_neg (by simp [hdead])).symm
  · rfl

theorem writePage_msix {port : Bool} {t k : Nat} (hlive : s.pageLive port t = true) (hk : k < 128) (v : Word) :
    s.writePage port t (0x1000 + 8 * k) v = s.writeMsix t k v := by
  have hplace : (0x1000 + 8 * k - 0x1000) / 8 = k := by omega
  rw [writePage, if_neg (by simp [hlive]), if_neg (by omega), if_neg (by omega), if_pos (by omega), hplace]

theorem writeRegister_take (port : Bool) {n : Nat} (hn : n < 64) (v : Word) :
    s.writeRegister port 0 (16 * n) v = s.semWrite port n v := by
  have hsem : 16 * n / 16 = n := by omega
  rw [writeRegister, if_neg (by decide), if_pos ⟨rfl, by omega, by omega⟩, hsem]

theorem writeRegister_peek (port : Bool) {n : Nat} (hn : n < 64) (hopen : s.barOpen = true) (v : Word) :
    s.writeRegister port 0 (16 * n + 8) v = s.countFor (portTenant port) 77 1 := by
  rw [writeRegister, if_neg (by decide), if_neg (by omega), if_pos ⟨rfl, by omega, by omega, hopen⟩]

/-! ## HBM4E through BAR4 (R374) -/

section
variable {port : Bool} {pa len : Nat} (hboot : s.boot = .up)
include hboot

section
variable (hinside : (decide (pa + len ≤ Config.hbmSize) && s.hostWindow port pa len) = false)
include hinside

theorem hostAccess_write_outside (bs : List Byte) : s.hostAccess port pa len (some bs) = s.countFor (portTenant port) 76 1 := by
  simp only [hostAccess, hboot, ne_eq, not_true_eq_false, if_false, hinside, Bool.false_eq_true]
  rfl

/-- A read outside the windows answers ones. -/
theorem hostAccess_read_outside :
    s.hostAccess port pa len none = (s.countFor (portTenant port) 76 1).reply port (List.replicate len 0xFF) := by
  simp only [hostAccess, hboot, ne_eq, not_true_eq_false, if_false, hinside, Bool.false_eq_true]
  rfl

end

variable (hinside : (decide (pa + len ≤ Config.hbmSize) && s.hostWindow port pa len) = true)
include hinside

theorem hostAccess_write_inside (bs : List Byte) : s.hostAccess port pa len (some bs) =
    s.actFor (portTenant port) fun u => (hostWrite (bs.take len) pa (if pa % 128 = 0 then u
      else (u.slicedWrite (u.hwHome pa) (pa / 128) 0 false).2)).cleanRange pa (bs.take len).length := by
  simp only [hostAccess, hboot, ne_eq, not_true_eq_false, if_false, hinside, if_true]

theorem hostAccess_read_inside : s.hostAccess port pa len none =
    s.actFor (portTenant port) fun u => (hostRead len pa u).2.reply port (hostRead len pa u).1 := by
  simp only [hostAccess, hboot, ne_eq, not_true_eq_false, if_false, hinside, if_true]

end

/-! ## The Thatur loader (R383) -/

section
variable {t va : Nat} {ctx : BitVec 16} {ws : List Word} {bs : List Byte} (himage : s.containerImage t ctx va = some (ws, bs))
include himage

/-- An image of sizes outside the limits is refused with code 1. -/
theorem loadThatur_badSizes (hsizes : sizesOk ws = false) :
    s.loadThatur t ctx va = (s.countFor t 78 1).reply ((s.tenantRec t).getLsbD 62) (toBytes 8 (rejection 1 0)) := by
  unfold loadThatur
  rw [himage]
  dsimp only
  rw [if_pos hsizes]

variable (hsizes : sizesOk ws = true)
include hsizes

theorem loadThatur_rejected {e v : Nat} (h : s.publishImage t ((Image.of ws bs).owner == 0) (Image.of ws bs) = .error (e, v)) :
    s.loadThatur t ctx va = (s.countFor t 78 1).reply ((s.tenantRec t).getLsbD 62) (toBytes 8 (rejection e v)) := by
  unfold loadThatur
  rw [himage]
  dsimp only
  rw [if_neg (by simp [hsizes]), h]

theorem loadThatur_published {o : CodeObj} {code : List Byte}
    (h : s.publishImage t ((Image.of ws bs).owner == 0) (Image.of ws bs) = .ok (o, code)) :
    s.loadThatur t ctx va =
      ((s.addObject o code).countFor t 79 1).reply ((s.tenantRec t).getLsbD 62) (toBytes 8 (BitVec.ofNat 64 o.base)) := by
  unfold loadThatur
  rw [himage]
  dsimp only
  rw [if_neg (by simp [hsizes]), h]

end

/-! ## Bring-up (R379, R380) and power (R386) -/

/-- What a device reset starts from: the values of reset, and what flash and the installation keep. -/
def afterReset (s : State) : State :=
  { State.reset with
    config := s.config, flashVersion := s.flashVersion, ownerHash := s.ownerHash, badPages := s.badPages.take 1024, sched := s.sched
    freeCtr := s.freeCtr }

theorem bringUp_halted (h : Config.firmwareVerifies = false) : s.bringUp = { s.afterReset with boot := .halted } := if_pos h

section
variable (hfirmware : Config.firmwareVerifies = true)
include hfirmware

theorem bringUp_degraded (h : s.afterReset.configAccepted = false) : s.bringUp = { s.afterReset with boot := .degraded } :=
  (if_neg (by simp [hfirmware])).trans (if_pos h)

theorem bringUp_up (h : s.afterReset.configAccepted = true) :
    s.bringUp = { s.afterReset.applyBadList.configure with boot := .up } :=
  (if_neg (by simp [hfirmware])).trans (if_neg (h.trans_ne (by decide)))

end

section
variable {d : Nat} (hd : d < 8)
include hd

theorem capDome_stop (hruns : (s.domeAt d).stopAt = none) :
    s.capDome d true = s.setDomeAt d { s.domeAt d with stopAt := some s.cycle } := by
  simp only [capDome, if_neg (Nat.not_le.2 hd), hruns]

/-- Counter 94 counts the cycles that the clock of a dome stood. -/
theorem capDome_start {c : Nat} (hstands : (s.domeAt d).stopAt = some c) :
    s.capDome d false = (s.setDomeAt d { s.domeAt d with stopAt := none, stopFor := (s.domeAt d).stopFor + (s.cycle - c) }).countFor
      deviceTenant 94 (s.cycle - c) := by
  simp only [capDome, if_neg (Nat.not_le.2 hd), hstands]

end

end State

/-! ## The statement -/

/-- Settles O37: each access of the host, the reset and the power cap give what the part of the device they address gives. -/
theorem hostEventsHappen : Obligations.HostEventsHappen := by
  intro s hon
  refine ⟨fun port n hopen hn => ?semaphores, fun port hzero => ?mailbox, fun t v ht hv => ?unmask, fun port pa len hboot => ?bar4,
    fun port => ?portReset, fun port v => ?registers, fun t ctx va ws bs himage => ?loader, ?deviceReset, fun d x hd hx hruns => ?stop,
    fun d x c hd hx hstands => ?start, exec_next_of_event (exec_thermalAlarm s) hon rfl, exec_next_of_event (exec_thermalShutdown s) hon rfl⟩
  case semaphores =>
    have htake : ∀ {tie u}, s.semTake port n tie = u → exec (.semaphoreTake port n tie) s = .next u :=
      fun h => exec_next_of_event (exec_semaphoreTake s port n _) hon h
    have hwrite : ∀ {v u}, s.semWrite port n v = u → exec (.semaphoreRelease port n v) s = .next u :=
      fun h => exec_next_of_event (exec_semaphoreRelease s port n _) hon h
    have halone := State.semTake_alone (port := port) hopen hn
    exact ⟨fun hfree => htake (halone.trans (State.take1_free hfree)), fun hheld => htake (halone.trans (State.take1_held hheld)),
      htake (State.semTake_tie hopen hn), fun v hv hheld howner => hwrite (State.semWrite_release hopen hn hv hheld howner),
      fun v h => hwrite (State.semWrite_ignored hopen hn h)⟩
  case mailbox =>
    have haccepted := State.command_accepted hzero
    exact ⟨fun t share => exec_next_of_event (exec_setshare s port t share) hon (haccepted _),
      fun t n v => exec_next_of_event (exec_setwdcfg s port t n v) hon (haccepted _),
      fun en base log2 => exec_next_of_event (exec_traceCommand s port en base log2) hon (haccepted _),
      fun nonce => exec_next_of_event (exec_attest s port nonce) hon (haccepted _)⟩
  case unmask => exact exec_next_of_event (exec_msixVectorUnmask s t v) hon (State.unmaskVector_pend ht hv)
  case bar4 =>
    intro inside
    have hexec : ∀ {data u}, s.hostAccess port pa len data = u → exec (.hostBar4Access port pa len data) s = .next u :=
      fun h => exec_next_of_event (exec_hostBar4Access s port pa len _) hon h
    exact ⟨fun houtside => ⟨fun bs => hexec (State.hostAccess_write_outside hboot houtside bs),
        hexec (State.hostAccess_read_outside hboot houtside)⟩,
      fun hinside => ⟨fun bs => hexec (State.hostAccess_write_inside hboot hinside bs),
        hexec (State.hostAccess_read_inside hboot hinside)⟩⟩
  case portReset => exact exec_next_of_event (exec_functionLevelReset s port) hon rfl
  case registers =>
    have hexec : ∀ {bar off u}, s.writeRegister port bar off v = u → exec (.registerWrite port bar off v) s = .next u :=
      fun h => exec_next_of_event (exec_registerWrite s port _ _ v) hon h
    refine ⟨fun t n ht hn => ?launch, fun t ht => ?lstat, fun t k ht hk hlive hmasked => ?msix, fun n hn => ?take,
      fun n hn hopen => hexec (State.writeRegister_peek port hn hopen v)⟩
    case launch =>
      rw [hexec ((State.writeRegister_page port t (by omega) (by omega) v).trans (State.writePage_launch port t hn v))]
      exact (exec_next_of_event (exec_launchRegisterWrite s port t n v) hon rfl).symm
    case lstat =>
      rw [hexec ((State.writeRegister_page port t (by omega) (by omega) v).trans (State.writePage_lstat port t v))]
      exact (exec_next_of_event (exec_lstatWrite s port t v) hon rfl).symm
    case msix =>
      have hpage := State.writeRegister_page (s := s) port t (off := 0x1000 + 8 * k) (by omega) (by omega) v
      rw [Nat.add_assoc]
      exact hexec (hpage.trans ((State.writePage_msix hlive hk v).trans (State.writeMsix_plain hmasked)))
    case take =>
      rw [hexec (State.writeRegister_take port hn v)]
      exact (exec_next_of_event (exec_semaphoreRelease s port n v) hon rfl).symm
  case loader =>
    intro port
    have hexec : ∀ {u}, s.loadThatur t ctx va.toNat = u → exec (.thaturLoad t ctx va) s = .next u :=
      fun h => exec_next_of_event (exec_thaturLoad s t ctx va) hon h
    exact ⟨fun hbad => hexec (State.loadThatur_badSizes himage hbad), fun hsizes =>
      ⟨fun e v hrejected => hexec (State.loadThatur_rejected himage hsizes hrejected),
        fun o code hpublished => hexec (State.loadThatur_published himage hsizes hpublished)⟩⟩
  case deviceReset =>
    have hexec : ∀ {u}, s.bringUp = u → exec .deviceReset s = .next u := fun h => h ▸ exec_deviceReset_next s
    exact ⟨fun hbad => hexec (State.bringUp_halted hbad), fun hfirmware hrefused => hexec (State.bringUp_degraded hfirmware hrefused),
      fun hfirmware haccepted => hexec (State.bringUp_up hfirmware haccepted)⟩
  case stop =>
    subst hx
    exact exec_next_of_event (exec_powerCap s d true) hon (State.capDome_stop hd hruns)
  case start =>
    subst hx
    exact exec_next_of_event (exec_powerCap s d false) hon (State.capDome_start hd hstands)

end Sys2Proof.Machine
end

section
/-!
PROOFS. Launching and leaving (07_system_isa R195-R198).
-/

namespace Sys2Proof.Machine

open Sys2Proof

/-- A core that decides for itself waits for no leader, and still decides for itself once its tokens are acquired. -/
theorem State.issues_alone {s : State} {i : Instr} (h : s.issues i s.alone = true) :
    s.mustFollow = false ∧ s.issues i true = true ∧ (s.acquireTokens i).core.follower = false := by
  obtain ⟨hclear, halone⟩ := Bool.and_eq_true_iff.1 h
  refine ⟨mustFollow_of_alone halone, by rw [State.issues, hclear, Bool.and_true], ?_⟩
  rw [acquireTokens_follower]
  simpa [State.alone] using halone

section
variable {i : Instr} {body : State → Res}

/-- An instruction that a leader begins for its chain, on a core that decides for itself, completes where its body does. -/
theorem completesWhen_alone {c : State → State → Prop}
    (hexec : ∀ s, exec i s = if s.mustFollow then powered s (.next s) else instrAll i body s)
    (hbody : ∀ s t, s.core.follower = false → c s t → body s = .done t) : CompletesWhen i State.alone c := fun s t hissues hc => by
  obtain ⟨hfollow, htrue, hfollower⟩ := State.issues_alone hissues
  rw [hexec, hfollow]
  exact instrIf_done htrue (hbody _ t hfollower hc)

/-- The same of one that goes on at an address. -/
theorem goesTo_alone {c : State → Word × State → Prop}
    (hexec : ∀ s, exec i s = if s.mustFollow then powered s (.next s) else instrAll i body s)
    (hbody : ∀ s x, s.core.follower = false → c s x → body s = .goto x.1 x.2) : GoesTo i State.alone c := fun s x hissues hc => by
  obtain ⟨hfollow, htrue, hfollower⟩ := State.issues_alone hissues
  rw [hexec, hfollow]
  exact instrIf_goto htrue (hbody _ x hfollower hc)

end

/-- A YIELD ends with 0 at once outside a region, and in one that cannot be pre-empted or whose Spires nothing wants (R197). -/
theorem completesWhen_yield_atOnce (d : SReg) : CompletesWhen (.yield d) State.always fun s u => s.inCall = none ∧
    (s.myRegion = none ∨ ∃ r, s.myRegion = some r ∧ s.core.yielded = false ∧ s.core.yieldAt = none ∧
      (Rcb.preempt r.rcb = false ∨ s.wanted r = false)) ∧ u = s.yieldEnded d 0 := by
  refine completesWhen_instrAll (exec_yield · d) fun s u => ?_
  rintro ⟨hcall, hnone | ⟨r, hregion, hyielded, hsince, hstays⟩, rfl⟩
  · simp only [hcall, hnone]
    rfl
  · simp only [hcall, hregion, hyielded, hsince, hstays, Bool.false_eq_true, if_false, if_true]
    rfl

/-- Settles O28: each instruction passes its checks in turn; a YIELD ends at once, or once its wait is over. -/
theorem launchingAndLeavingComplete : Obligations.LaunchingAndLeavingComplete := by
  refine ⟨fun d a pwake pwen => ?launch, ?exit, fun d => ?yield, ?halt⟩
  case launch =>
    refine completesWhen_alone (exec_launch · d a pwake pwen) fun s u hfollower => ?_
    rintro ⟨-, hcall, halign, ps, v, ws, s', ⟨hplaces, hfenced, hload⟩, rfl⟩
    simp only [hfollower, hcall, Bool.false_eq_true, if_false, low8_eq_zero halign, ne_eq, not_true_eq_false]
    rw [run_of_passes hplaces]
    simp only [hfenced, Bool.true_eq_false, if_false]
    rw [run_of_passes hload]
    exact (apply_ite Res.done _ _ _).symm
  case exit =>
    refine answers_instrAll exec_exit fun s u => ?_
    rintro ⟨hcall, hdrained, hrefused, rfl⟩
    simp only [hcall, hdrained, hrefused, Bool.true_eq_false, if_false]
    rfl
  case yield =>
    rintro s u hissues ⟨hcall, ⟨hnone, hu⟩ | ⟨r, hregion, h⟩⟩
    · exact completesWhen_yield_atOnce d s u hissues ⟨hcall, .inl hnone, hu⟩
    · obtain ⟨hyielded, hu⟩ | ⟨hyielded, hsince, hstays, hu⟩ | ⟨hyielded, hlate, harmed, hu⟩ := h
      · exact completesWhen_yield d s u hissues ⟨hcall, r, hregion, .inl ⟨hyielded, hu⟩⟩
      · exact completesWhen_yield_atOnce d s u hissues ⟨hcall, .inr ⟨r, hregion, hyielded, hsince, hstays⟩, hu⟩
      · exact completesWhen_yield d s u hissues ⟨hcall, r, hregion, .inr ⟨hyielded, hlate, harmed, hu⟩⟩
  case halt =>
    refine completesWhen_instrAll exec_halt fun s u => ?_
    rintro ⟨hwake, rfl⟩
    exact if_pos (by simpa [State.condHolds] using hwake)

end Sys2Proof.Machine
end

section
/-!
PROOFS. Gate calls, TRAP and ERET (07_system_isa R199-R204, 16_traps R309, R310).
-/

namespace Sys2Proof.Machine

open Sys2Proof

/-- Settles O29: GCALL and GRET of a core that decides for itself pass their checks; TRAP and ERET are plain functions of the state. -/
theorem gatesAndTrapsComplete : Obligations.GatesAndTrapsComplete := by
  refine ⟨fun gate => ?gcall, fun a abort => ?gret, fun code => ?trap, ?eret⟩
  case gcall =>
    refine goesTo_alone (exec_gcall · gate) fun s x hfollower => ?_
    rintro ⟨-, hcheck, rfl⟩
    simp only [hfollower, Bool.false_eq_true, if_false, hcheck, State.gateWords]
  case gret =>
    refine goesTo_alone (exec_gret · a abort) fun s x hfollower => ?_
    rintro ⟨-, hdepth, hhandler, rfl⟩
    simp only [hfollower, hdepth, hhandler, Bool.false_eq_true, if_false, beq_iff_eq]
  case trap => exact answers_instrAll (exec_trap · code) fun s u h => h ▸ rfl
  case eret => exact answers_instrAll exec_eret fun s u h => h ▸ rfl

/-- A trap that is entered leaves its cause, its address and its value in the handler's workspace (R202, 16_traps R310). -/
theorem State.trapWords_of_takeTrap {s : State} (hwf : Mem.wf s.mem = true) (henters : ¬ s.trapFatal) (async : Bool) (pc : Word) (t : Trap) :
    let u := s.takeTrap async pc t
    let at_ := wsLoc s.cur s.handlerWp.toNat
    (Mem.load u.mem 64 (at_ + Ws.tcause) 8).extractLsb' 0 8 = t.code ∧ Mem.load u.mem 64 (at_ + Ws.tval) 8 = t.tval ∧
      Mem.load u.mem 64 (at_ + Ws.tpc) 8 = pc := by
  intro u at_
  have hload : ∀ w ∈ trapWords at_ (s.tcauseOf async t) pc t, Mem.load u.mem 64 w.1 8 = w.2 := fun w hw => load_takeTrap hwf henters hw
  obtain ⟨htcause, htpc, htval, -⟩ := by simpa only [trapWords, List.forall_mem_cons] using hload
  obtain ⟨hcode, -⟩ := namesTrap_tcauseWord async s.core.wp s.core.priv t.code
  exact ⟨(congrArg (BitVec.extractLsb' 0 8) htcause).trans hcode, htval, htpc⟩

/-- Settles O40: TRAP takes its trap at the next address, and the handler's workspace receives the trap words. -/
theorem trapInstructionNamesTheNextAddress : Obligations.TrapInstructionNamesTheNextAddress := by
  intro code s hissues hwf hwp hlive hsoft hfix hlanded
  have hwp_eq : s.handlerWp = hwp := hfix
  have henters : ¬ s.trapFatal := by
    rw [State.trapFatal, hwp_eq, not_or, Bool.not_eq_true]
    exact ⟨hlive, hsoft⟩
  have hwords := State.trapWords_of_takeTrap hwf henters false (s.core.pc + 8) { code := 0x16, tval := code.setWidth 64 }
  rw [hwp_eq] at hwords
  obtain ⟨-, -, htrap, -⟩ := gatesAndTrapsComplete
  exact ⟨_, htrap code s _ hissues (by rw [State.acquireTokens_none _ hlanded]), hwords⟩

namespace State

variable {s : State}

/-- A core outside a chain has no followers to take along. -/
theorem rejoin_unchained (h : s.core.chained = false) : s.rejoin = s := by
  rw [rejoin, h]
  rfl

/-- ERET as it is retired, before the return (R204). -/
def eretRetired (s : State) : State := (s.count 0 1).onCore fun k => retiredCore k k.pc

theorem eretRetired_core (s : State) : s.eretRetired.core = retiredCore s.core s.core.pc := core_onCore _ _

theorem word_eretRetired (s : State) (off : Nat) : s.eretRetired.word off = s.word off :=
  word_congr (s := s) (t := s.eretRetired) rfl rfl (by rw [eretRetired_core]; rfl) off

/-- The record of a core that returns from a trap, by the trap words of its live workspace (R204). -/
theorem returnFromTrap_core (s : State) : s.returnFromTrap.core =
    { s.core with
      wp := fixWp ((s.word Ws.tcause).extractLsb' 16 14), priv := s.fixPriv ((s.word Ws.tcause).extractLsb' 8 2), pc := s.word Ws.tpc
      away := s.core.away - 1, done := false, holdUntil := s.clock + 52 } :=
  core_onCore s _

/-- A misaligned PC raises MISALIGN before anything is fetched (01_encoding R30). -/
theorem fetchAt_misaligned {stagger : Raw → Raw} {pc : Word} (h : pc.toNat % 4 ≠ 0) (n : Nat) :
    s.fetchAt stagger (n + 1) pc = .trap pc { code := Cause.misalign, tval := pc } s := by
  rw [fetchAt, if_pos h]

/-- ERET of a dome core at TENANT level lacks the privilege it needs (07_system_isa R192). -/
theorem preTrap_eret (hdome : s.isBelfry = false) (htenant : s.core.priv = 0) :
    s.preTrap .eret = some { code := Cause.priv, tval := s.instrBits .eret } := by
  have hlacks : s.privileged (Instr.need .eret) = false := by
    show (decide (s.core.priv = 2) || decide (s.core.priv = 1)) = false
    rw [htenant]
    rfl
  have hformed : ¬ (Instr.groupsOk (groupSize s.jet) .eret = false ∨ planesOk s.jet .eret = false) :=
    not_or.2 ⟨Bool.false_ne_true.symm, Bool.false_ne_true.symm⟩
  rw [preTrap, if_neg (by simp [hdome]), if_neg hformed, if_pos hlacks]

end State

/-- Settles O41: ERET retires in place and returns by the trap words of the live workspace; the fetch and the privilege check come before. -/
theorem eretResumes : Obligations.EretResumes := by
  refine ⟨fun s hissues hchained hlanded hwp hpriv => ?resumes, fun s st n pc h => State.fetchAt_misaligned h n,
    fun s hon hdome htenant => ?tenant⟩
  case resumes =>
    obtain ⟨-, -, -, heret⟩ := gatesAndTrapsComplete
    have hcore := State.returnFromTrap_core s.eretRetired
    rw [State.eretRetired_core, State.word_eretRetired, State.word_eretRetired] at hcore
    have hstays : s.eretRetired.returnFromTrap.rejoin = s.eretRetired.returnFromTrap :=
      State.rejoin_unchained (by rw [hcore]; exact hchained)
    refine ⟨s.eretRetired.returnFromTrap, ?_, rfl, (congrArg Core.wp hcore).trans hwp, (congrArg Core.priv hcore).trans hpriv,
      congrArg Core.pc hcore, congrArg Core.holdUntil hcore⟩
    refine heret s _ hissues ?_
    rw [State.acquireTokens_none _ hlanded]
    exact hstays.symm
  case tenant =>
    obtain ⟨body, hexec⟩ := exec_eq_instrIf (i := .eret) (s := s) rfl nofun nofun
    exact hexec.trans (instrIf_pre hon (State.preTrap_eret hdome htenant) _ body)

end Sys2Proof.Machine
end

section
/-!
PROOFS. System registers, the journal, the Graver's record, and PUBLISH (07_system_isa R205-R209, R218, R219).
-/

namespace Sys2Proof.Machine

open Sys2Proof

namespace State

variable {s : State}

/-- Acquiring a timestamp writes no register (15_consistency R299). -/
theorem reg_acquire (s : State) (ts : Nat) (r : SReg) : (s.acquire ts).reg r = s.reg r :=
  reg_of_word (word_congr (acquire_mem s ts) (acquire_cur s ts) (by rw [acquire, core_setLt])) r

end State

/-- A multiple of 64 has its low six bits clear. -/
theorem low6_eq_zero {x : Word} (h : x.toNat % 64 = 0) : x &&& 0x3F = 0 := by
  refine BitVec.eq_of_toNat_eq ?_
  rw [BitVec.toNat_and]
  exact (Nat.and_two_pow_sub_one_eq_mod x.toNat 6).trans h

/-- Settles O30: SYSR and JRNL name their word by an index; MSAVE and PUBLISH store what they have once nothing is left to wait for. -/
theorem systemRegistersComplete : Obligations.SystemRegistersComplete := by
  refine ⟨fun g d idx => ?sysr, fun g a idx => ?sysw, fun g d a word clear => ?jrnl, fun g d a => ?msave, fun d a c => ?publish⟩
  case sysr =>
    refine completes_instr _ (exec_sysr · g d idx) (fun s => congrArg (fun x => Res.done (s.setReg d x)) ?_) fun _ => rfl
    have hname : ∀ {k : BitVec 12}, idx.toNat = k.toNat → idx = k := BitVec.eq_of_toNat_eq
    have hother : ∀ {k : BitVec 12}, idx.toNat ≠ k.toNat → idx ≠ k := fun h hk => h (congrArg BitVec.toNat hk)
    split
    · next h => rw [hname (k := 0) h]; rfl
    · next h => rw [hname (k := 1) h]; rfl
    · next h => rw [hname (k := 2) h]; rfl
    · next h => rw [hname (k := 3) h]; rfl
    · next h => rw [hname (k := 4) h]; rfl
    · next h0 h1 h2 h3 h4 =>
      dsimp only
      rw [if_neg (hother (k := 0) h0), if_neg (hother (k := 1) h1), if_neg (hother (k := 2) h2), if_neg (hother (k := 3) h3),
        if_neg (hother (k := 4) h4)]
  case sysw => exact completes_instr _ (exec_sysw · g a idx) (fun _ => rfl) fun _ => rfl
  case jrnl =>
    refine completesWhen_instr (exec_jrnl · g d a word clear) fun s u => ?_
    rintro ⟨hentry, rfl⟩
    dsimp only
    rw [if_neg (Nat.not_le.2 hentry)]
    have hword : ∀ x : BitVec 2, x = 0 ∨ x = 1 ∨ x = 2 ∨ x = 3 := by decide
    obtain rfl | rfl | rfl | rfl := hword word <;> rfl
  case msave =>
    refine completesWhen_instr (exec_msave · g d a) fun s u => ?_
    rintro ⟨halign, hidle, v, hstores, rfl⟩
    dsimp only
    rw [if_neg (not_not_intro (low8_eq_zero halign)), hidle, if_neg (by decide)]
    exact State.storeElems_done hstores _
  case publish =>
    refine completesWhen_instrAll (exec_publish · d a c) fun s u => ?_
    rintro ⟨halign, hfenced, ws, v, bs, w, hhead, hsizes, hbody, hrejected, hpublished⟩
    dsimp only
    rw [if_neg (not_not_intro (low6_eq_zero halign)), hfenced, if_neg (by decide), State.publish, run_of_passes hhead]
    dsimp only
    rw [hsizes, if_neg (by decide), run_of_passes hbody]
    dsimp only
    split
    · next e v h => exact congrArg Res.done (hrejected (e, v) h).symm
    · next o code h =>
      have hput := hpublished o code h
      dsimp only at hput
      split at hput
      · next hc =>
        subst hc hput
        rfl
      · next hc =>
        obtain ⟨haligned, v', hstores, rfl⟩ := hput
        rw [State.reg_acquire] at haligned hstores
        rw [if_pos (by simpa using hc), aligned_of_mod haligned, run_of_passes rfl]
        exact State.storeElems_done hstores _

end Sys2Proof.Machine
end

section
/-!
PROOFS. Maintenance of translations, caches and memory (07_system_isa R210-R217, 21_memory_system R368).
-/

namespace Sys2Proof.Machine

open Sys2Proof

namespace State

variable {s : State} {d : SReg} {pa n : Nat}

/-- A locator names its row (R213). -/
theorem located_some {w : Word} (h : locatorPa w = some pa) (f : Nat → Res) : s.located w f = f pa := by rw [located, h]

/-! ## MSCRUB (R214) -/

/-- The rows an MSCRUB has done, and the beats it has corrected and found uncorrectable. -/
def scrubbed (s : State) : Nat × Nat × Nat := s.core.scrub.getD (0, 0, 0)

/-- The address of the row that an MSCRUB from a row on comes to. -/
def scrubAt (s : State) (pa : Nat) : Nat := pa + s.scrubbed.1 * 2 ^ 22

/-- An MSCRUB ends with its status. -/
def endScrub (s : State) (d : SReg) (thresh part : Bool) (x : Nat × Nat × Nat) : State :=
  (s.onCore fun k => { k with scrub := none }).setReg d (scrubStatus thresh part x.1 x.2.1 x.2.2)

/-- The counts of an MSCRUB after one more row. -/
def scrubbedRow (s : State) (pa : Nat) : Nat × Nat × Nat :=
  let r := s.scrubRow (s.scrubAt pa)
  (s.scrubbed.1 + 1, s.scrubbed.2.1 + r.1, s.scrubbed.2.2 + r.2.1)

/-- The end of the rows of an MSCRUB, or of memory. -/
theorem scrubOn_over (h : s.scrubbed.1 = n ∨ Config.hbmSize ≤ s.scrubAt pa) :
    s.scrubOn d pa n = .done (s.endScrub d false false s.scrubbed) := if_pos h

/-- A row boundary at which a trap is due, or a gang switch. -/
theorem scrubOn_breaks (hleft : s.scrubbed.1 ≠ n) (hin : s.scrubAt pa < Config.hbmSize) (hbegun : s.scrubbed.1 ≠ 0)
    (hdue : s.stopping = true ∨ s.trapDue = true) : s.scrubOn d pa n = .done (s.endScrub d false true s.scrubbed) :=
  (if_neg (not_or.2 ⟨hleft, Nat.not_le.2 hin⟩)).trans (if_pos ⟨hbegun, hdue⟩)

/-- One more row, after which the MSCRUB ends if the row's counter has reached the threshold. -/
theorem scrubOn_row (hleft : s.scrubbed.1 ≠ n) (hin : s.scrubAt pa < Config.hbmSize)
    (hgoes : s.scrubbed.1 = 0 ∨ (s.stopping = false ∧ s.trapDue = false)) :
    s.scrubOn d pa n =
      if s.counterOf (s.scrubAt pa) < 8 ∧ 8 ≤ (s.scrubRow (s.scrubAt pa)).2.2.counterOf (s.scrubAt pa) then
        .done ((s.scrubRow (s.scrubAt pa)).2.2.endScrub d true false (s.scrubbedRow pa))
      else .asIs ((s.scrubRow (s.scrubAt pa)).2.2.onCore fun k => { k with scrub := some (s.scrubbedRow pa), status := .running }) := by
  refine (if_neg (not_or.2 ⟨hleft, Nat.not_le.2 hin⟩)).trans (if_neg ?_)
  rintro ⟨hbegun, hdue⟩
  obtain hzero | ⟨hstop, htrap⟩ := hgoes
  · exact hbegun hzero
  · simp [hstop, htrap] at hdue

/-! ## MSPARE (R215) -/

/-- The copy that an MSPARE starts. -/
def startSpare (s : State) (pa sp e : Nat) : State :=
  { s with hbm := { s.hbm with
    copies := Tab.put s.hbm.copies (chanOf pa) { row := pa / 1024, spare := sp, entry := e, endTick := s.time + 2000, core := s.cur }
    spareUse := Tab.put s.hbm.spareUse (chanOf pa * 4 + pa / 2 ^ 20 % 4)
      (Tab.get s.hbm.spareUse (chanOf pa * 4 + pa / 2 ^ 20 % 4) 0 ||| ((1 : BitVec 32) <<< sp)) } }

/-- An MSPARE whose copy is over ends with its status. -/
theorem spareRow_over {ch : Nat} {x : Word} (h : s.core.spare = some (ch, some x)) (pa sp : Nat) :
    s.spareRow d pa sp = .done ((s.onCore fun k => { k with spare := none }).setReg d x) := by
  simp only [spareRow, h]

/-- An MSPARE not begun is refused, ends at once on a row that is not live, or starts its copy. -/
theorem spareRow_new (h : s.core.spare = none) (pa sp : Nat) : s.spareRow d pa sp =
    match s.spareCheck pa sp with
    | .error c => .done (s.setReg d (spareStatus c 0))
    | .ok e => if s.rowLive pa = false then .done ((s.spareNotLive pa sp e).setReg d (spareStatus 0 e))
      else .wait (.spare (chanOf pa)) ((s.startSpare pa sp e).onCore fun k => { k with spare := some (chanOf pa, none) }) := by
  simp only [spareRow, h]
  rfl

/-! ## MLIVE (R217) -/

/-- Rows of which none is being copied are marked. -/
theorem markRows_free {on : Bool} (h : ∀ k, s.reserved (chanOf pa) = some k → k.row * 1024 ∉ liveRows pa n) :
    s.markRows d pa n on =
      .done (((liveRows pa n).foldl (fun (s : State) r => s.markRow r on) s).setReg d (BitVec.ofNat 64 (liveRows pa n).length)) := by
  refine if_neg ?_
  split
  · next k hk => simpa using h k hk
  · exact Bool.false_ne_true

end State

/-- An instruction on the row that its locator names completes where its body does (R213). -/
theorem completesWhen_located {i : Instr} {g : Guard} {a : SReg} {body : State → Nat → Res} {k : State → Nat → State → Prop}
    (hexec : ∀ s, exec i s = instr i g (fun s => s.located (s.reg a) (body s)) s) (hbody : ∀ s pa u, k s pa u → body s pa = .done u) :
    CompletesWhen i (State.whole g) fun s u => ∃ pa, locatorPa (s.reg a) = some pa ∧ k s pa u :=
  completesWhen_instr hexec fun s u ⟨pa, hpa, hk⟩ => (State.located_some hpa _).trans (hbody s pa u hk)

/-- Settles O31: a row is scrubbed, spared, remapped or marked by what its locator finds; the rest are plain functions of the state. -/
theorem maintenanceCompletes : Obligations.MaintenanceCompletes := by
  refine ⟨fun g d a b kind reach inv => ⟨?tlbinv, ?tlbinvWaited, ?lflush, ?l2cfg⟩, fun g d a b c => ?_⟩
  case tlbinv =>
    refine completesWhen_instr (exec_tlbinv · g a b kind reach) fun s u => ?_
    rintro ⟨hrunning, hunused, rfl⟩
    dsimp only
    rw [hrunning]
    exact if_neg (ne_true_of_eq_false hunused)
  case tlbinvWaited =>
    refine completesWhen_instr (exec_tlbinv · g a b kind reach) fun s u => ?_
    rintro ⟨⟨r, t, c, v, hwaits⟩, rfl⟩
    dsimp only
    rw [hwaits]
  case lflush => exact completes_instr _ (exec_lflush · g a b inv reach) (fun _ => rfl) fun _ => rfl
  case l2cfg => exact completes_instr _ (exec_l2cfg · g d a b inv) (fun _ => rfl) fun _ => rfl
  refine ⟨?scrubOver, ?scrubBreaks, ?scrubThreshold, ?scrubRow, ?spareNotLive, ?spareRefused, ?spareStarts, ?spareOver, ?mrmapRead,
    ?mrmapWrite, ?mrmapInvalidate, ?mrmapSpareBitmap, ?mliveNotLive, ?mliveLive⟩
  case scrubOver =>
    refine completesWhen_located (exec_mscrub · g d a b) fun s pa u => ?_
    rintro ⟨hover, rfl⟩
    exact State.scrubOn_over hover
  case scrubBreaks =>
    refine completesWhen_located (exec_mscrub · g d a b) fun s pa u => ?_
    rintro ⟨hleft, hin, hbegun, hdue, rfl⟩
    exact State.scrubOn_breaks hleft hin hbegun hdue
  case scrubThreshold =>
    refine completesWhen_located (exec_mscrub · g d a b) fun s pa u => ?_
    rintro ⟨hleft, hin, hgoes, hbelow, hreached, rfl⟩
    exact (State.scrubOn_row hleft hin hgoes).trans (if_pos ⟨hbelow, hreached⟩)
  case scrubRow =>
    refine answers_instr (exec_mscrub · g d a b) fun s u => ?_
    rintro ⟨pa, hpa, hleft, hin, hgoes, hquiet, rfl⟩
    refine (State.located_some hpa _).trans ((State.scrubOn_row hleft hin hgoes).trans (if_neg ?_))
    rintro ⟨hbelow, hreached⟩
    exact hquiet.elim (Nat.not_le.2 hbelow) (Nat.not_lt.2 hreached)
  case spareNotLive =>
    refine completesWhen_located (exec_mspare · g d a b) fun s pa u => ?_
    rintro ⟨e, hnew, hcheck, hdead, rfl⟩
    rw [State.spareRow_new hnew, hcheck]
    exact if_pos hdead
  case spareRefused =>
    refine completesWhen_located (exec_mspare · g d a b) fun s pa u => ?_
    rintro ⟨code, hnew, hcheck, rfl⟩
    rw [State.spareRow_new hnew, hcheck]
    dsimp only
    rw [State.spareStatus, Nat.add_zero]
  case spareStarts =>
    rintro s u hissues ⟨pa, e, hpa, hnew, hcheck, hlive, hu⟩
    rw [hu]
    refine waits_instr (exec_mspare · g d a b) hissues ((State.located_some hpa _).trans ?_)
    rw [State.spareRow_new hnew, hcheck]
    exact if_neg (ne_false_of_eq_true hlive)
  case spareOver =>
    refine completesWhen_located (exec_mspare · g d a b) fun s pa u => ?_
    rintro ⟨ch, x, hover, rfl⟩
    exact State.spareRow_over hover _ _
  case mrmapRead => exact completesWhen_located (exec_mrmapRead · g d a b c) fun s pa u h => h ▸ rfl
  case mrmapWrite =>
    refine completesWhen_located (exec_mrmapWrite · g d a b c) fun s pa u => ?_
    rintro ⟨hhigh, hmid, hlow, rfl⟩
    refine if_neg ?_
    rw [hhigh, hmid, hlow]
    decide
  case mrmapInvalidate => exact completesWhen_located (exec_mrmapInvalidate · g d a b c) fun s pa u h => h ▸ rfl
  case mrmapSpareBitmap => exact completesWhen_located (exec_mrmapSpareBitmap · g d a b c) fun s pa u h => h ▸ rfl
  case mliveNotLive =>
    refine completesWhen_located (exec_mliveNotLive · g d a b) fun s pa u => ?_
    rintro ⟨hfree, rfl⟩
    exact State.markRows_free hfree
  case mliveLive =>
    refine completesWhen_located (exec_mliveLive · g d a b) fun s pa u => ?_
    rintro ⟨hfree, rfl⟩
    exact State.markRows_free hfree

end Sys2Proof.Machine
end

section
/-!
PROOFS. The slot table and the gang switch (07_system_isa R220, R221).
-/

namespace Sys2Proof.Machine

open Sys2Proof

/-- Settles O32: BIND reads its record and gives the first answer that applies; GSWITCH looks at whether the partition is armed. -/
theorem bindingAndSwitchingComplete : Obligations.BindingAndSwitchingComplete := by
  refine fun g d a b => ⟨?bind, ?cancel, ?arm⟩
  case bind =>
    refine completesWhen_instr (exec_bind · g d a b) fun s u => ?_
    rintro ⟨halign, ws, s', hload, rfl⟩
    dsimp only
    rw [aligned_of_mod halign, run_of_passes rfl, run_of_passes hload]
    dsimp only
    rw [apply_ite Res.done, apply_ite Res.done]
  case cancel =>
    refine completes_instr _ (exec_gswitchCancel · g d a b) (fun s => ?_) fun _ => rfl
    dsimp only
    cases Tab.find? s.armed ((s.reg a).toNat % 256) with
    | some t => exact (apply_ite Res.done _ _ _).symm
    | none => rfl
  case arm =>
    refine completes_instr _ (exec_gswitchArm · g d a b) (fun s => ?_) fun _ => rfl
    cases s.armSwitch ((s.reg a).toNat % 256) (s.reg b).toNat with
    | some x => rfl
    | none => rfl

end Sys2Proof.Machine
end

section
/-!
PROOFS. A call into a Keep and the return from it (07_system_isa R199-R201, 18_protection R339): entering changes the live workspace
alone once the frame is written, so the return finds the frame as the call wrote it.
-/

namespace Sys2Proof.Machine

open Sys2Proof

namespace Mem

/-- Removing bytes elsewhere leaves a byte as it was. -/
theorem read_filter {m : Mem} (h : wf m = true) {p : Host.Cell → Bool} {a : Nat} (hp : ∀ v, p (a, v) = true) :
    read (m.filter p) a = read m a := by
  induction m with
  | nil => rfl
  | cons c m ih =>
    obtain ⟨k, v⟩ := c
    obtain ⟨-, habove, hwf⟩ := wf_cons.1 h
    cases hk : p (k, v) with
    | true => rw [List.filter_cons_of_pos hk, read, read, ih hwf]
    | false =>
      have hne : a ≠ k := fun heq => by simp [← heq, hp] at hk
      rw [List.filter_cons_of_neg (by simp [hk]), read, if_neg hne, ih hwf]
      split
      · next hlt => exact read_above fun c hc => lt_trans hlt (habove c hc)
      · rfl

/-- A read outside the bytes cleared gives what it gave before. -/
theorem read_clear_other {m : Mem} (h : wf m = true) {a n loc : Nat} (hout : ¬ State.covers a n loc) : read (clear m a n) loc = read m loc :=
  read_filter h fun _ => by
    simp only [State.covers] at hout
    simp only [Bool.not_eq_true', Bool.and_eq_false_iff, decide_eq_false_iff_not]
    omega

end Mem

namespace State

variable {s t u : State}

/-! ## Changes of the live workspace -/

/-- A byte of the live workspace (02_scalar R41). -/
def liveByte (s : State) (loc : Nat) : Prop := covers (s.live 0) 0x600 loc

theorem liveByte_of_covers {off n loc : Nat} (hoff : off + n ≤ 0x600) (h : covers (s.live off) n loc) : s.liveByte loc := by
  simp only [liveByte, covers, live, wsLoc] at *
  omega

/-- A change of the live workspace that leaves storage outside it, and where it lies, as it was. -/
structure WorkspaceFrame (s t : State) : Prop where
  frame : s.unchangedBut t s.liveByte
  wf : Mem.wf t.mem = true

namespace WorkspaceFrame

theorem refl (hwf : Mem.wf s.mem = true) : WorkspaceFrame s s := ⟨unchangedBut_refl s, hwf⟩

theorem trans (h : WorkspaceFrame s t) (h' : WorkspaceFrame t u) : WorkspaceFrame s u where
  frame := h.frame.trans (h'.frame.mono fun loc hloc => by rwa [liveByte, h.frame.live] at hloc)
  wf := h'.wf

theorem foldl {α : Type} {f : State → α → State} (hf : ∀ t x, Mem.wf t.mem = true → WorkspaceFrame t (f t x)) (hwf : Mem.wf s.mem = true)
    (xs : List α) : WorkspaceFrame s (xs.foldl f s) :=
  List.foldlRecOn xs f (refl hwf) fun t ht x _ => ht.trans (hf t x ht.wf)

/-- The core stays in its workspace, at its level and depth, and keeps its frame area. -/
theorem core (h : WorkspaceFrame s t) : t.core.wp = s.core.wp ∧ t.core.priv = s.core.priv ∧ t.core.gdepth = s.core.gdepth ∧
    t.core.kres = s.core.kres := by
  obtain ⟨-, -, hcore, -⟩ := h.frame
  rw [hcore]
  exact ⟨rfl, rfl, rfl, rfl⟩

end WorkspaceFrame

theorem workspaceFrame_ite {c : Prop} [Decidable c] (h : WorkspaceFrame s t) (h' : WorkspaceFrame s u) :
    WorkspaceFrame s (if c then t else u) := by
  split
  · exact h
  · exact h'

section
variable (hwf : Mem.wf s.mem = true)
include hwf

theorem workspaceFrame_setWord {off : Nat} (hoff : off + 8 ≤ 0x600) (x : Word) : WorkspaceFrame s (s.setWord off x) :=
  ⟨unchangedBut_setWord hwf x fun _ => liveByte_of_covers hoff, wf_setWord hwf _ _⟩

theorem workspaceFrame_setReg (r : SReg) (x : Word) : WorkspaceFrame s (s.setReg r x) :=
  ⟨unchangedBut_setReg hwf x fun _ ⟨_, hloc⟩ => liveByte_of_covers (by omega) hloc, wf_setReg hwf _ _⟩

theorem workspaceFrame_setPred (p : PReg) (x : BitVec 32) : WorkspaceFrame s (s.setPred p x) :=
  ⟨unchangedBut_setPred hwf x fun _ ⟨_, hloc⟩ => liveByte_of_covers (by omega) hloc, wf_setPred hwf _ _⟩

theorem workspaceFrame_count (i n : Nat) : WorkspaceFrame s (s.count i n) := ⟨unchangedBut_count s i n, hwf⟩

theorem workspaceFrame_wipeRange (lo n : Nat) : WorkspaceFrame s (s.wipeRange lo n) where
  frame := by
    unfold wipeRange
    split
    · exact unchangedBut_refl s
    · exact unchangedBut_onCore rfl
  wf := canonical_wipeRange hwf

theorem workspaceFrame_clear {off n : Nat} (hoff : off + n ≤ 0x600) : WorkspaceFrame s { s with mem := Mem.clear s.mem (s.live off) n } where
  frame := ⟨fun _ hloc => Mem.read_clear_other hwf fun hin => hloc (liveByte_of_covers hoff hin), rfl, rfl, fun _ _ => rfl⟩
  wf := Mem.wf_clear hwf _ _

theorem workspaceFrame_setArgs (xs : List Word) : WorkspaceFrame s (s.setArgs xs) :=
  .foldl (fun _ _ hwf => workspaceFrame_setReg hwf _ _) hwf _

/-- The scrub of a GCALL clears registers of the live workspace (R199). -/
theorem workspaceFrame_scrubAll : WorkspaceFrame s s.scrubAll := by
  have hregs := workspaceFrame_clear hwf (off := 8) (n := 0x4F8) (by decide)
  have hpreds := workspaceFrame_clear hregs.wf (off := 0x504) (n := 0x1C) (by decide)
  have hwords := workspaceFrame_clear hpreds.wf (off := Ws.jctl) (n := 0x18) (by decide)
  have hcleared := (hregs.trans hpreds).trans hwords
  exact ((hcleared.trans (workspaceFrame_wipeRange hcleared.wf _ _)).trans
    (workspaceFrame_wipeRange (canonical_wipeRange hcleared.wf) _ _)).trans
      (workspaceFrame_wipeRange (canonical_wipeRange (canonical_wipeRange hcleared.wf)) _ _)

end

/-! ## The frame of a call (R200) -/

/-- The frame area of the current core follows its number and KRES. -/
theorem frameLoc_congr (hcur : t.cur = s.cur) (hkres : t.core.kres = s.core.kres) (n : Nat) : t.frameLoc n = s.frameLoc n := by
  rw [frameLoc, frameLoc, hcur, hkres]

/-- Frame n lies apart from the live workspace. -/
def frameApart (s : State) (n : Nat) : Prop :=
  (s.core.kres.extractLsb' 0 16).toNat + 64 * n + 64 ≤ s.core.wp.toNat ∨ s.core.wp.toNat + 0x600 ≤ (s.core.kres.extractLsb' 0 16).toNat + 64 * n

/-- A frame apart from the live workspace is as it was after a change of the live workspace. -/
theorem WorkspaceFrame.frame_word (h : WorkspaceFrame s t) {n k : Nat} (hapart : s.frameApart n) (hk : k < 8) :
    t.frame n k = s.frame n k := by
  obtain ⟨-, -, -, hkres⟩ := h.core
  obtain ⟨hbytes, -⟩ := h.frame
  rw [State.frame, frameLoc_congr h.frame.cur hkres, State.frame, Mem.load, Mem.load, Mem.bytes, Mem.bytes]
  refine congrArg _ (List.map_congr_left fun j hj => hbytes _ ?_)
  have hj' := List.mem_range.1 hj
  simp only [frameApart, liveByte, covers, live, wsLoc, frameLoc] at *
  omega

section
variable (ret w2 w1 : Word) (n g : Nat)

/-- The last word of a frame, which names the gate and the Keep, counts the registers and keeps the level (R200). -/
def lastFrameWord (s : State) (w2 w1 : Word) (g : Nat) : Word :=
  BitVec.ofNat 64 (g * 2 ^ 32 + (w1.extractLsb' 32 16).toNat * 2 ^ 16 + (w2.extractLsb' 56 4).toNat * 2 ^ 8 +
    (w2.extractLsb' 60 4).toNat * 2 ^ 4 + s.core.priv.toNat)

theorem level_of_lastFrameWord (s : State) : (s.lastFrameWord w2 w1 g).extractLsb' 0 2 = s.core.priv := by
  refine BitVec.eq_of_toNat_eq ?_
  have := s.core.priv.isLt
  rw [BitVec.extractLsb'_toNat, lastFrameWord, BitVec.toNat_ofNat, Nat.shiftRight_zero]
  omega

/-- Storage once a call has written its frame (R200). -/
def frameMem (s : State) (n : Nat) (ret w2 w1 : Word) (g : Nat) : Mem :=
  Mem.store (Mem.store (Mem.store (Mem.store (Mem.store s.mem (s.frameLoc n) 8 (s.core.wp.setWidth 64)) (s.frameLoc n + 8) 8 ret)
    (s.frameLoc n + 16) 8 (s.word Ws.ctx)) (s.frameLoc n + 24) 32 s.predWords) (s.frameLoc n + 56) 8 (s.lastFrameWord w2 w1 g)

/-- A frame holds the caller's workspace, the return address and the last word (R200). -/
theorem load_frameMem (hwf : Mem.wf s.mem = true) :
    Mem.load (s.frameMem n ret w2 w1 g) 64 (s.frameLoc n) 8 = s.core.wp.setWidth 64 ∧
      Mem.load (s.frameMem n ret w2 w1 g) 64 (s.frameLoc n + 8) 8 = ret ∧
      Mem.load (s.frameMem n ret w2 w1 g) 64 (s.frameLoc n + 56) 8 = s.lastFrameWord w2 w1 g := by
  have hwp := Mem.wf_store hwf (s.frameLoc n) 8 (s.core.wp.setWidth 64)
  have hret := Mem.wf_store hwp (s.frameLoc n + 8) 8 ret
  have hctx := Mem.wf_store hret (s.frameLoc n + 16) 8 (s.word Ws.ctx)
  have hpreds := Mem.wf_store hctx (s.frameLoc n + 24) 32 s.predWords
  refine ⟨?_, ?_, Mem.load_store hpreds (by decide) _ _⟩
  · rw [frameMem, Mem.load_store_other hpreds _ (by omega), Mem.load_store_other hctx _ (by omega),
      Mem.load_store_other hret _ (by omega), Mem.load_store_other hwp _ (by omega), Mem.load_store hwf (by decide)]
  · rw [frameMem, Mem.load_store_other hpreds _ (by omega), Mem.load_store_other hctx _ (by omega),
      Mem.load_store_other hret _ (by omega), Mem.load_store hwp (by decide)]

/-- Writing a frame changes storage, and marks of corruption of the current core. -/
theorem writeFrame_frame (s : State) : ∃ ks soft, s.writeFrame n ret w2 w1 g = { s with mem := s.frameMem n ret w2 w1 g, cores := ks } ∧
    (s.writeFrame n ret w2 w1 g).core = { s.core with soft := soft } := by
  have hwritten : s.writeFrame n ret w2 w1 g =
      ({ s with mem := s.frameMem n ret w2 w1 g } : State).wipeRange (s.core.kres.toNat % 2 ^ 16 + 64 * n) 64 := rfl
  rw [hwritten]
  generalize s.frameMem n ret w2 w1 g = m
  exact ⟨_, _, wipeRange_frame _ _ _, wipeRange_core _ _ _⟩

end

/-! ## Entering and leaving (R199-R201) -/

/-- The state in which a GCALL has written its frame and entered the Keep, before it scrubs the workspace. -/
def enteredKeep (s : State) (g : Nat) (w1 w2 : Word) : State :=
  let v := s.writeFrame s.core.gdepth.toNat (s.core.pc + 8) w2 w1 g
  v.enter (fixWp (w1.extractLsb' 0 14)) 1 (v.core.gdepth + 1)

/-- The record of a core that has entered a Keep (R199). -/
theorem enteredKeep_core (s : State) (g : Nat) (w1 w2 : Word) : ∃ soft, (s.enteredKeep g w1 w2).core =
    { s.core with
      soft := soft, wp := fixWp (w1.extractLsb' 0 14), priv := 1, gdepth := s.core.gdepth + 1
      holdUntil := (s.writeFrame s.core.gdepth.toNat (s.core.pc + 8) w2 w1 g).clock + 52 } := by
  obtain ⟨ks, soft, -, hcore⟩ := writeFrame_frame (s.core.pc + 8) w2 w1 s.core.gdepth.toNat g s
  rw [enteredKeep, enter, core_onCore, hcore]
  exact ⟨soft, rfl⟩

theorem enteredKeep_cur (s : State) (g : Nat) (w1 w2 : Word) : (s.enteredKeep g w1 w2).cur = s.cur := by
  obtain ⟨ks, soft, hframe, -⟩ := writeFrame_frame (s.core.pc + 8) w2 w1 s.core.gdepth.toNat g s
  rw [enteredKeep, enter, onCore_cur, hframe]

theorem enteredKeep_mem (s : State) (g : Nat) (w1 w2 : Word) :
    (s.enteredKeep g w1 w2).mem = s.frameMem s.core.gdepth.toNat (s.core.pc + 8) w2 w1 g := by
  obtain ⟨ks, soft, hframe, -⟩ := writeFrame_frame (s.core.pc + 8) w2 w1 s.core.gdepth.toNat g s
  rw [enteredKeep, enter, onCore_mem, hframe]

/-- A word of the frame of the call, once the core has entered. -/
theorem frame_enteredKeep (s : State) (g : Nat) (w1 w2 : Word) (k : Nat) : (s.enteredKeep g w1 w2).frame s.core.gdepth.toNat k =
    Mem.load (s.frameMem s.core.gdepth.toNat (s.core.pc + 8) w2 w1 g) 64 (s.frameLoc s.core.gdepth.toNat + 8 * k) 8 := by
  obtain ⟨soft, hcore⟩ := enteredKeep_core s g w1 w2
  rw [frame, enteredKeep_mem, frameLoc_congr (enteredKeep_cur s g w1 w2) (by rw [hcore])]

/-- After its frame a GCALL changes the workspace it has entered. -/
theorem workspaceFrame_gateEnter (hwf : Mem.wf s.mem = true) (g : Nat) (w1 w2 : Word) :
    WorkspaceFrame (s.enteredKeep g w1 w2) (s.gateEnter g w1 w2) := by
  have hentered : Mem.wf (s.enteredKeep g w1 w2).mem = true := canonical_enter (canonical_writeFrame hwf)
  have hscrubbed := workspaceFrame_scrubAll hentered
  have hargs := hscrubbed.trans (workspaceFrame_setArgs hscrubbed.wf (s.argRegs (w2.extractLsb' 60 4).toNat))
  have hctx := hargs.trans (workspaceFrame_setWord hargs.wf (off := Ws.ctx) (by decide) ((w1.extractLsb' 48 16).setWidth 64))
  have hwiped := hctx.trans (workspaceFrame_wipeRange hctx.wf (((s.enteredKeep g w1 w2).scrubAll.setArgs
    (s.argRegs (w2.extractLsb' 60 4).toNat)).core.wp.toNat + Ws.ctx) 8)
  exact hwiped.trans (workspaceFrame_count hwiped.wf 74 1)

/-- The core after a GCALL: in the gate's workspace at KEEP level, one call deeper (R199). -/
theorem gateEnter_core (hwf : Mem.wf s.mem = true) (g : Nat) (w1 w2 : Word) :
    (s.gateEnter g w1 w2).core.wp = fixWp (w1.extractLsb' 0 14) ∧ (s.gateEnter g w1 w2).core.priv = 1 ∧
      (s.gateEnter g w1 w2).core.gdepth = s.core.gdepth + 1 := by
  obtain ⟨soft, hcore⟩ := enteredKeep_core s g w1 w2
  obtain ⟨hwp, hpriv, hdepth, -⟩ := (workspaceFrame_gateEnter hwf g w1 w2).core
  rw [hcore] at hwp hpriv hdepth
  exact ⟨hwp, hpriv, hdepth⟩

theorem gateEnter_cur (hwf : Mem.wf s.mem = true) (g : Nat) (w1 w2 : Word) : (s.gateEnter g w1 w2).cur = s.cur :=
  (workspaceFrame_gateEnter hwf g w1 w2).frame.cur.trans (enteredKeep_cur s g w1 w2)

/-- A frame area apart from the workspace entered holds the frame of the call. -/
theorem frame_gateEnter (hwf : Mem.wf s.mem = true) {g : Nat} {w1 w2 : Word} (hdepth : s.core.gdepth.toNat < 4)
    (hapart : (s.core.kres.extractLsb' 0 16).toNat + 256 ≤ (fixWp (w1.extractLsb' 0 14)).toNat ∨
      (fixWp (w1.extractLsb' 0 14)).toNat + 1536 ≤ (s.core.kres.extractLsb' 0 16).toNat) :
    let u := s.gateEnter g w1 w2
    u.frame s.core.gdepth.toNat 0 = s.core.wp.setWidth 64 ∧ u.frame s.core.gdepth.toNat 1 = s.core.pc + 8 ∧
      u.frame s.core.gdepth.toNat 7 = s.lastFrameWord w2 w1 g := by
  intro u
  have hframe : (s.enteredKeep g w1 w2).frameApart s.core.gdepth.toNat := by
    obtain ⟨soft, hcore⟩ := enteredKeep_core s g w1 w2
    rw [frameApart, hcore]
    dsimp only
    omega
  have hinside := workspaceFrame_gateEnter hwf g w1 w2
  rw [hinside.frame_word hframe (by decide), hinside.frame_word hframe (by decide), hinside.frame_word hframe (by decide),
    frame_enteredKeep, frame_enteredKeep, frame_enteredKeep]
  exact load_frameMem _ _ _ _ _ hwf

/-- The state in which a GRET is back in the caller's workspace, before it writes its results. -/
def leftKeep (s : State) (counts : Nat × Nat) (scrub : Nat) : State :=
  (s.scrubArgs scrub (max counts.1 counts.2)).enter (s.frameWp (s.core.gdepth.toNat - 1))
    (s.fixPriv ((s.frame (s.core.gdepth.toNat - 1) 7).extractLsb' 0 2)) (s.core.gdepth - 1)

/-- What a GRET writes to the caller's workspace: its results, the predicates and the context of the frame, and whether it aborts (R201). -/
def handBack (s : State) (wp : Nat) (cp : BitVec 256) (cctx : Word) (abort : Bool) (xs : List Word) : State :=
  let s := ((s.setArgs xs).wipeRange (wp + 8) (8 * xs.length)).wipeRange (wp + Ws.ctx) 8
  let s := (List.range 6).foldl (fun (s : State) i => s.setPred (BitVec.ofNat 3 (i + 1)) (cp.extractLsb' (32 * i) 32)) s
  let s := (s.setPred 7 (if abort then 0xFFFFFFFF else 0)).setWord Ws.ctx (cctx &&& 0xFFFF)
  if abort then s.count 75 1 else s

theorem gateLeave_eq (s : State) (counts : Nat × Nat) (abort : Bool) (xs : List Word) (scrub : Nat) :
    s.gateLeave counts abort xs scrub = (s.frame (s.core.gdepth.toNat - 1) 1,
      (s.leftKeep counts scrub).handBack (s.frameWp (s.core.gdepth.toNat - 1)).toNat
        (Mem.load s.mem 256 (s.frameLoc (s.core.gdepth.toNat - 1) + 24) 32) (s.frame (s.core.gdepth.toNat - 1) 2) abort xs) := rfl

theorem workspaceFrame_handBack (hwf : Mem.wf s.mem = true) (wp : Nat) (cp : BitVec 256) (cctx : Word) (abort : Bool) (xs : List Word) :
    WorkspaceFrame s (s.handBack wp cp cctx abort xs) := by
  have hargs := workspaceFrame_setArgs hwf xs
  have hwiped := hargs.trans (workspaceFrame_wipeRange hargs.wf (wp + 8) (8 * xs.length))
  have hctx := hwiped.trans (workspaceFrame_wipeRange hwiped.wf (wp + Ws.ctx) 8)
  have hpreds := hctx.trans (.foldl (f := fun (s : State) i => s.setPred (BitVec.ofNat 3 (i + 1)) (cp.extractLsb' (32 * i) 32))
    (fun _ _ h => workspaceFrame_setPred h _ _) hctx.wf (List.range 6))
  have hflag := hpreds.trans (workspaceFrame_setPred hpreds.wf 7 (if abort then 0xFFFFFFFF else 0))
  have hback := hflag.trans (workspaceFrame_setWord hflag.wf (off := Ws.ctx) (by decide) (cctx &&& 0xFFFF))
  exact workspaceFrame_ite (hback.trans (workspaceFrame_count hback.wf 75 1)) hback

/-- The record of a core that is back with its caller (R201). -/
theorem leftKeep_core (s : State) (counts : Nat × Nat) (scrub : Nat) : ∃ soft, (s.leftKeep counts scrub).core =
    { s.core with
      soft := soft, wp := s.frameWp (s.core.gdepth.toNat - 1)
      priv := s.fixPriv ((s.frame (s.core.gdepth.toNat - 1) 7).extractLsb' 0 2), gdepth := s.core.gdepth - 1
      holdUntil := (s.scrubArgs scrub (max counts.1 counts.2)).clock + 52 } := by
  have hscrubbed : ∃ soft, (s.scrubArgs scrub (max counts.1 counts.2)).core = { s.core with soft := soft } := by
    unfold scrubArgs
    generalize Mem.clear s.mem _ _ = m
    exact ⟨_, wipeRange_core _ _ _⟩
  obtain ⟨soft, hcore⟩ := hscrubbed
  rw [leftKeep, enter, core_onCore, hcore]
  exact ⟨soft, rfl⟩

/-- The core after a GRET: in the workspace and at the level of its top frame, one call less deep (R201). -/
theorem gateLeave_core (hwf : Mem.wf s.mem = true) (counts : Nat × Nat) (abort : Bool) (xs : List Word) (scrub : Nat) :
    let u := (s.gateLeave counts abort xs scrub).2
    u.core.wp = s.frameWp (s.core.gdepth.toNat - 1) ∧
      u.core.priv = s.fixPriv ((s.frame (s.core.gdepth.toNat - 1) 7).extractLsb' 0 2) ∧ u.core.gdepth = s.core.gdepth - 1 := by
  rw [gateLeave_eq]
  obtain ⟨soft, hcore⟩ := leftKeep_core s counts scrub
  obtain ⟨hwp, hpriv, hdepth, -⟩ := (workspaceFrame_handBack (s := s.leftKeep counts scrub) (canonical_enter (canonical_scrubArgs hwf))
    (s.frameWp (s.core.gdepth.toNat - 1)).toNat (Mem.load s.mem 256 (s.frameLoc (s.core.gdepth.toNat - 1) + 24) 32)
    (s.frame (s.core.gdepth.toNat - 1) 2) abort xs).core
  rw [hcore] at hwp hpriv hdepth
  exact ⟨hwp, hpriv, hdepth⟩

/-! ## The checks of a call (R199, R339) -/

/-- A GCALL that passes its checks has a frame left, and a valid gate. -/
theorem depth_and_gate_of_gateCheck {g : Nat} (h : s.gateCheck g = none) : s.core.gdepth.toNat < 4 ∧ s.gateValid g = true := by
  unfold gateCheck at h
  split at h
  · cases h
  · next hdepth =>
    split at h
    · cases h
    · split at h
      · cases h
      · next hvalid => exact ⟨Nat.not_le.1 hdepth, eq_true_of_ne_false hvalid⟩

/-- The workspace that a valid gate names is one a core may hold (R339). -/
theorem fixWp_of_gateValid {g : Nat} (h : s.gateValid g = true) :
    fixWp ((s.gateWord g 1).extractLsb' 0 14) = (s.gateWord g 1).extractLsb' 0 14 := by
  unfold gateValid at h
  dsimp only at h
  split at h
  · cases h
  · simp only [Bool.and_eq_true, decide_eq_true_eq, inGateArea] at h
    refine if_pos ?_
    omega

theorem fixPriv_congr (hcur : t.cur = s.cur) (x : BitVec 2) : t.fixPriv x = s.fixPriv x := by
  rw [fixPriv, fixPriv, isBelfry, isBelfry, hcur]

end State

open State

/-- Settles O60: the frame lies apart from the workspace entered, so the return reads what the call wrote. -/
theorem gateReturnGoesBack : Obligations.GateReturnGoesBack := by
  intro s gate abort xs scrub hcheck hwf hwp hpriv kres entered hapart u counts
  obtain ⟨hdepth, hvalid⟩ := depth_and_gate_of_gateCheck hcheck
  have hentered := fixWp_of_gateValid hvalid
  obtain ⟨huwp, hupriv, hudepth⟩ := gateEnter_core hwf gate.toNat (s.gateWord gate.toNat 1) (s.gateWord gate.toNat 2)
  have hcanonical : Mem.wf u.mem = true := canonical_gateEnter hwf
  have htop : u.core.gdepth.toNat - 1 = s.core.gdepth.toNat := by
    rw [hudepth]
    bv_omega
  obtain ⟨hsaved, hreturn, hlast⟩ := frame_gateEnter (g := gate.toNat) (w1 := s.gateWord gate.toNat 1) (w2 := s.gateWord gate.toNat 2)
    hwf hdepth (by rwa [hentered])
  obtain ⟨hbwp, hbpriv, hbdepth⟩ := gateLeave_core hcanonical counts abort xs scrub
  rw [htop] at hbwp hbpriv
  refine ⟨hudepth, hupriv, by rw [huwp, hentered], ?address, hbwp.trans ?workspace, hbpriv.trans ?level, hbdepth.trans ?depth⟩
  case address => rw [gateLeave_eq, htop, hreturn]
  case workspace => rw [frameWp, hsaved, BitVec.setWidth_setWidth_of_le _ (by decide), BitVec.setWidth_eq, hwp]
  case level => rw [hlast, level_of_lastFrameWord, fixPriv_congr (gateEnter_cur hwf _ _ _), hpriv]
  case depth =>
    rw [hudepth]
    exact BitVec.add_sub_cancel _ _

end Sys2Proof.Machine
end
